-- ==== Sys2Proof/Word.lean ====
section
/-! DEFINITION. The word types of the machine (spec/00_scope.md R3, spec/02_state.md R37): plain bit vectors. -/

namespace Sys2Proof

/-- A byte of any memory. -/
abbrev Byte := BitVec 8
/-- A halfword of a code store (R128). -/
abbrev Half := BitVec 16
/-- A scalar register, pointer or message word (R37, R62). -/
abbrev Word := BitVec 64
/-- The 512 bytes of a vector, byte 0 lowest (R37, R65). -/
abbrev Vec := BitVec 4096
/-- The 16-byte sidecar of a vector, byte j for granule j (R45). -/
abbrev Side := BitVec 128
/-- A mask register, bit i for lane i (R37, R47). -/
abbrev MaskWord := BitVec 1024
/-- The 1,024 bytes of a tile register, byte 0 lowest (R207). -/
abbrev TileWord := BitVec 8192

end Sys2Proof
end

