-- ==== Sys2Proof/Syntax.lean ====
section
/-! DEFINITION. The instructions: one constructor for each row of spec/opcode_table.json, the 294 encoded operations
with the operand fields of spec/05_encoding.md R130 to R137, and the 133 rows that have no encoding, which are steps of the
module (spec/95_what_each_step_holds.md) with the data that selects the packet, message, site or input they concern. -/

namespace Sys2Proof

/-- The stall count STL of a 32-bit instruction (R130). -/
abbrev Stl := BitVec 3
/-- A mask register number, m0 to m3 (R131, R137). -/
abbrev MaskNo := BitVec 2

/-- A scalar source specifier (R134): every 6-bit code names one. -/
inductive Src where
  | q (k : Fin 16)
  | z
  | msg
  | st (k : Fin 4)
  | wid
  | vtn
  | const (k : Fin 8)
  | n (k : Fin 32)
  deriving DecidableEq, Repr

/-- The 5-bit operand of a 16-bit form (R132): 0aaaa names q0 to q15, 1nnnn names n0 to n15. -/
inductive Src5 where
  | q (k : Fin 16)
  | n (k : Fin 16)
  deriving DecidableEq, Repr

/-- A scalar destination specifier (R135). `ill` keeps a code that names no destination. -/
inductive Dst where
  | push
  | discard
  | n (k : Fin 32)
  | ill (code : BitVec 6)
  deriving DecidableEq, Repr

/-- A vector source specifier (R136). `ill` keeps a code that names no source. -/
inductive VSrc where
  | vq (k : Fin 4)
  | v (k : Fin 16)
  | vz
  | vst (k : Fin 4)
  | vmsg
  | bcast (k : Fin 16)
  | ill (code : BitVec 6)
  deriving DecidableEq, Repr

/-- A vector destination specifier (R136). `ill` keeps a code that names no destination. -/
inductive VDst where
  | push
  | v (k : Fin 16)
  | ill (code : BitVec 6)
  deriving DecidableEq, Repr

/-- What executes instructions: a slot of the tile at a site, the Collier, or the Stoker of a region (R20, R307). -/
inductive Agent where
  | tile (site : Nat) (slot : Fin 8)
  | collier
  | stoker (region : Nat)
  deriving DecidableEq, Repr

/-- What a Speig READ or WRITE names (R402): a stopped vtile's scratchpad, or HBM in the partition under an ASID. -/
inductive SpeigTarget where
  | spad (idx vtile : Nat)
  | hbm (asid : Nat)
  deriving DecidableEq, Repr

/-- The instructions and steps of the module, in the order of spec/opcode_table.json. -/
inductive Instr where
  | add (stl : Stl) (d : Dst) (a b : Src)
  | sub (stl : Stl) (d : Dst) (a b : Src)
  | and (stl : Stl) (d : Dst) (a b : Src)
  | or (stl : Stl) (d : Dst) (a b : Src)
  | xor (stl : Stl) (d : Dst) (a b : Src)
  | andn (stl : Stl) (d : Dst) (a b : Src)
  | orn (stl : Stl) (d : Dst) (a b : Src)
  | shl (stl : Stl) (d : Dst) (a b : Src)
  | shr (stl : Stl) (d : Dst) (a b : Src)
  | shra (stl : Stl) (d : Dst) (a b : Src)
  | rot (stl : Stl) (d : Dst) (a b : Src)
  | min (stl : Stl) (d : Dst) (a b : Src)
  | max (stl : Stl) (d : Dst) (a b : Src)
  | minu (stl : Stl) (d : Dst) (a b : Src)
  | maxu (stl : Stl) (d : Dst) (a b : Src)
  | mul (stl : Stl) (d : Dst) (a b : Src)
  | mulh (stl : Stl) (d : Dst) (a b : Src)
  | mulhu (stl : Stl) (d : Dst) (a b : Src)
  | div (stl : Stl) (d : Dst) (a b : Src)
  | divu (stl : Stl) (d : Dst) (a b : Src)
  | rem (stl : Stl) (d : Dst) (a b : Src)
  | remu (stl : Stl) (d : Dst) (a b : Src)
  | cmpeq (stl : Stl) (d : Dst) (a b : Src)
  | cmpne (stl : Stl) (d : Dst) (a b : Src)
  | cmplt (stl : Stl) (d : Dst) (a b : Src)
  | cmpltu (stl : Stl) (d : Dst) (a b : Src)
  | cmple (stl : Stl) (d : Dst) (a b : Src)
  | cmpleu (stl : Stl) (d : Dst) (a b : Src)
  | cmov (stl : Stl) (d : Dst) (a b : Src)
  | clz (stl : Stl) (d : Dst) (a : Src)
  | ctz (stl : Stl) (d : Dst) (a : Src)
  | popc (stl : Stl) (d : Dst) (a : Src)
  | addw (stl : Stl) (d : Dst) (a b : Src)
  | subw (stl : Stl) (d : Dst) (a b : Src)
  | mulw (stl : Stl) (d : Dst) (a b : Src)
  | brev (stl : Stl) (d : Dst) (a : Src)
  | bswap (stl : Stl) (d : Dst) (a : Src)
  | exts (stl : Stl) (d : Dst) (a b : Src)
  | extz (stl : Stl) (d : Dst) (a b : Src)
  | ins (stl : Stl) (d : Dst) (a b : Src)
  | addi (stl : Stl) (d : Dst) (a : Src) (i : BitVec 10)
  | andi (stl : Stl) (d : Dst) (a : Src) (i : BitVec 10)
  | ori (stl : Stl) (d : Dst) (a : Src) (i : BitVec 10)
  | xori (stl : Stl) (d : Dst) (a : Src) (i : BitVec 10)
  | shli (stl : Stl) (d : Dst) (a : Src) (i : BitVec 10)
  | shri (stl : Stl) (d : Dst) (a : Src) (i : BitVec 10)
  | shrai (stl : Stl) (d : Dst) (a : Src) (i : BitVec 10)
  | cmpeqi (stl : Stl) (d : Dst) (a : Src) (i : BitVec 10)
  | cmplti (stl : Stl) (d : Dst) (a : Src) (i : BitVec 10)
  | limm (stl : Stl) (d : Dst) (k : BitVec 16)
  | limh (stl : Stl) (d : Dst) (k : BitVec 16)
  | addp (stl : Stl) (d : Dst) (a b : Src)
  | subp (stl : Stl) (d : Dst) (a b : Src)
  | ptag (stl : Stl) (d : Dst) (a b : Src)
  | ptagx (stl : Stl) (d : Dst) (a : Src)
  | pmkt (stl : Stl) (d : Dst) (a b : Src)
  | pspace (stl : Stl) (d : Dst) (a b : Src)
  | fadd (stl : Stl) (d : Dst) (a b : Src)
  | fsub (stl : Stl) (d : Dst) (a b : Src)
  | fmul (stl : Stl) (d : Dst) (a b : Src)
  | fdiv (stl : Stl) (d : Dst) (a b : Src)
  | fsqrt (stl : Stl) (d : Dst) (a : Src)
  | fmin (stl : Stl) (d : Dst) (a b : Src)
  | fmax (stl : Stl) (d : Dst) (a b : Src)
  | fcmpeq (stl : Stl) (d : Dst) (a b : Src)
  | fcmplt (stl : Stl) (d : Dst) (a b : Src)
  | fcmple (stl : Stl) (d : Dst) (a b : Src)
  | fcvtif (stl : Stl) (d : Dst) (a : Src)
  | fcvtfi (stl : Stl) (d : Dst) (a : Src)
  | fclass (stl : Stl) (d : Dst) (a : Src)
  | fabs (stl : Stl) (d : Dst) (a : Src)
  | fneg (stl : Stl) (d : Dst) (a : Src)
  | fsgnj (stl : Stl) (d : Dst) (a b : Src)
  | fma (stl : Stl) (d : Dst) (a b : Src) (c : BitVec 2)
  | fms (stl : Stl) (d : Dst) (a b : Src) (c : BitVec 2)
  | fnma (stl : Stl) (d : Dst) (a b : Src) (c : BitVec 2)
  | fnms (stl : Stl) (d : Dst) (a b : Src) (c : BitVec 2)
  | bz (stl : Stl) (c : Src) (o : BitVec 16)
  | bnz (stl : Stl) (c : Src) (o : BitVec 16)
  | bltz (stl : Stl) (c : Src) (o : BitVec 16)
  | bgez (stl : Stl) (c : Src) (o : BitVec 16)
  | br (stl : Stl) (o : BitVec 16)
  | call (stl : Stl) (o : BitVec 16)
  | loop (stl : Stl) (c : Src) (o : BitVec 16)
  | jr (stl : Stl) (a : Src)
  | ret (stl : Stl)
  | yield (stl : Stl)
  | done (stl : Stl)
  | donef (stl : Stl)
  | nop (stl : Stl)
  | waitf (stl : Stl) (a : Src)
  | femark (stl : Stl) (a : Src)
  | fefill (stl : Stl) (a : Src)
  | fetest (stl : Stl) (d : Dst) (a : Src)
  | bararr (stl : Stl) (d : Dst) (a : Src)
  | barwait (stl : Stl) (d : Dst) (a b : Src)
  | crd (stl : Stl) (d : Dst) (i : BitVec 10)
  | cwr (stl : Stl) (a : Src) (i : BitVec 10)
  | fenceRel (stl : Stl) (g : BitVec 3)
  | fenceAcq (stl : Stl) (g : BitVec 3)
  | fenceFull (stl : Stl) (g : BitVec 3)
  | fenceLb (stl : Stl)
  | ld (stl : Stl) (d : Dst) (p : Src) (z : BitVec 2) (f : BitVec 8)
  | lds (stl : Stl) (d : Dst) (p : Src) (z : BitVec 2) (f : BitVec 8)
  | st (stl : Stl) (d p : Src) (z : BitVec 2) (f : BitVec 8)
  | ldx (stl : Stl) (d : Dst) (a b : Src)
  | stx (stl : Stl) (d a b : Src)
  | ldt (stl : Stl) (d : Dst) (a b : Src)
  | stf (stl : Stl) (d a b : Src)
  | aadd (stl : Stl) (d : Dst) (a b : Src)
  | amax (stl : Stl) (d : Dst) (a b : Src)
  | amin (stl : Stl) (d : Dst) (a b : Src)
  | amaxu (stl : Stl) (d : Dst) (a b : Src)
  | aminu (stl : Stl) (d : Dst) (a b : Src)
  | aand (stl : Stl) (d : Dst) (a b : Src)
  | aor (stl : Stl) (d : Dst) (a b : Src)
  | axor (stl : Stl) (d : Dst) (a b : Src)
  | aswap (stl : Stl) (d : Dst) (a b : Src)
  | acas (stl : Stl) (d : Dst) (a b : Src)
  | afxadd (stl : Stl) (d : Dst) (a b : Src)
  | afxrd (stl : Stl) (d : Dst) (a : Src)
  | afxset (stl : Stl) (d : Dst) (a b : Src)
  | aamax (stl : Stl) (d : Dst) (a b : Src)
  | vaadd (stl : Stl) (d : VSrc) (a b : Src)
  | vamaxabs (stl : Stl) (d : VSrc) (a b : Src)
  | vafx (stl : Stl) (d : VSrc) (a : Src) (b : VSrc)
  | vamaxDrain (stl : Stl) (d : VSrc) (a : Src)
  | vadd (stl : Stl) (d : VDst) (a b : VSrc) (m : MaskNo)
  | vsub (stl : Stl) (d : VDst) (a b : VSrc) (m : MaskNo)
  | vmul (stl : Stl) (d : VDst) (a b : VSrc) (m : MaskNo)
  | vmulh (stl : Stl) (d : VDst) (a b : VSrc) (m : MaskNo)
  | vand (stl : Stl) (d : VDst) (a b : VSrc) (m : MaskNo)
  | vor (stl : Stl) (d : VDst) (a b : VSrc) (m : MaskNo)
  | vxor (stl : Stl) (d : VDst) (a b : VSrc) (m : MaskNo)
  | vandn (stl : Stl) (d : VDst) (a b : VSrc) (m : MaskNo)
  | vshl (stl : Stl) (d : VDst) (a b : VSrc) (m : MaskNo)
  | vshr (stl : Stl) (d : VDst) (a b : VSrc) (m : MaskNo)
  | vshra (stl : Stl) (d : VDst) (a b : VSrc) (m : MaskNo)
  | vabsd (stl : Stl) (d : VDst) (a b : VSrc) (m : MaskNo)
  | vmin (stl : Stl) (d : VDst) (a b : VSrc) (m : MaskNo)
  | vmax (stl : Stl) (d : VDst) (a b : VSrc) (m : MaskNo)
  | vminu (stl : Stl) (d : VDst) (a b : VSrc) (m : MaskNo)
  | vmaxu (stl : Stl) (d : VDst) (a b : VSrc) (m : MaskNo)
  | vfadd (stl : Stl) (d : VDst) (a b : VSrc) (m : MaskNo)
  | vfsub (stl : Stl) (d : VDst) (a b : VSrc) (m : MaskNo)
  | vfmul (stl : Stl) (d : VDst) (a b : VSrc) (m : MaskNo)
  | vfdiv (stl : Stl) (d : VDst) (a b : VSrc) (m : MaskNo)
  | vfmin (stl : Stl) (d : VDst) (a b : VSrc) (m : MaskNo)
  | vfmax (stl : Stl) (d : VDst) (a b : VSrc) (m : MaskNo)
  | vfabs (stl : Stl) (d : VDst) (a : VSrc) (m : MaskNo)
  | vfneg (stl : Stl) (d : VDst) (a : VSrc) (m : MaskNo)
  | vfma (stl : Stl) (d : VDst) (a b : VSrc) (c : BitVec 2)
  | vfms (stl : Stl) (d : VDst) (a b : VSrc) (c : BitVec 2)
  | vfnma (stl : Stl) (d : VDst) (a b : VSrc) (c : BitVec 2)
  | vfnms (stl : Stl) (d : VDst) (a b : VSrc) (c : BitVec 2)
  | vcmpeq (stl : Stl) (d : MaskNo) (a b : VSrc) (m : MaskNo)
  | vcmplt (stl : Stl) (d : MaskNo) (a b : VSrc) (m : MaskNo)
  | vcmpltu (stl : Stl) (d : MaskNo) (a b : VSrc) (m : MaskNo)
  | vcmple (stl : Stl) (d : MaskNo) (a b : VSrc) (m : MaskNo)
  | vfcmpeq (stl : Stl) (d : MaskNo) (a b : VSrc) (m : MaskNo)
  | vfcmplt (stl : Stl) (d : MaskNo) (a b : VSrc) (m : MaskNo)
  | vfcmple (stl : Stl) (d : MaskNo) (a b : VSrc) (m : MaskNo)
  | vfcmpun (stl : Stl) (d : MaskNo) (a b : VSrc) (m : MaskNo)
  | vsel (stl : Stl) (d : VDst) (a b : VSrc) (m : MaskNo)
  | vbcast (stl : Stl) (d : VDst) (a : VSrc) (b : Src) (m : MaskNo)
  | vextr (stl : Stl) (d : Dst) (a : VSrc) (b : Src) (m : MaskNo)
  | vins (stl : Stl) (d : VDst) (a : VSrc) (b : Src) (m : MaskNo)
  | vperm (stl : Stl) (d : VDst) (a b : VSrc) (m : MaskNo)
  | vrot (stl : Stl) (d : VDst) (a : VSrc) (b : Src) (m : MaskNo)
  | vcomp (stl : Stl) (d : VDst) (a : VSrc) (m : MaskNo)
  | vexpn (stl : Stl) (d : VDst) (a : VSrc) (m : MaskNo)
  | vredadd (stl : Stl) (d : Dst) (a : VSrc) (m : MaskNo)
  | vredmax (stl : Stl) (d : Dst) (a : VSrc) (m : MaskNo)
  | vredmin (stl : Stl) (d : Dst) (a : VSrc) (m : MaskNo)
  | vfredadd (stl : Stl) (d : Dst) (a : VSrc) (m : MaskNo)
  | vcvt (stl : Stl) (d : VDst) (a : VSrc) (m : MaskNo)
  | vwiden (stl : Stl) (d : VDst) (a : VSrc) (m : MaskNo)
  | vnarrow (stl : Stl) (d : VDst) (a : VSrc) (m : MaskNo)
  | vround (stl : Stl) (d : VDst) (a : VSrc) (m : MaskNo)
  | vfexp (stl : Stl) (d : VDst) (a : VSrc) (m : MaskNo)
  | vflog (stl : Stl) (d : VDst) (a : VSrc) (m : MaskNo)
  | vfrecip (stl : Stl) (d : VDst) (a : VSrc) (m : MaskNo)
  | vfrsqrt (stl : Stl) (d : VDst) (a : VSrc) (m : MaskNo)
  | vftanh (stl : Stl) (d : VDst) (a : VSrc) (m : MaskNo)
  | vfsigm (stl : Stl) (d : VDst) (a : VSrc) (m : MaskNo)
  | vfsin (stl : Stl) (d : VDst) (a : VSrc) (m : MaskNo)
  | vfcos (stl : Stl) (d : VDst) (a : VSrc) (m : MaskNo)
  | vamax (stl : Stl) (d : Dst) (a : VSrc) (m : MaskNo)
  | vquant (stl : Stl) (d : VDst) (a : VSrc) (m : MaskNo)
  | vscale (stl : Stl) (d : VDst) (a : VSrc) (b : Src) (m : MaskNo)
  | vdot (stl : Stl) (d : VDst) (a b : VSrc) (m : MaskNo)
  | mand (stl : Stl) (d a b m : MaskNo)
  | mor (stl : Stl) (d a b m : MaskNo)
  | mxor (stl : Stl) (d a b m : MaskNo)
  | mnot (stl : Stl) (d a m : MaskNo)
  | mpop (stl : Stl) (d : Dst) (a m : MaskNo)
  | mfirst (stl : Stl) (d : Dst) (a m : MaskNo)
  | msetn (stl : Stl) (d : MaskNo) (a : Src) (m : MaskNo)
  | viota (stl : Stl) (d : VDst) (a m : MaskNo)
  | vgetsc (stl : Stl) (d : VDst) (a : VSrc)
  | vsetsc (stl : Stl) (d : VDst) (a b : VSrc)
  | vmov (stl : Stl) (d : VDst) (a : VSrc)
  | vlanes (stl : Stl) (d : Dst)
  | vld (stl : Stl) (d : VDst) (a b : Src)
  | vst (stl : Stl) (d : VSrc) (a b : Src)
  | vldc (stl : Stl) (d : VDst) (a b : Src)
  | vstc (stl : Stl) (d : VSrc) (a b : Src)
  | vlds (stl : Stl) (d : VDst) (a b : Src)
  | vsts (stl : Stl) (d : VSrc) (a b : Src)
  | vgath (stl : Stl) (d : VDst) (a : Src) (b : VSrc)
  | vscat (stl : Stl) (d : VSrc) (a : Src) (b : VSrc)
  | tld (stl : Stl) (x : BitVec 3) (u : Src)
  | tst (stl : Stl) (y : BitVec 3) (u : Src)
  | tzero (stl : Stl) (x : BitVec 3)
  | mma (stl : Stl) (x y w : BitVec 3) (u : Src) (g : BitVec 3)
  | mmas (stl : Stl) (x y w : BitVec 3) (u : Src) (g : BitVec 3)
  | tadd (stl : Stl) (x y w : BitVec 3)
  | tcvt (stl : Stl) (x y : BitVec 3) (u : Src)
  | ttrans (stl : Stl) (x y : BitVec 3)
  | trowv (stl : Stl) (y : BitVec 3) (u : Src)
  | tvrow (stl : Stl) (x : BitVec 3) (y : BitVec 2) (u : Src)
  | send (stl : Stl) (a b : Src)
  | sends (stl : Stl) (d a b : Src)
  | sendv (stl : Stl) (a : Src) (b : VSrc)
  | senda (stl : Stl) (d a b : Src)
  | mlen (stl : Stl) (d : Dst)
  | msrc (stl : Stl) (d : Dst)
  | launch (stl : Stl) (d : Dst) (a : Src)
  | cntset (stl : Stl) (a b : Src)
  | rcap (stl : Stl) (d : Dst) (a : BitVec 6) (b : BitVec 1)
  | rput (stl : Stl) (a b : Src)
  | rputv (stl : Stl) (a : Src) (b : VSrc)
  | rputr (stl : Stl) (a b : Src)
  | rtake (stl : Stl) (d a : BitVec 6)
  | rempty (stl : Stl) (a : BitVec 6)
  | rfull (stl : Stl) (d : Dst) (a : BitVec 6)
  | rwait (stl : Stl) (d a : BitVec 6)
  | xcopy (stl : Stl) (d : Dst) (a b : Src)
  | xcopym (stl : Stl) (d : Dst) (a b : Src)
  | xstrm (stl : Stl) (d : BitVec 3) (a b : Src)
  | xstrmOff (stl : Stl) (d : BitVec 3)
  | xwait (stl : Stl) (d : Dst) (a : Src)
  | xpoll (stl : Stl) (d : Dst) (a : Src)
  | xtdef (stl : Stl) (a b : Src)
  | xdig (stl : Stl) (d : Dst) (a b : Src)
  | gres (stl : Stl)
  | gend (stl : Stl)
  | gqry (stl : Stl) (d : Dst)
  | gwin (stl : Stl) (a b : Src)
  | trap (stl : Stl) (b : BitVec 6)
  | brk (stl : Stl) (b : BitVec 6)
  | rdtb (stl : Stl) (d : Dst)
  | trmark (stl : Stl) (a : Src) (b : BitVec 6)
  | eret (stl : Stl) (b : BitVec 6)
  | saveq (stl : Stl) (b : BitVec 1)
  | restq (stl : Stl) (b : BitVec 1)
  | drain (stl : Stl) (d : Dst) (a b : Src)
  | colr (stl : Stl) (d : Dst) (a b : Src)
  | ncinv (stl : Stl) (d : Dst) (a b : Src)
  | wdset (stl : Stl) (a b : Src)
  | haltt (stl : Stl) (d : Dst) (b : BitVec 6)
  | idle (stl : Stl)
  | svsend (stl : Stl) (a b : Src)
  | svrecv (stl : Stl) (d : Dst) (a : Src)
  | intack (stl : Stl) (d : Dst)
  | prcr (stl : Stl) (d : Dst) (a : Src)
  | pcwr (stl : Stl) (a b : Src)
  | swpout (stl : Stl) (d : Dst) (a b : Src)
  | swpin (stl : Stl) (d : Dst) (a b : Src)
  | fwdset (stl : Stl) (a b : Src)
  | resett (stl : Stl) (d : Dst) (a : Src)
  | thrset (stl : Stl) (a b : Src)
  | slotkill (stl : Stl) (a : Src)
  | nop16
  | done16
  | donef16
  | yield16
  | ret16
  | brk16
  | cAdd (a b : Src5)
  | cSub (a b : Src5)
  | cAnd (a b : Src5)
  | cOr (a b : Src5)
  | cXor (a b : Src5)
  | cMov (a : Src5)
  | cAddi (a : Src5) (i : BitVec 6)
  | cLimm (i : BitVec 11)
  | cShli (a : Src5) (i : BitVec 6)
  | cShri (a : Src5) (i : BitVec 6)
  | cBr (o : BitVec 11)
  | cBz (a : Src5) (o : BitVec 6)
  | cBnz (a : Src5) (o : BitVec 6)
  | cLd (a : Src5) (i : BitVec 6)
  | cSt (a : Src5) (i : BitVec 6)
  | fixedLatencyCompletion (who : Agent)
  | varResultArrival (k : Nat)
  | messageArrival (k : Nat)
  | countedMessageArrival (k : Nat)
  | headAged (site : Nat) (iq : Fin 4)
  | dispatch (site : Nat)
  | residentThreadStart (site : Nat)
  | registerWriteArrival (k : Nat)
  | heldWriteDelivery (site k : Nat)
  | remoteRequestArrival (k : Nat)
  | heldRequestRelease (site k : Nat)
  | trapEntry (site : Nat) (slot : Fin 8)
  | vtileRetire (site : Nat)
  | yieldTimeout (site : Nat) (slot : Fin 8)
  | matrixGrant (site : Nat)
  | matrixEngineFree (site : Nat)
  | mslotWrite (site : Nat) (val : Word)
  | copyLineLanding (site ticket : Nat)
  | copyJobCompletion (site ticket : Nat)
  | copyJobError (site ticket : Nat) (bits : BitVec 5)
  | followOnCommand (site ticket : Nat)
  | streamFetch (site : Nat) (k : Fin 4)
  | streamElementArrival (site : Nat) (k : Fin 4)
  | sendInjection (site : Nat)
  | nameCacheWalk (site idx vtile : Nat)
  | parkEntryWrite (k : Nat)
  | parkedDelivery (site : Nat)
  | barwaitProbe (site : Nat) (slot : Fin 8)
  | doorbell (fn q tail : Nat)
  | kernel (q idx : Nat) (key : Word) (ptbase parkbase : Nat)
  | marker (q idx : Nat)
  | childLaunchPacket (k idx : Nat) (key : Word) (ptbase parkbase : Nat)
  | launchStart (idx : Nat)
  | gangPlacement (idx gang : Nat)
  | preEmption (part imgbase : Nat)
  | summonService (part imgbase : Nat)
  | preEmptedGangReturn (idx gang : Nat)
  | qsliceExpiry (idx gang : Nat)
  | mappingPass
  | bucketRefill
  | watchdogExpiry (hw : Nat)
  | launchCompletion (idx : Nat)
  | pendingErrorWrite
  | permitTimer (region : Nat) (atCollier : Bool)
  | createQueue
  | destroyQueue
  | unfreeze
  | flush
  | setBucket
  | setPartition (key : BitVec 512)
  | setEventRing
  | getCounters
  | setLog
  | setPair
  | attest (sig : BitVec 512) (cert : List Byte)
  | readmit (sigOk tested busy : Bool)
  | setOwner (sigOk : Bool)
  | bindHost
  | bindPeer
  | preempt (k : Nat)
  | saved (k : Nat)
  | faultstop (k : Nat)
  | debugstop (k : Nat)
  | resume (k : Nat)
  | wdkill (k : Nat)
  | restore (k : Nat)
  | restored (k : Nat)
  | killed (k : Nat)
  | quiesce (k : Nat)
  | quiesceLanding (site : Nat)
  | permitReturn (k : Nat)
  | kill (k : Nat)
  | killdone (k : Nat)
  | retireReport (k : Nat)
  | faultReport (k : Nat)
  | stats (k : Nat)
  | imagebad (k : Nat)
  | summon (k : Nat)
  | evict (k : Nat)
  | pack (k : Nat)
  | savedp (k : Nat)
  | ncreq (k : Nat)
  | ncdone (k : Nat)
  | swapout (k : Nat)
  | evicted (k : Nat)
  | place (k : Nat)
  | loadedp (k : Nat)
  | openGang (k : Nat)
  | placed (k : Nat)
  | migrate (k : Nat)
  | moved (k : Nat)
  | pdeliv (k : Nat)
  | pdone (k : Nat)
  | subregionUngate (region : Nat) (sub : Fin 16)
  | sgateWrite (region : Nat) (val : BitVec 16)
  | thrDutyWrite (region : Nat) (val : Word)
  | throttle (k : Nat)
  | throttled (k : Nat)
  | sensorSample (region : Nat) (temp : BitVec 12)
  | timercmpWrite (who : Agent) (val : Word)
  | timerMatch (who : Agent)
  | interruptEntry (who : Agent)
  | ovrhWrite (site : Nat) (slot : Fin 8) (val : Word)
  | rxuInvalidatePage (asid page : Nat)
  | rxuInvalidateAll (asid : Nat)
  | rxuInvalidateDone
  | captureSelect (region : Nat) (val : Word)
  | captureClear (region : Nat)
  | haltAcknowledge
  | speigOpen (part : Nat) (sigOk : Bool)
  | speigClose
  | speigHalt
  | speigResume
  | attach (idx : Nat) (brk stopAll : Bool)
  | detach (idx : Nat)
  | pstop (idx vtile : Nat)
  | dstop (idx vtile : Nat)
  | cont (idx vtile : Nat)
  | speigRead (tgt : SpeigTarget) (addr len : Nat)
  | speigWrite (tgt : SpeigTarget) (addr : Nat) (data : List Byte)
  | tracecfg (region base size : Nat)
  | capcfg (region : Nat) (val : Word)
  | capread (region : Nat)
  | digestFrame (link : Fin 16) (q num : Nat) (tag : BitVec 32) (digests : List (BitVec 256))
  | pairTimeout (q : Nat)
  | retireTile (k : Nat)
  | bringUp (romOk : Bool) (unverified bad shorted unloaded untrained : List Nat) (image : List Byte) (sys : List Half)
  | droopStretch (region : Nat) (sub : Fin 16)
  | droopRecovery (region : Nat) (sub : Fin 16)
  | peerLinkDown (link : Fin 16)
  | lockstepMismatch
  | hbmRequestArrival (k : Nat)
  | colourAcknowledgement (k : Nat)
  deriving DecidableEq, Repr

end Sys2Proof
end

