-- ==== Sys2Proof/WellFormed.lean ====
section
/-! DEFINITION. Well-formed instructions: an operand that keeps an illegal code holds a code that spec/05_encoding.md R135 and
R136 do give no operand, and a step of the module names things that exist (sites, regions, partitions, queues, launch
indices; spec/00_scope.md R1, spec/13_sys_queues.md R311, R313, R335). -/

namespace Sys2Proof

/-- `ill` holds a code that names no scalar destination (R135). -/
def Dst.wf : Dst → Bool
  | .ill c => c.toNat < 32 && c.toNat != 0 && c.toNat != 16
  | _ => true

/-- `ill` holds a code that names no vector source (R136). -/
def VSrc.wf : VSrc → Bool
  | .ill c => (4 ≤ c.toNat && c.toNat ≤ 15) || (38 ≤ c.toNat && c.toNat ≤ 47)
  | _ => true

/-- `ill` holds a code that names no vector destination (R136). -/
def VDst.wf : VDst → Bool
  | .ill c => (c.toNat != 0 && c.toNat ≤ 15) || 32 ≤ c.toNat
  | _ => true

/-- A site number y * 512 + x (R296, R409). -/
def siteOk (site : Nat) : Bool := site < 262144
/-- A region number 8j + i (R409). -/
def regionOk (region : Nat) : Bool := region < 64
/-- A partition number (R335). -/
def partOk (part : Nat) : Bool := part < 64
/-- A software queue number (R311). -/
def queueOk (q : Nat) : Bool := q < 65536
/-- A launch index (R313). -/
def indexOk (idx : Nat) : Bool := idx < 65536
/-- A vtile number of the largest grid (R16). -/
def vtileOk (v : Nat) : Bool := v < 16777216
/-- A physical or virtual HBM address (R62). -/
def addrOk (a : Nat) : Bool := a < 281474976710656

/-- The agent exists (R20, R307). -/
def Agent.wf : Agent → Bool
  | .tile site _ => siteOk site
  | .collier => true
  | .stoker r => regionOk r

/-- The instruction is one the encodings or the module can give. -/
def Instr.wf : Instr → Bool
  | .add _ d _ _ => d.wf
  | .sub _ d _ _ => d.wf
  | .and _ d _ _ => d.wf
  | .or _ d _ _ => d.wf
  | .xor _ d _ _ => d.wf
  | .andn _ d _ _ => d.wf
  | .orn _ d _ _ => d.wf
  | .shl _ d _ _ => d.wf
  | .shr _ d _ _ => d.wf
  | .shra _ d _ _ => d.wf
  | .rot _ d _ _ => d.wf
  | .min _ d _ _ => d.wf
  | .max _ d _ _ => d.wf
  | .minu _ d _ _ => d.wf
  | .maxu _ d _ _ => d.wf
  | .mul _ d _ _ => d.wf
  | .mulh _ d _ _ => d.wf
  | .mulhu _ d _ _ => d.wf
  | .div _ d _ _ => d.wf
  | .divu _ d _ _ => d.wf
  | .rem _ d _ _ => d.wf
  | .remu _ d _ _ => d.wf
  | .cmpeq _ d _ _ => d.wf
  | .cmpne _ d _ _ => d.wf
  | .cmplt _ d _ _ => d.wf
  | .cmpltu _ d _ _ => d.wf
  | .cmple _ d _ _ => d.wf
  | .cmpleu _ d _ _ => d.wf
  | .cmov _ d _ _ => d.wf
  | .clz _ d _ => d.wf
  | .ctz _ d _ => d.wf
  | .popc _ d _ => d.wf
  | .addw _ d _ _ => d.wf
  | .subw _ d _ _ => d.wf
  | .mulw _ d _ _ => d.wf
  | .brev _ d _ => d.wf
  | .bswap _ d _ => d.wf
  | .exts _ d _ _ => d.wf
  | .extz _ d _ _ => d.wf
  | .ins _ d _ _ => d.wf
  | .addi _ d _ _ => d.wf
  | .andi _ d _ _ => d.wf
  | .ori _ d _ _ => d.wf
  | .xori _ d _ _ => d.wf
  | .shli _ d _ _ => d.wf
  | .shri _ d _ _ => d.wf
  | .shrai _ d _ _ => d.wf
  | .cmpeqi _ d _ _ => d.wf
  | .cmplti _ d _ _ => d.wf
  | .limm _ d _ => d.wf
  | .limh _ d _ => d.wf
  | .addp _ d _ _ => d.wf
  | .subp _ d _ _ => d.wf
  | .ptag _ d _ _ => d.wf
  | .ptagx _ d _ => d.wf
  | .pmkt _ d _ _ => d.wf
  | .pspace _ d _ _ => d.wf
  | .fadd _ d _ _ => d.wf
  | .fsub _ d _ _ => d.wf
  | .fmul _ d _ _ => d.wf
  | .fdiv _ d _ _ => d.wf
  | .fsqrt _ d _ => d.wf
  | .fmin _ d _ _ => d.wf
  | .fmax _ d _ _ => d.wf
  | .fcmpeq _ d _ _ => d.wf
  | .fcmplt _ d _ _ => d.wf
  | .fcmple _ d _ _ => d.wf
  | .fcvtif _ d _ => d.wf
  | .fcvtfi _ d _ => d.wf
  | .fclass _ d _ => d.wf
  | .fabs _ d _ => d.wf
  | .fneg _ d _ => d.wf
  | .fsgnj _ d _ _ => d.wf
  | .fma _ d _ _ _ => d.wf
  | .fms _ d _ _ _ => d.wf
  | .fnma _ d _ _ _ => d.wf
  | .fnms _ d _ _ _ => d.wf
  | .bz _ _ _ => true
  | .bnz _ _ _ => true
  | .bltz _ _ _ => true
  | .bgez _ _ _ => true
  | .br _ _ => true
  | .call _ _ => true
  | .loop _ _ _ => true
  | .jr _ _ => true
  | .ret _ => true
  | .yield _ => true
  | .done _ => true
  | .donef _ => true
  | .nop _ => true
  | .waitf _ _ => true
  | .femark _ _ => true
  | .fefill _ _ => true
  | .fetest _ d _ => d.wf
  | .bararr _ d _ => d.wf
  | .barwait _ d _ _ => d.wf
  | .crd _ d _ => d.wf
  | .cwr _ _ _ => true
  | .fenceRel _ _ => true
  | .fenceAcq _ _ => true
  | .fenceFull _ _ => true
  | .fenceLb _ => true
  | .ld _ d _ _ _ => d.wf
  | .lds _ d _ _ _ => d.wf
  | .st _ _ _ _ _ => true
  | .ldx _ d _ _ => d.wf
  | .stx _ _ _ _ => true
  | .ldt _ d _ _ => d.wf
  | .stf _ _ _ _ => true
  | .aadd _ d _ _ => d.wf
  | .amax _ d _ _ => d.wf
  | .amin _ d _ _ => d.wf
  | .amaxu _ d _ _ => d.wf
  | .aminu _ d _ _ => d.wf
  | .aand _ d _ _ => d.wf
  | .aor _ d _ _ => d.wf
  | .axor _ d _ _ => d.wf
  | .aswap _ d _ _ => d.wf
  | .acas _ d _ _ => d.wf
  | .afxadd _ d _ _ => d.wf
  | .afxrd _ d _ => d.wf
  | .afxset _ d _ _ => d.wf
  | .aamax _ d _ _ => d.wf
  | .vaadd _ d _ _ => d.wf
  | .vamaxabs _ d _ _ => d.wf
  | .vafx _ d _ b => d.wf && b.wf
  | .vamaxDrain _ d _ => d.wf
  | .vadd _ d a b _ => d.wf && a.wf && b.wf
  | .vsub _ d a b _ => d.wf && a.wf && b.wf
  | .vmul _ d a b _ => d.wf && a.wf && b.wf
  | .vmulh _ d a b _ => d.wf && a.wf && b.wf
  | .vand _ d a b _ => d.wf && a.wf && b.wf
  | .vor _ d a b _ => d.wf && a.wf && b.wf
  | .vxor _ d a b _ => d.wf && a.wf && b.wf
  | .vandn _ d a b _ => d.wf && a.wf && b.wf
  | .vshl _ d a b _ => d.wf && a.wf && b.wf
  | .vshr _ d a b _ => d.wf && a.wf && b.wf
  | .vshra _ d a b _ => d.wf && a.wf && b.wf
  | .vabsd _ d a b _ => d.wf && a.wf && b.wf
  | .vmin _ d a b _ => d.wf && a.wf && b.wf
  | .vmax _ d a b _ => d.wf && a.wf && b.wf
  | .vminu _ d a b _ => d.wf && a.wf && b.wf
  | .vmaxu _ d a b _ => d.wf && a.wf && b.wf
  | .vfadd _ d a b _ => d.wf && a.wf && b.wf
  | .vfsub _ d a b _ => d.wf && a.wf && b.wf
  | .vfmul _ d a b _ => d.wf && a.wf && b.wf
  | .vfdiv _ d a b _ => d.wf && a.wf && b.wf
  | .vfmin _ d a b _ => d.wf && a.wf && b.wf
  | .vfmax _ d a b _ => d.wf && a.wf && b.wf
  | .vfabs _ d a _ => d.wf && a.wf
  | .vfneg _ d a _ => d.wf && a.wf
  | .vfma _ d a b _ => d.wf && a.wf && b.wf
  | .vfms _ d a b _ => d.wf && a.wf && b.wf
  | .vfnma _ d a b _ => d.wf && a.wf && b.wf
  | .vfnms _ d a b _ => d.wf && a.wf && b.wf
  | .vcmpeq _ _ a b _ => a.wf && b.wf
  | .vcmplt _ _ a b _ => a.wf && b.wf
  | .vcmpltu _ _ a b _ => a.wf && b.wf
  | .vcmple _ _ a b _ => a.wf && b.wf
  | .vfcmpeq _ _ a b _ => a.wf && b.wf
  | .vfcmplt _ _ a b _ => a.wf && b.wf
  | .vfcmple _ _ a b _ => a.wf && b.wf
  | .vfcmpun _ _ a b _ => a.wf && b.wf
  | .vsel _ d a b _ => d.wf && a.wf && b.wf
  | .vbcast _ d a _ _ => d.wf && a.wf
  | .vextr _ d a _ _ => d.wf && a.wf
  | .vins _ d a _ _ => d.wf && a.wf
  | .vperm _ d a b _ => d.wf && a.wf && b.wf
  | .vrot _ d a _ _ => d.wf && a.wf
  | .vcomp _ d a _ => d.wf && a.wf
  | .vexpn _ d a _ => d.wf && a.wf
  | .vredadd _ d a _ => d.wf && a.wf
  | .vredmax _ d a _ => d.wf && a.wf
  | .vredmin _ d a _ => d.wf && a.wf
  | .vfredadd _ d a _ => d.wf && a.wf
  | .vcvt _ d a _ => d.wf && a.wf
  | .vwiden _ d a _ => d.wf && a.wf
  | .vnarrow _ d a _ => d.wf && a.wf
  | .vround _ d a _ => d.wf && a.wf
  | .vfexp _ d a _ => d.wf && a.wf
  | .vflog _ d a _ => d.wf && a.wf
  | .vfrecip _ d a _ => d.wf && a.wf
  | .vfrsqrt _ d a _ => d.wf && a.wf
  | .vftanh _ d a _ => d.wf && a.wf
  | .vfsigm _ d a _ => d.wf && a.wf
  | .vfsin _ d a _ => d.wf && a.wf
  | .vfcos _ d a _ => d.wf && a.wf
  | .vamax _ d a _ => d.wf && a.wf
  | .vquant _ d a _ => d.wf && a.wf
  | .vscale _ d a _ _ => d.wf && a.wf
  | .vdot _ d a b _ => d.wf && a.wf && b.wf
  | .mand _ _ _ _ _ => true
  | .mor _ _ _ _ _ => true
  | .mxor _ _ _ _ _ => true
  | .mnot _ _ _ _ => true
  | .mpop _ d _ _ => d.wf
  | .mfirst _ d _ _ => d.wf
  | .msetn _ _ _ _ => true
  | .viota _ d _ _ => d.wf
  | .vgetsc _ d a => d.wf && a.wf
  | .vsetsc _ d a b => d.wf && a.wf && b.wf
  | .vmov _ d a => d.wf && a.wf
  | .vlanes _ d => d.wf
  | .vld _ d _ _ => d.wf
  | .vst _ d _ _ => d.wf
  | .vldc _ d _ _ => d.wf
  | .vstc _ d _ _ => d.wf
  | .vlds _ d _ _ => d.wf
  | .vsts _ d _ _ => d.wf
  | .vgath _ d _ b => d.wf && b.wf
  | .vscat _ d _ b => d.wf && b.wf
  | .tld _ _ _ => true
  | .tst _ _ _ => true
  | .tzero _ _ => true
  | .mma _ _ _ _ _ _ => true
  | .mmas _ _ _ _ _ _ => true
  | .tadd _ _ _ _ => true
  | .tcvt _ _ _ _ => true
  | .ttrans _ _ _ => true
  | .trowv _ _ _ => true
  | .tvrow _ _ _ _ => true
  | .send _ _ _ => true
  | .sends _ _ _ _ => true
  | .sendv _ _ b => b.wf
  | .senda _ _ _ _ => true
  | .mlen _ d => d.wf
  | .msrc _ d => d.wf
  | .launch _ d _ => d.wf
  | .cntset _ _ _ => true
  | .rcap _ d _ _ => d.wf
  | .rput _ _ _ => true
  | .rputv _ _ b => b.wf
  | .rputr _ _ _ => true
  | .rtake _ _ _ => true
  | .rempty _ _ => true
  | .rfull _ d _ => d.wf
  | .rwait _ _ _ => true
  | .xcopy _ d _ _ => d.wf
  | .xcopym _ d _ _ => d.wf
  | .xstrm _ _ _ _ => true
  | .xstrmOff _ _ => true
  | .xwait _ d _ => d.wf
  | .xpoll _ d _ => d.wf
  | .xtdef _ _ _ => true
  | .xdig _ d _ _ => d.wf
  | .gres _ => true
  | .gend _ => true
  | .gqry _ d => d.wf
  | .gwin _ _ _ => true
  | .trap _ _ => true
  | .brk _ _ => true
  | .rdtb _ d => d.wf
  | .trmark _ _ _ => true
  | .eret _ _ => true
  | .saveq _ _ => true
  | .restq _ _ => true
  | .drain _ d _ _ => d.wf
  | .colr _ d _ _ => d.wf
  | .ncinv _ d _ _ => d.wf
  | .wdset _ _ _ => true
  | .haltt _ d _ => d.wf
  | .idle _ => true
  | .svsend _ _ _ => true
  | .svrecv _ d _ => d.wf
  | .intack _ d => d.wf
  | .prcr _ d _ => d.wf
  | .pcwr _ _ _ => true
  | .swpout _ d _ _ => d.wf
  | .swpin _ d _ _ => d.wf
  | .fwdset _ _ _ => true
  | .resett _ d _ => d.wf
  | .thrset _ _ _ => true
  | .slotkill _ _ => true
  | .nop16 => true
  | .done16 => true
  | .donef16 => true
  | .yield16 => true
  | .ret16 => true
  | .brk16 => true
  | .cAdd _ _ => true
  | .cSub _ _ => true
  | .cAnd _ _ => true
  | .cOr _ _ => true
  | .cXor _ _ => true
  | .cMov _ => true
  | .cAddi _ _ => true
  | .cLimm _ => true
  | .cShli _ _ => true
  | .cShri _ _ => true
  | .cBr _ => true
  | .cBz _ _ => true
  | .cBnz _ _ => true
  | .cLd _ _ => true
  | .cSt _ _ => true
  | .fixedLatencyCompletion who => who.wf
  | .varResultArrival _ => true
  | .messageArrival _ => true
  | .countedMessageArrival _ => true
  | .headAged site _ => siteOk site
  | .dispatch site => siteOk site
  | .residentThreadStart site => siteOk site
  | .registerWriteArrival _ => true
  | .heldWriteDelivery site _ => siteOk site
  | .remoteRequestArrival _ => true
  | .heldRequestRelease site _ => siteOk site
  | .trapEntry site _ => siteOk site
  | .vtileRetire site => siteOk site
  | .yieldTimeout site _ => siteOk site
  | .matrixGrant site => siteOk site
  | .matrixEngineFree site => siteOk site
  | .mslotWrite site _ => siteOk site
  | .copyLineLanding site _ => siteOk site
  | .copyJobCompletion site _ => siteOk site
  | .copyJobError site _ _ => siteOk site
  | .followOnCommand site _ => siteOk site
  | .streamFetch site _ => siteOk site
  | .streamElementArrival site _ => siteOk site
  | .sendInjection site => siteOk site
  | .nameCacheWalk site idx vtile => siteOk site && indexOk idx && vtileOk vtile
  | .parkEntryWrite _ => true
  | .parkedDelivery site => siteOk site
  | .barwaitProbe site _ => siteOk site
  | .doorbell fn q _ => decide (fn < 64) && queueOk q
  | .kernel q idx _ ptbase parkbase => queueOk q && indexOk idx && addrOk ptbase && addrOk parkbase
  | .marker q idx => queueOk q && indexOk idx
  | .childLaunchPacket _ idx _ ptbase parkbase => indexOk idx && addrOk ptbase && addrOk parkbase
  | .launchStart idx => indexOk idx
  | .gangPlacement idx _ => indexOk idx
  | .preEmption part imgbase => partOk part && addrOk imgbase
  | .summonService part imgbase => partOk part && addrOk imgbase
  | .preEmptedGangReturn idx _ => indexOk idx
  | .qsliceExpiry idx _ => indexOk idx
  | .mappingPass => true
  | .bucketRefill => true
  | .watchdogExpiry hw => decide (hw < 512)
  | .launchCompletion idx => indexOk idx
  | .pendingErrorWrite => true
  | .permitTimer region _ => regionOk region
  | .createQueue => true
  | .destroyQueue => true
  | .unfreeze => true
  | .flush => true
  | .setBucket => true
  | .setPartition _ => true
  | .setEventRing => true
  | .getCounters => true
  | .setLog => true
  | .setPair => true
  | .attest _ _ => true
  | .readmit _ _ _ => true
  | .setOwner _ => true
  | .bindHost => true
  | .bindPeer => true
  | .preempt _ => true
  | .saved _ => true
  | .faultstop _ => true
  | .debugstop _ => true
  | .resume _ => true
  | .wdkill _ => true
  | .restore _ => true
  | .restored _ => true
  | .killed _ => true
  | .quiesce _ => true
  | .quiesceLanding site => siteOk site
  | .permitReturn _ => true
  | .kill _ => true
  | .killdone _ => true
  | .retireReport _ => true
  | .faultReport _ => true
  | .stats _ => true
  | .imagebad _ => true
  | .summon _ => true
  | .evict _ => true
  | .pack _ => true
  | .savedp _ => true
  | .ncreq _ => true
  | .ncdone _ => true
  | .swapout _ => true
  | .evicted _ => true
  | .place _ => true
  | .loadedp _ => true
  | .openGang _ => true
  | .placed _ => true
  | .migrate _ => true
  | .moved _ => true
  | .pdeliv _ => true
  | .pdone _ => true
  | .subregionUngate region _ => regionOk region
  | .sgateWrite region _ => regionOk region
  | .thrDutyWrite region _ => regionOk region
  | .throttle _ => true
  | .throttled _ => true
  | .sensorSample region _ => regionOk region
  | .timercmpWrite who _ => who.wf
  | .timerMatch who => who.wf
  | .interruptEntry who => who.wf
  | .ovrhWrite site _ _ => siteOk site
  | .rxuInvalidatePage asid _ => indexOk asid
  | .rxuInvalidateAll asid => indexOk asid
  | .rxuInvalidateDone => true
  | .captureSelect region _ => regionOk region
  | .captureClear region => regionOk region
  | .haltAcknowledge => true
  | .speigOpen part _ => partOk part
  | .speigClose => true
  | .speigHalt => true
  | .speigResume => true
  | .attach idx _ _ => indexOk idx
  | .detach idx => indexOk idx
  | .pstop idx vtile => indexOk idx && vtileOk vtile
  | .dstop idx vtile => indexOk idx && vtileOk vtile
  | .cont idx vtile => indexOk idx && vtileOk vtile
  | .speigRead _ addr _ => addrOk addr
  | .speigWrite _ addr _ => addrOk addr
  | .tracecfg region base _ => regionOk region && addrOk base
  | .capcfg region _ => regionOk region
  | .capread region => regionOk region
  | .digestFrame _ q _ _ _ => queueOk q
  | .pairTimeout q => queueOk q
  | .retireTile _ => true
  | .bringUp _ _ _ _ _ _ _ _ => true
  | .droopStretch region _ => regionOk region
  | .droopRecovery region _ => regionOk region
  | .peerLinkDown _ => true
  | .lockstepMismatch => true
  | .hbmRequestArrival _ => true
  | .colourAcknowledgement _ => true

end Sys2Proof
end

