-- ==== Sys2Proof/Decode.lean ====
section
/-! DEFINITION. Decoding (spec/05_encoding.md R128 to R145) and, after it, the encoder (R130, R146). A word is read as one
number, W[31:16] being the halfword at the lower address, and fields are taken by position. Specifiers are kept whole
(a code that names no operand becomes `ill`), so the checks of R139 step 6 on specifiers and the checks of an
instruction's own page are made where it executes. -/

noncomputable section

namespace Sys2Proof

/-- Why a word is no instruction: R139 steps 2 to 4 give illegal instruction, and a field that must hold one named
code gives illegal operand (R138, step 6). -/
inductive DecodeError where
  | illegalInstruction
  | illegalOperand
  deriving DecidableEq, Repr

/-- Bits [hi:lo] of a word read as a number (R3). -/
def field (w hi lo : Nat) : Nat := w / 2 ^ lo % 2 ^ (hi + 1 - lo)

/-- A reserved or unused field must hold zero (R138, R139 step 4). -/
def reserved (ok : Bool) (r : Except DecodeError Instr) : Except DecodeError Instr :=
  if ok then r else .error .illegalInstruction

/-- A field fixed to a named code (R138, R139 step 6). -/
def fixed (ok : Bool) (r : Except DecodeError Instr) : Except DecodeError Instr :=
  if ok then r else .error .illegalOperand

/-- The scalar source of a code (R134). -/
def Src.ofCode (c : Nat) : Src :=
  if c < 16 then .q (Fin.ofNat 16 c)
  else if c = 16 then .z
  else if c = 17 then .msg
  else if c < 22 then .st (Fin.ofNat 4 (c - 18))
  else if c = 22 then .wid
  else if c = 23 then .vtn
  else if c < 32 then .const (Fin.ofNat 8 (c - 24))
  else .n (Fin.ofNat 32 (c - 32))

/-- The code of a scalar source (R134). -/
def Src.code : Src → Nat
  | .q k => k.val
  | .z => 16
  | .msg => 17
  | .st k => 18 + k.val
  | .wid => 22
  | .vtn => 23
  | .const k => 24 + k.val
  | .n k => 32 + k.val

/-- The operand of a 5-bit field (R132). -/
def Src5.ofCode (c : Nat) : Src5 :=
  if c < 16 then .q (Fin.ofNat 16 c) else .n (Fin.ofNat 16 (c - 16))

/-- The code of a 5-bit operand (R132). -/
def Src5.code : Src5 → Nat
  | .q k => k.val
  | .n k => 16 + k.val

/-- The 32-bit form's operand that a 5-bit operand stands for (R133). -/
def Src5.toSrc : Src5 → Src
  | .q k => .q k
  | .n k => .n (k.castLE (by decide))

/-- The scalar destination of a code (R135). -/
def Dst.ofCode (c : Nat) : Dst :=
  if c = 0 then .push
  else if c = 16 then .discard
  else if 32 ≤ c then .n (Fin.ofNat 32 (c - 32))
  else .ill (BitVec.ofNat 6 c)

/-- The code of a scalar destination (R135). -/
def Dst.code : Dst → Nat
  | .push => 0
  | .discard => 16
  | .n k => 32 + k.val
  | .ill c => c.toNat

/-- The vector source of a code (R136). -/
def VSrc.ofCode (c : Nat) : VSrc :=
  if c < 4 then .vq (Fin.ofNat 4 c)
  else if c < 16 then .ill (BitVec.ofNat 6 c)
  else if c < 32 then .v (Fin.ofNat 16 (c - 16))
  else if c = 32 then .vz
  else if c < 37 then .vst (Fin.ofNat 4 (c - 33))
  else if c = 37 then .vmsg
  else if c < 48 then .ill (BitVec.ofNat 6 c)
  else .bcast (Fin.ofNat 16 (c - 48))

/-- The code of a vector source (R136). -/
def VSrc.code : VSrc → Nat
  | .vq k => k.val
  | .v k => 16 + k.val
  | .vz => 32
  | .vst k => 33 + k.val
  | .vmsg => 37
  | .bcast k => 48 + k.val
  | .ill c => c.toNat

/-- The vector destination of a code (R136). -/
def VDst.ofCode (c : Nat) : VDst :=
  if c = 0 then .push
  else if 16 ≤ c ∧ c < 32 then .v (Fin.ofNat 16 (c - 16))
  else .ill (BitVec.ofNat 6 c)

/-- The code of a vector destination (R136). -/
def VDst.code : VDst → Nat
  | .push => 0
  | .v k => 16 + k.val
  | .ill c => c.toNat

/-- Major 0x00 of R144: the minor operation, its reserved and fixed fields, its operands. -/
def decodeMajor00 (w : Nat) : Except DecodeError Instr :=
  match field w 3 0 with
  | 0 => .ok (.add (BitVec.ofNat 3 (field w 24 22)) (Dst.ofCode (field w 21 16)) (Src.ofCode (field w 15 10)) (Src.ofCode (field w 9 4)))
  | 1 => .ok (.sub (BitVec.ofNat 3 (field w 24 22)) (Dst.ofCode (field w 21 16)) (Src.ofCode (field w 15 10)) (Src.ofCode (field w 9 4)))
  | 2 => .ok (.and (BitVec.ofNat 3 (field w 24 22)) (Dst.ofCode (field w 21 16)) (Src.ofCode (field w 15 10)) (Src.ofCode (field w 9 4)))
  | 3 => .ok (.or (BitVec.ofNat 3 (field w 24 22)) (Dst.ofCode (field w 21 16)) (Src.ofCode (field w 15 10)) (Src.ofCode (field w 9 4)))
  | 4 => .ok (.xor (BitVec.ofNat 3 (field w 24 22)) (Dst.ofCode (field w 21 16)) (Src.ofCode (field w 15 10)) (Src.ofCode (field w 9 4)))
  | 5 => .ok (.andn (BitVec.ofNat 3 (field w 24 22)) (Dst.ofCode (field w 21 16)) (Src.ofCode (field w 15 10)) (Src.ofCode (field w 9 4)))
  | 6 => .ok (.orn (BitVec.ofNat 3 (field w 24 22)) (Dst.ofCode (field w 21 16)) (Src.ofCode (field w 15 10)) (Src.ofCode (field w 9 4)))
  | 7 => .ok (.shl (BitVec.ofNat 3 (field w 24 22)) (Dst.ofCode (field w 21 16)) (Src.ofCode (field w 15 10)) (Src.ofCode (field w 9 4)))
  | 8 => .ok (.shr (BitVec.ofNat 3 (field w 24 22)) (Dst.ofCode (field w 21 16)) (Src.ofCode (field w 15 10)) (Src.ofCode (field w 9 4)))
  | 9 => .ok (.shra (BitVec.ofNat 3 (field w 24 22)) (Dst.ofCode (field w 21 16)) (Src.ofCode (field w 15 10)) (Src.ofCode (field w 9 4)))
  | 10 => .ok (.rot (BitVec.ofNat 3 (field w 24 22)) (Dst.ofCode (field w 21 16)) (Src.ofCode (field w 15 10)) (Src.ofCode (field w 9 4)))
  | 11 => .ok (.min (BitVec.ofNat 3 (field w 24 22)) (Dst.ofCode (field w 21 16)) (Src.ofCode (field w 15 10)) (Src.ofCode (field w 9 4)))
  | 12 => .ok (.max (BitVec.ofNat 3 (field w 24 22)) (Dst.ofCode (field w 21 16)) (Src.ofCode (field w 15 10)) (Src.ofCode (field w 9 4)))
  | 13 => .ok (.minu (BitVec.ofNat 3 (field w 24 22)) (Dst.ofCode (field w 21 16)) (Src.ofCode (field w 15 10)) (Src.ofCode (field w 9 4)))
  | 14 => .ok (.maxu (BitVec.ofNat 3 (field w 24 22)) (Dst.ofCode (field w 21 16)) (Src.ofCode (field w 15 10)) (Src.ofCode (field w 9 4)))
  | 15 => .ok (.mul (BitVec.ofNat 3 (field w 24 22)) (Dst.ofCode (field w 21 16)) (Src.ofCode (field w 15 10)) (Src.ofCode (field w 9 4)))
  | _ => .error .illegalInstruction

/-- Major 0x01 of R144: the minor operation, its reserved and fixed fields, its operands. -/
def decodeMajor01 (w : Nat) : Except DecodeError Instr :=
  match field w 3 0 with
  | 0 => .ok (.mulh (BitVec.ofNat 3 (field w 24 22)) (Dst.ofCode (field w 21 16)) (Src.ofCode (field w 15 10)) (Src.ofCode (field w 9 4)))
  | 1 => .ok (.mulhu (BitVec.ofNat 3 (field w 24 22)) (Dst.ofCode (field w 21 16)) (Src.ofCode (field w 15 10)) (Src.ofCode (field w 9 4)))
  | 2 => .ok (.div (BitVec.ofNat 3 (field w 24 22)) (Dst.ofCode (field w 21 16)) (Src.ofCode (field w 15 10)) (Src.ofCode (field w 9 4)))
  | 3 => .ok (.divu (BitVec.ofNat 3 (field w 24 22)) (Dst.ofCode (field w 21 16)) (Src.ofCode (field w 15 10)) (Src.ofCode (field w 9 4)))
  | 4 => .ok (.rem (BitVec.ofNat 3 (field w 24 22)) (Dst.ofCode (field w 21 16)) (Src.ofCode (field w 15 10)) (Src.ofCode (field w 9 4)))
  | 5 => .ok (.remu (BitVec.ofNat 3 (field w 24 22)) (Dst.ofCode (field w 21 16)) (Src.ofCode (field w 15 10)) (Src.ofCode (field w 9 4)))
  | 6 => .ok (.cmpeq (BitVec.ofNat 3 (field w 24 22)) (Dst.ofCode (field w 21 16)) (Src.ofCode (field w 15 10)) (Src.ofCode (field w 9 4)))
  | 7 => .ok (.cmpne (BitVec.ofNat 3 (field w 24 22)) (Dst.ofCode (field w 21 16)) (Src.ofCode (field w 15 10)) (Src.ofCode (field w 9 4)))
  | 8 => .ok (.cmplt (BitVec.ofNat 3 (field w 24 22)) (Dst.ofCode (field w 21 16)) (Src.ofCode (field w 15 10)) (Src.ofCode (field w 9 4)))
  | 9 => .ok (.cmpltu (BitVec.ofNat 3 (field w 24 22)) (Dst.ofCode (field w 21 16)) (Src.ofCode (field w 15 10)) (Src.ofCode (field w 9 4)))
  | 10 => .ok (.cmple (BitVec.ofNat 3 (field w 24 22)) (Dst.ofCode (field w 21 16)) (Src.ofCode (field w 15 10)) (Src.ofCode (field w 9 4)))
  | 11 => .ok (.cmpleu (BitVec.ofNat 3 (field w 24 22)) (Dst.ofCode (field w 21 16)) (Src.ofCode (field w 15 10)) (Src.ofCode (field w 9 4)))
  | 12 => .ok (.cmov (BitVec.ofNat 3 (field w 24 22)) (Dst.ofCode (field w 21 16)) (Src.ofCode (field w 15 10)) (Src.ofCode (field w 9 4)))
  | 13 => reserved (field w 9 4 == 0) <| .ok (.clz (BitVec.ofNat 3 (field w 24 22)) (Dst.ofCode (field w 21 16)) (Src.ofCode (field w 15 10)))
  | 14 => reserved (field w 9 4 == 0) <| .ok (.ctz (BitVec.ofNat 3 (field w 24 22)) (Dst.ofCode (field w 21 16)) (Src.ofCode (field w 15 10)))
  | 15 => reserved (field w 9 4 == 0) <| .ok (.popc (BitVec.ofNat 3 (field w 24 22)) (Dst.ofCode (field w 21 16)) (Src.ofCode (field w 15 10)))
  | _ => .error .illegalInstruction

/-- Major 0x02 of R144: the minor operation, its reserved and fixed fields, its operands. -/
def decodeMajor02 (w : Nat) : Except DecodeError Instr :=
  match field w 3 0 with
  | 0 => .ok (.addw (BitVec.ofNat 3 (field w 24 22)) (Dst.ofCode (field w 21 16)) (Src.ofCode (field w 15 10)) (Src.ofCode (field w 9 4)))
  | 1 => .ok (.subw (BitVec.ofNat 3 (field w 24 22)) (Dst.ofCode (field w 21 16)) (Src.ofCode (field w 15 10)) (Src.ofCode (field w 9 4)))
  | 2 => .ok (.mulw (BitVec.ofNat 3 (field w 24 22)) (Dst.ofCode (field w 21 16)) (Src.ofCode (field w 15 10)) (Src.ofCode (field w 9 4)))
  | 3 => reserved (field w 9 4 == 0) <| .ok (.brev (BitVec.ofNat 3 (field w 24 22)) (Dst.ofCode (field w 21 16)) (Src.ofCode (field w 15 10)))
  | 4 => reserved (field w 9 4 == 0) <| .ok (.bswap (BitVec.ofNat 3 (field w 24 22)) (Dst.ofCode (field w 21 16)) (Src.ofCode (field w 15 10)))
  | 5 => .ok (.exts (BitVec.ofNat 3 (field w 24 22)) (Dst.ofCode (field w 21 16)) (Src.ofCode (field w 15 10)) (Src.ofCode (field w 9 4)))
  | 6 => .ok (.extz (BitVec.ofNat 3 (field w 24 22)) (Dst.ofCode (field w 21 16)) (Src.ofCode (field w 15 10)) (Src.ofCode (field w 9 4)))
  | 7 => .ok (.ins (BitVec.ofNat 3 (field w 24 22)) (Dst.ofCode (field w 21 16)) (Src.ofCode (field w 15 10)) (Src.ofCode (field w 9 4)))
  | _ => .error .illegalInstruction

/-- Major 0x0E of R144: the minor operation, its reserved and fixed fields, its operands. -/
def decodeMajor0E (w : Nat) : Except DecodeError Instr :=
  match field w 3 0 with
  | 0 => .ok (.addp (BitVec.ofNat 3 (field w 24 22)) (Dst.ofCode (field w 21 16)) (Src.ofCode (field w 15 10)) (Src.ofCode (field w 9 4)))
  | 1 => .ok (.subp (BitVec.ofNat 3 (field w 24 22)) (Dst.ofCode (field w 21 16)) (Src.ofCode (field w 15 10)) (Src.ofCode (field w 9 4)))
  | 2 => .ok (.ptag (BitVec.ofNat 3 (field w 24 22)) (Dst.ofCode (field w 21 16)) (Src.ofCode (field w 15 10)) (Src.ofCode (field w 9 4)))
  | 3 => reserved (field w 9 4 == 0) <| .ok (.ptagx (BitVec.ofNat 3 (field w 24 22)) (Dst.ofCode (field w 21 16)) (Src.ofCode (field w 15 10)))
  | 4 => .ok (.pmkt (BitVec.ofNat 3 (field w 24 22)) (Dst.ofCode (field w 21 16)) (Src.ofCode (field w 15 10)) (Src.ofCode (field w 9 4)))
  | 5 => .ok (.pspace (BitVec.ofNat 3 (field w 24 22)) (Dst.ofCode (field w 21 16)) (Src.ofCode (field w 15 10)) (Src.ofCode (field w 9 4)))
  | _ => .error .illegalInstruction

/-- Major 0x0F of R144: the minor operation, its reserved and fixed fields, its operands. -/
def decodeMajor0F (w : Nat) : Except DecodeError Instr :=
  match field w 3 0 with
  | 0 => .ok (.fadd (BitVec.ofNat 3 (field w 24 22)) (Dst.ofCode (field w 21 16)) (Src.ofCode (field w 15 10)) (Src.ofCode (field w 9 4)))
  | 1 => .ok (.fsub (BitVec.ofNat 3 (field w 24 22)) (Dst.ofCode (field w 21 16)) (Src.ofCode (field w 15 10)) (Src.ofCode (field w 9 4)))
  | 2 => .ok (.fmul (BitVec.ofNat 3 (field w 24 22)) (Dst.ofCode (field w 21 16)) (Src.ofCode (field w 15 10)) (Src.ofCode (field w 9 4)))
  | 3 => .ok (.fdiv (BitVec.ofNat 3 (field w 24 22)) (Dst.ofCode (field w 21 16)) (Src.ofCode (field w 15 10)) (Src.ofCode (field w 9 4)))
  | 4 => reserved (field w 9 4 == 0) <| .ok (.fsqrt (BitVec.ofNat 3 (field w 24 22)) (Dst.ofCode (field w 21 16)) (Src.ofCode (field w 15 10)))
  | 5 => .ok (.fmin (BitVec.ofNat 3 (field w 24 22)) (Dst.ofCode (field w 21 16)) (Src.ofCode (field w 15 10)) (Src.ofCode (field w 9 4)))
  | 6 => .ok (.fmax (BitVec.ofNat 3 (field w 24 22)) (Dst.ofCode (field w 21 16)) (Src.ofCode (field w 15 10)) (Src.ofCode (field w 9 4)))
  | 7 => .ok (.fcmpeq (BitVec.ofNat 3 (field w 24 22)) (Dst.ofCode (field w 21 16)) (Src.ofCode (field w 15 10)) (Src.ofCode (field w 9 4)))
  | 8 => .ok (.fcmplt (BitVec.ofNat 3 (field w 24 22)) (Dst.ofCode (field w 21 16)) (Src.ofCode (field w 15 10)) (Src.ofCode (field w 9 4)))
  | 9 => .ok (.fcmple (BitVec.ofNat 3 (field w 24 22)) (Dst.ofCode (field w 21 16)) (Src.ofCode (field w 15 10)) (Src.ofCode (field w 9 4)))
  | 10 => reserved (field w 9 4 == 0) <| .ok (.fcvtif (BitVec.ofNat 3 (field w 24 22)) (Dst.ofCode (field w 21 16)) (Src.ofCode (field w 15 10)))
  | 11 => reserved (field w 9 4 == 0) <| .ok (.fcvtfi (BitVec.ofNat 3 (field w 24 22)) (Dst.ofCode (field w 21 16)) (Src.ofCode (field w 15 10)))
  | 12 => reserved (field w 9 4 == 0) <| .ok (.fclass (BitVec.ofNat 3 (field w 24 22)) (Dst.ofCode (field w 21 16)) (Src.ofCode (field w 15 10)))
  | 13 => reserved (field w 9 4 == 0) <| .ok (.fabs (BitVec.ofNat 3 (field w 24 22)) (Dst.ofCode (field w 21 16)) (Src.ofCode (field w 15 10)))
  | 14 => reserved (field w 9 4 == 0) <| .ok (.fneg (BitVec.ofNat 3 (field w 24 22)) (Dst.ofCode (field w 21 16)) (Src.ofCode (field w 15 10)))
  | 15 => .ok (.fsgnj (BitVec.ofNat 3 (field w 24 22)) (Dst.ofCode (field w 21 16)) (Src.ofCode (field w 15 10)) (Src.ofCode (field w 9 4)))
  | _ => .error .illegalInstruction

/-- Major 0x10 of R144: the minor operation, its reserved and fixed fields, its operands. -/
def decodeMajor10 (w : Nat) : Except DecodeError Instr :=
  match field w 3 2 with
  | 0 => .ok (.fma (BitVec.ofNat 3 (field w 24 22)) (Dst.ofCode (field w 21 16)) (Src.ofCode (field w 15 10)) (Src.ofCode (field w 9 4)) (BitVec.ofNat 2 (field w 1 0)))
  | 1 => .ok (.fms (BitVec.ofNat 3 (field w 24 22)) (Dst.ofCode (field w 21 16)) (Src.ofCode (field w 15 10)) (Src.ofCode (field w 9 4)) (BitVec.ofNat 2 (field w 1 0)))
  | 2 => .ok (.fnma (BitVec.ofNat 3 (field w 24 22)) (Dst.ofCode (field w 21 16)) (Src.ofCode (field w 15 10)) (Src.ofCode (field w 9 4)) (BitVec.ofNat 2 (field w 1 0)))
  | 3 => .ok (.fnms (BitVec.ofNat 3 (field w 24 22)) (Dst.ofCode (field w 21 16)) (Src.ofCode (field w 15 10)) (Src.ofCode (field w 9 4)) (BitVec.ofNat 2 (field w 1 0)))
  | _ => .error .illegalInstruction

/-- Major 0x18 of R144: the minor operation, its reserved and fixed fields, its operands. -/
def decodeMajor18 (w : Nat) : Except DecodeError Instr :=
  match field w 3 0 with
  | 0 => reserved (field w 21 16 == 0) <| reserved (field w 9 4 == 0) <| .ok (.jr (BitVec.ofNat 3 (field w 24 22)) (Src.ofCode (field w 15 10)))
  | 1 => reserved (field w 21 16 == 0) <| reserved (field w 15 10 == 0) <| reserved (field w 9 4 == 0) <| .ok (.ret (BitVec.ofNat 3 (field w 24 22)))
  | 2 => reserved (field w 21 16 == 0) <| reserved (field w 15 10 == 0) <| reserved (field w 9 4 == 0) <| .ok (.yield (BitVec.ofNat 3 (field w 24 22)))
  | 3 => reserved (field w 21 16 == 0) <| reserved (field w 15 10 == 0) <| reserved (field w 9 4 == 0) <| .ok (.done (BitVec.ofNat 3 (field w 24 22)))
  | 4 => reserved (field w 21 16 == 0) <| reserved (field w 15 10 == 0) <| reserved (field w 9 4 == 0) <| .ok (.donef (BitVec.ofNat 3 (field w 24 22)))
  | 5 => reserved (field w 21 16 == 0) <| reserved (field w 15 10 == 0) <| reserved (field w 9 4 == 0) <| .ok (.nop (BitVec.ofNat 3 (field w 24 22)))
  | 6 => reserved (field w 21 16 == 0) <| reserved (field w 9 4 == 0) <| .ok (.waitf (BitVec.ofNat 3 (field w 24 22)) (Src.ofCode (field w 15 10)))
  | 7 => reserved (field w 21 16 == 0) <| reserved (field w 9 4 == 0) <| .ok (.femark (BitVec.ofNat 3 (field w 24 22)) (Src.ofCode (field w 15 10)))
  | 8 => reserved (field w 21 16 == 0) <| reserved (field w 9 4 == 0) <| .ok (.fefill (BitVec.ofNat 3 (field w 24 22)) (Src.ofCode (field w 15 10)))
  | 9 => reserved (field w 9 4 == 0) <| .ok (.fetest (BitVec.ofNat 3 (field w 24 22)) (Dst.ofCode (field w 21 16)) (Src.ofCode (field w 15 10)))
  | 10 => reserved (field w 9 4 == 0) <| .ok (.bararr (BitVec.ofNat 3 (field w 24 22)) (Dst.ofCode (field w 21 16)) (Src.ofCode (field w 15 10)))
  | 11 => .ok (.barwait (BitVec.ofNat 3 (field w 24 22)) (Dst.ofCode (field w 21 16)) (Src.ofCode (field w 15 10)) (Src.ofCode (field w 9 4)))
  | _ => .error .illegalInstruction

/-- Major 0x1B of R144: the minor operation, its reserved and fixed fields, its operands. -/
def decodeMajor1B (w : Nat) : Except DecodeError Instr :=
  match field w 3 0 with
  | 0 => reserved (field w 21 16 == 0) <| reserved (field w 15 10 == 0) <| reserved (field w 9 7 == 0) <| .ok (.fenceRel (BitVec.ofNat 3 (field w 24 22)) (BitVec.ofNat 3 (field w 6 4)))
  | 1 => reserved (field w 21 16 == 0) <| reserved (field w 15 10 == 0) <| reserved (field w 9 7 == 0) <| .ok (.fenceAcq (BitVec.ofNat 3 (field w 24 22)) (BitVec.ofNat 3 (field w 6 4)))
  | 2 => reserved (field w 21 16 == 0) <| reserved (field w 15 10 == 0) <| reserved (field w 9 7 == 0) <| .ok (.fenceFull (BitVec.ofNat 3 (field w 24 22)) (BitVec.ofNat 3 (field w 6 4)))
  | 3 => reserved (field w 21 16 == 0) <| reserved (field w 15 10 == 0) <| reserved (field w 9 7 == 0) <| fixed (field w 6 4 == 1) <| .ok (.fenceLb (BitVec.ofNat 3 (field w 24 22)))
  | _ => .error .illegalInstruction

/-- Major 0x1F of R144: the minor operation, its reserved and fixed fields, its operands. -/
def decodeMajor1F (w : Nat) : Except DecodeError Instr :=
  match field w 3 0 with
  | 0 => .ok (.ldx (BitVec.ofNat 3 (field w 24 22)) (Dst.ofCode (field w 21 16)) (Src.ofCode (field w 15 10)) (Src.ofCode (field w 9 4)))
  | 1 => .ok (.stx (BitVec.ofNat 3 (field w 24 22)) (Src.ofCode (field w 21 16)) (Src.ofCode (field w 15 10)) (Src.ofCode (field w 9 4)))
  | 2 => .ok (.ldt (BitVec.ofNat 3 (field w 24 22)) (Dst.ofCode (field w 21 16)) (Src.ofCode (field w 15 10)) (Src.ofCode (field w 9 4)))
  | 3 => .ok (.stf (BitVec.ofNat 3 (field w 24 22)) (Src.ofCode (field w 21 16)) (Src.ofCode (field w 15 10)) (Src.ofCode (field w 9 4)))
  | _ => .error .illegalInstruction

/-- Major 0x20 of R144: the minor operation, its reserved and fixed fields, its operands. -/
def decodeMajor20 (w : Nat) : Except DecodeError Instr :=
  match field w 3 0 with
  | 0 => .ok (.aadd (BitVec.ofNat 3 (field w 24 22)) (Dst.ofCode (field w 21 16)) (Src.ofCode (field w 15 10)) (Src.ofCode (field w 9 4)))
  | 1 => .ok (.amax (BitVec.ofNat 3 (field w 24 22)) (Dst.ofCode (field w 21 16)) (Src.ofCode (field w 15 10)) (Src.ofCode (field w 9 4)))
  | 2 => .ok (.amin (BitVec.ofNat 3 (field w 24 22)) (Dst.ofCode (field w 21 16)) (Src.ofCode (field w 15 10)) (Src.ofCode (field w 9 4)))
  | 3 => .ok (.amaxu (BitVec.ofNat 3 (field w 24 22)) (Dst.ofCode (field w 21 16)) (Src.ofCode (field w 15 10)) (Src.ofCode (field w 9 4)))
  | 4 => .ok (.aminu (BitVec.ofNat 3 (field w 24 22)) (Dst.ofCode (field w 21 16)) (Src.ofCode (field w 15 10)) (Src.ofCode (field w 9 4)))
  | 5 => .ok (.aand (BitVec.ofNat 3 (field w 24 22)) (Dst.ofCode (field w 21 16)) (Src.ofCode (field w 15 10)) (Src.ofCode (field w 9 4)))
  | 6 => .ok (.aor (BitVec.ofNat 3 (field w 24 22)) (Dst.ofCode (field w 21 16)) (Src.ofCode (field w 15 10)) (Src.ofCode (field w 9 4)))
  | 7 => .ok (.axor (BitVec.ofNat 3 (field w 24 22)) (Dst.ofCode (field w 21 16)) (Src.ofCode (field w 15 10)) (Src.ofCode (field w 9 4)))
  | 8 => .ok (.aswap (BitVec.ofNat 3 (field w 24 22)) (Dst.ofCode (field w 21 16)) (Src.ofCode (field w 15 10)) (Src.ofCode (field w 9 4)))
  | 9 => .ok (.acas (BitVec.ofNat 3 (field w 24 22)) (Dst.ofCode (field w 21 16)) (Src.ofCode (field w 15 10)) (Src.ofCode (field w 9 4)))
  | 10 => .ok (.afxadd (BitVec.ofNat 3 (field w 24 22)) (Dst.ofCode (field w 21 16)) (Src.ofCode (field w 15 10)) (Src.ofCode (field w 9 4)))
  | 11 => reserved (field w 9 4 == 0) <| .ok (.afxrd (BitVec.ofNat 3 (field w 24 22)) (Dst.ofCode (field w 21 16)) (Src.ofCode (field w 15 10)))
  | 12 => .ok (.afxset (BitVec.ofNat 3 (field w 24 22)) (Dst.ofCode (field w 21 16)) (Src.ofCode (field w 15 10)) (Src.ofCode (field w 9 4)))
  | 13 => .ok (.aamax (BitVec.ofNat 3 (field w 24 22)) (Dst.ofCode (field w 21 16)) (Src.ofCode (field w 15 10)) (Src.ofCode (field w 9 4)))
  | _ => .error .illegalInstruction

/-- Major 0x21 of R144: the minor operation, its reserved and fixed fields, its operands. -/
def decodeMajor21 (w : Nat) : Except DecodeError Instr :=
  match field w 3 0 with
  | 0 => .ok (.vaadd (BitVec.ofNat 3 (field w 24 22)) (VSrc.ofCode (field w 21 16)) (Src.ofCode (field w 15 10)) (Src.ofCode (field w 9 4)))
  | 1 => .ok (.vamaxabs (BitVec.ofNat 3 (field w 24 22)) (VSrc.ofCode (field w 21 16)) (Src.ofCode (field w 15 10)) (Src.ofCode (field w 9 4)))
  | 2 => .ok (.vafx (BitVec.ofNat 3 (field w 24 22)) (VSrc.ofCode (field w 21 16)) (Src.ofCode (field w 15 10)) (VSrc.ofCode (field w 9 4)))
  | 3 => reserved (field w 9 4 == 0) <| .ok (.vamaxDrain (BitVec.ofNat 3 (field w 24 22)) (VSrc.ofCode (field w 21 16)) (Src.ofCode (field w 15 10)))
  | _ => .error .illegalInstruction

/-- Major 0x22 of R144: the minor operation, its reserved and fixed fields, its operands. -/
def decodeMajor22 (w : Nat) : Except DecodeError Instr :=
  match field w 1 0 with
  | 0 => .ok (.vadd (BitVec.ofNat 3 (field w 24 22)) (VDst.ofCode (field w 21 16)) (VSrc.ofCode (field w 15 10)) (VSrc.ofCode (field w 9 4)) (BitVec.ofNat 2 (field w 3 2)))
  | 1 => .ok (.vsub (BitVec.ofNat 3 (field w 24 22)) (VDst.ofCode (field w 21 16)) (VSrc.ofCode (field w 15 10)) (VSrc.ofCode (field w 9 4)) (BitVec.ofNat 2 (field w 3 2)))
  | 2 => .ok (.vmul (BitVec.ofNat 3 (field w 24 22)) (VDst.ofCode (field w 21 16)) (VSrc.ofCode (field w 15 10)) (VSrc.ofCode (field w 9 4)) (BitVec.ofNat 2 (field w 3 2)))
  | 3 => .ok (.vmulh (BitVec.ofNat 3 (field w 24 22)) (VDst.ofCode (field w 21 16)) (VSrc.ofCode (field w 15 10)) (VSrc.ofCode (field w 9 4)) (BitVec.ofNat 2 (field w 3 2)))
  | _ => .error .illegalInstruction

/-- Major 0x23 of R144: the minor operation, its reserved and fixed fields, its operands. -/
def decodeMajor23 (w : Nat) : Except DecodeError Instr :=
  match field w 1 0 with
  | 0 => .ok (.vand (BitVec.ofNat 3 (field w 24 22)) (VDst.ofCode (field w 21 16)) (VSrc.ofCode (field w 15 10)) (VSrc.ofCode (field w 9 4)) (BitVec.ofNat 2 (field w 3 2)))
  | 1 => .ok (.vor (BitVec.ofNat 3 (field w 24 22)) (VDst.ofCode (field w 21 16)) (VSrc.ofCode (field w 15 10)) (VSrc.ofCode (field w 9 4)) (BitVec.ofNat 2 (field w 3 2)))
  | 2 => .ok (.vxor (BitVec.ofNat 3 (field w 24 22)) (VDst.ofCode (field w 21 16)) (VSrc.ofCode (field w 15 10)) (VSrc.ofCode (field w 9 4)) (BitVec.ofNat 2 (field w 3 2)))
  | 3 => .ok (.vandn (BitVec.ofNat 3 (field w 24 22)) (VDst.ofCode (field w 21 16)) (VSrc.ofCode (field w 15 10)) (VSrc.ofCode (field w 9 4)) (BitVec.ofNat 2 (field w 3 2)))
  | _ => .error .illegalInstruction

/-- Major 0x24 of R144: the minor operation, its reserved and fixed fields, its operands. -/
def decodeMajor24 (w : Nat) : Except DecodeError Instr :=
  match field w 1 0 with
  | 0 => .ok (.vshl (BitVec.ofNat 3 (field w 24 22)) (VDst.ofCode (field w 21 16)) (VSrc.ofCode (field w 15 10)) (VSrc.ofCode (field w 9 4)) (BitVec.ofNat 2 (field w 3 2)))
  | 1 => .ok (.vshr (BitVec.ofNat 3 (field w 24 22)) (VDst.ofCode (field w 21 16)) (VSrc.ofCode (field w 15 10)) (VSrc.ofCode (field w 9 4)) (BitVec.ofNat 2 (field w 3 2)))
  | 2 => .ok (.vshra (BitVec.ofNat 3 (field w 24 22)) (VDst.ofCode (field w 21 16)) (VSrc.ofCode (field w 15 10)) (VSrc.ofCode (field w 9 4)) (BitVec.ofNat 2 (field w 3 2)))
  | 3 => .ok (.vabsd (BitVec.ofNat 3 (field w 24 22)) (VDst.ofCode (field w 21 16)) (VSrc.ofCode (field w 15 10)) (VSrc.ofCode (field w 9 4)) (BitVec.ofNat 2 (field w 3 2)))
  | _ => .error .illegalInstruction

/-- Major 0x25 of R144: the minor operation, its reserved and fixed fields, its operands. -/
def decodeMajor25 (w : Nat) : Except DecodeError Instr :=
  match field w 1 0 with
  | 0 => .ok (.vmin (BitVec.ofNat 3 (field w 24 22)) (VDst.ofCode (field w 21 16)) (VSrc.ofCode (field w 15 10)) (VSrc.ofCode (field w 9 4)) (BitVec.ofNat 2 (field w 3 2)))
  | 1 => .ok (.vmax (BitVec.ofNat 3 (field w 24 22)) (VDst.ofCode (field w 21 16)) (VSrc.ofCode (field w 15 10)) (VSrc.ofCode (field w 9 4)) (BitVec.ofNat 2 (field w 3 2)))
  | 2 => .ok (.vminu (BitVec.ofNat 3 (field w 24 22)) (VDst.ofCode (field w 21 16)) (VSrc.ofCode (field w 15 10)) (VSrc.ofCode (field w 9 4)) (BitVec.ofNat 2 (field w 3 2)))
  | 3 => .ok (.vmaxu (BitVec.ofNat 3 (field w 24 22)) (VDst.ofCode (field w 21 16)) (VSrc.ofCode (field w 15 10)) (VSrc.ofCode (field w 9 4)) (BitVec.ofNat 2 (field w 3 2)))
  | _ => .error .illegalInstruction

/-- Major 0x26 of R144: the minor operation, its reserved and fixed fields, its operands. -/
def decodeMajor26 (w : Nat) : Except DecodeError Instr :=
  match field w 1 0 with
  | 0 => .ok (.vfadd (BitVec.ofNat 3 (field w 24 22)) (VDst.ofCode (field w 21 16)) (VSrc.ofCode (field w 15 10)) (VSrc.ofCode (field w 9 4)) (BitVec.ofNat 2 (field w 3 2)))
  | 1 => .ok (.vfsub (BitVec.ofNat 3 (field w 24 22)) (VDst.ofCode (field w 21 16)) (VSrc.ofCode (field w 15 10)) (VSrc.ofCode (field w 9 4)) (BitVec.ofNat 2 (field w 3 2)))
  | 2 => .ok (.vfmul (BitVec.ofNat 3 (field w 24 22)) (VDst.ofCode (field w 21 16)) (VSrc.ofCode (field w 15 10)) (VSrc.ofCode (field w 9 4)) (BitVec.ofNat 2 (field w 3 2)))
  | 3 => .ok (.vfdiv (BitVec.ofNat 3 (field w 24 22)) (VDst.ofCode (field w 21 16)) (VSrc.ofCode (field w 15 10)) (VSrc.ofCode (field w 9 4)) (BitVec.ofNat 2 (field w 3 2)))
  | _ => .error .illegalInstruction

/-- Major 0x27 of R144: the minor operation, its reserved and fixed fields, its operands. -/
def decodeMajor27 (w : Nat) : Except DecodeError Instr :=
  match field w 1 0 with
  | 0 => .ok (.vfmin (BitVec.ofNat 3 (field w 24 22)) (VDst.ofCode (field w 21 16)) (VSrc.ofCode (field w 15 10)) (VSrc.ofCode (field w 9 4)) (BitVec.ofNat 2 (field w 3 2)))
  | 1 => .ok (.vfmax (BitVec.ofNat 3 (field w 24 22)) (VDst.ofCode (field w 21 16)) (VSrc.ofCode (field w 15 10)) (VSrc.ofCode (field w 9 4)) (BitVec.ofNat 2 (field w 3 2)))
  | 2 => reserved (field w 9 4 == 0) <| .ok (.vfabs (BitVec.ofNat 3 (field w 24 22)) (VDst.ofCode (field w 21 16)) (VSrc.ofCode (field w 15 10)) (BitVec.ofNat 2 (field w 3 2)))
  | 3 => reserved (field w 9 4 == 0) <| .ok (.vfneg (BitVec.ofNat 3 (field w 24 22)) (VDst.ofCode (field w 21 16)) (VSrc.ofCode (field w 15 10)) (BitVec.ofNat 2 (field w 3 2)))
  | _ => .error .illegalInstruction

/-- Major 0x28 of R144: the minor operation, its reserved and fixed fields, its operands. -/
def decodeMajor28 (w : Nat) : Except DecodeError Instr :=
  match field w 3 2 with
  | 0 => .ok (.vfma (BitVec.ofNat 3 (field w 24 22)) (VDst.ofCode (field w 21 16)) (VSrc.ofCode (field w 15 10)) (VSrc.ofCode (field w 9 4)) (BitVec.ofNat 2 (field w 1 0)))
  | 1 => .ok (.vfms (BitVec.ofNat 3 (field w 24 22)) (VDst.ofCode (field w 21 16)) (VSrc.ofCode (field w 15 10)) (VSrc.ofCode (field w 9 4)) (BitVec.ofNat 2 (field w 1 0)))
  | 2 => .ok (.vfnma (BitVec.ofNat 3 (field w 24 22)) (VDst.ofCode (field w 21 16)) (VSrc.ofCode (field w 15 10)) (VSrc.ofCode (field w 9 4)) (BitVec.ofNat 2 (field w 1 0)))
  | 3 => .ok (.vfnms (BitVec.ofNat 3 (field w 24 22)) (VDst.ofCode (field w 21 16)) (VSrc.ofCode (field w 15 10)) (VSrc.ofCode (field w 9 4)) (BitVec.ofNat 2 (field w 1 0)))
  | _ => .error .illegalInstruction

/-- Major 0x29 of R144: the minor operation, its reserved and fixed fields, its operands. -/
def decodeMajor29 (w : Nat) : Except DecodeError Instr :=
  match field w 1 0 with
  | 0 => fixed (field w 21 18 == 0) <| .ok (.vcmpeq (BitVec.ofNat 3 (field w 24 22)) (BitVec.ofNat 2 (field w 17 16)) (VSrc.ofCode (field w 15 10)) (VSrc.ofCode (field w 9 4)) (BitVec.ofNat 2 (field w 3 2)))
  | 1 => fixed (field w 21 18 == 0) <| .ok (.vcmplt (BitVec.ofNat 3 (field w 24 22)) (BitVec.ofNat 2 (field w 17 16)) (VSrc.ofCode (field w 15 10)) (VSrc.ofCode (field w 9 4)) (BitVec.ofNat 2 (field w 3 2)))
  | 2 => fixed (field w 21 18 == 0) <| .ok (.vcmpltu (BitVec.ofNat 3 (field w 24 22)) (BitVec.ofNat 2 (field w 17 16)) (VSrc.ofCode (field w 15 10)) (VSrc.ofCode (field w 9 4)) (BitVec.ofNat 2 (field w 3 2)))
  | 3 => fixed (field w 21 18 == 0) <| .ok (.vcmple (BitVec.ofNat 3 (field w 24 22)) (BitVec.ofNat 2 (field w 17 16)) (VSrc.ofCode (field w 15 10)) (VSrc.ofCode (field w 9 4)) (BitVec.ofNat 2 (field w 3 2)))
  | _ => .error .illegalInstruction

/-- Major 0x2A of R144: the minor operation, its reserved and fixed fields, its operands. -/
def decodeMajor2A (w : Nat) : Except DecodeError Instr :=
  match field w 1 0 with
  | 0 => fixed (field w 21 18 == 0) <| .ok (.vfcmpeq (BitVec.ofNat 3 (field w 24 22)) (BitVec.ofNat 2 (field w 17 16)) (VSrc.ofCode (field w 15 10)) (VSrc.ofCode (field w 9 4)) (BitVec.ofNat 2 (field w 3 2)))
  | 1 => fixed (field w 21 18 == 0) <| .ok (.vfcmplt (BitVec.ofNat 3 (field w 24 22)) (BitVec.ofNat 2 (field w 17 16)) (VSrc.ofCode (field w 15 10)) (VSrc.ofCode (field w 9 4)) (BitVec.ofNat 2 (field w 3 2)))
  | 2 => fixed (field w 21 18 == 0) <| .ok (.vfcmple (BitVec.ofNat 3 (field w 24 22)) (BitVec.ofNat 2 (field w 17 16)) (VSrc.ofCode (field w 15 10)) (VSrc.ofCode (field w 9 4)) (BitVec.ofNat 2 (field w 3 2)))
  | 3 => fixed (field w 21 18 == 0) <| .ok (.vfcmpun (BitVec.ofNat 3 (field w 24 22)) (BitVec.ofNat 2 (field w 17 16)) (VSrc.ofCode (field w 15 10)) (VSrc.ofCode (field w 9 4)) (BitVec.ofNat 2 (field w 3 2)))
  | _ => .error .illegalInstruction

/-- Major 0x2B of R144: the minor operation, its reserved and fixed fields, its operands. -/
def decodeMajor2B (w : Nat) : Except DecodeError Instr :=
  match field w 1 0 with
  | 0 => .ok (.vsel (BitVec.ofNat 3 (field w 24 22)) (VDst.ofCode (field w 21 16)) (VSrc.ofCode (field w 15 10)) (VSrc.ofCode (field w 9 4)) (BitVec.ofNat 2 (field w 3 2)))
  | 1 => .ok (.vbcast (BitVec.ofNat 3 (field w 24 22)) (VDst.ofCode (field w 21 16)) (VSrc.ofCode (field w 15 10)) (Src.ofCode (field w 9 4)) (BitVec.ofNat 2 (field w 3 2)))
  | 2 => .ok (.vextr (BitVec.ofNat 3 (field w 24 22)) (Dst.ofCode (field w 21 16)) (VSrc.ofCode (field w 15 10)) (Src.ofCode (field w 9 4)) (BitVec.ofNat 2 (field w 3 2)))
  | 3 => .ok (.vins (BitVec.ofNat 3 (field w 24 22)) (VDst.ofCode (field w 21 16)) (VSrc.ofCode (field w 15 10)) (Src.ofCode (field w 9 4)) (BitVec.ofNat 2 (field w 3 2)))
  | _ => .error .illegalInstruction

/-- Major 0x2C of R144: the minor operation, its reserved and fixed fields, its operands. -/
def decodeMajor2C (w : Nat) : Except DecodeError Instr :=
  match field w 1 0 with
  | 0 => .ok (.vperm (BitVec.ofNat 3 (field w 24 22)) (VDst.ofCode (field w 21 16)) (VSrc.ofCode (field w 15 10)) (VSrc.ofCode (field w 9 4)) (BitVec.ofNat 2 (field w 3 2)))
  | 1 => .ok (.vrot (BitVec.ofNat 3 (field w 24 22)) (VDst.ofCode (field w 21 16)) (VSrc.ofCode (field w 15 10)) (Src.ofCode (field w 9 4)) (BitVec.ofNat 2 (field w 3 2)))
  | 2 => reserved (field w 9 4 == 0) <| .ok (.vcomp (BitVec.ofNat 3 (field w 24 22)) (VDst.ofCode (field w 21 16)) (VSrc.ofCode (field w 15 10)) (BitVec.ofNat 2 (field w 3 2)))
  | 3 => reserved (field w 9 4 == 0) <| .ok (.vexpn (BitVec.ofNat 3 (field w 24 22)) (VDst.ofCode (field w 21 16)) (VSrc.ofCode (field w 15 10)) (BitVec.ofNat 2 (field w 3 2)))
  | _ => .error .illegalInstruction

/-- Major 0x2D of R144: the minor operation, its reserved and fixed fields, its operands. -/
def decodeMajor2D (w : Nat) : Except DecodeError Instr :=
  match field w 1 0 with
  | 0 => reserved (field w 9 4 == 0) <| .ok (.vredadd (BitVec.ofNat 3 (field w 24 22)) (Dst.ofCode (field w 21 16)) (VSrc.ofCode (field w 15 10)) (BitVec.ofNat 2 (field w 3 2)))
  | 1 => reserved (field w 9 4 == 0) <| .ok (.vredmax (BitVec.ofNat 3 (field w 24 22)) (Dst.ofCode (field w 21 16)) (VSrc.ofCode (field w 15 10)) (BitVec.ofNat 2 (field w 3 2)))
  | 2 => reserved (field w 9 4 == 0) <| .ok (.vredmin (BitVec.ofNat 3 (field w 24 22)) (Dst.ofCode (field w 21 16)) (VSrc.ofCode (field w 15 10)) (BitVec.ofNat 2 (field w 3 2)))
  | 3 => reserved (field w 9 4 == 0) <| .ok (.vfredadd (BitVec.ofNat 3 (field w 24 22)) (Dst.ofCode (field w 21 16)) (VSrc.ofCode (field w 15 10)) (BitVec.ofNat 2 (field w 3 2)))
  | _ => .error .illegalInstruction

/-- Major 0x2E of R144: the minor operation, its reserved and fixed fields, its operands. -/
def decodeMajor2E (w : Nat) : Except DecodeError Instr :=
  match field w 1 0 with
  | 0 => reserved (field w 9 4 == 0) <| .ok (.vcvt (BitVec.ofNat 3 (field w 24 22)) (VDst.ofCode (field w 21 16)) (VSrc.ofCode (field w 15 10)) (BitVec.ofNat 2 (field w 3 2)))
  | 1 => reserved (field w 9 4 == 0) <| .ok (.vwiden (BitVec.ofNat 3 (field w 24 22)) (VDst.ofCode (field w 21 16)) (VSrc.ofCode (field w 15 10)) (BitVec.ofNat 2 (field w 3 2)))
  | 2 => reserved (field w 9 4 == 0) <| .ok (.vnarrow (BitVec.ofNat 3 (field w 24 22)) (VDst.ofCode (field w 21 16)) (VSrc.ofCode (field w 15 10)) (BitVec.ofNat 2 (field w 3 2)))
  | 3 => reserved (field w 9 4 == 0) <| .ok (.vround (BitVec.ofNat 3 (field w 24 22)) (VDst.ofCode (field w 21 16)) (VSrc.ofCode (field w 15 10)) (BitVec.ofNat 2 (field w 3 2)))
  | _ => .error .illegalInstruction

/-- Major 0x2F of R144: the minor operation, its reserved and fixed fields, its operands. -/
def decodeMajor2F (w : Nat) : Except DecodeError Instr :=
  match field w 1 0 with
  | 0 => reserved (field w 9 4 == 0) <| .ok (.vfexp (BitVec.ofNat 3 (field w 24 22)) (VDst.ofCode (field w 21 16)) (VSrc.ofCode (field w 15 10)) (BitVec.ofNat 2 (field w 3 2)))
  | 1 => reserved (field w 9 4 == 0) <| .ok (.vflog (BitVec.ofNat 3 (field w 24 22)) (VDst.ofCode (field w 21 16)) (VSrc.ofCode (field w 15 10)) (BitVec.ofNat 2 (field w 3 2)))
  | 2 => reserved (field w 9 4 == 0) <| .ok (.vfrecip (BitVec.ofNat 3 (field w 24 22)) (VDst.ofCode (field w 21 16)) (VSrc.ofCode (field w 15 10)) (BitVec.ofNat 2 (field w 3 2)))
  | 3 => reserved (field w 9 4 == 0) <| .ok (.vfrsqrt (BitVec.ofNat 3 (field w 24 22)) (VDst.ofCode (field w 21 16)) (VSrc.ofCode (field w 15 10)) (BitVec.ofNat 2 (field w 3 2)))
  | _ => .error .illegalInstruction

/-- Major 0x30 of R144: the minor operation, its reserved and fixed fields, its operands. -/
def decodeMajor30 (w : Nat) : Except DecodeError Instr :=
  match field w 1 0 with
  | 0 => reserved (field w 9 4 == 0) <| .ok (.vftanh (BitVec.ofNat 3 (field w 24 22)) (VDst.ofCode (field w 21 16)) (VSrc.ofCode (field w 15 10)) (BitVec.ofNat 2 (field w 3 2)))
  | 1 => reserved (field w 9 4 == 0) <| .ok (.vfsigm (BitVec.ofNat 3 (field w 24 22)) (VDst.ofCode (field w 21 16)) (VSrc.ofCode (field w 15 10)) (BitVec.ofNat 2 (field w 3 2)))
  | 2 => reserved (field w 9 4 == 0) <| .ok (.vfsin (BitVec.ofNat 3 (field w 24 22)) (VDst.ofCode (field w 21 16)) (VSrc.ofCode (field w 15 10)) (BitVec.ofNat 2 (field w 3 2)))
  | 3 => reserved (field w 9 4 == 0) <| .ok (.vfcos (BitVec.ofNat 3 (field w 24 22)) (VDst.ofCode (field w 21 16)) (VSrc.ofCode (field w 15 10)) (BitVec.ofNat 2 (field w 3 2)))
  | _ => .error .illegalInstruction

/-- Major 0x31 of R144: the minor operation, its reserved and fixed fields, its operands. -/
def decodeMajor31 (w : Nat) : Except DecodeError Instr :=
  match field w 1 0 with
  | 0 => reserved (field w 9 4 == 0) <| .ok (.vamax (BitVec.ofNat 3 (field w 24 22)) (Dst.ofCode (field w 21 16)) (VSrc.ofCode (field w 15 10)) (BitVec.ofNat 2 (field w 3 2)))
  | 1 => reserved (field w 9 4 == 0) <| .ok (.vquant (BitVec.ofNat 3 (field w 24 22)) (VDst.ofCode (field w 21 16)) (VSrc.ofCode (field w 15 10)) (BitVec.ofNat 2 (field w 3 2)))
  | 2 => .ok (.vscale (BitVec.ofNat 3 (field w 24 22)) (VDst.ofCode (field w 21 16)) (VSrc.ofCode (field w 15 10)) (Src.ofCode (field w 9 4)) (BitVec.ofNat 2 (field w 3 2)))
  | 3 => .ok (.vdot (BitVec.ofNat 3 (field w 24 22)) (VDst.ofCode (field w 21 16)) (VSrc.ofCode (field w 15 10)) (VSrc.ofCode (field w 9 4)) (BitVec.ofNat 2 (field w 3 2)))
  | _ => .error .illegalInstruction

/-- Major 0x32 of R144: the minor operation, its reserved and fixed fields, its operands. -/
def decodeMajor32 (w : Nat) : Except DecodeError Instr :=
  match field w 1 0 with
  | 0 => fixed (field w 21 18 == 0) <| fixed (field w 15 12 == 0) <| fixed (field w 9 6 == 0) <| .ok (.mand (BitVec.ofNat 3 (field w 24 22)) (BitVec.ofNat 2 (field w 17 16)) (BitVec.ofNat 2 (field w 11 10)) (BitVec.ofNat 2 (field w 5 4)) (BitVec.ofNat 2 (field w 3 2)))
  | 1 => fixed (field w 21 18 == 0) <| fixed (field w 15 12 == 0) <| fixed (field w 9 6 == 0) <| .ok (.mor (BitVec.ofNat 3 (field w 24 22)) (BitVec.ofNat 2 (field w 17 16)) (BitVec.ofNat 2 (field w 11 10)) (BitVec.ofNat 2 (field w 5 4)) (BitVec.ofNat 2 (field w 3 2)))
  | 2 => fixed (field w 21 18 == 0) <| fixed (field w 15 12 == 0) <| fixed (field w 9 6 == 0) <| .ok (.mxor (BitVec.ofNat 3 (field w 24 22)) (BitVec.ofNat 2 (field w 17 16)) (BitVec.ofNat 2 (field w 11 10)) (BitVec.ofNat 2 (field w 5 4)) (BitVec.ofNat 2 (field w 3 2)))
  | 3 => reserved (field w 9 4 == 0) <| fixed (field w 21 18 == 0) <| fixed (field w 15 12 == 0) <| .ok (.mnot (BitVec.ofNat 3 (field w 24 22)) (BitVec.ofNat 2 (field w 17 16)) (BitVec.ofNat 2 (field w 11 10)) (BitVec.ofNat 2 (field w 3 2)))
  | _ => .error .illegalInstruction

/-- Major 0x33 of R144: the minor operation, its reserved and fixed fields, its operands. -/
def decodeMajor33 (w : Nat) : Except DecodeError Instr :=
  match field w 1 0 with
  | 0 => reserved (field w 9 4 == 0) <| fixed (field w 15 12 == 0) <| .ok (.mpop (BitVec.ofNat 3 (field w 24 22)) (Dst.ofCode (field w 21 16)) (BitVec.ofNat 2 (field w 11 10)) (BitVec.ofNat 2 (field w 3 2)))
  | 1 => reserved (field w 9 4 == 0) <| fixed (field w 15 12 == 0) <| .ok (.mfirst (BitVec.ofNat 3 (field w 24 22)) (Dst.ofCode (field w 21 16)) (BitVec.ofNat 2 (field w 11 10)) (BitVec.ofNat 2 (field w 3 2)))
  | 2 => reserved (field w 9 4 == 0) <| fixed (field w 21 18 == 0) <| .ok (.msetn (BitVec.ofNat 3 (field w 24 22)) (BitVec.ofNat 2 (field w 17 16)) (Src.ofCode (field w 15 10)) (BitVec.ofNat 2 (field w 3 2)))
  | 3 => reserved (field w 9 4 == 0) <| fixed (field w 15 12 == 0) <| .ok (.viota (BitVec.ofNat 3 (field w 24 22)) (VDst.ofCode (field w 21 16)) (BitVec.ofNat 2 (field w 11 10)) (BitVec.ofNat 2 (field w 3 2)))
  | _ => .error .illegalInstruction

/-- Major 0x34 of R144: the minor operation, its reserved and fixed fields, its operands. -/
def decodeMajor34 (w : Nat) : Except DecodeError Instr :=
  match field w 1 0 with
  | 0 => reserved (field w 9 4 == 0) <| reserved (field w 3 2 == 0) <| .ok (.vgetsc (BitVec.ofNat 3 (field w 24 22)) (VDst.ofCode (field w 21 16)) (VSrc.ofCode (field w 15 10)))
  | 1 => reserved (field w 3 2 == 0) <| .ok (.vsetsc (BitVec.ofNat 3 (field w 24 22)) (VDst.ofCode (field w 21 16)) (VSrc.ofCode (field w 15 10)) (VSrc.ofCode (field w 9 4)))
  | 2 => reserved (field w 9 4 == 0) <| reserved (field w 3 2 == 0) <| .ok (.vmov (BitVec.ofNat 3 (field w 24 22)) (VDst.ofCode (field w 21 16)) (VSrc.ofCode (field w 15 10)))
  | 3 => reserved (field w 15 10 == 0) <| reserved (field w 9 4 == 0) <| reserved (field w 3 2 == 0) <| .ok (.vlanes (BitVec.ofNat 3 (field w 24 22)) (Dst.ofCode (field w 21 16)))
  | _ => .error .illegalInstruction

/-- Major 0x35 of R144: the minor operation, its reserved and fixed fields, its operands. -/
def decodeMajor35 (w : Nat) : Except DecodeError Instr :=
  match field w 3 0 with
  | 0 => .ok (.vld (BitVec.ofNat 3 (field w 24 22)) (VDst.ofCode (field w 21 16)) (Src.ofCode (field w 15 10)) (Src.ofCode (field w 9 4)))
  | 1 => .ok (.vst (BitVec.ofNat 3 (field w 24 22)) (VSrc.ofCode (field w 21 16)) (Src.ofCode (field w 15 10)) (Src.ofCode (field w 9 4)))
  | 2 => .ok (.vldc (BitVec.ofNat 3 (field w 24 22)) (VDst.ofCode (field w 21 16)) (Src.ofCode (field w 15 10)) (Src.ofCode (field w 9 4)))
  | 3 => .ok (.vstc (BitVec.ofNat 3 (field w 24 22)) (VSrc.ofCode (field w 21 16)) (Src.ofCode (field w 15 10)) (Src.ofCode (field w 9 4)))
  | 4 => .ok (.vlds (BitVec.ofNat 3 (field w 24 22)) (VDst.ofCode (field w 21 16)) (Src.ofCode (field w 15 10)) (Src.ofCode (field w 9 4)))
  | 5 => .ok (.vsts (BitVec.ofNat 3 (field w 24 22)) (VSrc.ofCode (field w 21 16)) (Src.ofCode (field w 15 10)) (Src.ofCode (field w 9 4)))
  | 6 => .ok (.vgath (BitVec.ofNat 3 (field w 24 22)) (VDst.ofCode (field w 21 16)) (Src.ofCode (field w 15 10)) (VSrc.ofCode (field w 9 4)))
  | 7 => .ok (.vscat (BitVec.ofNat 3 (field w 24 22)) (VSrc.ofCode (field w 21 16)) (Src.ofCode (field w 15 10)) (VSrc.ofCode (field w 9 4)))
  | _ => .error .illegalInstruction

/-- Major 0x36 of R144: the minor operation, its reserved and fixed fields, its operands. -/
def decodeMajor36 (w : Nat) : Except DecodeError Instr :=
  match field w 3 0 with
  | 0 => reserved (field w 18 16 == 0) <| reserved (field w 15 13 == 0) <| reserved (field w 6 4 == 0) <| .ok (.tld (BitVec.ofNat 3 (field w 24 22)) (BitVec.ofNat 3 (field w 21 19)) (Src.ofCode (field w 12 7)))
  | 1 => reserved (field w 21 19 == 0) <| reserved (field w 15 13 == 0) <| reserved (field w 6 4 == 0) <| .ok (.tst (BitVec.ofNat 3 (field w 24 22)) (BitVec.ofNat 3 (field w 18 16)) (Src.ofCode (field w 12 7)))
  | 2 => reserved (field w 18 16 == 0) <| reserved (field w 15 10 == 0) <| reserved (field w 9 4 == 0) <| .ok (.tzero (BitVec.ofNat 3 (field w 24 22)) (BitVec.ofNat 3 (field w 21 19)))
  | 3 => .ok (.mma (BitVec.ofNat 3 (field w 24 22)) (BitVec.ofNat 3 (field w 21 19)) (BitVec.ofNat 3 (field w 18 16)) (BitVec.ofNat 3 (field w 15 13)) (Src.ofCode (field w 12 7)) (BitVec.ofNat 3 (field w 6 4)))
  | 4 => .ok (.mmas (BitVec.ofNat 3 (field w 24 22)) (BitVec.ofNat 3 (field w 21 19)) (BitVec.ofNat 3 (field w 18 16)) (BitVec.ofNat 3 (field w 15 13)) (Src.ofCode (field w 12 7)) (BitVec.ofNat 3 (field w 6 4)))
  | 5 => reserved (field w 12 10 == 0) <| reserved (field w 9 4 == 0) <| .ok (.tadd (BitVec.ofNat 3 (field w 24 22)) (BitVec.ofNat 3 (field w 21 19)) (BitVec.ofNat 3 (field w 18 16)) (BitVec.ofNat 3 (field w 15 13)))
  | 6 => reserved (field w 15 13 == 0) <| reserved (field w 6 4 == 0) <| .ok (.tcvt (BitVec.ofNat 3 (field w 24 22)) (BitVec.ofNat 3 (field w 21 19)) (BitVec.ofNat 3 (field w 18 16)) (Src.ofCode (field w 12 7)))
  | 7 => reserved (field w 15 10 == 0) <| reserved (field w 9 4 == 0) <| .ok (.ttrans (BitVec.ofNat 3 (field w 24 22)) (BitVec.ofNat 3 (field w 21 19)) (BitVec.ofNat 3 (field w 18 16)))
  | 8 => reserved (field w 21 19 == 0) <| reserved (field w 15 13 == 0) <| reserved (field w 6 4 == 0) <| .ok (.trowv (BitVec.ofNat 3 (field w 24 22)) (BitVec.ofNat 3 (field w 18 16)) (Src.ofCode (field w 12 7)))
  | 9 => reserved (field w 18 18 == 0) <| reserved (field w 15 13 == 0) <| reserved (field w 6 4 == 0) <| .ok (.tvrow (BitVec.ofNat 3 (field w 24 22)) (BitVec.ofNat 3 (field w 21 19)) (BitVec.ofNat 2 (field w 17 16)) (Src.ofCode (field w 12 7)))
  | _ => .error .illegalInstruction

/-- Major 0x37 of R144: the minor operation, its reserved and fixed fields, its operands. -/
def decodeMajor37 (w : Nat) : Except DecodeError Instr :=
  match field w 3 0 with
  | 0 => reserved (field w 21 16 == 0) <| .ok (.send (BitVec.ofNat 3 (field w 24 22)) (Src.ofCode (field w 15 10)) (Src.ofCode (field w 9 4)))
  | 1 => .ok (.sends (BitVec.ofNat 3 (field w 24 22)) (Src.ofCode (field w 21 16)) (Src.ofCode (field w 15 10)) (Src.ofCode (field w 9 4)))
  | 2 => reserved (field w 21 16 == 0) <| .ok (.sendv (BitVec.ofNat 3 (field w 24 22)) (Src.ofCode (field w 15 10)) (VSrc.ofCode (field w 9 4)))
  | 3 => .ok (.senda (BitVec.ofNat 3 (field w 24 22)) (Src.ofCode (field w 21 16)) (Src.ofCode (field w 15 10)) (Src.ofCode (field w 9 4)))
  | 4 => reserved (field w 15 10 == 0) <| reserved (field w 9 4 == 0) <| .ok (.mlen (BitVec.ofNat 3 (field w 24 22)) (Dst.ofCode (field w 21 16)))
  | 5 => reserved (field w 15 10 == 0) <| reserved (field w 9 4 == 0) <| .ok (.msrc (BitVec.ofNat 3 (field w 24 22)) (Dst.ofCode (field w 21 16)))
  | 6 => reserved (field w 9 4 == 0) <| .ok (.launch (BitVec.ofNat 3 (field w 24 22)) (Dst.ofCode (field w 21 16)) (Src.ofCode (field w 15 10)))
  | 7 => reserved (field w 21 16 == 0) <| .ok (.cntset (BitVec.ofNat 3 (field w 24 22)) (Src.ofCode (field w 15 10)) (Src.ofCode (field w 9 4)))
  | _ => .error .illegalInstruction

/-- Major 0x38 of R144: the minor operation, its reserved and fixed fields, its operands. -/
def decodeMajor38 (w : Nat) : Except DecodeError Instr :=
  match field w 3 0 with
  | 0 => reserved (field w 9 5 == 0) <| .ok (.rcap (BitVec.ofNat 3 (field w 24 22)) (Dst.ofCode (field w 21 16)) (BitVec.ofNat 6 (field w 15 10)) (BitVec.ofNat 1 (field w 4 4)))
  | 1 => reserved (field w 21 16 == 0) <| .ok (.rput (BitVec.ofNat 3 (field w 24 22)) (Src.ofCode (field w 15 10)) (Src.ofCode (field w 9 4)))
  | 2 => reserved (field w 21 16 == 0) <| .ok (.rputv (BitVec.ofNat 3 (field w 24 22)) (Src.ofCode (field w 15 10)) (VSrc.ofCode (field w 9 4)))
  | 3 => reserved (field w 21 16 == 0) <| .ok (.rputr (BitVec.ofNat 3 (field w 24 22)) (Src.ofCode (field w 15 10)) (Src.ofCode (field w 9 4)))
  | 4 => reserved (field w 9 4 == 0) <| .ok (.rtake (BitVec.ofNat 3 (field w 24 22)) (BitVec.ofNat 6 (field w 21 16)) (BitVec.ofNat 6 (field w 15 10)))
  | 5 => reserved (field w 21 16 == 0) <| reserved (field w 9 4 == 0) <| .ok (.rempty (BitVec.ofNat 3 (field w 24 22)) (BitVec.ofNat 6 (field w 15 10)))
  | 6 => reserved (field w 9 4 == 0) <| .ok (.rfull (BitVec.ofNat 3 (field w 24 22)) (Dst.ofCode (field w 21 16)) (BitVec.ofNat 6 (field w 15 10)))
  | 7 => reserved (field w 9 4 == 0) <| .ok (.rwait (BitVec.ofNat 3 (field w 24 22)) (BitVec.ofNat 6 (field w 21 16)) (BitVec.ofNat 6 (field w 15 10)))
  | _ => .error .illegalInstruction

/-- Major 0x39 of R144: the minor operation, its reserved and fixed fields, its operands. -/
def decodeMajor39 (w : Nat) : Except DecodeError Instr :=
  match field w 3 0 with
  | 0 => .ok (.xcopy (BitVec.ofNat 3 (field w 24 22)) (Dst.ofCode (field w 21 16)) (Src.ofCode (field w 15 10)) (Src.ofCode (field w 9 4)))
  | 1 => .ok (.xcopym (BitVec.ofNat 3 (field w 24 22)) (Dst.ofCode (field w 21 16)) (Src.ofCode (field w 15 10)) (Src.ofCode (field w 9 4)))
  | 2 =>
    reserved (field w 21 20 == 0) <|
    if field w 19 19 == 1 then reserved (field w 15 10 == 0) <| reserved (field w 9 4 == 0) <| .ok (.xstrmOff (BitVec.ofNat 3 (field w 24 22)) (BitVec.ofNat 3 (field w 18 16)))
    else .ok (.xstrm (BitVec.ofNat 3 (field w 24 22)) (BitVec.ofNat 3 (field w 18 16)) (Src.ofCode (field w 15 10)) (Src.ofCode (field w 9 4)))
  | 3 => reserved (field w 9 4 == 0) <| .ok (.xwait (BitVec.ofNat 3 (field w 24 22)) (Dst.ofCode (field w 21 16)) (Src.ofCode (field w 15 10)))
  | 4 => reserved (field w 9 4 == 0) <| .ok (.xpoll (BitVec.ofNat 3 (field w 24 22)) (Dst.ofCode (field w 21 16)) (Src.ofCode (field w 15 10)))
  | 5 => reserved (field w 21 16 == 0) <| .ok (.xtdef (BitVec.ofNat 3 (field w 24 22)) (Src.ofCode (field w 15 10)) (Src.ofCode (field w 9 4)))
  | 6 => .ok (.xdig (BitVec.ofNat 3 (field w 24 22)) (Dst.ofCode (field w 21 16)) (Src.ofCode (field w 15 10)) (Src.ofCode (field w 9 4)))
  | _ => .error .illegalInstruction

/-- Major 0x3A of R144: the minor operation, its reserved and fixed fields, its operands. -/
def decodeMajor3A (w : Nat) : Except DecodeError Instr :=
  match field w 3 0 with
  | 0 => reserved (field w 21 16 == 0) <| reserved (field w 15 10 == 0) <| reserved (field w 9 4 == 0) <| .ok (.gres (BitVec.ofNat 3 (field w 24 22)))
  | 1 => reserved (field w 21 16 == 0) <| reserved (field w 15 10 == 0) <| reserved (field w 9 4 == 0) <| .ok (.gend (BitVec.ofNat 3 (field w 24 22)))
  | 2 => reserved (field w 15 10 == 0) <| reserved (field w 9 4 == 0) <| .ok (.gqry (BitVec.ofNat 3 (field w 24 22)) (Dst.ofCode (field w 21 16)))
  | 3 => reserved (field w 21 16 == 0) <| .ok (.gwin (BitVec.ofNat 3 (field w 24 22)) (Src.ofCode (field w 15 10)) (Src.ofCode (field w 9 4)))
  | _ => .error .illegalInstruction

/-- Major 0x3B of R144: the minor operation, its reserved and fixed fields, its operands. -/
def decodeMajor3B (w : Nat) : Except DecodeError Instr :=
  match field w 3 0 with
  | 0 => reserved (field w 21 16 == 0) <| reserved (field w 15 10 == 0) <| .ok (.trap (BitVec.ofNat 3 (field w 24 22)) (BitVec.ofNat 6 (field w 9 4)))
  | 1 => reserved (field w 21 16 == 0) <| reserved (field w 15 10 == 0) <| .ok (.brk (BitVec.ofNat 3 (field w 24 22)) (BitVec.ofNat 6 (field w 9 4)))
  | 2 => reserved (field w 15 10 == 0) <| reserved (field w 9 4 == 0) <| .ok (.rdtb (BitVec.ofNat 3 (field w 24 22)) (Dst.ofCode (field w 21 16)))
  | 3 => reserved (field w 21 16 == 0) <| .ok (.trmark (BitVec.ofNat 3 (field w 24 22)) (Src.ofCode (field w 15 10)) (BitVec.ofNat 6 (field w 9 4)))
  | _ => .error .illegalInstruction

/-- Major 0x3C of R144: the minor operation, its reserved and fixed fields, its operands. -/
def decodeMajor3C (w : Nat) : Except DecodeError Instr :=
  match field w 3 0 with
  | 0 => reserved (field w 21 16 == 0) <| reserved (field w 15 10 == 0) <| .ok (.eret (BitVec.ofNat 3 (field w 24 22)) (BitVec.ofNat 6 (field w 9 4)))
  | 1 => reserved (field w 21 16 == 0) <| reserved (field w 15 10 == 0) <| reserved (field w 9 5 == 0) <| .ok (.saveq (BitVec.ofNat 3 (field w 24 22)) (BitVec.ofNat 1 (field w 4 4)))
  | 2 => reserved (field w 21 16 == 0) <| reserved (field w 15 10 == 0) <| reserved (field w 9 5 == 0) <| .ok (.restq (BitVec.ofNat 3 (field w 24 22)) (BitVec.ofNat 1 (field w 4 4)))
  | 3 => .ok (.drain (BitVec.ofNat 3 (field w 24 22)) (Dst.ofCode (field w 21 16)) (Src.ofCode (field w 15 10)) (Src.ofCode (field w 9 4)))
  | 4 => .ok (.colr (BitVec.ofNat 3 (field w 24 22)) (Dst.ofCode (field w 21 16)) (Src.ofCode (field w 15 10)) (Src.ofCode (field w 9 4)))
  | 5 => .ok (.ncinv (BitVec.ofNat 3 (field w 24 22)) (Dst.ofCode (field w 21 16)) (Src.ofCode (field w 15 10)) (Src.ofCode (field w 9 4)))
  | 6 => reserved (field w 21 16 == 0) <| .ok (.wdset (BitVec.ofNat 3 (field w 24 22)) (Src.ofCode (field w 15 10)) (Src.ofCode (field w 9 4)))
  | 7 => reserved (field w 15 10 == 0) <| .ok (.haltt (BitVec.ofNat 3 (field w 24 22)) (Dst.ofCode (field w 21 16)) (BitVec.ofNat 6 (field w 9 4)))
  | 8 => reserved (field w 21 16 == 0) <| reserved (field w 15 10 == 0) <| reserved (field w 9 4 == 0) <| .ok (.idle (BitVec.ofNat 3 (field w 24 22)))
  | 9 => reserved (field w 21 16 == 0) <| .ok (.svsend (BitVec.ofNat 3 (field w 24 22)) (Src.ofCode (field w 15 10)) (Src.ofCode (field w 9 4)))
  | 10 => reserved (field w 9 4 == 0) <| .ok (.svrecv (BitVec.ofNat 3 (field w 24 22)) (Dst.ofCode (field w 21 16)) (Src.ofCode (field w 15 10)))
  | 11 => reserved (field w 15 10 == 0) <| reserved (field w 9 4 == 0) <| .ok (.intack (BitVec.ofNat 3 (field w 24 22)) (Dst.ofCode (field w 21 16)))
  | 12 => reserved (field w 9 4 == 0) <| .ok (.prcr (BitVec.ofNat 3 (field w 24 22)) (Dst.ofCode (field w 21 16)) (Src.ofCode (field w 15 10)))
  | 13 => reserved (field w 21 16 == 0) <| .ok (.pcwr (BitVec.ofNat 3 (field w 24 22)) (Src.ofCode (field w 15 10)) (Src.ofCode (field w 9 4)))
  | 14 => .ok (.swpout (BitVec.ofNat 3 (field w 24 22)) (Dst.ofCode (field w 21 16)) (Src.ofCode (field w 15 10)) (Src.ofCode (field w 9 4)))
  | 15 => .ok (.swpin (BitVec.ofNat 3 (field w 24 22)) (Dst.ofCode (field w 21 16)) (Src.ofCode (field w 15 10)) (Src.ofCode (field w 9 4)))
  | _ => .error .illegalInstruction

/-- Major 0x3D of R144: the minor operation, its reserved and fixed fields, its operands. -/
def decodeMajor3D (w : Nat) : Except DecodeError Instr :=
  match field w 3 0 with
  | 0 => reserved (field w 21 16 == 0) <| .ok (.fwdset (BitVec.ofNat 3 (field w 24 22)) (Src.ofCode (field w 15 10)) (Src.ofCode (field w 9 4)))
  | 1 => reserved (field w 9 4 == 0) <| .ok (.resett (BitVec.ofNat 3 (field w 24 22)) (Dst.ofCode (field w 21 16)) (Src.ofCode (field w 15 10)))
  | 2 => reserved (field w 21 16 == 0) <| .ok (.thrset (BitVec.ofNat 3 (field w 24 22)) (Src.ofCode (field w 15 10)) (Src.ofCode (field w 9 4)))
  | 3 => reserved (field w 21 16 == 0) <| reserved (field w 9 4 == 0) <| .ok (.slotkill (BitVec.ofNat 3 (field w 24 22)) (Src.ofCode (field w 15 10)))
  | _ => .error .illegalInstruction

/-- A 32-bit instruction W, read as one number (R130, R139 steps 2 to 4 and the fixed fields of step 6). -/
def decode32 (w : Nat) : Except DecodeError Instr :=
  match field w 30 25 with
  | 0 => decodeMajor00 w
  | 1 => decodeMajor01 w
  | 2 => decodeMajor02 w
  | 3 => .ok (.addi (BitVec.ofNat 3 (field w 24 22)) (Dst.ofCode (field w 21 16)) (Src.ofCode (field w 15 10)) (BitVec.ofNat 10 (field w 9 0)))
  | 4 => .ok (.andi (BitVec.ofNat 3 (field w 24 22)) (Dst.ofCode (field w 21 16)) (Src.ofCode (field w 15 10)) (BitVec.ofNat 10 (field w 9 0)))
  | 5 => .ok (.ori (BitVec.ofNat 3 (field w 24 22)) (Dst.ofCode (field w 21 16)) (Src.ofCode (field w 15 10)) (BitVec.ofNat 10 (field w 9 0)))
  | 6 => .ok (.xori (BitVec.ofNat 3 (field w 24 22)) (Dst.ofCode (field w 21 16)) (Src.ofCode (field w 15 10)) (BitVec.ofNat 10 (field w 9 0)))
  | 7 => .ok (.shli (BitVec.ofNat 3 (field w 24 22)) (Dst.ofCode (field w 21 16)) (Src.ofCode (field w 15 10)) (BitVec.ofNat 10 (field w 9 0)))
  | 8 => .ok (.shri (BitVec.ofNat 3 (field w 24 22)) (Dst.ofCode (field w 21 16)) (Src.ofCode (field w 15 10)) (BitVec.ofNat 10 (field w 9 0)))
  | 9 => .ok (.shrai (BitVec.ofNat 3 (field w 24 22)) (Dst.ofCode (field w 21 16)) (Src.ofCode (field w 15 10)) (BitVec.ofNat 10 (field w 9 0)))
  | 10 => .ok (.cmpeqi (BitVec.ofNat 3 (field w 24 22)) (Dst.ofCode (field w 21 16)) (Src.ofCode (field w 15 10)) (BitVec.ofNat 10 (field w 9 0)))
  | 11 => .ok (.cmplti (BitVec.ofNat 3 (field w 24 22)) (Dst.ofCode (field w 21 16)) (Src.ofCode (field w 15 10)) (BitVec.ofNat 10 (field w 9 0)))
  | 12 => .ok (.limm (BitVec.ofNat 3 (field w 24 22)) (Dst.ofCode (field w 21 16)) (BitVec.ofNat 16 (field w 15 0)))
  | 13 => .ok (.limh (BitVec.ofNat 3 (field w 24 22)) (Dst.ofCode (field w 21 16)) (BitVec.ofNat 16 (field w 15 0)))
  | 14 => decodeMajor0E w
  | 15 => decodeMajor0F w
  | 16 => decodeMajor10 w
  | 17 => .ok (.bz (BitVec.ofNat 3 (field w 24 22)) (Src.ofCode (field w 21 16)) (BitVec.ofNat 16 (field w 15 0)))
  | 18 => .ok (.bnz (BitVec.ofNat 3 (field w 24 22)) (Src.ofCode (field w 21 16)) (BitVec.ofNat 16 (field w 15 0)))
  | 19 => .ok (.bltz (BitVec.ofNat 3 (field w 24 22)) (Src.ofCode (field w 21 16)) (BitVec.ofNat 16 (field w 15 0)))
  | 20 => .ok (.bgez (BitVec.ofNat 3 (field w 24 22)) (Src.ofCode (field w 21 16)) (BitVec.ofNat 16 (field w 15 0)))
  | 21 => fixed (field w 21 16 == 16) <| .ok (.br (BitVec.ofNat 3 (field w 24 22)) (BitVec.ofNat 16 (field w 15 0)))
  | 22 => fixed (field w 21 16 == 16) <| .ok (.call (BitVec.ofNat 3 (field w 24 22)) (BitVec.ofNat 16 (field w 15 0)))
  | 23 => .ok (.loop (BitVec.ofNat 3 (field w 24 22)) (Src.ofCode (field w 21 16)) (BitVec.ofNat 16 (field w 15 0)))
  | 24 => decodeMajor18 w
  | 25 => reserved (field w 15 10 == 0) <| .ok (.crd (BitVec.ofNat 3 (field w 24 22)) (Dst.ofCode (field w 21 16)) (BitVec.ofNat 10 (field w 9 0)))
  | 26 => fixed (field w 21 16 == 16) <| .ok (.cwr (BitVec.ofNat 3 (field w 24 22)) (Src.ofCode (field w 15 10)) (BitVec.ofNat 10 (field w 9 0)))
  | 27 => decodeMajor1B w
  | 28 => .ok (.ld (BitVec.ofNat 3 (field w 24 22)) (Dst.ofCode (field w 21 16)) (Src.ofCode (field w 15 10)) (BitVec.ofNat 2 (field w 9 8)) (BitVec.ofNat 8 (field w 7 0)))
  | 29 => .ok (.lds (BitVec.ofNat 3 (field w 24 22)) (Dst.ofCode (field w 21 16)) (Src.ofCode (field w 15 10)) (BitVec.ofNat 2 (field w 9 8)) (BitVec.ofNat 8 (field w 7 0)))
  | 30 => .ok (.st (BitVec.ofNat 3 (field w 24 22)) (Src.ofCode (field w 21 16)) (Src.ofCode (field w 15 10)) (BitVec.ofNat 2 (field w 9 8)) (BitVec.ofNat 8 (field w 7 0)))
  | 31 => decodeMajor1F w
  | 32 => decodeMajor20 w
  | 33 => decodeMajor21 w
  | 34 => decodeMajor22 w
  | 35 => decodeMajor23 w
  | 36 => decodeMajor24 w
  | 37 => decodeMajor25 w
  | 38 => decodeMajor26 w
  | 39 => decodeMajor27 w
  | 40 => decodeMajor28 w
  | 41 => decodeMajor29 w
  | 42 => decodeMajor2A w
  | 43 => decodeMajor2B w
  | 44 => decodeMajor2C w
  | 45 => decodeMajor2D w
  | 46 => decodeMajor2E w
  | 47 => decodeMajor2F w
  | 48 => decodeMajor30 w
  | 49 => decodeMajor31 w
  | 50 => decodeMajor32 w
  | 51 => decodeMajor33 w
  | 52 => decodeMajor34 w
  | 53 => decodeMajor35 w
  | 54 => decodeMajor36 w
  | 55 => decodeMajor37 w
  | 56 => decodeMajor38 w
  | 57 => decodeMajor39 w
  | 58 => decodeMajor3A w
  | 59 => decodeMajor3B w
  | 60 => decodeMajor3C w
  | 61 => decodeMajor3D w
  | _ => .error .illegalInstruction

/-- A 16-bit instruction H, read as a number (R132, R133, R139). -/
def decode16 (w : Nat) : Except DecodeError Instr :=
  match field w 14 11 with
  | 0 =>
    match field w 10 0 with
    | 0 => .ok .nop16
    | 1 => .ok .done16
    | 2 => .ok .donef16
    | 3 => .ok .yield16
    | 4 => .ok .ret16
    | 5 => .ok .brk16
    | _ => .error .illegalInstruction
  | 1 => reserved (field w 0 0 == 0) <| .ok (.cAdd (Src5.ofCode (field w 10 6)) (Src5.ofCode (field w 5 1)))
  | 2 => reserved (field w 0 0 == 0) <| .ok (.cSub (Src5.ofCode (field w 10 6)) (Src5.ofCode (field w 5 1)))
  | 3 => reserved (field w 0 0 == 0) <| .ok (.cAnd (Src5.ofCode (field w 10 6)) (Src5.ofCode (field w 5 1)))
  | 4 => if field w 0 0 == 0 then .ok (.cOr (Src5.ofCode (field w 10 6)) (Src5.ofCode (field w 5 1))) else .ok (.cXor (Src5.ofCode (field w 10 6)) (Src5.ofCode (field w 5 1)))
  | 5 => reserved (field w 5 0 == 0) <| .ok (.cMov (Src5.ofCode (field w 10 6)))
  | 6 => .ok (.cAddi (Src5.ofCode (field w 10 6)) (BitVec.ofNat 6 (field w 5 0)))
  | 7 => .ok (.cLimm (BitVec.ofNat 11 (field w 10 0)))
  | 8 => .ok (.cShli (Src5.ofCode (field w 10 6)) (BitVec.ofNat 6 (field w 5 0)))
  | 9 => .ok (.cShri (Src5.ofCode (field w 10 6)) (BitVec.ofNat 6 (field w 5 0)))
  | 10 => .ok (.cBr (BitVec.ofNat 11 (field w 10 0)))
  | 11 => .ok (.cBz (Src5.ofCode (field w 10 6)) (BitVec.ofNat 6 (field w 5 0)))
  | 12 => .ok (.cBnz (Src5.ofCode (field w 10 6)) (BitVec.ofNat 6 (field w 5 0)))
  | 13 => .ok (.cLd (Src5.ofCode (field w 10 6)) (BitVec.ofNat 6 (field w 5 0)))
  | 14 => .ok (.cSt (Src5.ofCode (field w 10 6)) (BitVec.ofNat 6 (field w 5 0)))
  | _ => .error .illegalInstruction

/-- Decoding of a code store (R128): bit 15 of the first halfword gives the length, the rest of the list is what follows
the instruction. An instruction that does not fit in the list is illegal (R129). -/
def decode : List Half → Except DecodeError (Instr × List Half)
  | [] => .error .illegalInstruction
  | h :: t =>
    if h.toNat < 32768 then (decode16 h.toNat).map (fun i => (i, t))
    else
      match t with
      | [] => .error .illegalInstruction
      | l :: t' => (decode32 (h.toNat * 65536 + l.toNat)).map (fun i => (i, t'))

/-- Little-endian halfwords of bytes in ascending address order (R128); a last odd byte is dropped. -/
def halfwordsOfBytes : List Byte → List Half
  | lo :: hi :: t => BitVec.ofNat 16 (lo.toNat + 256 * hi.toNat) :: halfwordsOfBytes t
  | _ => []

/-- Decoding of any bytes (R128): the instruction and the halfwords after it, or the reason there is none. -/
def decodeBytes (bs : List Byte) : Except DecodeError (Instr × List Half) :=
  decode (halfwordsOfBytes bs)

/-- The instruction's word as one number: W for a 32-bit form, H for a 16-bit form (R130, R132, R146); 0 for a step of the
module, which has no encoding. -/
def encodeWord : Instr → Nat
  | .add stl d a b => 0x80000000 + stl.toNat * 4194304 + d.code * 65536 + a.code * 1024 + b.code * 16
  | .sub stl d a b => 0x80000001 + stl.toNat * 4194304 + d.code * 65536 + a.code * 1024 + b.code * 16
  | .and stl d a b => 0x80000002 + stl.toNat * 4194304 + d.code * 65536 + a.code * 1024 + b.code * 16
  | .or stl d a b => 0x80000003 + stl.toNat * 4194304 + d.code * 65536 + a.code * 1024 + b.code * 16
  | .xor stl d a b => 0x80000004 + stl.toNat * 4194304 + d.code * 65536 + a.code * 1024 + b.code * 16
  | .andn stl d a b => 0x80000005 + stl.toNat * 4194304 + d.code * 65536 + a.code * 1024 + b.code * 16
  | .orn stl d a b => 0x80000006 + stl.toNat * 4194304 + d.code * 65536 + a.code * 1024 + b.code * 16
  | .shl stl d a b => 0x80000007 + stl.toNat * 4194304 + d.code * 65536 + a.code * 1024 + b.code * 16
  | .shr stl d a b => 0x80000008 + stl.toNat * 4194304 + d.code * 65536 + a.code * 1024 + b.code * 16
  | .shra stl d a b => 0x80000009 + stl.toNat * 4194304 + d.code * 65536 + a.code * 1024 + b.code * 16
  | .rot stl d a b => 0x8000000A + stl.toNat * 4194304 + d.code * 65536 + a.code * 1024 + b.code * 16
  | .min stl d a b => 0x8000000B + stl.toNat * 4194304 + d.code * 65536 + a.code * 1024 + b.code * 16
  | .max stl d a b => 0x8000000C + stl.toNat * 4194304 + d.code * 65536 + a.code * 1024 + b.code * 16
  | .minu stl d a b => 0x8000000D + stl.toNat * 4194304 + d.code * 65536 + a.code * 1024 + b.code * 16
  | .maxu stl d a b => 0x8000000E + stl.toNat * 4194304 + d.code * 65536 + a.code * 1024 + b.code * 16
  | .mul stl d a b => 0x8000000F + stl.toNat * 4194304 + d.code * 65536 + a.code * 1024 + b.code * 16
  | .mulh stl d a b => 0x82000000 + stl.toNat * 4194304 + d.code * 65536 + a.code * 1024 + b.code * 16
  | .mulhu stl d a b => 0x82000001 + stl.toNat * 4194304 + d.code * 65536 + a.code * 1024 + b.code * 16
  | .div stl d a b => 0x82000002 + stl.toNat * 4194304 + d.code * 65536 + a.code * 1024 + b.code * 16
  | .divu stl d a b => 0x82000003 + stl.toNat * 4194304 + d.code * 65536 + a.code * 1024 + b.code * 16
  | .rem stl d a b => 0x82000004 + stl.toNat * 4194304 + d.code * 65536 + a.code * 1024 + b.code * 16
  | .remu stl d a b => 0x82000005 + stl.toNat * 4194304 + d.code * 65536 + a.code * 1024 + b.code * 16
  | .cmpeq stl d a b => 0x82000006 + stl.toNat * 4194304 + d.code * 65536 + a.code * 1024 + b.code * 16
  | .cmpne stl d a b => 0x82000007 + stl.toNat * 4194304 + d.code * 65536 + a.code * 1024 + b.code * 16
  | .cmplt stl d a b => 0x82000008 + stl.toNat * 4194304 + d.code * 65536 + a.code * 1024 + b.code * 16
  | .cmpltu stl d a b => 0x82000009 + stl.toNat * 4194304 + d.code * 65536 + a.code * 1024 + b.code * 16
  | .cmple stl d a b => 0x8200000A + stl.toNat * 4194304 + d.code * 65536 + a.code * 1024 + b.code * 16
  | .cmpleu stl d a b => 0x8200000B + stl.toNat * 4194304 + d.code * 65536 + a.code * 1024 + b.code * 16
  | .cmov stl d a b => 0x8200000C + stl.toNat * 4194304 + d.code * 65536 + a.code * 1024 + b.code * 16
  | .clz stl d a => 0x8200000D + stl.toNat * 4194304 + d.code * 65536 + a.code * 1024
  | .ctz stl d a => 0x8200000E + stl.toNat * 4194304 + d.code * 65536 + a.code * 1024
  | .popc stl d a => 0x8200000F + stl.toNat * 4194304 + d.code * 65536 + a.code * 1024
  | .addw stl d a b => 0x84000000 + stl.toNat * 4194304 + d.code * 65536 + a.code * 1024 + b.code * 16
  | .subw stl d a b => 0x84000001 + stl.toNat * 4194304 + d.code * 65536 + a.code * 1024 + b.code * 16
  | .mulw stl d a b => 0x84000002 + stl.toNat * 4194304 + d.code * 65536 + a.code * 1024 + b.code * 16
  | .brev stl d a => 0x84000003 + stl.toNat * 4194304 + d.code * 65536 + a.code * 1024
  | .bswap stl d a => 0x84000004 + stl.toNat * 4194304 + d.code * 65536 + a.code * 1024
  | .exts stl d a b => 0x84000005 + stl.toNat * 4194304 + d.code * 65536 + a.code * 1024 + b.code * 16
  | .extz stl d a b => 0x84000006 + stl.toNat * 4194304 + d.code * 65536 + a.code * 1024 + b.code * 16
  | .ins stl d a b => 0x84000007 + stl.toNat * 4194304 + d.code * 65536 + a.code * 1024 + b.code * 16
  | .addi stl d a i => 0x86000000 + stl.toNat * 4194304 + d.code * 65536 + a.code * 1024 + i.toNat
  | .andi stl d a i => 0x88000000 + stl.toNat * 4194304 + d.code * 65536 + a.code * 1024 + i.toNat
  | .ori stl d a i => 0x8A000000 + stl.toNat * 4194304 + d.code * 65536 + a.code * 1024 + i.toNat
  | .xori stl d a i => 0x8C000000 + stl.toNat * 4194304 + d.code * 65536 + a.code * 1024 + i.toNat
  | .shli stl d a i => 0x8E000000 + stl.toNat * 4194304 + d.code * 65536 + a.code * 1024 + i.toNat
  | .shri stl d a i => 0x90000000 + stl.toNat * 4194304 + d.code * 65536 + a.code * 1024 + i.toNat
  | .shrai stl d a i => 0x92000000 + stl.toNat * 4194304 + d.code * 65536 + a.code * 1024 + i.toNat
  | .cmpeqi stl d a i => 0x94000000 + stl.toNat * 4194304 + d.code * 65536 + a.code * 1024 + i.toNat
  | .cmplti stl d a i => 0x96000000 + stl.toNat * 4194304 + d.code * 65536 + a.code * 1024 + i.toNat
  | .limm stl d k => 0x98000000 + stl.toNat * 4194304 + d.code * 65536 + k.toNat
  | .limh stl d k => 0x9A000000 + stl.toNat * 4194304 + d.code * 65536 + k.toNat
  | .addp stl d a b => 0x9C000000 + stl.toNat * 4194304 + d.code * 65536 + a.code * 1024 + b.code * 16
  | .subp stl d a b => 0x9C000001 + stl.toNat * 4194304 + d.code * 65536 + a.code * 1024 + b.code * 16
  | .ptag stl d a b => 0x9C000002 + stl.toNat * 4194304 + d.code * 65536 + a.code * 1024 + b.code * 16
  | .ptagx stl d a => 0x9C000003 + stl.toNat * 4194304 + d.code * 65536 + a.code * 1024
  | .pmkt stl d a b => 0x9C000004 + stl.toNat * 4194304 + d.code * 65536 + a.code * 1024 + b.code * 16
  | .pspace stl d a b => 0x9C000005 + stl.toNat * 4194304 + d.code * 65536 + a.code * 1024 + b.code * 16
  | .fadd stl d a b => 0x9E000000 + stl.toNat * 4194304 + d.code * 65536 + a.code * 1024 + b.code * 16
  | .fsub stl d a b => 0x9E000001 + stl.toNat * 4194304 + d.code * 65536 + a.code * 1024 + b.code * 16
  | .fmul stl d a b => 0x9E000002 + stl.toNat * 4194304 + d.code * 65536 + a.code * 1024 + b.code * 16
  | .fdiv stl d a b => 0x9E000003 + stl.toNat * 4194304 + d.code * 65536 + a.code * 1024 + b.code * 16
  | .fsqrt stl d a => 0x9E000004 + stl.toNat * 4194304 + d.code * 65536 + a.code * 1024
  | .fmin stl d a b => 0x9E000005 + stl.toNat * 4194304 + d.code * 65536 + a.code * 1024 + b.code * 16
  | .fmax stl d a b => 0x9E000006 + stl.toNat * 4194304 + d.code * 65536 + a.code * 1024 + b.code * 16
  | .fcmpeq stl d a b => 0x9E000007 + stl.toNat * 4194304 + d.code * 65536 + a.code * 1024 + b.code * 16
  | .fcmplt stl d a b => 0x9E000008 + stl.toNat * 4194304 + d.code * 65536 + a.code * 1024 + b.code * 16
  | .fcmple stl d a b => 0x9E000009 + stl.toNat * 4194304 + d.code * 65536 + a.code * 1024 + b.code * 16
  | .fcvtif stl d a => 0x9E00000A + stl.toNat * 4194304 + d.code * 65536 + a.code * 1024
  | .fcvtfi stl d a => 0x9E00000B + stl.toNat * 4194304 + d.code * 65536 + a.code * 1024
  | .fclass stl d a => 0x9E00000C + stl.toNat * 4194304 + d.code * 65536 + a.code * 1024
  | .fabs stl d a => 0x9E00000D + stl.toNat * 4194304 + d.code * 65536 + a.code * 1024
  | .fneg stl d a => 0x9E00000E + stl.toNat * 4194304 + d.code * 65536 + a.code * 1024
  | .fsgnj stl d a b => 0x9E00000F + stl.toNat * 4194304 + d.code * 65536 + a.code * 1024 + b.code * 16
  | .fma stl d a b c => 0xA0000000 + stl.toNat * 4194304 + d.code * 65536 + a.code * 1024 + b.code * 16 + c.toNat
  | .fms stl d a b c => 0xA0000004 + stl.toNat * 4194304 + d.code * 65536 + a.code * 1024 + b.code * 16 + c.toNat
  | .fnma stl d a b c => 0xA0000008 + stl.toNat * 4194304 + d.code * 65536 + a.code * 1024 + b.code * 16 + c.toNat
  | .fnms stl d a b c => 0xA000000C + stl.toNat * 4194304 + d.code * 65536 + a.code * 1024 + b.code * 16 + c.toNat
  | .bz stl c o => 0xA2000000 + stl.toNat * 4194304 + c.code * 65536 + o.toNat
  | .bnz stl c o => 0xA4000000 + stl.toNat * 4194304 + c.code * 65536 + o.toNat
  | .bltz stl c o => 0xA6000000 + stl.toNat * 4194304 + c.code * 65536 + o.toNat
  | .bgez stl c o => 0xA8000000 + stl.toNat * 4194304 + c.code * 65536 + o.toNat
  | .br stl o => 0xAA100000 + stl.toNat * 4194304 + o.toNat
  | .call stl o => 0xAC100000 + stl.toNat * 4194304 + o.toNat
  | .loop stl c o => 0xAE000000 + stl.toNat * 4194304 + c.code * 65536 + o.toNat
  | .jr stl a => 0xB0000000 + stl.toNat * 4194304 + a.code * 1024
  | .ret stl => 0xB0000001 + stl.toNat * 4194304
  | .yield stl => 0xB0000002 + stl.toNat * 4194304
  | .done stl => 0xB0000003 + stl.toNat * 4194304
  | .donef stl => 0xB0000004 + stl.toNat * 4194304
  | .nop stl => 0xB0000005 + stl.toNat * 4194304
  | .waitf stl a => 0xB0000006 + stl.toNat * 4194304 + a.code * 1024
  | .femark stl a => 0xB0000007 + stl.toNat * 4194304 + a.code * 1024
  | .fefill stl a => 0xB0000008 + stl.toNat * 4194304 + a.code * 1024
  | .fetest stl d a => 0xB0000009 + stl.toNat * 4194304 + d.code * 65536 + a.code * 1024
  | .bararr stl d a => 0xB000000A + stl.toNat * 4194304 + d.code * 65536 + a.code * 1024
  | .barwait stl d a b => 0xB000000B + stl.toNat * 4194304 + d.code * 65536 + a.code * 1024 + b.code * 16
  | .crd stl d i => 0xB2000000 + stl.toNat * 4194304 + d.code * 65536 + i.toNat
  | .cwr stl a i => 0xB4100000 + stl.toNat * 4194304 + a.code * 1024 + i.toNat
  | .fenceRel stl g => 0xB6000000 + stl.toNat * 4194304 + g.toNat * 16
  | .fenceAcq stl g => 0xB6000001 + stl.toNat * 4194304 + g.toNat * 16
  | .fenceFull stl g => 0xB6000002 + stl.toNat * 4194304 + g.toNat * 16
  | .fenceLb stl => 0xB6000013 + stl.toNat * 4194304
  | .ld stl d p z f => 0xB8000000 + stl.toNat * 4194304 + d.code * 65536 + p.code * 1024 + z.toNat * 256 + f.toNat
  | .lds stl d p z f => 0xBA000000 + stl.toNat * 4194304 + d.code * 65536 + p.code * 1024 + z.toNat * 256 + f.toNat
  | .st stl d p z f => 0xBC000000 + stl.toNat * 4194304 + d.code * 65536 + p.code * 1024 + z.toNat * 256 + f.toNat
  | .ldx stl d a b => 0xBE000000 + stl.toNat * 4194304 + d.code * 65536 + a.code * 1024 + b.code * 16
  | .stx stl d a b => 0xBE000001 + stl.toNat * 4194304 + d.code * 65536 + a.code * 1024 + b.code * 16
  | .ldt stl d a b => 0xBE000002 + stl.toNat * 4194304 + d.code * 65536 + a.code * 1024 + b.code * 16
  | .stf stl d a b => 0xBE000003 + stl.toNat * 4194304 + d.code * 65536 + a.code * 1024 + b.code * 16
  | .aadd stl d a b => 0xC0000000 + stl.toNat * 4194304 + d.code * 65536 + a.code * 1024 + b.code * 16
  | .amax stl d a b => 0xC0000001 + stl.toNat * 4194304 + d.code * 65536 + a.code * 1024 + b.code * 16
  | .amin stl d a b => 0xC0000002 + stl.toNat * 4194304 + d.code * 65536 + a.code * 1024 + b.code * 16
  | .amaxu stl d a b => 0xC0000003 + stl.toNat * 4194304 + d.code * 65536 + a.code * 1024 + b.code * 16
  | .aminu stl d a b => 0xC0000004 + stl.toNat * 4194304 + d.code * 65536 + a.code * 1024 + b.code * 16
  | .aand stl d a b => 0xC0000005 + stl.toNat * 4194304 + d.code * 65536 + a.code * 1024 + b.code * 16
  | .aor stl d a b => 0xC0000006 + stl.toNat * 4194304 + d.code * 65536 + a.code * 1024 + b.code * 16
  | .axor stl d a b => 0xC0000007 + stl.toNat * 4194304 + d.code * 65536 + a.code * 1024 + b.code * 16
  | .aswap stl d a b => 0xC0000008 + stl.toNat * 4194304 + d.code * 65536 + a.code * 1024 + b.code * 16
  | .acas stl d a b => 0xC0000009 + stl.toNat * 4194304 + d.code * 65536 + a.code * 1024 + b.code * 16
  | .afxadd stl d a b => 0xC000000A + stl.toNat * 4194304 + d.code * 65536 + a.code * 1024 + b.code * 16
  | .afxrd stl d a => 0xC000000B + stl.toNat * 4194304 + d.code * 65536 + a.code * 1024
  | .afxset stl d a b => 0xC000000C + stl.toNat * 4194304 + d.code * 65536 + a.code * 1024 + b.code * 16
  | .aamax stl d a b => 0xC000000D + stl.toNat * 4194304 + d.code * 65536 + a.code * 1024 + b.code * 16
  | .vaadd stl d a b => 0xC2000000 + stl.toNat * 4194304 + d.code * 65536 + a.code * 1024 + b.code * 16
  | .vamaxabs stl d a b => 0xC2000001 + stl.toNat * 4194304 + d.code * 65536 + a.code * 1024 + b.code * 16
  | .vafx stl d a b => 0xC2000002 + stl.toNat * 4194304 + d.code * 65536 + a.code * 1024 + b.code * 16
  | .vamaxDrain stl d a => 0xC2000003 + stl.toNat * 4194304 + d.code * 65536 + a.code * 1024
  | .vadd stl d a b m => 0xC4000000 + stl.toNat * 4194304 + d.code * 65536 + a.code * 1024 + b.code * 16 + m.toNat * 4
  | .vsub stl d a b m => 0xC4000001 + stl.toNat * 4194304 + d.code * 65536 + a.code * 1024 + b.code * 16 + m.toNat * 4
  | .vmul stl d a b m => 0xC4000002 + stl.toNat * 4194304 + d.code * 65536 + a.code * 1024 + b.code * 16 + m.toNat * 4
  | .vmulh stl d a b m => 0xC4000003 + stl.toNat * 4194304 + d.code * 65536 + a.code * 1024 + b.code * 16 + m.toNat * 4
  | .vand stl d a b m => 0xC6000000 + stl.toNat * 4194304 + d.code * 65536 + a.code * 1024 + b.code * 16 + m.toNat * 4
  | .vor stl d a b m => 0xC6000001 + stl.toNat * 4194304 + d.code * 65536 + a.code * 1024 + b.code * 16 + m.toNat * 4
  | .vxor stl d a b m => 0xC6000002 + stl.toNat * 4194304 + d.code * 65536 + a.code * 1024 + b.code * 16 + m.toNat * 4
  | .vandn stl d a b m => 0xC6000003 + stl.toNat * 4194304 + d.code * 65536 + a.code * 1024 + b.code * 16 + m.toNat * 4
  | .vshl stl d a b m => 0xC8000000 + stl.toNat * 4194304 + d.code * 65536 + a.code * 1024 + b.code * 16 + m.toNat * 4
  | .vshr stl d a b m => 0xC8000001 + stl.toNat * 4194304 + d.code * 65536 + a.code * 1024 + b.code * 16 + m.toNat * 4
  | .vshra stl d a b m => 0xC8000002 + stl.toNat * 4194304 + d.code * 65536 + a.code * 1024 + b.code * 16 + m.toNat * 4
  | .vabsd stl d a b m => 0xC8000003 + stl.toNat * 4194304 + d.code * 65536 + a.code * 1024 + b.code * 16 + m.toNat * 4
  | .vmin stl d a b m => 0xCA000000 + stl.toNat * 4194304 + d.code * 65536 + a.code * 1024 + b.code * 16 + m.toNat * 4
  | .vmax stl d a b m => 0xCA000001 + stl.toNat * 4194304 + d.code * 65536 + a.code * 1024 + b.code * 16 + m.toNat * 4
  | .vminu stl d a b m => 0xCA000002 + stl.toNat * 4194304 + d.code * 65536 + a.code * 1024 + b.code * 16 + m.toNat * 4
  | .vmaxu stl d a b m => 0xCA000003 + stl.toNat * 4194304 + d.code * 65536 + a.code * 1024 + b.code * 16 + m.toNat * 4
  | .vfadd stl d a b m => 0xCC000000 + stl.toNat * 4194304 + d.code * 65536 + a.code * 1024 + b.code * 16 + m.toNat * 4
  | .vfsub stl d a b m => 0xCC000001 + stl.toNat * 4194304 + d.code * 65536 + a.code * 1024 + b.code * 16 + m.toNat * 4
  | .vfmul stl d a b m => 0xCC000002 + stl.toNat * 4194304 + d.code * 65536 + a.code * 1024 + b.code * 16 + m.toNat * 4
  | .vfdiv stl d a b m => 0xCC000003 + stl.toNat * 4194304 + d.code * 65536 + a.code * 1024 + b.code * 16 + m.toNat * 4
  | .vfmin stl d a b m => 0xCE000000 + stl.toNat * 4194304 + d.code * 65536 + a.code * 1024 + b.code * 16 + m.toNat * 4
  | .vfmax stl d a b m => 0xCE000001 + stl.toNat * 4194304 + d.code * 65536 + a.code * 1024 + b.code * 16 + m.toNat * 4
  | .vfabs stl d a m => 0xCE000002 + stl.toNat * 4194304 + d.code * 65536 + a.code * 1024 + m.toNat * 4
  | .vfneg stl d a m => 0xCE000003 + stl.toNat * 4194304 + d.code * 65536 + a.code * 1024 + m.toNat * 4
  | .vfma stl d a b c => 0xD0000000 + stl.toNat * 4194304 + d.code * 65536 + a.code * 1024 + b.code * 16 + c.toNat
  | .vfms stl d a b c => 0xD0000004 + stl.toNat * 4194304 + d.code * 65536 + a.code * 1024 + b.code * 16 + c.toNat
  | .vfnma stl d a b c => 0xD0000008 + stl.toNat * 4194304 + d.code * 65536 + a.code * 1024 + b.code * 16 + c.toNat
  | .vfnms stl d a b c => 0xD000000C + stl.toNat * 4194304 + d.code * 65536 + a.code * 1024 + b.code * 16 + c.toNat
  | .vcmpeq stl d a b m => 0xD2000000 + stl.toNat * 4194304 + d.toNat * 65536 + a.code * 1024 + b.code * 16 + m.toNat * 4
  | .vcmplt stl d a b m => 0xD2000001 + stl.toNat * 4194304 + d.toNat * 65536 + a.code * 1024 + b.code * 16 + m.toNat * 4
  | .vcmpltu stl d a b m => 0xD2000002 + stl.toNat * 4194304 + d.toNat * 65536 + a.code * 1024 + b.code * 16 + m.toNat * 4
  | .vcmple stl d a b m => 0xD2000003 + stl.toNat * 4194304 + d.toNat * 65536 + a.code * 1024 + b.code * 16 + m.toNat * 4
  | .vfcmpeq stl d a b m => 0xD4000000 + stl.toNat * 4194304 + d.toNat * 65536 + a.code * 1024 + b.code * 16 + m.toNat * 4
  | .vfcmplt stl d a b m => 0xD4000001 + stl.toNat * 4194304 + d.toNat * 65536 + a.code * 1024 + b.code * 16 + m.toNat * 4
  | .vfcmple stl d a b m => 0xD4000002 + stl.toNat * 4194304 + d.toNat * 65536 + a.code * 1024 + b.code * 16 + m.toNat * 4
  | .vfcmpun stl d a b m => 0xD4000003 + stl.toNat * 4194304 + d.toNat * 65536 + a.code * 1024 + b.code * 16 + m.toNat * 4
  | .vsel stl d a b m => 0xD6000000 + stl.toNat * 4194304 + d.code * 65536 + a.code * 1024 + b.code * 16 + m.toNat * 4
  | .vbcast stl d a b m => 0xD6000001 + stl.toNat * 4194304 + d.code * 65536 + a.code * 1024 + b.code * 16 + m.toNat * 4
  | .vextr stl d a b m => 0xD6000002 + stl.toNat * 4194304 + d.code * 65536 + a.code * 1024 + b.code * 16 + m.toNat * 4
  | .vins stl d a b m => 0xD6000003 + stl.toNat * 4194304 + d.code * 65536 + a.code * 1024 + b.code * 16 + m.toNat * 4
  | .vperm stl d a b m => 0xD8000000 + stl.toNat * 4194304 + d.code * 65536 + a.code * 1024 + b.code * 16 + m.toNat * 4
  | .vrot stl d a b m => 0xD8000001 + stl.toNat * 4194304 + d.code * 65536 + a.code * 1024 + b.code * 16 + m.toNat * 4
  | .vcomp stl d a m => 0xD8000002 + stl.toNat * 4194304 + d.code * 65536 + a.code * 1024 + m.toNat * 4
  | .vexpn stl d a m => 0xD8000003 + stl.toNat * 4194304 + d.code * 65536 + a.code * 1024 + m.toNat * 4
  | .vredadd stl d a m => 0xDA000000 + stl.toNat * 4194304 + d.code * 65536 + a.code * 1024 + m.toNat * 4
  | .vredmax stl d a m => 0xDA000001 + stl.toNat * 4194304 + d.code * 65536 + a.code * 1024 + m.toNat * 4
  | .vredmin stl d a m => 0xDA000002 + stl.toNat * 4194304 + d.code * 65536 + a.code * 1024 + m.toNat * 4
  | .vfredadd stl d a m => 0xDA000003 + stl.toNat * 4194304 + d.code * 65536 + a.code * 1024 + m.toNat * 4
  | .vcvt stl d a m => 0xDC000000 + stl.toNat * 4194304 + d.code * 65536 + a.code * 1024 + m.toNat * 4
  | .vwiden stl d a m => 0xDC000001 + stl.toNat * 4194304 + d.code * 65536 + a.code * 1024 + m.toNat * 4
  | .vnarrow stl d a m => 0xDC000002 + stl.toNat * 4194304 + d.code * 65536 + a.code * 1024 + m.toNat * 4
  | .vround stl d a m => 0xDC000003 + stl.toNat * 4194304 + d.code * 65536 + a.code * 1024 + m.toNat * 4
  | .vfexp stl d a m => 0xDE000000 + stl.toNat * 4194304 + d.code * 65536 + a.code * 1024 + m.toNat * 4
  | .vflog stl d a m => 0xDE000001 + stl.toNat * 4194304 + d.code * 65536 + a.code * 1024 + m.toNat * 4
  | .vfrecip stl d a m => 0xDE000002 + stl.toNat * 4194304 + d.code * 65536 + a.code * 1024 + m.toNat * 4
  | .vfrsqrt stl d a m => 0xDE000003 + stl.toNat * 4194304 + d.code * 65536 + a.code * 1024 + m.toNat * 4
  | .vftanh stl d a m => 0xE0000000 + stl.toNat * 4194304 + d.code * 65536 + a.code * 1024 + m.toNat * 4
  | .vfsigm stl d a m => 0xE0000001 + stl.toNat * 4194304 + d.code * 65536 + a.code * 1024 + m.toNat * 4
  | .vfsin stl d a m => 0xE0000002 + stl.toNat * 4194304 + d.code * 65536 + a.code * 1024 + m.toNat * 4
  | .vfcos stl d a m => 0xE0000003 + stl.toNat * 4194304 + d.code * 65536 + a.code * 1024 + m.toNat * 4
  | .vamax stl d a m => 0xE2000000 + stl.toNat * 4194304 + d.code * 65536 + a.code * 1024 + m.toNat * 4
  | .vquant stl d a m => 0xE2000001 + stl.toNat * 4194304 + d.code * 65536 + a.code * 1024 + m.toNat * 4
  | .vscale stl d a b m => 0xE2000002 + stl.toNat * 4194304 + d.code * 65536 + a.code * 1024 + b.code * 16 + m.toNat * 4
  | .vdot stl d a b m => 0xE2000003 + stl.toNat * 4194304 + d.code * 65536 + a.code * 1024 + b.code * 16 + m.toNat * 4
  | .mand stl d a b m => 0xE4000000 + stl.toNat * 4194304 + d.toNat * 65536 + a.toNat * 1024 + b.toNat * 16 + m.toNat * 4
  | .mor stl d a b m => 0xE4000001 + stl.toNat * 4194304 + d.toNat * 65536 + a.toNat * 1024 + b.toNat * 16 + m.toNat * 4
  | .mxor stl d a b m => 0xE4000002 + stl.toNat * 4194304 + d.toNat * 65536 + a.toNat * 1024 + b.toNat * 16 + m.toNat * 4
  | .mnot stl d a m => 0xE4000003 + stl.toNat * 4194304 + d.toNat * 65536 + a.toNat * 1024 + m.toNat * 4
  | .mpop stl d a m => 0xE6000000 + stl.toNat * 4194304 + d.code * 65536 + a.toNat * 1024 + m.toNat * 4
  | .mfirst stl d a m => 0xE6000001 + stl.toNat * 4194304 + d.code * 65536 + a.toNat * 1024 + m.toNat * 4
  | .msetn stl d a m => 0xE6000002 + stl.toNat * 4194304 + d.toNat * 65536 + a.code * 1024 + m.toNat * 4
  | .viota stl d a m => 0xE6000003 + stl.toNat * 4194304 + d.code * 65536 + a.toNat * 1024 + m.toNat * 4
  | .vgetsc stl d a => 0xE8000000 + stl.toNat * 4194304 + d.code * 65536 + a.code * 1024
  | .vsetsc stl d a b => 0xE8000001 + stl.toNat * 4194304 + d.code * 65536 + a.code * 1024 + b.code * 16
  | .vmov stl d a => 0xE8000002 + stl.toNat * 4194304 + d.code * 65536 + a.code * 1024
  | .vlanes stl d => 0xE8000003 + stl.toNat * 4194304 + d.code * 65536
  | .vld stl d a b => 0xEA000000 + stl.toNat * 4194304 + d.code * 65536 + a.code * 1024 + b.code * 16
  | .vst stl d a b => 0xEA000001 + stl.toNat * 4194304 + d.code * 65536 + a.code * 1024 + b.code * 16
  | .vldc stl d a b => 0xEA000002 + stl.toNat * 4194304 + d.code * 65536 + a.code * 1024 + b.code * 16
  | .vstc stl d a b => 0xEA000003 + stl.toNat * 4194304 + d.code * 65536 + a.code * 1024 + b.code * 16
  | .vlds stl d a b => 0xEA000004 + stl.toNat * 4194304 + d.code * 65536 + a.code * 1024 + b.code * 16
  | .vsts stl d a b => 0xEA000005 + stl.toNat * 4194304 + d.code * 65536 + a.code * 1024 + b.code * 16
  | .vgath stl d a b => 0xEA000006 + stl.toNat * 4194304 + d.code * 65536 + a.code * 1024 + b.code * 16
  | .vscat stl d a b => 0xEA000007 + stl.toNat * 4194304 + d.code * 65536 + a.code * 1024 + b.code * 16
  | .tld stl x u => 0xEC000000 + stl.toNat * 4194304 + x.toNat * 524288 + u.code * 128
  | .tst stl y u => 0xEC000001 + stl.toNat * 4194304 + y.toNat * 65536 + u.code * 128
  | .tzero stl x => 0xEC000002 + stl.toNat * 4194304 + x.toNat * 524288
  | .mma stl x y w u g => 0xEC000003 + stl.toNat * 4194304 + x.toNat * 524288 + y.toNat * 65536 + w.toNat * 8192 + u.code * 128 + g.toNat * 16
  | .mmas stl x y w u g => 0xEC000004 + stl.toNat * 4194304 + x.toNat * 524288 + y.toNat * 65536 + w.toNat * 8192 + u.code * 128 + g.toNat * 16
  | .tadd stl x y w => 0xEC000005 + stl.toNat * 4194304 + x.toNat * 524288 + y.toNat * 65536 + w.toNat * 8192
  | .tcvt stl x y u => 0xEC000006 + stl.toNat * 4194304 + x.toNat * 524288 + y.toNat * 65536 + u.code * 128
  | .ttrans stl x y => 0xEC000007 + stl.toNat * 4194304 + x.toNat * 524288 + y.toNat * 65536
  | .trowv stl y u => 0xEC000008 + stl.toNat * 4194304 + y.toNat * 65536 + u.code * 128
  | .tvrow stl x y u => 0xEC000009 + stl.toNat * 4194304 + x.toNat * 524288 + y.toNat * 65536 + u.code * 128
  | .send stl a b => 0xEE000000 + stl.toNat * 4194304 + a.code * 1024 + b.code * 16
  | .sends stl d a b => 0xEE000001 + stl.toNat * 4194304 + d.code * 65536 + a.code * 1024 + b.code * 16
  | .sendv stl a b => 0xEE000002 + stl.toNat * 4194304 + a.code * 1024 + b.code * 16
  | .senda stl d a b => 0xEE000003 + stl.toNat * 4194304 + d.code * 65536 + a.code * 1024 + b.code * 16
  | .mlen stl d => 0xEE000004 + stl.toNat * 4194304 + d.code * 65536
  | .msrc stl d => 0xEE000005 + stl.toNat * 4194304 + d.code * 65536
  | .launch stl d a => 0xEE000006 + stl.toNat * 4194304 + d.code * 65536 + a.code * 1024
  | .cntset stl a b => 0xEE000007 + stl.toNat * 4194304 + a.code * 1024 + b.code * 16
  | .rcap stl d a b => 0xF0000000 + stl.toNat * 4194304 + d.code * 65536 + a.toNat * 1024 + b.toNat * 16
  | .rput stl a b => 0xF0000001 + stl.toNat * 4194304 + a.code * 1024 + b.code * 16
  | .rputv stl a b => 0xF0000002 + stl.toNat * 4194304 + a.code * 1024 + b.code * 16
  | .rputr stl a b => 0xF0000003 + stl.toNat * 4194304 + a.code * 1024 + b.code * 16
  | .rtake stl d a => 0xF0000004 + stl.toNat * 4194304 + d.toNat * 65536 + a.toNat * 1024
  | .rempty stl a => 0xF0000005 + stl.toNat * 4194304 + a.toNat * 1024
  | .rfull stl d a => 0xF0000006 + stl.toNat * 4194304 + d.code * 65536 + a.toNat * 1024
  | .rwait stl d a => 0xF0000007 + stl.toNat * 4194304 + d.toNat * 65536 + a.toNat * 1024
  | .xcopy stl d a b => 0xF2000000 + stl.toNat * 4194304 + d.code * 65536 + a.code * 1024 + b.code * 16
  | .xcopym stl d a b => 0xF2000001 + stl.toNat * 4194304 + d.code * 65536 + a.code * 1024 + b.code * 16
  | .xstrm stl d a b => 0xF2000002 + stl.toNat * 4194304 + d.toNat * 65536 + a.code * 1024 + b.code * 16
  | .xstrmOff stl d => 0xF2080002 + stl.toNat * 4194304 + d.toNat * 65536
  | .xwait stl d a => 0xF2000003 + stl.toNat * 4194304 + d.code * 65536 + a.code * 1024
  | .xpoll stl d a => 0xF2000004 + stl.toNat * 4194304 + d.code * 65536 + a.code * 1024
  | .xtdef stl a b => 0xF2000005 + stl.toNat * 4194304 + a.code * 1024 + b.code * 16
  | .xdig stl d a b => 0xF2000006 + stl.toNat * 4194304 + d.code * 65536 + a.code * 1024 + b.code * 16
  | .gres stl => 0xF4000000 + stl.toNat * 4194304
  | .gend stl => 0xF4000001 + stl.toNat * 4194304
  | .gqry stl d => 0xF4000002 + stl.toNat * 4194304 + d.code * 65536
  | .gwin stl a b => 0xF4000003 + stl.toNat * 4194304 + a.code * 1024 + b.code * 16
  | .trap stl b => 0xF6000000 + stl.toNat * 4194304 + b.toNat * 16
  | .brk stl b => 0xF6000001 + stl.toNat * 4194304 + b.toNat * 16
  | .rdtb stl d => 0xF6000002 + stl.toNat * 4194304 + d.code * 65536
  | .trmark stl a b => 0xF6000003 + stl.toNat * 4194304 + a.code * 1024 + b.toNat * 16
  | .eret stl b => 0xF8000000 + stl.toNat * 4194304 + b.toNat * 16
  | .saveq stl b => 0xF8000001 + stl.toNat * 4194304 + b.toNat * 16
  | .restq stl b => 0xF8000002 + stl.toNat * 4194304 + b.toNat * 16
  | .drain stl d a b => 0xF8000003 + stl.toNat * 4194304 + d.code * 65536 + a.code * 1024 + b.code * 16
  | .colr stl d a b => 0xF8000004 + stl.toNat * 4194304 + d.code * 65536 + a.code * 1024 + b.code * 16
  | .ncinv stl d a b => 0xF8000005 + stl.toNat * 4194304 + d.code * 65536 + a.code * 1024 + b.code * 16
  | .wdset stl a b => 0xF8000006 + stl.toNat * 4194304 + a.code * 1024 + b.code * 16
  | .haltt stl d b => 0xF8000007 + stl.toNat * 4194304 + d.code * 65536 + b.toNat * 16
  | .idle stl => 0xF8000008 + stl.toNat * 4194304
  | .svsend stl a b => 0xF8000009 + stl.toNat * 4194304 + a.code * 1024 + b.code * 16
  | .svrecv stl d a => 0xF800000A + stl.toNat * 4194304 + d.code * 65536 + a.code * 1024
  | .intack stl d => 0xF800000B + stl.toNat * 4194304 + d.code * 65536
  | .prcr stl d a => 0xF800000C + stl.toNat * 4194304 + d.code * 65536 + a.code * 1024
  | .pcwr stl a b => 0xF800000D + stl.toNat * 4194304 + a.code * 1024 + b.code * 16
  | .swpout stl d a b => 0xF800000E + stl.toNat * 4194304 + d.code * 65536 + a.code * 1024 + b.code * 16
  | .swpin stl d a b => 0xF800000F + stl.toNat * 4194304 + d.code * 65536 + a.code * 1024 + b.code * 16
  | .fwdset stl a b => 0xFA000000 + stl.toNat * 4194304 + a.code * 1024 + b.code * 16
  | .resett stl d a => 0xFA000001 + stl.toNat * 4194304 + d.code * 65536 + a.code * 1024
  | .thrset stl a b => 0xFA000002 + stl.toNat * 4194304 + a.code * 1024 + b.code * 16
  | .slotkill stl a => 0xFA000003 + stl.toNat * 4194304 + a.code * 1024
  | .nop16 => 0x0
  | .done16 => 0x1
  | .donef16 => 0x2
  | .yield16 => 0x3
  | .ret16 => 0x4
  | .brk16 => 0x5
  | .cAdd a b => 0x800 + a.code * 64 + b.code * 2
  | .cSub a b => 0x1000 + a.code * 64 + b.code * 2
  | .cAnd a b => 0x1800 + a.code * 64 + b.code * 2
  | .cOr a b => 0x2000 + a.code * 64 + b.code * 2
  | .cXor a b => 0x2001 + a.code * 64 + b.code * 2
  | .cMov a => 0x2800 + a.code * 64
  | .cAddi a i => 0x3000 + a.code * 64 + i.toNat
  | .cLimm i => 0x3800 + i.toNat
  | .cShli a i => 0x4000 + a.code * 64 + i.toNat
  | .cShri a i => 0x4800 + a.code * 64 + i.toNat
  | .cBr o => 0x5000 + o.toNat
  | .cBz a o => 0x5800 + a.code * 64 + o.toNat
  | .cBnz a o => 0x6000 + a.code * 64 + o.toNat
  | .cLd a i => 0x6800 + a.code * 64 + i.toNat
  | .cSt a i => 0x7000 + a.code * 64 + i.toNat
  | .fixedLatencyCompletion _ => 0
  | .varResultArrival _ => 0
  | .messageArrival _ => 0
  | .countedMessageArrival _ => 0
  | .headAged _ _ => 0
  | .dispatch _ => 0
  | .residentThreadStart _ => 0
  | .registerWriteArrival _ => 0
  | .heldWriteDelivery _ _ => 0
  | .remoteRequestArrival _ => 0
  | .heldRequestRelease _ _ => 0
  | .trapEntry _ _ => 0
  | .vtileRetire _ => 0
  | .yieldTimeout _ _ => 0
  | .matrixGrant _ => 0
  | .matrixEngineFree _ => 0
  | .mslotWrite _ _ => 0
  | .copyLineLanding _ _ => 0
  | .copyJobCompletion _ _ => 0
  | .copyJobError _ _ _ => 0
  | .followOnCommand _ _ => 0
  | .streamFetch _ _ => 0
  | .streamElementArrival _ _ => 0
  | .sendInjection _ => 0
  | .nameCacheWalk _ _ _ => 0
  | .parkEntryWrite _ => 0
  | .parkedDelivery _ => 0
  | .barwaitProbe _ _ => 0
  | .doorbell _ _ _ => 0
  | .kernel _ _ _ _ _ => 0
  | .marker _ _ => 0
  | .childLaunchPacket _ _ _ _ _ => 0
  | .launchStart _ => 0
  | .gangPlacement _ _ => 0
  | .preEmption _ _ => 0
  | .summonService _ _ => 0
  | .preEmptedGangReturn _ _ => 0
  | .qsliceExpiry _ _ => 0
  | .mappingPass => 0
  | .bucketRefill => 0
  | .watchdogExpiry _ => 0
  | .launchCompletion _ => 0
  | .pendingErrorWrite => 0
  | .permitTimer _ _ => 0
  | .createQueue => 0
  | .destroyQueue => 0
  | .unfreeze => 0
  | .flush => 0
  | .setBucket => 0
  | .setPartition _ => 0
  | .setEventRing => 0
  | .getCounters => 0
  | .setLog => 0
  | .setPair => 0
  | .attest _ _ => 0
  | .readmit _ _ _ => 0
  | .setOwner _ => 0
  | .bindHost => 0
  | .bindPeer => 0
  | .preempt _ => 0
  | .saved _ => 0
  | .faultstop _ => 0
  | .debugstop _ => 0
  | .resume _ => 0
  | .wdkill _ => 0
  | .restore _ => 0
  | .restored _ => 0
  | .killed _ => 0
  | .quiesce _ => 0
  | .quiesceLanding _ => 0
  | .permitReturn _ => 0
  | .kill _ => 0
  | .killdone _ => 0
  | .retireReport _ => 0
  | .faultReport _ => 0
  | .stats _ => 0
  | .imagebad _ => 0
  | .summon _ => 0
  | .evict _ => 0
  | .pack _ => 0
  | .savedp _ => 0
  | .ncreq _ => 0
  | .ncdone _ => 0
  | .swapout _ => 0
  | .evicted _ => 0
  | .place _ => 0
  | .loadedp _ => 0
  | .openGang _ => 0
  | .placed _ => 0
  | .migrate _ => 0
  | .moved _ => 0
  | .pdeliv _ => 0
  | .pdone _ => 0
  | .subregionUngate _ _ => 0
  | .sgateWrite _ _ => 0
  | .thrDutyWrite _ _ => 0
  | .throttle _ => 0
  | .throttled _ => 0
  | .sensorSample _ _ => 0
  | .timercmpWrite _ _ => 0
  | .timerMatch _ => 0
  | .interruptEntry _ => 0
  | .ovrhWrite _ _ _ => 0
  | .rxuInvalidatePage _ _ => 0
  | .rxuInvalidateAll _ => 0
  | .rxuInvalidateDone => 0
  | .captureSelect _ _ => 0
  | .captureClear _ => 0
  | .haltAcknowledge => 0
  | .speigOpen _ _ => 0
  | .speigClose => 0
  | .speigHalt => 0
  | .speigResume => 0
  | .attach _ _ _ => 0
  | .detach _ => 0
  | .pstop _ _ => 0
  | .dstop _ _ => 0
  | .cont _ _ => 0
  | .speigRead _ _ _ => 0
  | .speigWrite _ _ _ => 0
  | .tracecfg _ _ _ => 0
  | .capcfg _ _ => 0
  | .capread _ => 0
  | .digestFrame _ _ _ _ _ => 0
  | .pairTimeout _ => 0
  | .retireTile _ => 0
  | .bringUp _ _ _ _ _ _ _ _ => 0
  | .droopStretch _ _ => 0
  | .droopRecovery _ _ => 0
  | .peerLinkDown _ => 0
  | .lockstepMismatch => 0
  | .hbmRequestArrival _ => 0
  | .colourAcknowledgement _ => 0

/-- The length in halfwords (R128): 1, 2, or 0 for a step of the module, which is never fetched. -/
def Instr.halfwords : Instr → Nat
  | .add _ _ _ _ => 2
  | .sub _ _ _ _ => 2
  | .and _ _ _ _ => 2
  | .or _ _ _ _ => 2
  | .xor _ _ _ _ => 2
  | .andn _ _ _ _ => 2
  | .orn _ _ _ _ => 2
  | .shl _ _ _ _ => 2
  | .shr _ _ _ _ => 2
  | .shra _ _ _ _ => 2
  | .rot _ _ _ _ => 2
  | .min _ _ _ _ => 2
  | .max _ _ _ _ => 2
  | .minu _ _ _ _ => 2
  | .maxu _ _ _ _ => 2
  | .mul _ _ _ _ => 2
  | .mulh _ _ _ _ => 2
  | .mulhu _ _ _ _ => 2
  | .div _ _ _ _ => 2
  | .divu _ _ _ _ => 2
  | .rem _ _ _ _ => 2
  | .remu _ _ _ _ => 2
  | .cmpeq _ _ _ _ => 2
  | .cmpne _ _ _ _ => 2
  | .cmplt _ _ _ _ => 2
  | .cmpltu _ _ _ _ => 2
  | .cmple _ _ _ _ => 2
  | .cmpleu _ _ _ _ => 2
  | .cmov _ _ _ _ => 2
  | .clz _ _ _ => 2
  | .ctz _ _ _ => 2
  | .popc _ _ _ => 2
  | .addw _ _ _ _ => 2
  | .subw _ _ _ _ => 2
  | .mulw _ _ _ _ => 2
  | .brev _ _ _ => 2
  | .bswap _ _ _ => 2
  | .exts _ _ _ _ => 2
  | .extz _ _ _ _ => 2
  | .ins _ _ _ _ => 2
  | .addi _ _ _ _ => 2
  | .andi _ _ _ _ => 2
  | .ori _ _ _ _ => 2
  | .xori _ _ _ _ => 2
  | .shli _ _ _ _ => 2
  | .shri _ _ _ _ => 2
  | .shrai _ _ _ _ => 2
  | .cmpeqi _ _ _ _ => 2
  | .cmplti _ _ _ _ => 2
  | .limm _ _ _ => 2
  | .limh _ _ _ => 2
  | .addp _ _ _ _ => 2
  | .subp _ _ _ _ => 2
  | .ptag _ _ _ _ => 2
  | .ptagx _ _ _ => 2
  | .pmkt _ _ _ _ => 2
  | .pspace _ _ _ _ => 2
  | .fadd _ _ _ _ => 2
  | .fsub _ _ _ _ => 2
  | .fmul _ _ _ _ => 2
  | .fdiv _ _ _ _ => 2
  | .fsqrt _ _ _ => 2
  | .fmin _ _ _ _ => 2
  | .fmax _ _ _ _ => 2
  | .fcmpeq _ _ _ _ => 2
  | .fcmplt _ _ _ _ => 2
  | .fcmple _ _ _ _ => 2
  | .fcvtif _ _ _ => 2
  | .fcvtfi _ _ _ => 2
  | .fclass _ _ _ => 2
  | .fabs _ _ _ => 2
  | .fneg _ _ _ => 2
  | .fsgnj _ _ _ _ => 2
  | .fma _ _ _ _ _ => 2
  | .fms _ _ _ _ _ => 2
  | .fnma _ _ _ _ _ => 2
  | .fnms _ _ _ _ _ => 2
  | .bz _ _ _ => 2
  | .bnz _ _ _ => 2
  | .bltz _ _ _ => 2
  | .bgez _ _ _ => 2
  | .br _ _ => 2
  | .call _ _ => 2
  | .loop _ _ _ => 2
  | .jr _ _ => 2
  | .ret _ => 2
  | .yield _ => 2
  | .done _ => 2
  | .donef _ => 2
  | .nop _ => 2
  | .waitf _ _ => 2
  | .femark _ _ => 2
  | .fefill _ _ => 2
  | .fetest _ _ _ => 2
  | .bararr _ _ _ => 2
  | .barwait _ _ _ _ => 2
  | .crd _ _ _ => 2
  | .cwr _ _ _ => 2
  | .fenceRel _ _ => 2
  | .fenceAcq _ _ => 2
  | .fenceFull _ _ => 2
  | .fenceLb _ => 2
  | .ld _ _ _ _ _ => 2
  | .lds _ _ _ _ _ => 2
  | .st _ _ _ _ _ => 2
  | .ldx _ _ _ _ => 2
  | .stx _ _ _ _ => 2
  | .ldt _ _ _ _ => 2
  | .stf _ _ _ _ => 2
  | .aadd _ _ _ _ => 2
  | .amax _ _ _ _ => 2
  | .amin _ _ _ _ => 2
  | .amaxu _ _ _ _ => 2
  | .aminu _ _ _ _ => 2
  | .aand _ _ _ _ => 2
  | .aor _ _ _ _ => 2
  | .axor _ _ _ _ => 2
  | .aswap _ _ _ _ => 2
  | .acas _ _ _ _ => 2
  | .afxadd _ _ _ _ => 2
  | .afxrd _ _ _ => 2
  | .afxset _ _ _ _ => 2
  | .aamax _ _ _ _ => 2
  | .vaadd _ _ _ _ => 2
  | .vamaxabs _ _ _ _ => 2
  | .vafx _ _ _ _ => 2
  | .vamaxDrain _ _ _ => 2
  | .vadd _ _ _ _ _ => 2
  | .vsub _ _ _ _ _ => 2
  | .vmul _ _ _ _ _ => 2
  | .vmulh _ _ _ _ _ => 2
  | .vand _ _ _ _ _ => 2
  | .vor _ _ _ _ _ => 2
  | .vxor _ _ _ _ _ => 2
  | .vandn _ _ _ _ _ => 2
  | .vshl _ _ _ _ _ => 2
  | .vshr _ _ _ _ _ => 2
  | .vshra _ _ _ _ _ => 2
  | .vabsd _ _ _ _ _ => 2
  | .vmin _ _ _ _ _ => 2
  | .vmax _ _ _ _ _ => 2
  | .vminu _ _ _ _ _ => 2
  | .vmaxu _ _ _ _ _ => 2
  | .vfadd _ _ _ _ _ => 2
  | .vfsub _ _ _ _ _ => 2
  | .vfmul _ _ _ _ _ => 2
  | .vfdiv _ _ _ _ _ => 2
  | .vfmin _ _ _ _ _ => 2
  | .vfmax _ _ _ _ _ => 2
  | .vfabs _ _ _ _ => 2
  | .vfneg _ _ _ _ => 2
  | .vfma _ _ _ _ _ => 2
  | .vfms _ _ _ _ _ => 2
  | .vfnma _ _ _ _ _ => 2
  | .vfnms _ _ _ _ _ => 2
  | .vcmpeq _ _ _ _ _ => 2
  | .vcmplt _ _ _ _ _ => 2
  | .vcmpltu _ _ _ _ _ => 2
  | .vcmple _ _ _ _ _ => 2
  | .vfcmpeq _ _ _ _ _ => 2
  | .vfcmplt _ _ _ _ _ => 2
  | .vfcmple _ _ _ _ _ => 2
  | .vfcmpun _ _ _ _ _ => 2
  | .vsel _ _ _ _ _ => 2
  | .vbcast _ _ _ _ _ => 2
  | .vextr _ _ _ _ _ => 2
  | .vins _ _ _ _ _ => 2
  | .vperm _ _ _ _ _ => 2
  | .vrot _ _ _ _ _ => 2
  | .vcomp _ _ _ _ => 2
  | .vexpn _ _ _ _ => 2
  | .vredadd _ _ _ _ => 2
  | .vredmax _ _ _ _ => 2
  | .vredmin _ _ _ _ => 2
  | .vfredadd _ _ _ _ => 2
  | .vcvt _ _ _ _ => 2
  | .vwiden _ _ _ _ => 2
  | .vnarrow _ _ _ _ => 2
  | .vround _ _ _ _ => 2
  | .vfexp _ _ _ _ => 2
  | .vflog _ _ _ _ => 2
  | .vfrecip _ _ _ _ => 2
  | .vfrsqrt _ _ _ _ => 2
  | .vftanh _ _ _ _ => 2
  | .vfsigm _ _ _ _ => 2
  | .vfsin _ _ _ _ => 2
  | .vfcos _ _ _ _ => 2
  | .vamax _ _ _ _ => 2
  | .vquant _ _ _ _ => 2
  | .vscale _ _ _ _ _ => 2
  | .vdot _ _ _ _ _ => 2
  | .mand _ _ _ _ _ => 2
  | .mor _ _ _ _ _ => 2
  | .mxor _ _ _ _ _ => 2
  | .mnot _ _ _ _ => 2
  | .mpop _ _ _ _ => 2
  | .mfirst _ _ _ _ => 2
  | .msetn _ _ _ _ => 2
  | .viota _ _ _ _ => 2
  | .vgetsc _ _ _ => 2
  | .vsetsc _ _ _ _ => 2
  | .vmov _ _ _ => 2
  | .vlanes _ _ => 2
  | .vld _ _ _ _ => 2
  | .vst _ _ _ _ => 2
  | .vldc _ _ _ _ => 2
  | .vstc _ _ _ _ => 2
  | .vlds _ _ _ _ => 2
  | .vsts _ _ _ _ => 2
  | .vgath _ _ _ _ => 2
  | .vscat _ _ _ _ => 2
  | .tld _ _ _ => 2
  | .tst _ _ _ => 2
  | .tzero _ _ => 2
  | .mma _ _ _ _ _ _ => 2
  | .mmas _ _ _ _ _ _ => 2
  | .tadd _ _ _ _ => 2
  | .tcvt _ _ _ _ => 2
  | .ttrans _ _ _ => 2
  | .trowv _ _ _ => 2
  | .tvrow _ _ _ _ => 2
  | .send _ _ _ => 2
  | .sends _ _ _ _ => 2
  | .sendv _ _ _ => 2
  | .senda _ _ _ _ => 2
  | .mlen _ _ => 2
  | .msrc _ _ => 2
  | .launch _ _ _ => 2
  | .cntset _ _ _ => 2
  | .rcap _ _ _ _ => 2
  | .rput _ _ _ => 2
  | .rputv _ _ _ => 2
  | .rputr _ _ _ => 2
  | .rtake _ _ _ => 2
  | .rempty _ _ => 2
  | .rfull _ _ _ => 2
  | .rwait _ _ _ => 2
  | .xcopy _ _ _ _ => 2
  | .xcopym _ _ _ _ => 2
  | .xstrm _ _ _ _ => 2
  | .xstrmOff _ _ => 2
  | .xwait _ _ _ => 2
  | .xpoll _ _ _ => 2
  | .xtdef _ _ _ => 2
  | .xdig _ _ _ _ => 2
  | .gres _ => 2
  | .gend _ => 2
  | .gqry _ _ => 2
  | .gwin _ _ _ => 2
  | .trap _ _ => 2
  | .brk _ _ => 2
  | .rdtb _ _ => 2
  | .trmark _ _ _ => 2
  | .eret _ _ => 2
  | .saveq _ _ => 2
  | .restq _ _ => 2
  | .drain _ _ _ _ => 2
  | .colr _ _ _ _ => 2
  | .ncinv _ _ _ _ => 2
  | .wdset _ _ _ => 2
  | .haltt _ _ _ => 2
  | .idle _ => 2
  | .svsend _ _ _ => 2
  | .svrecv _ _ _ => 2
  | .intack _ _ => 2
  | .prcr _ _ _ => 2
  | .pcwr _ _ _ => 2
  | .swpout _ _ _ _ => 2
  | .swpin _ _ _ _ => 2
  | .fwdset _ _ _ => 2
  | .resett _ _ _ => 2
  | .thrset _ _ _ => 2
  | .slotkill _ _ => 2
  | .nop16 => 1
  | .done16 => 1
  | .donef16 => 1
  | .yield16 => 1
  | .ret16 => 1
  | .brk16 => 1
  | .cAdd _ _ => 1
  | .cSub _ _ => 1
  | .cAnd _ _ => 1
  | .cOr _ _ => 1
  | .cXor _ _ => 1
  | .cMov _ => 1
  | .cAddi _ _ => 1
  | .cLimm _ => 1
  | .cShli _ _ => 1
  | .cShri _ _ => 1
  | .cBr _ => 1
  | .cBz _ _ => 1
  | .cBnz _ _ => 1
  | .cLd _ _ => 1
  | .cSt _ _ => 1
  | .fixedLatencyCompletion _ => 0
  | .varResultArrival _ => 0
  | .messageArrival _ => 0
  | .countedMessageArrival _ => 0
  | .headAged _ _ => 0
  | .dispatch _ => 0
  | .residentThreadStart _ => 0
  | .registerWriteArrival _ => 0
  | .heldWriteDelivery _ _ => 0
  | .remoteRequestArrival _ => 0
  | .heldRequestRelease _ _ => 0
  | .trapEntry _ _ => 0
  | .vtileRetire _ => 0
  | .yieldTimeout _ _ => 0
  | .matrixGrant _ => 0
  | .matrixEngineFree _ => 0
  | .mslotWrite _ _ => 0
  | .copyLineLanding _ _ => 0
  | .copyJobCompletion _ _ => 0
  | .copyJobError _ _ _ => 0
  | .followOnCommand _ _ => 0
  | .streamFetch _ _ => 0
  | .streamElementArrival _ _ => 0
  | .sendInjection _ => 0
  | .nameCacheWalk _ _ _ => 0
  | .parkEntryWrite _ => 0
  | .parkedDelivery _ => 0
  | .barwaitProbe _ _ => 0
  | .doorbell _ _ _ => 0
  | .kernel _ _ _ _ _ => 0
  | .marker _ _ => 0
  | .childLaunchPacket _ _ _ _ _ => 0
  | .launchStart _ => 0
  | .gangPlacement _ _ => 0
  | .preEmption _ _ => 0
  | .summonService _ _ => 0
  | .preEmptedGangReturn _ _ => 0
  | .qsliceExpiry _ _ => 0
  | .mappingPass => 0
  | .bucketRefill => 0
  | .watchdogExpiry _ => 0
  | .launchCompletion _ => 0
  | .pendingErrorWrite => 0
  | .permitTimer _ _ => 0
  | .createQueue => 0
  | .destroyQueue => 0
  | .unfreeze => 0
  | .flush => 0
  | .setBucket => 0
  | .setPartition _ => 0
  | .setEventRing => 0
  | .getCounters => 0
  | .setLog => 0
  | .setPair => 0
  | .attest _ _ => 0
  | .readmit _ _ _ => 0
  | .setOwner _ => 0
  | .bindHost => 0
  | .bindPeer => 0
  | .preempt _ => 0
  | .saved _ => 0
  | .faultstop _ => 0
  | .debugstop _ => 0
  | .resume _ => 0
  | .wdkill _ => 0
  | .restore _ => 0
  | .restored _ => 0
  | .killed _ => 0
  | .quiesce _ => 0
  | .quiesceLanding _ => 0
  | .permitReturn _ => 0
  | .kill _ => 0
  | .killdone _ => 0
  | .retireReport _ => 0
  | .faultReport _ => 0
  | .stats _ => 0
  | .imagebad _ => 0
  | .summon _ => 0
  | .evict _ => 0
  | .pack _ => 0
  | .savedp _ => 0
  | .ncreq _ => 0
  | .ncdone _ => 0
  | .swapout _ => 0
  | .evicted _ => 0
  | .place _ => 0
  | .loadedp _ => 0
  | .openGang _ => 0
  | .placed _ => 0
  | .migrate _ => 0
  | .moved _ => 0
  | .pdeliv _ => 0
  | .pdone _ => 0
  | .subregionUngate _ _ => 0
  | .sgateWrite _ _ => 0
  | .thrDutyWrite _ _ => 0
  | .throttle _ => 0
  | .throttled _ => 0
  | .sensorSample _ _ => 0
  | .timercmpWrite _ _ => 0
  | .timerMatch _ => 0
  | .interruptEntry _ => 0
  | .ovrhWrite _ _ _ => 0
  | .rxuInvalidatePage _ _ => 0
  | .rxuInvalidateAll _ => 0
  | .rxuInvalidateDone => 0
  | .captureSelect _ _ => 0
  | .captureClear _ => 0
  | .haltAcknowledge => 0
  | .speigOpen _ _ => 0
  | .speigClose => 0
  | .speigHalt => 0
  | .speigResume => 0
  | .attach _ _ _ => 0
  | .detach _ => 0
  | .pstop _ _ => 0
  | .dstop _ _ => 0
  | .cont _ _ => 0
  | .speigRead _ _ _ => 0
  | .speigWrite _ _ _ => 0
  | .tracecfg _ _ _ => 0
  | .capcfg _ _ => 0
  | .capread _ => 0
  | .digestFrame _ _ _ _ _ => 0
  | .pairTimeout _ => 0
  | .retireTile _ => 0
  | .bringUp _ _ _ _ _ _ _ _ => 0
  | .droopStretch _ _ => 0
  | .droopRecovery _ _ => 0
  | .peerLinkDown _ => 0
  | .lockstepMismatch => 0
  | .hbmRequestArrival _ => 0
  | .colourAcknowledgement _ => 0

/-- The stall count: STL of a 32-bit form, 0 of a 16-bit form (R132, R140). -/
def Instr.stall : Instr → Nat
  | .add stl _ _ _ => stl.toNat
  | .sub stl _ _ _ => stl.toNat
  | .and stl _ _ _ => stl.toNat
  | .or stl _ _ _ => stl.toNat
  | .xor stl _ _ _ => stl.toNat
  | .andn stl _ _ _ => stl.toNat
  | .orn stl _ _ _ => stl.toNat
  | .shl stl _ _ _ => stl.toNat
  | .shr stl _ _ _ => stl.toNat
  | .shra stl _ _ _ => stl.toNat
  | .rot stl _ _ _ => stl.toNat
  | .min stl _ _ _ => stl.toNat
  | .max stl _ _ _ => stl.toNat
  | .minu stl _ _ _ => stl.toNat
  | .maxu stl _ _ _ => stl.toNat
  | .mul stl _ _ _ => stl.toNat
  | .mulh stl _ _ _ => stl.toNat
  | .mulhu stl _ _ _ => stl.toNat
  | .div stl _ _ _ => stl.toNat
  | .divu stl _ _ _ => stl.toNat
  | .rem stl _ _ _ => stl.toNat
  | .remu stl _ _ _ => stl.toNat
  | .cmpeq stl _ _ _ => stl.toNat
  | .cmpne stl _ _ _ => stl.toNat
  | .cmplt stl _ _ _ => stl.toNat
  | .cmpltu stl _ _ _ => stl.toNat
  | .cmple stl _ _ _ => stl.toNat
  | .cmpleu stl _ _ _ => stl.toNat
  | .cmov stl _ _ _ => stl.toNat
  | .clz stl _ _ => stl.toNat
  | .ctz stl _ _ => stl.toNat
  | .popc stl _ _ => stl.toNat
  | .addw stl _ _ _ => stl.toNat
  | .subw stl _ _ _ => stl.toNat
  | .mulw stl _ _ _ => stl.toNat
  | .brev stl _ _ => stl.toNat
  | .bswap stl _ _ => stl.toNat
  | .exts stl _ _ _ => stl.toNat
  | .extz stl _ _ _ => stl.toNat
  | .ins stl _ _ _ => stl.toNat
  | .addi stl _ _ _ => stl.toNat
  | .andi stl _ _ _ => stl.toNat
  | .ori stl _ _ _ => stl.toNat
  | .xori stl _ _ _ => stl.toNat
  | .shli stl _ _ _ => stl.toNat
  | .shri stl _ _ _ => stl.toNat
  | .shrai stl _ _ _ => stl.toNat
  | .cmpeqi stl _ _ _ => stl.toNat
  | .cmplti stl _ _ _ => stl.toNat
  | .limm stl _ _ => stl.toNat
  | .limh stl _ _ => stl.toNat
  | .addp stl _ _ _ => stl.toNat
  | .subp stl _ _ _ => stl.toNat
  | .ptag stl _ _ _ => stl.toNat
  | .ptagx stl _ _ => stl.toNat
  | .pmkt stl _ _ _ => stl.toNat
  | .pspace stl _ _ _ => stl.toNat
  | .fadd stl _ _ _ => stl.toNat
  | .fsub stl _ _ _ => stl.toNat
  | .fmul stl _ _ _ => stl.toNat
  | .fdiv stl _ _ _ => stl.toNat
  | .fsqrt stl _ _ => stl.toNat
  | .fmin stl _ _ _ => stl.toNat
  | .fmax stl _ _ _ => stl.toNat
  | .fcmpeq stl _ _ _ => stl.toNat
  | .fcmplt stl _ _ _ => stl.toNat
  | .fcmple stl _ _ _ => stl.toNat
  | .fcvtif stl _ _ => stl.toNat
  | .fcvtfi stl _ _ => stl.toNat
  | .fclass stl _ _ => stl.toNat
  | .fabs stl _ _ => stl.toNat
  | .fneg stl _ _ => stl.toNat
  | .fsgnj stl _ _ _ => stl.toNat
  | .fma stl _ _ _ _ => stl.toNat
  | .fms stl _ _ _ _ => stl.toNat
  | .fnma stl _ _ _ _ => stl.toNat
  | .fnms stl _ _ _ _ => stl.toNat
  | .bz stl _ _ => stl.toNat
  | .bnz stl _ _ => stl.toNat
  | .bltz stl _ _ => stl.toNat
  | .bgez stl _ _ => stl.toNat
  | .br stl _ => stl.toNat
  | .call stl _ => stl.toNat
  | .loop stl _ _ => stl.toNat
  | .jr stl _ => stl.toNat
  | .ret stl => stl.toNat
  | .yield stl => stl.toNat
  | .done stl => stl.toNat
  | .donef stl => stl.toNat
  | .nop stl => stl.toNat
  | .waitf stl _ => stl.toNat
  | .femark stl _ => stl.toNat
  | .fefill stl _ => stl.toNat
  | .fetest stl _ _ => stl.toNat
  | .bararr stl _ _ => stl.toNat
  | .barwait stl _ _ _ => stl.toNat
  | .crd stl _ _ => stl.toNat
  | .cwr stl _ _ => stl.toNat
  | .fenceRel stl _ => stl.toNat
  | .fenceAcq stl _ => stl.toNat
  | .fenceFull stl _ => stl.toNat
  | .fenceLb stl => stl.toNat
  | .ld stl _ _ _ _ => stl.toNat
  | .lds stl _ _ _ _ => stl.toNat
  | .st stl _ _ _ _ => stl.toNat
  | .ldx stl _ _ _ => stl.toNat
  | .stx stl _ _ _ => stl.toNat
  | .ldt stl _ _ _ => stl.toNat
  | .stf stl _ _ _ => stl.toNat
  | .aadd stl _ _ _ => stl.toNat
  | .amax stl _ _ _ => stl.toNat
  | .amin stl _ _ _ => stl.toNat
  | .amaxu stl _ _ _ => stl.toNat
  | .aminu stl _ _ _ => stl.toNat
  | .aand stl _ _ _ => stl.toNat
  | .aor stl _ _ _ => stl.toNat
  | .axor stl _ _ _ => stl.toNat
  | .aswap stl _ _ _ => stl.toNat
  | .acas stl _ _ _ => stl.toNat
  | .afxadd stl _ _ _ => stl.toNat
  | .afxrd stl _ _ => stl.toNat
  | .afxset stl _ _ _ => stl.toNat
  | .aamax stl _ _ _ => stl.toNat
  | .vaadd stl _ _ _ => stl.toNat
  | .vamaxabs stl _ _ _ => stl.toNat
  | .vafx stl _ _ _ => stl.toNat
  | .vamaxDrain stl _ _ => stl.toNat
  | .vadd stl _ _ _ _ => stl.toNat
  | .vsub stl _ _ _ _ => stl.toNat
  | .vmul stl _ _ _ _ => stl.toNat
  | .vmulh stl _ _ _ _ => stl.toNat
  | .vand stl _ _ _ _ => stl.toNat
  | .vor stl _ _ _ _ => stl.toNat
  | .vxor stl _ _ _ _ => stl.toNat
  | .vandn stl _ _ _ _ => stl.toNat
  | .vshl stl _ _ _ _ => stl.toNat
  | .vshr stl _ _ _ _ => stl.toNat
  | .vshra stl _ _ _ _ => stl.toNat
  | .vabsd stl _ _ _ _ => stl.toNat
  | .vmin stl _ _ _ _ => stl.toNat
  | .vmax stl _ _ _ _ => stl.toNat
  | .vminu stl _ _ _ _ => stl.toNat
  | .vmaxu stl _ _ _ _ => stl.toNat
  | .vfadd stl _ _ _ _ => stl.toNat
  | .vfsub stl _ _ _ _ => stl.toNat
  | .vfmul stl _ _ _ _ => stl.toNat
  | .vfdiv stl _ _ _ _ => stl.toNat
  | .vfmin stl _ _ _ _ => stl.toNat
  | .vfmax stl _ _ _ _ => stl.toNat
  | .vfabs stl _ _ _ => stl.toNat
  | .vfneg stl _ _ _ => stl.toNat
  | .vfma stl _ _ _ _ => stl.toNat
  | .vfms stl _ _ _ _ => stl.toNat
  | .vfnma stl _ _ _ _ => stl.toNat
  | .vfnms stl _ _ _ _ => stl.toNat
  | .vcmpeq stl _ _ _ _ => stl.toNat
  | .vcmplt stl _ _ _ _ => stl.toNat
  | .vcmpltu stl _ _ _ _ => stl.toNat
  | .vcmple stl _ _ _ _ => stl.toNat
  | .vfcmpeq stl _ _ _ _ => stl.toNat
  | .vfcmplt stl _ _ _ _ => stl.toNat
  | .vfcmple stl _ _ _ _ => stl.toNat
  | .vfcmpun stl _ _ _ _ => stl.toNat
  | .vsel stl _ _ _ _ => stl.toNat
  | .vbcast stl _ _ _ _ => stl.toNat
  | .vextr stl _ _ _ _ => stl.toNat
  | .vins stl _ _ _ _ => stl.toNat
  | .vperm stl _ _ _ _ => stl.toNat
  | .vrot stl _ _ _ _ => stl.toNat
  | .vcomp stl _ _ _ => stl.toNat
  | .vexpn stl _ _ _ => stl.toNat
  | .vredadd stl _ _ _ => stl.toNat
  | .vredmax stl _ _ _ => stl.toNat
  | .vredmin stl _ _ _ => stl.toNat
  | .vfredadd stl _ _ _ => stl.toNat
  | .vcvt stl _ _ _ => stl.toNat
  | .vwiden stl _ _ _ => stl.toNat
  | .vnarrow stl _ _ _ => stl.toNat
  | .vround stl _ _ _ => stl.toNat
  | .vfexp stl _ _ _ => stl.toNat
  | .vflog stl _ _ _ => stl.toNat
  | .vfrecip stl _ _ _ => stl.toNat
  | .vfrsqrt stl _ _ _ => stl.toNat
  | .vftanh stl _ _ _ => stl.toNat
  | .vfsigm stl _ _ _ => stl.toNat
  | .vfsin stl _ _ _ => stl.toNat
  | .vfcos stl _ _ _ => stl.toNat
  | .vamax stl _ _ _ => stl.toNat
  | .vquant stl _ _ _ => stl.toNat
  | .vscale stl _ _ _ _ => stl.toNat
  | .vdot stl _ _ _ _ => stl.toNat
  | .mand stl _ _ _ _ => stl.toNat
  | .mor stl _ _ _ _ => stl.toNat
  | .mxor stl _ _ _ _ => stl.toNat
  | .mnot stl _ _ _ => stl.toNat
  | .mpop stl _ _ _ => stl.toNat
  | .mfirst stl _ _ _ => stl.toNat
  | .msetn stl _ _ _ => stl.toNat
  | .viota stl _ _ _ => stl.toNat
  | .vgetsc stl _ _ => stl.toNat
  | .vsetsc stl _ _ _ => stl.toNat
  | .vmov stl _ _ => stl.toNat
  | .vlanes stl _ => stl.toNat
  | .vld stl _ _ _ => stl.toNat
  | .vst stl _ _ _ => stl.toNat
  | .vldc stl _ _ _ => stl.toNat
  | .vstc stl _ _ _ => stl.toNat
  | .vlds stl _ _ _ => stl.toNat
  | .vsts stl _ _ _ => stl.toNat
  | .vgath stl _ _ _ => stl.toNat
  | .vscat stl _ _ _ => stl.toNat
  | .tld stl _ _ => stl.toNat
  | .tst stl _ _ => stl.toNat
  | .tzero stl _ => stl.toNat
  | .mma stl _ _ _ _ _ => stl.toNat
  | .mmas stl _ _ _ _ _ => stl.toNat
  | .tadd stl _ _ _ => stl.toNat
  | .tcvt stl _ _ _ => stl.toNat
  | .ttrans stl _ _ => stl.toNat
  | .trowv stl _ _ => stl.toNat
  | .tvrow stl _ _ _ => stl.toNat
  | .send stl _ _ => stl.toNat
  | .sends stl _ _ _ => stl.toNat
  | .sendv stl _ _ => stl.toNat
  | .senda stl _ _ _ => stl.toNat
  | .mlen stl _ => stl.toNat
  | .msrc stl _ => stl.toNat
  | .launch stl _ _ => stl.toNat
  | .cntset stl _ _ => stl.toNat
  | .rcap stl _ _ _ => stl.toNat
  | .rput stl _ _ => stl.toNat
  | .rputv stl _ _ => stl.toNat
  | .rputr stl _ _ => stl.toNat
  | .rtake stl _ _ => stl.toNat
  | .rempty stl _ => stl.toNat
  | .rfull stl _ _ => stl.toNat
  | .rwait stl _ _ => stl.toNat
  | .xcopy stl _ _ _ => stl.toNat
  | .xcopym stl _ _ _ => stl.toNat
  | .xstrm stl _ _ _ => stl.toNat
  | .xstrmOff stl _ => stl.toNat
  | .xwait stl _ _ => stl.toNat
  | .xpoll stl _ _ => stl.toNat
  | .xtdef stl _ _ => stl.toNat
  | .xdig stl _ _ _ => stl.toNat
  | .gres stl => stl.toNat
  | .gend stl => stl.toNat
  | .gqry stl _ => stl.toNat
  | .gwin stl _ _ => stl.toNat
  | .trap stl _ => stl.toNat
  | .brk stl _ => stl.toNat
  | .rdtb stl _ => stl.toNat
  | .trmark stl _ _ => stl.toNat
  | .eret stl _ => stl.toNat
  | .saveq stl _ => stl.toNat
  | .restq stl _ => stl.toNat
  | .drain stl _ _ _ => stl.toNat
  | .colr stl _ _ _ => stl.toNat
  | .ncinv stl _ _ _ => stl.toNat
  | .wdset stl _ _ => stl.toNat
  | .haltt stl _ _ => stl.toNat
  | .idle stl => stl.toNat
  | .svsend stl _ _ => stl.toNat
  | .svrecv stl _ _ => stl.toNat
  | .intack stl _ => stl.toNat
  | .prcr stl _ _ => stl.toNat
  | .pcwr stl _ _ => stl.toNat
  | .swpout stl _ _ _ => stl.toNat
  | .swpin stl _ _ _ => stl.toNat
  | .fwdset stl _ _ => stl.toNat
  | .resett stl _ _ => stl.toNat
  | .thrset stl _ _ => stl.toNat
  | .slotkill stl _ => stl.toNat
  | .nop16 => 0
  | .done16 => 0
  | .donef16 => 0
  | .yield16 => 0
  | .ret16 => 0
  | .brk16 => 0
  | .cAdd _ _ => 0
  | .cSub _ _ => 0
  | .cAnd _ _ => 0
  | .cOr _ _ => 0
  | .cXor _ _ => 0
  | .cMov _ => 0
  | .cAddi _ _ => 0
  | .cLimm _ => 0
  | .cShli _ _ => 0
  | .cShri _ _ => 0
  | .cBr _ => 0
  | .cBz _ _ => 0
  | .cBnz _ _ => 0
  | .cLd _ _ => 0
  | .cSt _ _ => 0
  | .fixedLatencyCompletion _ => 0
  | .varResultArrival _ => 0
  | .messageArrival _ => 0
  | .countedMessageArrival _ => 0
  | .headAged _ _ => 0
  | .dispatch _ => 0
  | .residentThreadStart _ => 0
  | .registerWriteArrival _ => 0
  | .heldWriteDelivery _ _ => 0
  | .remoteRequestArrival _ => 0
  | .heldRequestRelease _ _ => 0
  | .trapEntry _ _ => 0
  | .vtileRetire _ => 0
  | .yieldTimeout _ _ => 0
  | .matrixGrant _ => 0
  | .matrixEngineFree _ => 0
  | .mslotWrite _ _ => 0
  | .copyLineLanding _ _ => 0
  | .copyJobCompletion _ _ => 0
  | .copyJobError _ _ _ => 0
  | .followOnCommand _ _ => 0
  | .streamFetch _ _ => 0
  | .streamElementArrival _ _ => 0
  | .sendInjection _ => 0
  | .nameCacheWalk _ _ _ => 0
  | .parkEntryWrite _ => 0
  | .parkedDelivery _ => 0
  | .barwaitProbe _ _ => 0
  | .doorbell _ _ _ => 0
  | .kernel _ _ _ _ _ => 0
  | .marker _ _ => 0
  | .childLaunchPacket _ _ _ _ _ => 0
  | .launchStart _ => 0
  | .gangPlacement _ _ => 0
  | .preEmption _ _ => 0
  | .summonService _ _ => 0
  | .preEmptedGangReturn _ _ => 0
  | .qsliceExpiry _ _ => 0
  | .mappingPass => 0
  | .bucketRefill => 0
  | .watchdogExpiry _ => 0
  | .launchCompletion _ => 0
  | .pendingErrorWrite => 0
  | .permitTimer _ _ => 0
  | .createQueue => 0
  | .destroyQueue => 0
  | .unfreeze => 0
  | .flush => 0
  | .setBucket => 0
  | .setPartition _ => 0
  | .setEventRing => 0
  | .getCounters => 0
  | .setLog => 0
  | .setPair => 0
  | .attest _ _ => 0
  | .readmit _ _ _ => 0
  | .setOwner _ => 0
  | .bindHost => 0
  | .bindPeer => 0
  | .preempt _ => 0
  | .saved _ => 0
  | .faultstop _ => 0
  | .debugstop _ => 0
  | .resume _ => 0
  | .wdkill _ => 0
  | .restore _ => 0
  | .restored _ => 0
  | .killed _ => 0
  | .quiesce _ => 0
  | .quiesceLanding _ => 0
  | .permitReturn _ => 0
  | .kill _ => 0
  | .killdone _ => 0
  | .retireReport _ => 0
  | .faultReport _ => 0
  | .stats _ => 0
  | .imagebad _ => 0
  | .summon _ => 0
  | .evict _ => 0
  | .pack _ => 0
  | .savedp _ => 0
  | .ncreq _ => 0
  | .ncdone _ => 0
  | .swapout _ => 0
  | .evicted _ => 0
  | .place _ => 0
  | .loadedp _ => 0
  | .openGang _ => 0
  | .placed _ => 0
  | .migrate _ => 0
  | .moved _ => 0
  | .pdeliv _ => 0
  | .pdone _ => 0
  | .subregionUngate _ _ => 0
  | .sgateWrite _ _ => 0
  | .thrDutyWrite _ _ => 0
  | .throttle _ => 0
  | .throttled _ => 0
  | .sensorSample _ _ => 0
  | .timercmpWrite _ _ => 0
  | .timerMatch _ => 0
  | .interruptEntry _ => 0
  | .ovrhWrite _ _ _ => 0
  | .rxuInvalidatePage _ _ => 0
  | .rxuInvalidateAll _ => 0
  | .rxuInvalidateDone => 0
  | .captureSelect _ _ => 0
  | .captureClear _ => 0
  | .haltAcknowledge => 0
  | .speigOpen _ _ => 0
  | .speigClose => 0
  | .speigHalt => 0
  | .speigResume => 0
  | .attach _ _ _ => 0
  | .detach _ => 0
  | .pstop _ _ => 0
  | .dstop _ _ => 0
  | .cont _ _ => 0
  | .speigRead _ _ _ => 0
  | .speigWrite _ _ _ => 0
  | .tracecfg _ _ _ => 0
  | .capcfg _ _ => 0
  | .capread _ => 0
  | .digestFrame _ _ _ _ _ => 0
  | .pairTimeout _ => 0
  | .retireTile _ => 0
  | .bringUp _ _ _ _ _ _ _ _ => 0
  | .droopStretch _ _ => 0
  | .droopRecovery _ _ => 0
  | .peerLinkDown _ => 0
  | .lockstepMismatch => 0
  | .hbmRequestArrival _ => 0
  | .colourAcknowledgement _ => 0

/-- The step has no encoding: it is a row of the table that is no fetched instruction. -/
def Instr.isEvent (i : Instr) : Bool := i.halfwords == 0

/-- The halfwords of an instruction in ascending address order: the first halfword of W is W[31:16] (R128, R146). -/
def encode (i : Instr) : List Half :=
  match i.halfwords with
  | 0 => []
  | 1 => [BitVec.ofNat 16 (encodeWord i)]
  | _ => [BitVec.ofNat 16 (encodeWord i / 65536), BitVec.ofNat 16 (encodeWord i)]

/-- The bytes of an instruction in ascending address order (R128, R146). -/
def encodeBytes (i : Instr) : List Byte :=
  (encode i).flatMap (fun h => [BitVec.ofNat 8 h.toNat, BitVec.ofNat 8 (h.toNat / 256)])

/-- The halfwords of a word of the opcode table: the table numbers W[31:0] of a 32-bit form and H[15:0] of a 16-bit form. -/
def tableHalfwords (nbits w : Nat) : List Half :=
  if nbits ≤ 16 then [BitVec.ofNat 16 w]
  else [BitVec.ofNat 16 (w / 65536), BitVec.ofNat 16 w]

/-- The instruction the decoder reads from a word of the opcode table, laid out as the code store holds it. -/
def decodeTableWord (nbits w : Nat) : Option Instr :=
  match decode (tableHalfwords nbits w) with
  | .ok (i, _) => some i
  | .error _ => none

end Sys2Proof

end
end

