-- ==== Sys2Proof/Config.lean ====
section
/-! DEFINITION. What the specification leaves free or an implementation fixes: free values, which have no body, so that no
statement can rest on one (spec/00_scope.md R8). The sizes are those of spec/00_scope.md R1 and R2. -/

namespace Sys2Proof.Config

/-- The k-th free word the machine draws: an unpredictable value (R8). Log entry 6, DESIGN CHOICE. -/
opaque freeWord : Nat → Word

/-- The k-th free vector the machine draws: an unpredictable 512-byte value (R8, R142). Log entry 6, DESIGN CHOICE. -/
opaque freeVec : Nat → Vec

/-- The k-th free sidecar the machine draws: an unpredictable sidecar (R8, R142). Log entry 6, DESIGN CHOICE. -/
opaque freeSide : Nat → Side

/-- The k-th free byte the machine draws: a guard-buffer byte after the phase (R262). Log entry 6, DESIGN CHOICE. -/
opaque freeByte : Nat → Byte

/-- The base address in host memory of the ring of queue 0, which the specification does not give (R311). Log entry 18, DESIGN CHOICE. -/
opaque adminBase : Nat

/-- LOG of queue 0, from 4 to 16, as a number of entries above the least (R311). Log entry 18, DESIGN CHOICE. -/
opaque adminLog : Fin 13

/-- The address of queue 0's head index (R312). Log entry 18, DESIGN CHOICE. -/
opaque adminHead : Nat

/-- The physical address of the launch directory, fixed at bring-up (R337). Log entry 18, DESIGN CHOICE. -/
opaque directory : Nat

/-- The physical address of the ASID table (R362). Log entry 18, DESIGN CHOICE. -/
opaque asidTable : Nat

/-- The 4 KiB page from which the image of a migrated vtile of a launch is written when its gang has none yet (R361).
Log entry 20, DESIGN CHOICE. -/
opaque migrationPage : Nat → Nat → Nat

/-- The number of tile sites, 512 x 512 (R1). -/
def sites : Nat := 262144

/-- The bytes of rim memory, 48 stacks of 64 GiB (R2). -/
def hbmBytes : Nat := 48 * 64 * 1073741824

/-- The bytes of a scratchpad (R96). -/
def spadBytes : Nat := 131072

/-- The halfwords of the user segment (R129). -/
def userHalfwords : Nat := 6144

/-- The halfwords of the system segment of a tile (R273). -/
def sysHalfwords : Nat := 2048

/-- The halfword indices a core's code may use (R307). -/
def coreHalfwords : Nat := 65536

/-- The local memory of the Collier (R307). -/
def collierBytes : Nat := 1048576

/-- The local memory of a Stoker (R307). -/
def stokerBytes : Nat := 262144

end Sys2Proof.Config
end

