-- ==== Sys2Proof/Machine/State.lean ====
section
/-! DEFINITION. The state of the whole module as plain data: the tiles with their slots, the cores, rim and host memory, the
packets and messages in flight, the queues and launches, and what moves next. INVENTORY.md gives each field's rule and
reset value. -/

namespace Sys2Proof.Machine

/-- A table from numbers to values, keys strictly rising; a key that stands in no row has the table's default. -/
abbrev Table (α : Type) := List (Nat × α)

/-- Bytes by address, addresses strictly rising, no byte equal to what an unlisted address reads as. -/
abbrev Memory := List Host.Cell

/-- Why a step stops. -/
inductive Fault where
  /-- Raised by a core's access to an HBM physical address at or beyond the rim memory's 3 TiB (R2, R307): the
  specification gives that access neither a value nor a cause. Safe: the machine stops where hardware may go on. -/
  | noSuchStorage (addr : Nat)
  deriving DecidableEq, Repr

/-- Why an instruction has no meaning here. -/
inductive Refusal where
  /-- Raised by an arm of `exec` that has no meaning yet, by the row's name. Safe: the machine stops. -/
  | notModelled (mnemonic : String)
  deriving DecidableEq, Repr

/-- The trap causes of R281, in code order. -/
inductive Cause where
  | illegalInstruction
  | illegalOperand
  | privileged
  | window
  | guardWindow
  | undersized
  | unmapped
  | hbm
  | alignment
  | bounds
  | ecc
  | counter
  | trap
  | brk
  | overwrite
  | preempt
  | wdkill
  | debug
  | restore
  deriving DecidableEq, Repr

/-- A scalar result-queue entry (R37, R40, R142): its value, the cycle from which a fixed-latency producer's value
reads, and the issue number of a variable-latency producer that has not delivered (0: none). -/
structure QEntry where
  val : Word := 0
  ready : Nat := 0
  pend : Nat := 0
  deriving DecidableEq, Repr

/-- A vector result-queue entry with its sidecar (R37, R45), as `QEntry`. -/
structure VEntry where
  val : Vec := 0
  side : Side := 0
  ready : Nat := 0
  pend : Nat := 0
  deriving DecidableEq, Repr

/-- Where an issued result goes (R38, R143). -/
inductive Landing where
  | queue
  | named (k : Fin 32)
  | mask (k : MaskNo)
  | vqueue
  | vreg (k : Fin 16)
  | template (k : Fin 64)
  | none
  deriving DecidableEq, Repr

/-- A result that has issued and not completed (R39 to R41, R141 to R143): its issue number, its completion cycle when
its latency is fixed, where it lands and what it has so far, the replies it still waits for, its FSTAT flags, and whether a
result issued later for its register has completed. -/
structure Flight where
  id : Nat
  due : Option Nat
  dst : Landing
  sys : Bool
  val : Word
  vec : Vec
  side : Side
  parts : Nat
  flags : BitVec 6
  stale : Bool := false
  deriving DecidableEq, Repr

/-- A message as it stands in an input queue or belongs to an activation (R26, R241 to R245): header, payload words
(word 0 of an address-routed message included), sender, time stamps, the class it runs under, and its place in the
input buffer (R292). -/
structure Msg where
  hdr : Word
  words : List Word
  srcVt : Nat
  srcSlot : Nat
  tc : Nat
  kind : Nat
  ts : BitVec 16
  cls : Nat
  off : Nat
  seq : Nat
  accepted : Nat
  transit : Nat
  parked : Bool
  deriving DecidableEq, Repr

/-- The overwrite record of a slot (R255, R278). -/
structure Overwrite where
  valid : Bool := false
  vec : Bool := false
  reg : Nat := 0
  srcVt : Nat := 0
  srcSlot : Nat := 0
  data : Word := 0
  deriving DecidableEq, Repr

/-- What a slot that issues nothing stands at (R170, R172, R208, R285, R301): `held` is an operand, a register, a line, a
fence or a queue that its next instruction waits for. -/
inductive Wait where
  | none
  | held
  | idle
  | donef
  | barwait
  | matrix
  | dead
  deriving DecidableEq, Repr

/-- A hardware loop level (R60). -/
structure LoopLevel where
  count : BitVec 32 := 0
  start : Half := 0
  stop : Half := 0
  deriving DecidableEq, Repr

/-- The probe of a BARWAIT that has not issued (R172): the issue number of its read, the cycle in which that read was sent,
and what came back: the word, or a fault. -/
structure Probe where
  id : Nat
  sent : Nat
  value : Option Word := none
  error : Option (Cause × Word) := none
  deriving DecidableEq, Repr

/-- A fault that a home has reported after its access issued (R286): the cause, TVAL, the pc of the access, and whether the access was
one of SYS mode (R285). -/
structure LateFault where
  cause : Cause
  tval : Word
  pc : Half
  sys : Bool
  deriving DecidableEq, Repr

/-- A slot of a tile, or the one thread of a core (R37, R56, R273 to R278, R307). `nacq` marks the named registers whose
value an RPUTR brought (R117), `pie` is SSTATUS PIE of a tile's slot, `late` holds the faults that homes have reported and the
slot has not taken, oldest first (R286), and `ready` says that the slot waited on nothing when another one of its tile came to a
YIELD (R170). -/
structure Slot where
  thread : Bool := false
  res : Bool := false
  sys : Bool := false
  pc : Half := 0
  q : Vector QEntry 16 := Vector.replicate 16 {}
  n : Vector Word 32 := Vector.replicate 32 0
  nfull : BitVec 32 := BitVec.allOnes 32
  nacq : BitVec 32 := 0
  sq : Vector QEntry 16 := Vector.replicate 16 {}
  sn : Vector Word 32 := Vector.replicate 32 0
  vq : Vector VEntry 4 := Vector.replicate 4 {}
  m1 : MaskWord := 0
  m2 : MaskWord := 0
  m3 : MaskWord := 0
  flights : List Flight := []
  nextId : Nat := 1
  vt : Word := 0x24004
  vt2 : Word := 0x20004
  rnd : BitVec 4 := 0
  fstat : BitVec 6 := 0
  schk : Bool := false
  lr : Half := 0
  lc0 : LoopLevel := {}
  lc1 : LoopLevel := {}
  fxsc : Byte := 190
  srseed : Word := 0
  xfollow : BitVec 32 := 0
  msg : Option Msg := none
  cursor : Nat := 0
  msgcls : BitVec 8 := 0
  gen : BitVec 12 := 0
  epc : Half := 0
  cause : BitVec 14 := 0
  tval : Word := 0
  pie : Bool := false
  pend : BitVec 6 := 0
  pendVal : Vector Word 6 := Vector.replicate 6 0
  ovr : Overwrite := {}
  late : List LateFault := []
  readyAt : Nat := 0
  lastIssue : Nat := 0
  yieldAt : Option (Nat × BitVec 8) := none
  ready : Bool := false
  fenceRel : Nat := 0
  fenceAcq : Nat := 0
  fenceAll : Nat := 0
  fenceLb : Nat := 0
  wait : Wait := .none
  probe : Option Probe := none
  mheld : Option Instr := none
  exchanges : Nat := 0
  loading : Bool := false
  recorded : Bool := false
  started : Nat := 0
  deriving DecidableEq, Repr

/-- A read-modify-write of R235 to R237. -/
inductive AtomKind where
  | add
  | smax
  | smin
  | umax
  | umin
  | band
  | bor
  | bxor
  | swap
  | cas
  deriving DecidableEq, Repr

/-- One field of a raw vector load: `len` bits at bit `boff` of the byte at `addr` go to bit `pos` of the result. -/
structure BitGet where
  pos : Nat
  len : Nat
  addr : Nat
  boff : Nat
  deriving DecidableEq, Repr

/-- One field of a raw vector store: the low `len` bits of `data` go to bit `boff` of the byte at `addr`. -/
structure BitPut where
  len : Nat
  addr : Nat
  boff : Nat
  data : Nat
  deriving DecidableEq, Repr

/-- What a converting vector load needs at the home (R204): register format and block code, memory format and block
code, rounding mode and key, active lanes. -/
structure Convert where
  regFmt : Nat
  regBlk : Nat
  memFmt : Nat
  memBlk : Nat
  rnd : BitVec 4
  key : Word
  slot : Nat
  vtn : Nat
  active : MaskWord
  deriving DecidableEq, Repr

/-- What one access does at the home of its location (R97, R100, R118, R120, R175, R203 to R206, R235 to R240). `fetch` is a read of the
copy engine (R223, R230): n bytes, of which the first stands at distance `skew`, and the block exponents at the distances that are
multiples of `step`, none for a step of 0. -/
inductive MemOp where
  | load (size : Nat) (signed : Bool)
  | store (size : Nat) (data : Word)
  | ldt
  | stf (data : Word)
  | femark
  | fefill
  | fetest
  | atomic (kind : AtomKind) (size : Nat) (b e : Word)
  | fxAdd (v : BitVec 32)
  | fxRead
  | fxSet (v : BitVec 32) (scale : Byte)
  | absmax (v : BitVec 32)
  | barArrive
  | barProbe (phase : Bool)
  | vecLoad (els : List BitGet)
  | fetch (n skew step : Nat)
  | vecConvert (c : Convert)
  | vecStore (els : List BitPut) (shadow : List (Nat × Byte))
  | vecAtomic (kind : AtomKind) (size : Nat) (els : List (Nat × Word))
  | vecFx (els : List (Nat × BitVec 32))
  | xtdef (entry : Nat)
  deriving DecidableEq, Repr

/-- Who issued an access or sent a packet: launch index, vtile, slot. -/
structure Origin where
  idx : Nat
  vt : Nat
  slot : Fin 8
  deriving DecidableEq, Repr

/-- What a packet carries (R113, R241, R249, R349, R404); `release` marks the write of an RPUTR (R117). -/
inductive Body where
  | message (hdr : Word) (words : List Word)
  | regWrite (cap val : Word) (vec : Vec) (side : Side) (release : Bool)
  | request (op : MemOp) (ptr : Word) (wantsReply : Bool)
  | reply (val : Vec) (side : Side) (flags : BitVec 6)
  | errorReply (cause : Cause) (tval : Word) (pc : Half)
  | trace (bits : Nat)
  deriving DecidableEq, Repr

/-- Where a packet goes: a vtile of a launch, or the rim. -/
inductive Dest where
  | vtile (idx vt : Nat)
  | rim
  deriving DecidableEq, Repr

/-- Where the name translation sends a packet (R342). -/
inductive Hop where
  | unresolved
  | site (s : Nat)
  | ring (idx gang : Nat)
  | gone
  deriving DecidableEq, Repr

/-- A packet in a network interface, in the fabric or in a parking ring; `sys` marks an access issued in SYS mode, `via` the site
that has sent it on and whose router counts it (R342), and `spilled` one that a spilling interface wrote to the ring (R352). -/
structure Packet where
  src : Origin
  id : Nat
  site : Nat
  tc : Nat
  colour : Nat
  dst : Dest
  hop : Hop
  body : Body
  ts : BitVec 16
  seq : Nat
  pc : Half
  cyc : Nat
  walked : Bool
  counts : Bool
  sys : Bool
  via : Option Nat := none
  spilled : Bool := false
  deriving DecidableEq, Repr

/-- What a matrix follow-on stands at (R229). -/
inductive FollowState where
  | none
  | waiting
  | ready
  | finished
  deriving DecidableEq, Repr

/-- A copy-engine job (R223 to R231). `moved` counts source bytes moved, rows in ascending order; `marked` lists own
lines marked empty and not yet set full; `issued` is the issue number of the instruction that started it; `out` names the request
to another vtile's tile that is out (R105), 0 for none; `got` holds the data and block exponents that one has brought for the next
piece, `acc` the bytes that a digest has read, and `wrote` says that it has been written. -/
structure CopyJob where
  ticket : BitVec 32
  slot : Fin 8
  digest : Bool
  src : Word
  dst : Word
  rowLen : Nat
  rows : Nat
  sstride : Int
  dstride : Int
  conv : Bool
  bar : Option Nat
  moved : Nat
  marked : List Nat
  failed : Bool
  follow : FollowState
  followWord : BitVec 32
  followS : Word
  colour : Nat
  bits : BitVec 5
  since : Nat
  issued : Nat
  out : Nat := 0
  got : Option (Nat × Nat) := none
  acc : List Byte := []
  wrote : Bool := false
  deriving DecidableEq, Repr

/-- A stream binding (R230): source rows, element size, next element to read, elements landed ahead, elements asked
for, whether a fetch failed, the request to another vtile's tile that is out, 0 for none, and the bytes of the next element that such
requests have brought: their number, the data and the sidecar. -/
structure StreamBinding where
  src : Word
  rowLen : Nat
  rows : Nat
  sstride : Int
  wide : Bool
  next : Nat
  landed : List (Vec × Side)
  asked : Nat
  failed : Bool
  out : Nat := 0
  part : Nat × Nat × Nat := (0, 0, 0)
  deriving DecidableEq, Repr

/-- A counter-table entry (R29). -/
structure Counter where
  count : BitVec 32 := 0
  cls : BitVec 6 := 0
  deriving DecidableEq, Repr

/-- An input queue (R26, R27): messages, head first; the cycle at which the head became head; when it became aged. -/
structure InQueue where
  msgs : List Msg := []
  since : Nat := 0
  aged : Option Nat := none
  deriving DecidableEq, Repr

/-- A register write that waits in the holding area (R256). -/
structure HeldWrite where
  slot : Fin 8
  reg : Nat
  gen : BitVec 12
  val : Word
  vec : Vec
  side : Side
  src : Origin
  release : Bool
  deriving DecidableEq, Repr

/-- The stages of a guarded vtile (R259). -/
inductive Stage where
  | none
  | surrogate
  | check
  | exact
  deriving DecidableEq, Repr

/-- A captured access (R125, R126). -/
inductive Captured where
  | packets (ps : List Packet)
  | copy (slot : Fin 8) (digest : Bool) (tmpl : BitVec 256) (offs : Word) (follow : Option (BitVec 32 × Word))
  | launch (slot : Fin 8) (bytes : List Byte)
  | cntset (entry : Nat) (val : Word)
  deriving DecidableEq, Repr

/-- The guarded phase of a vtile (R259 to R264). -/
structure GuardState where
  stage : Stage := .none
  window : Option (Nat × Nat) := none
  caught : List Captured := []
  used : Nat := 0
  reason : Nat := 0
  cause : Nat := 0
  deriving DecidableEq, Repr

/-- State of a name-cache entry (R339). -/
inductive NameState where
  | present
  | absent
  | forwarded
  deriving DecidableEq, Repr

/-- A name-cache entry (R339). -/
structure NameEntry where
  idx : Nat
  vt : Nat
  site : Nat
  state : NameState
  deriving DecidableEq, Repr

/-- How a network interface treats arrivals (R352, R353). -/
inductive NiMode where
  | direct
  | sealed
  | spill
  | append
  | delivering
  deriving DecidableEq, Repr

/-- A Flue or command-link message (R296, R333): DEST codes of sender and receiver, type, tag, payload. -/
structure FlueMsg where
  src : Nat
  dst : Nat
  type : Nat
  tag : Nat
  payload : Word
  deriving DecidableEq, Repr

/-- The sums a tile keeps of one sender (R406). -/
structure SenderSum where
  idx : Nat
  vt : Nat
  transit : Nat
  wait : Nat
  run : Nat
  count : Nat
  deriving DecidableEq, Repr

/-- A tile; `ctrSets` holds the CNTSETs that stand behind sends in its interface: slot, issue number, entry, value (R248), and
`freeUse` counts the free values that its vtile has drawn (R8), `bankAt` holds the cycle and rank of the last action at its banks (R97),
`condemned` says that its Stoker takes it out of service once it is free (R421). (R20, R34, R52 to R56, R96 to R104, R221 to R230, R244, R259, R278, R339, R346, R352, R403, R406). -/
structure Tile where
  occ : Option (Nat × Nat) := none
  retired : Bool := false
  slots : Vector Slot 8 := Vector.replicate 8 {}
  spad : Memory := []
  shadow : Memory := []
  fe : BitVec 1024 := BitVec.allOnes 1024
  eccWords : List Nat := []
  code : List Half := []
  sysSeg : List Half := []
  tregs : Vector TileWord 8 := Vector.replicate 8 0
  tcfg : Vector (BitVec 19) 8 := Vector.replicate 8 0
  mrow : BitVec 32 := BitVec.allOnes 32
  mcol0 : Word := BitVec.allOnes 64
  mcol1 : Word := BitVec.allOnes 64
  mslot : Word := 0
  mptr : Nat := 0
  mlast : Option (Fin 8) := none
  mfree : Nat := 0
  vfree : Nat := 0
  gresid : BitVec 32 := 0
  dispFree : Nat := 0
  bankAt : Nat × Nat := (0, 0)
  qslice : Nat := 0
  templates : Vector (BitVec 256) 64 := Vector.replicate 64 0
  jobs : List CopyJob := []
  lastTicket : BitVec 32 := 0
  xerr : BitVec 5 := 0
  streams : Vector (Option StreamBinding) 4 := Vector.replicate 4 none
  counters : Vector Counter 64 := Vector.replicate 64 {}
  iqs : Vector InQueue 4 := Vector.replicate 4 {}
  hold : List HeldWrite := []
  heldReqs : List Packet := []
  outq : List Packet := []
  ctrSets : List (Fin 8 × Nat × Nat × Word) := []
  names : List NameEntry := []
  guard : GuardState := {}
  stop : Bool := false
  nodisp : Bool := false
  faulted : Bool := false
  svq : List FlueMsg := []
  ni : NiMode := .direct
  sealing : Bool := false
  fwd : Option Nat := none
  colour : Nat := 0
  colourCtr : Vector (BitVec 16) 16 := Vector.replicate 16 0
  quiesce : Bool := false
  packMask : Option (BitVec 8) := none
  savedMask : BitVec 8 := 0
  trSeq : Nat := 0
  trLast : Nat := 0
  trRebase : Bool := true
  trLost : Nat := 0
  sums : List SenderSum := []
  sendSeq : Vector Nat 8 := Vector.replicate 8 0
  fresh : Bool := false
  pdone : Bool := false
  killSent : Bool := false
  opening : Bool := false
  freeUse : Nat := 0
  good : Bool := true
  condemned : Bool := false
  fused : Bool := false
  outOfService : Bool := false
  eccStops : List Nat := []
  deriving DecidableEq, Repr

/-- The parts of a swap image whose layout the specification leaves open (R354), by physical address. `owner` is the vtile
whose state it is, until the vtile is loaded again. -/
structure SwapRest where
  iqs : Vector InQueue 4
  hold : List HeldWrite
  heldReqs : List Packet
  streams : Vector (Option StreamBinding) 4
  guard : GuardState
  ovrs : List Overwrite
  gens : List (BitVec 12 × Bool × Bool)
  qs : List (Vector QEntry 16)
  vqs : List (Vector VEntry 4)
  msgs : List (Option Msg)
  flights : List (List Flight)
  nextIds : List Nat
  sendSeq : Vector Nat 8
  xerr : BitVec 5
  lastTicket : BitVec 32
  gresid : BitVec 32
  owner : Option (Nat × Nat)
  fences : List (Nat × Nat × Nat × Nat)
  nacqs : List (BitVec 32)
  exchanges : List Nat
  pendVals : List (Vector Word 6)
  quiesce : Bool
  freeUse : Nat
  starteds : List Nat
  lates : List (List LateFault)
  deriving DecidableEq, Repr

/-- A regional capture unit (R407). -/
structure CaptureUnit where
  qty : Nat := 0
  filt : Bool := false
  lidx : Nat := 0
  min : BitVec 32 := BitVec.allOnes 32
  max : BitVec 32 := 0
  count : BitVec 32 := 0
  bins : Vector (BitVec 32) 16 := Vector.replicate 16 0
  deriving DecidableEq, Repr

/-- A core: the Collier or a Stoker (R276, R277, R307 to R310, R407, R418), with the sub-regions whose clocks are stretched
(R423) and whether its image failed to verify (R416). SFUSE names no sub-region at reset (log entry 60, DESIGN CHOICE). -/
structure Core where
  running : Bool := false
  th : Slot := { thread := true, sys := true }
  mem : Memory := []
  ie : Bool := false
  pie : Bool := false
  iedge : BitVec 7 := 0
  iena : BitVec 7 := 0
  timercmp : Word := 0
  timerArmed : Bool := false
  timerAt : Nat := 0
  eccCnt : BitVec 32 := 0
  eccThr : BitVec 32 := BitVec.allOnes 32
  sgate : BitVec 16 := 0
  sfuse : BitVec 16 := 0
  duties : Vector Nat 16 := Vector.replicate 16 16
  droop : BitVec 32 := 0
  stretch : BitVec 16 := 0
  noBoot : Bool := false
  cap : CaptureUnit := {}
  deriving DecidableEq, Repr

/-- A region's sensor and duty register at the Collier (R418, R419). -/
structure RegionThermal where
  temp : BitVec 12 := 0
  valid : Bool := false
  duty : Nat := 16
  applied : Nat := 16
  trip : Bool := false
  pend : Bool := false
  deriving DecidableEq, Repr

/-- A peer link (R418, R424). -/
structure PeerLink where
  up : Bool := false
  paired : Bool := false
  part : Nat := 0
  pasid : Nat := 0
  deriving DecidableEq, Repr

/-- The launch packet of R314. -/
structure Packet128 where
  kind : Nat := 0
  guarded : Bool := false
  det : Bool := false
  handlers : Bool := false
  child : Bool := false
  traced : Bool := false
  keepalive : Bool := false
  tag : Nat := 0
  code : Word := 0
  arg : Word := 0
  widths : List Nat := []
  ganglog : Nat := 0
  slots : Nat := 0
  vregs : Nat := 0
  prio : Nat := 0
  extents : List Nat := []
  widbase : Word := 0
  seed : Word := 0
  deps : List Nat := []
  winbase : Nat := 0
  savebase : Nat := 0
  guardbase : Nat := 0
  guardsize : Nat := 0
  surr : Nat := 0
  check : Nat := 0
  exact : Nat := 0
  gtol : BitVec 32 := 0
  wdog : Nat := 0
  route : Nat := 0
  absscope : Nat := 0
  completion : Word := 0
  reservedZero : Bool := true
  deriving DecidableEq, Repr

/-- The launch error log (R329). -/
structure ErrorLog where
  gacc : Nat := 0
  grej : Nat := 0
  noHandler : Nat := 0
  late : Nat := 0
  badcap : Nat := 0
  stalecap : Nat := 0
  overdrop : Nat := 0
  launchRej : Nat := 0
  ctrdrop : Nat := 0
  stops : Nat := 0
  parked : Nat := 0
  summons : Nat := 0
  fcause : Nat := 0
  fvtile : Nat := 0
  fepc : Nat := 0
  deriving DecidableEq, Repr

/-- The states of a gang (R345). -/
inductive GangState where
  | unplaced
  | loading
  | resident
  | saving
  | flushing
  | absent
  | retired
  deriving DecidableEq, Repr

/-- A gang (R345, R357, R359, R360): its state, the vtiles on tiles with the sites they hold or will hold, when it became resident, the regions
whose answer is awaited and the step they answer, a summon that waits for it, its images, and whether an eviction for
pre-emption made it absent. -/
structure Gang where
  state : GangState := .unplaced
  sites : List (Nat × Nat) := []
  since : Nat := 0
  awaiting : List Nat := []
  phase : Nat := 0
  summoned : Bool := false
  image : Nat := 0
  preempted : Option Nat := none
  retiredVts : List Nat := []
  deriving DecidableEq, Repr

/-- A live launch (R10 to R18, R314, R318 to R320, R337 to R345, R388). `deps` lists the tag and creation number of each
launch it names in a DEP field that has not completed, `early` the log entries, chunk and words, that its vtiles make before it has
started and its segment is open, `toStop` the vtiles that a break has found absent and that are stopped when placed next (R401). -/
structure Launch where
  pkt : Packet128
  key : Word
  asid : Nat
  part : Nat
  queue : Nat
  parent : Option Nat
  depth : Nat
  order : Nat
  entry : Nat
  handlers : List Half
  code : List Half
  ptbase : Nat
  parkbase : Nat
  started : Option Nat
  gangs : List Gang
  children : Nat
  log : ErrorLog
  killed : Option (Nat × Nat)
  killAwait : List Nat
  held : Bool
  stopAll : Bool
  toStop : List Nat
  logSeg : Option Nat
  forced : Bool
  evictions : Nat
  replayDone : List (Nat × Nat)
  deps : List (Nat × Nat)
  early : List (Nat × Nat × Option Nat)
  deriving DecidableEq, Repr

/-- A completed launch the tag table still knows (R319). -/
structure TagEntry where
  part : Nat
  tag : Nat
  order : Nat
  idx : Option Nat
  status : Nat
  deriving DecidableEq, Repr

/-- The states of a queue (R313). -/
inductive QueueState where
  | active
  | dry
  | frozen
  deriving DecidableEq, Repr

/-- An event record that waits for ring space (R332), with the hardware slot of its queue and the tick of its event. -/
structure PendingError where
  type : Nat
  hwq : Nat
  tick : Nat
  status : Nat
  reason : Nat
  tag : Nat
  info : Word
  count : Nat
  orTypes : Nat
  order : Nat
  deriving DecidableEq, Repr

/-- The order log of a queue (R388, R391, R395). -/
structure OrderLog where
  mode : Nat := 0
  base : Nat := 0
  len : Nat := 0
  logv : Nat := 12
  append : Nat := 0
  aside : Nat := 0
  read : Nat := 0
  deriving DecidableEq, Repr

/-- The pairing of a queue (R393 to R395). -/
structure Pairing where
  enabled : Bool := false
  digests : Nat := 0
  link : Nat := 0
  peerQueue : Nat := 0
  count : Nat := 1
  timeout : Nat := 0
  next : Nat := 0
  mine : Option (Nat × Nat × List (BitVec 256) × Nat) := none
  theirs : Option (Nat × Nat × List (BitVec 256)) := none
  waiting : Bool := false
  deriving DecidableEq, Repr

/-- A software queue (R311 to R313). -/
structure Queue where
  base : Nat
  log : Nat
  headptr : Nat
  fn : Nat
  bucket : Nat
  part : Nat
  asid : Nat
  head : Nat
  tail : Nat
  state : QueueState
  slot : Option Nat
  mappedAt : Nat
  olog : OrderLog
  pair : Pairing
  deriving DecidableEq, Repr

/-- A hardware queue slot's watchdog (R300, R326): deadline in ticks when armed, and the launch it covers. -/
structure Watchdog where
  deadline : Option Nat := none
  covers : Option Nat := none
  deriving DecidableEq, Repr

/-- A token bucket (R324). -/
structure Bucket where
  level : Int := 0
  rate : Nat := 0
  cap : Nat := 0
  deriving DecidableEq, Repr

/-- A partition (R335, R366, R367). -/
structure Partition where
  regions : Word := 0
  hostBase : Nat := 0
  hostLen : Nat := 0
  hostBound : Bool := false
  key : BitVec 512 := 0
  summons : List (Nat × Nat) := []
  lastSlot : Nat := 0
  deriving DecidableEq, Repr

/-- The event ring (R331). -/
structure EventRing where
  on : Bool := false
  base : Nat := 0
  headaddr : Nat := 0
  log : Nat := 6
  tail : Nat := 0
  deriving DecidableEq, Repr

/-- Permits of a region's command link (R333): held by the Collier toward the Stoker, by the Stoker toward the Collier,
and owed by each receiver, with the tick at which the first one came to be owed. -/
structure LinkPermits where
  toStoker : Nat := 16
  toCollier : Nat := 8
  owedByStoker : Nat := 0
  owedByCollier : Nat := 0
  owedSinceStoker : Nat := 0
  owedSinceCollier : Nat := 0
  deriving DecidableEq, Repr

/-- A parking ring (R348 to R353) as its park agent sees it: its entries, oldest first, each with its unit, and the header, which
stands in rim memory alone. -/
structure Ring where
  entries : List (Packet × Nat) := []
  head : Nat := 0
  tail : Nat := 0
  summoned : Bool := false
  drainpark : Bool := false
  deriving DecidableEq, Repr

/-- A child packet on its way to the Collier (R246, R317). -/
structure ChildPacket where
  bytes : List Byte
  parent : Nat
  deriving DecidableEq, Repr

/-- The Speig session (R401, R402): its partition, OP of the last command, the last reply's data and whether it was a refusal, and the
BREAK frames it was sent: launch index, vtile and slot. -/
structure Speig where
  session : Option Nat := none
  op : Nat := 0
  reply : List Byte := []
  refused : Bool := false
  breaks : List (Nat × Nat × Nat) := []
  deriving DecidableEq, Repr

/-- A migration that a Stoker runs (R361): the vtile, its old and new sites, and how far it has come: 0 the old tile
saves itself, 1 the new tile restores itself, 2 reported as moved. -/
structure Move where
  idx : Nat
  vt : Nat
  old : Nat
  new : Nat
  phase : Nat
  deriving DecidableEq, Repr

/-- A region's trace ring in ASID-0 rim memory (R404): base, size and bytes written. No rule says how a reader gives space back: a
new TRACECFG does (log entry 58). -/
structure TraceRing where
  base : Nat := 0
  size : Nat := 0
  used : Nat := 0
  deriving DecidableEq, Repr

/-- What may move next (the model's own): an agent issues, a step of the table takes place, time passes, a bit error is corrected and
reported to a core, an uncorrectable one appears in a word of a tile's scratchpad or scale shadow or of rim memory (R98, R309), the
tag of the next Speig command frame comes (R402), a peer link has trained (R418, R424), a region's Stoker takes the segment of a
management chain into test mode or out of it (R415), a tile fails its self-test (R421), or a slot's system routine does the next thing
that R290 has it do. -/
inductive Choice where
  | agent (a : Agent)
  | event (i : Instr)
  | cycles (n : Nat)
  | ticks (n : Nat)
  | corrected (a : Agent)
  | upset (site word : Nat)
  | upsetRim (word : Nat)
  | speigTag (tag : BitVec 32)
  | peerLinkUp (link : Fin 16)
  | testMode (region row : Fin 64) (on : Bool)
  | selfTestFails (site : Nat)
  | routine (site : Nat) (slot : Fin 8)
  deriving DecidableEq, Repr

/-- The state of the module. `tally` holds what the tiles of a region have counted for a launch and its Stoker has not reported
(R334), `pendings` the pending-error record of each queue that has one (R332), `retiring` the launch, site and colour of each retired vtile
that its Stoker has not reported (R347). `keyed` says under which partition's key each 64-byte data unit of rim memory was last written; a
unit without a row was written under the device key, or by nothing (R367). `shipped` is the fused grade, A (log entry 60, DESIGN CHOICE). -/
structure State where
  cycle : Nat := 0
  tbOff : Nat := 0
  sched : List Choice := []
  cur : Agent := .collier
  freeCtr : Nat := 0
  tiles : Table Tile := []
  collier : Core := { running := true }
  stokers : Table Core := []
  hbm : Memory := []
  hbmEcc : List Nat := []
  keyed : Table Nat := []
  host : Memory := []
  fabric : List Packet := []
  acks : List (Nat × Nat × Nat) := []
  engineId : Nat := 0
  rings : List ((Nat × Nat) × List (Packet × Nat)) := []
  flue : List FlueMsg := []
  permits : Table LinkPermits := []
  linkWait : List FlueMsg := []
  launches : Table Launch := []
  tags : List TagEntry := []
  created : Nat := 0
  children : List ChildPacket := []
  tally : List ((Nat × Nat) × ErrorLog) := []
  retiring : List (Nat × Nat × Nat) := []
  queues : Table Queue := []
  pendings : Table PendingError := []
  watchdogs : Table Watchdog := []
  lastMapped : Nat := 0
  passes : Nat := 0
  refills : Nat := 0
  buckets : Table Bucket := []
  partitions : Table Partition := []
  asidPart : Table Nat := []
  asidTable : Nat := 0
  directory : Nat := 0
  images : Table SwapRest := []
  moves : List Move := []
  evring : EventRing := {}
  evdrop : BitVec 32 := 0
  evcoal : BitVec 32 := 0
  dbbad : BitVec 32 := 0
  msix : Nat := 0
  errorOrder : Nat := 0
  thermal : Table RegionThermal := []
  snsWarn : BitVec 12 := 0x550
  snsCrit : BitVec 12 := 0x690
  alert : Word := 0
  crossed : Nat × Word := (0, 0)
  shipped : Nat := 1
  retirements : Nat := 0
  readmits : Nat := 0
  replaceReq : Bool := false
  peers : Table PeerLink := []
  rxuBusy : Bool := false
  rxu : List ((Nat × Nat) × (Nat × Bool × Bool × Nat)) := []
  halted : Bool := false
  haltDriven : Bool := false
  haltIds : List Nat := []
  haltAt : Nat := 0
  speig : Speig := {}
  speigTag : BitVec 32 := 0
  trace : Table TraceRing := []
  owner : Bool := false
  ownerKey : BitVec 512 := 0
  serial : Word := 0
  boot : Nat := 0
  bootFailed : Bool := false
  untrained : List Nat := []
  image : List Byte := []
  lockerr : Bool := false
  aer : Bool := false
  sysImage : List Half := []
  deriving DecidableEq, Repr

/-- The module right after reset: the timebase at 0 and the Collier at its reset entry (R307, R416 step 1); nothing
placed, queued, parked or in flight. -/
def State.reset : State := {}

end Sys2Proof.Machine
end

