-- ==== Sys2Proof/Machine/Memory.lean ====
section
/-! DEFINITION. Tables from numbers to values, and memories as sparse lists of bytes in one canonical form
(spec/04_memory.md R96, R106; log entries 4 and 5, DESIGN CHOICE, say what an unlisted byte reads as). Bytes within a value are little-endian
(spec/00_scope.md R4). -/

namespace Sys2Proof.Machine

/-- The row of a table, or nothing. -/
def Table.get? {α : Type} : Table α → Nat → Option α
  | [], _ => none
  | (k, v) :: t, key => if k == key then some v else Table.get? t key

/-- The row of a table, or the table's default. -/
def Table.getD {α : Type} (t : Table α) (key : Nat) (d : α) : α := (Table.get? t key).getD d

/-- The table with one row written, keys rising. -/
def Table.put {α : Type} : Table α → Nat → α → Table α
  | [], key, v => [(key, v)]
  | (k, w) :: t, key, v =>
    if Nat.blt key k then (key, v) :: (k, w) :: t
    else if k == key then (key, v) :: t
    else (k, w) :: Table.put t key v

/-- The table without one row. -/
def Table.del {α : Type} (t : Table α) (key : Nat) : Table α := t.filter (fun r => r.1 != key)

/-- The byte at an address: an unlisted byte reads as zero. -/
def Memory.get (m : Memory) (a : Nat) : Byte :=
  match m with
  | [] => 0
  | c :: m => if c.1 == a then c.2 else Memory.get m a

/-- The n bytes from address a as a little-endian number. -/
def Memory.read (m : Memory) (a n : Nat) : Nat :=
  m.foldr (fun c acc =>
    if Nat.ble a c.1 && Nat.blt c.1 (a + n) then acc ||| (c.2.toNat <<< (8 * (c.1 - a))) else acc) 0

/-- The cells that hold the n low bytes of a number from address a on; a zero byte has no cell. -/
def Memory.cells (a : Nat) : Nat → Nat → List Host.Cell
  | 0, _ => []
  | n + 1, v =>
    if v % 256 == 0 then Memory.cells (a + 1) n (v / 256)
    else (a, BitVec.ofNat 8 v) :: Memory.cells (a + 1) n (v / 256)

/-- The memory with the n low bytes of a number written from address a on. -/
def Memory.write (m : Memory) (a n v : Nat) : Memory :=
  m.filter (fun c => Nat.blt c.1 a) ++ (Memory.cells a n v ++ m.filter (fun c => Nat.ble (a + n) c.1))

/-- The memory with the n bytes of another memory from address b on copied to address a on. -/
def Memory.copyIn (m : Memory) (a : Nat) (src : Memory) (b n : Nat) : Memory :=
  m.filter (fun c => Nat.blt c.1 a)
    ++ ((src.filter fun c => Nat.ble b c.1 && Nat.blt c.1 (b + n)).map (fun c => (c.1 - b + a, c.2))
    ++ m.filter (fun c => Nat.ble (a + n) c.1))

/-- The n bytes from address b on as a memory of their own, from address 0 on. -/
def Memory.slice (m : Memory) (b n : Nat) : Memory := Memory.copyIn [] 0 m b n

/-- The bytes of a list as a little-endian number. -/
def bytesToNat : List Byte → Nat
  | [] => 0
  | b :: bs => b.toNat + 256 * bytesToNat bs

/-- The n low bytes of a number, lowest first. -/
def natToBytes : Nat → Nat → List Byte
  | 0, _ => []
  | n + 1, v => BitVec.ofNat 8 v :: natToBytes n (v / 256)

/-- Addresses strictly rising from a bound on and no listed byte zero. -/
def Memory.wfFrom : Nat → Memory → Bool
  | _, [] => true
  | lo, c :: m => Nat.ble lo c.1 && c.2 != 0 && Memory.wfFrom (c.1 + 1) m

/-- The canonical form of a memory. -/
def Memory.wf (m : Memory) : Bool := Memory.wfFrom 0 m

end Sys2Proof.Machine
end

