-- ==== Sys2Proof/Machine/Base.lean ====
section
/-! DEFINITION. Finding and replacing tiles, cores, slots and launches; sites, regions and the timebase (spec/00_scope.md R1
to R5, spec/01_machine.md R12, spec/12_sys_isa.md R296, R306). -/

namespace Sys2Proof

/-- Whether an agent is a core. -/
def Agent.isCore : Agent → Bool
  | .tile _ _ => false
  | _ => true

/-- The site of a tile's slot; 0 for a core. -/
def Agent.site : Agent → Nat
  | .tile site _ => site
  | _ => 0

/-- The slot number of a tile's slot; 0 for a core. -/
def Agent.slotNo : Agent → Fin 8
  | .tile _ k => k
  | _ => 0

end Sys2Proof

namespace Sys2Proof.Machine

/-! ### Tiles, cores and slots -/

/-- The tile at a site; a site nothing has touched is a fresh tile. -/
def State.tile (s : State) (site : Nat) : Tile := Table.getD s.tiles site {}

/-- The state with the tile at a site replaced. -/
def State.setTile (s : State) (site : Nat) (t : Tile) : State := { s with tiles := Table.put s.tiles site t }

/-- The Stoker of a region. -/
def State.stoker (s : State) (region : Nat) : Core := Table.getD s.stokers region {}

/-- The core an agent is; a tile slot is none, and answers a core that does not run. -/
def State.core (s : State) : Agent → Core
  | .collier => s.collier
  | .stoker r => s.stoker r
  | .tile _ _ => {}

/-- The state with a core replaced. -/
def State.setCore (s : State) (a : Agent) (c : Core) : State :=
  match a with
  | .collier => { s with collier := c }
  | .stoker r => { s with stokers := Table.put s.stokers r c }
  | .tile _ _ => s

/-- The slot of an agent: a tile's slot or a core's one thread (R307). -/
def State.slot (s : State) : Agent → Slot
  | .tile site k => (s.tile site).slots[k]
  | .collier => s.collier.th
  | .stoker r => (s.stoker r).th

/-- The tile with one slot replaced. -/
def Tile.setSlot (t : Tile) (k : Fin 8) (x : Slot) : Tile := { t with slots := t.slots.set k x }

/-- The state with the slot of an agent replaced. -/
def State.setSlot (s : State) (a : Agent) (x : Slot) : State :=
  match a with
  | .tile site k => s.setTile site ((s.tile site).setSlot k x)
  | .collier => { s with collier := { s.collier with th := x } }
  | .stoker r => { s with stokers := Table.put s.stokers r { s.stoker r with th := x } }

/-- A launch with every field zero, which stands where no launch is live. -/
def Launch.blank : Launch :=
  { pkt := {}, key := 0, asid := 0, part := 0, queue := 0, parent := none, depth := 0, order := 0, entry := 0,
    handlers := [], code := [], ptbase := 0, parkbase := 0, started := none, gangs := [], children := 0, log := {},
    killed := none, killAwait := [], held := false, stopAll := false, toStop := [], logSeg := none, forced := false,
    evictions := 0, replayDone := [], deps := [], early := [] }

/-- The live launch with an index. -/
def State.launch (s : State) (idx : Nat) : Launch := Table.getD s.launches idx Launch.blank

/-- The state with a live launch replaced. -/
def State.setLaunch (s : State) (idx : Nat) (l : Launch) : State := { s with launches := Table.put s.launches idx l }

/-- The launch index and vtile a tile holds; (0, 0) where it holds none. -/
def Tile.name (t : Tile) : Nat × Nat := t.occ.getD (0, 0)

/-- The extent of a grid level: a field of 0 stands for 1 (R12). -/
def Packet128.extent (p : Packet128) (k : Nat) : Nat :=
  match p.extents[k]? with
  | some (e + 1) => e + 1
  | _ => 1

/-- The number of vtiles of a launch (R12). -/
def Packet128.vtiles (p : Packet128) : Nat :=
  p.extent 0 * p.extent 1 * p.extent 2 * p.extent 3 * p.extent 4 * p.extent 5

/-- The region of a site (R1): 8 x 8 regions of 64 x 64 sites, numbered 8j + i. -/
def regionOf (site : Nat) : Nat := (site / 512 / 64) * 8 + (site % 512) / 64

/-- The sub-region of a site in its region (R306): 4 x (row) + column, 16 x 16 sites each. -/
def subRegionOf (site : Nat) : Nat := (site / 512 % 64 / 16) * 4 + (site % 512 % 64) / 16

/-- Whether the core supply of a site is on: its sub-region is neither gated nor fused off (R410). -/
def State.powered (s : State) (site : Nat) : Bool :=
  !(s.tile site).fused && !(s.stoker (regionOf site)).sgate.getLsbD (subRegionOf site)

/-- Whether a tile may inject under a colour (R346). -/
def Tile.mayColour (t : Tile) (c : Nat) : Bool := t.colourCtr[(Fin.ofNat 16 c : Fin 16)] != 65535

/-- DEST codes of R296. -/
def stokerCode (region : Nat) : Nat := 0x40000 + region
/-- The Collier's DEST code (R296). -/
def collierCode : Nat := 0x40040

/-- SRC of a message that a park agent sends, which has no DEST code of its own (R296; log entry 10, DESIGN CHOICE). -/
def rimCode : Nat := 0x40041

/-- Whether a message travels on a command link: between the Collier and a Stoker (R333, R356). -/
def FlueMsg.onLink (m : FlueMsg) : Bool :=
  (m.src == collierCode && Nat.ble 0x40000 m.dst && Nat.blt m.dst collierCode)
    || (m.dst == collierCode && Nat.ble 0x40000 m.src && Nat.blt m.src collierCode)

/-- The types a receiver knows (R296, R334, R356, R419, R421); another is discarded. -/
def assignedType (t : Nat) : Bool :=
  (Nat.ble 1 t && Nat.ble t 0x0A) || (Nat.ble 0x40 t && Nat.ble t 0x46) || (Nat.ble 0x60 t && Nat.ble t 0x6C)
    || (Nat.ble 0x70 t && Nat.ble t 0x72) || (Nat.ble 0x80 t && Nat.ble t 0x82)

/-- The timebase in ticks: 1 tick is 2.4 cycles at the nominal clock (R5; log entry 7, DEDUCED). -/
def State.tb (s : State) : Word := BitVec.ofNat 64 (s.tbOff + s.cycle * 5 / 12)

/-- The time by which watchdogs, residency slices and token buckets run: it stands still in a halt (R399). -/
def State.clock (s : State) : Nat := if s.halted then s.haltAt else s.tb.toNat

/-- A field of a word. -/
def bitsOf (w hi lo : Nat) : Nat := w / 2 ^ lo % 2 ^ (hi + 1 - lo)

/-- The data units of 64 bytes that a range of bytes touches (R367). -/
def unitsIn (a n : Nat) : List Nat := if n == 0 then [] else (List.range ((a + n - 1) / 64 - a / 64 + 1)).map (· + a / 64)

/-- Data units of rim memory are written under a partition's key, or under the device key (R367; log entry 40, DEDUCED). -/
def State.sealedFor (s : State) (part : Option Nat) (units : List Nat) : State :=
  { s with keyed :=
      match part with
      | some p => units.foldl (fun t u => Table.put t u p) s.keyed
      | none => s.keyed.filter fun r => !units.contains r.1 }

/-- A partition gets another key: what its old one encrypted decrypts to values that nothing relates to the old data, free
values (R367, R368). -/
def State.rekey (s : State) (part : Nat) : State :=
  let us := (s.keyed.filter fun r => r.2 == part).map (·.1)
  { s with
    hbm := us.zipIdx.foldl (fun m u =>
      Memory.write m (64 * u.1) 64
        (bytesToNat ((List.range 64).map fun i => Config.freeByte (s.freeCtr + 64 * u.2 + i)))) s.hbm
    freeCtr := s.freeCtr + 64 * us.length
    keyed := s.keyed.filter fun r => r.2 != part }

/-- The number of the next free value that an agent draws. That of a tile's slot is formed from the launch index and vtile
of the tile and the count of its own draws, and so from nothing that its launch may not read (R8; log entry 6, DESIGN CHOICE). -/
def State.freeAt (s : State) (a : Agent) : Nat :=
  match a with
  | .tile site _ =>
    let t := s.tile site
    ((t.name.2 + 1) * 2 ^ 16 + t.name.1) * 2 ^ 64 + t.freeUse
  | _ => s.freeCtr

/-- The state after an agent has drawn n free values. -/
def State.spend (s : State) (a : Agent) (n : Nat) : State :=
  match a with
  | .tile site _ => s.setTile site { s.tile site with freeUse := (s.tile site).freeUse + n }
  | _ => { s with freeCtr := s.freeCtr + n }

/-- A doubleword of rim memory. -/
def State.hbm64 (s : State) (a : Nat) : Nat := Memory.read s.hbm a 8

end Sys2Proof.Machine
end

