-- ==== Sys2Proof/Machine/Translate.lean ====
section
/-! DEFINITION. Translation of HBM virtual addresses at the rim (spec/14_sys_swap.md R362 to R365). -/

namespace Sys2Proof.Machine

/-- A translation of one page: frame address, W, SHD and shadow address (R363). -/
structure Page where
  frame : Nat
  writable : Bool
  shadowed : Bool
  shadow : Nat
  deriving DecidableEq, Repr

/-- The next table of a directory entry: V set and every reserved bit zero (R363, R364). -/
def nextTable (e : Nat) : Option Nat :=
  if bitsOf e 0 0 == 1 && bitsOf e 11 1 == 0 && bitsOf e 63 48 == 0 then some (bitsOf e 47 12 * 4096) else none

/-- A leaf entry: valid, reserved bits zero, and the frame stripe-congruent with the page (R363, R364). -/
def leafPage (w0 w1 page : Nat) : Option Page :=
  if bitsOf w0 0 0 == 1 && bitsOf w0 11 3 == 0 && bitsOf w0 63 48 == 0 && bitsOf w1 6 0 == 0 && bitsOf w1 63 48 == 0
      && bitsOf w0 47 12 % 48 == page % 48 && Nat.ble (bitsOf w0 47 12 * 4096 + 4096) Config.hbmBytes then
    some { frame := bitsOf w0 47 12 * 4096, writable := bitsOf w0 1 1 == 1, shadowed := bitsOf w0 2 2 == 1,
           shadow := bitsOf w1 47 7 * 128 }
  else none

/-- The partition that the ASID table gives an ASID whose V is set (R362). -/
def State.partOf (s : State) (asid : Nat) : Option Nat :=
  let w := s.hbm64 (s.asidTable + 16 * asid)
  if bitsOf w 0 0 == 0 then none else some (bitsOf w 7 2)

/-- The four-level walk of a page of an ASID (R362, R363). The frames of a stack that has failed to train are left out of every mapping
(R416). -/
def State.walkPage (s : State) (asid page : Nat) : Option Page := do
  let w := s.hbm64 (s.asidTable + 16 * asid)
  if bitsOf w 0 0 == 0 then none
  let va := page * 4096
  let t2 ← nextTable (s.hbm64 (bitsOf w 47 13 * 8192 + 8 * bitsOf va 47 38))
  let t1 ← nextTable (s.hbm64 (t2 + 8 * bitsOf va 37 29))
  let t0 ← nextTable (s.hbm64 (t1 + 8 * bitsOf va 28 20))
  let leaf := t0 + 16 * bitsOf va 19 12
  let p ← leafPage (s.hbm64 leaf) (s.hbm64 (leaf + 8)) page
  if s.untrained.contains (p.frame / 4096 % 48) then none else some p

/-- A cached translation of a page at its RXU (R363). -/
def State.cachedPage (s : State) (asid page : Nat) : Option Page :=
  (s.rxu.find? fun r => r.1 == (asid, page)).map fun r =>
    { frame := r.2.1, writable := r.2.2.1, shadowed := r.2.2.2.1, shadow := r.2.2.2.2 }

/-- A translation of a page: the RXU's cached one, or the walk's. -/
def State.page? (s : State) (asid page : Nat) : Option Page :=
  match s.cachedPage asid page with
  | some p => some p
  | none => s.walkPage asid page

/-- The translations of the RXU of a page's stack are at most 1,024 (R363): the oldest leaves. -/
def trimRxu (stack : Nat) (l : List ((Nat × Nat) × (Nat × Bool × Bool × Nat))) :
    List ((Nat × Nat) × (Nat × Bool × Bool × Nat)) :=
  if Nat.blt 1024 (l.filter fun r => r.1.2 % 48 == stack).length then
    match l.find? fun r => r.1.2 % 48 == stack with
    | some r => l.erase r
    | none => l
  else l

/-- A translated page is cached at its RXU. -/
def State.cachePage (s : State) (asid page : Nat) : State :=
  match s.cachedPage asid page with
  | some _ => s
  | none =>
    match s.walkPage asid page with
    | none => s
    | some p =>
      let l := s.rxu ++ [((asid, page), (p.frame, p.writable, p.shadowed, p.shadow))]
      { s with rxu := trimRxu (page % 48) l }

/-- The physical address of a virtual address whose page translates. -/
def State.physical (s : State) (asid va : Nat) : Nat :=
  match s.page? asid (va / 4096) with
  | some p => p.frame + va % 4096
  | none => 0

/-- The address of the shadow byte of a virtual address, on a shadowed page (R365). -/
def State.shadowAddr (s : State) (asid va : Nat) : Option Nat :=
  match s.page? asid (va / 4096) with
  | some p => if p.shadowed then some (p.shadow + va % 4096 / 32) else none
  | none => none

/-- The block exponent read at a virtual address: 127 on a page without a shadow (R365). -/
def State.hbmScale (s : State) (asid va : Nat) : Nat :=
  match s.shadowAddr asid va with
  | some a => Memory.read s.hbm a 1
  | none => 127

end Sys2Proof.Machine
end

