-- ==== Sys2Proof/Machine/Journal.lean ====
section
/-! DEFINITION. What the device writes down beside results: launch error counts (spec/13_sys_queues.md R329), event records
(R331, R332), order-log entries and their replay (spec/18_sys_determinism_debug.md R388 to R392), trace records (R403 to
R406) and captured values (R407). -/

namespace Sys2Proof.Machine

/-! ### Launch error log -/

/-- Changes the error log of a live launch (R329). -/
def State.count (s : State) (idx : Nat) (f : ErrorLog → ErrorLog) : State :=
  match Table.get? s.launches idx with
  | some l => s.setLaunch idx { l with log := f l.log }
  | none => s

/-- The counts of a log in the order of R329. -/
def ErrorLog.counts (g : ErrorLog) : List Nat :=
  [g.gacc, g.grej, g.noHandler, g.late, g.badcap, g.stalecap, g.overdrop, g.launchRej, g.ctrdrop, g.stops, g.parked, g.summons]

/-- The counter of R329 with a number, increased. -/
def ErrorLog.bump (g : ErrorLog) (i n : Nat) : ErrorLog :=
  match i with
  | 0 => { g with gacc := g.gacc + n }
  | 1 => { g with grej := g.grej + n }
  | 2 => { g with noHandler := g.noHandler + n }
  | 3 => { g with late := g.late + n }
  | 4 => { g with badcap := g.badcap + n }
  | 5 => { g with stalecap := g.stalecap + n }
  | 6 => { g with overdrop := g.overdrop + n }
  | 7 => { g with launchRej := g.launchRej + n }
  | 8 => { g with ctrdrop := g.ctrdrop + n }
  | 9 => { g with stops := g.stops + n }
  | 10 => { g with parked := g.parked + n }
  | 11 => { g with summons := g.summons + n }
  | _ => g

/-- A 32-bit counter that saturates. -/
def satInc (x : BitVec 32) : BitVec 32 := if x = BitVec.allOnes 32 then x else x + 1

/-! ### Messages on the Flue -/

/-- Whether a type waits for SVRECV at a tile beside RESUME, which a step of its own takes: it neither acts on arrival nor is
handled by the network interface (R296). -/
def queuedType (t : Nat) : Bool := assignedType t && !([1, 4, 5, 6, 7, 0xA, 0x70, 0x71, 0x72].contains t)

/-- The supervisor input queue of a tile, of 8 messages, takes what waits for it, each sender's messages in order (R296, R302). -/
def State.admitQueued (s : State) (site : Nat) : Nat → State
  | 0 => s
  | n + 1 =>
    let t := s.tile site
    match s.flue.zipIdx.find? fun x => x.1.dst == site && queuedType x.1.type
        && !(s.flue.take x.2).any fun y => y.src == x.1.src && y.dst == site with
    | some (m, k) =>
      if Nat.ble 8 t.svq.length then s
      else (({ s with flue := s.flue.eraseIdx k } : State).setTile site { t with svq := t.svq ++ [m] }).admitQueued site n
    | none => s

/-- A supervisor message joins the Flue (R296). One of an unassigned type is discarded, and a core counts it; the interface of a
tile makes nothing of a type that only tiles send. -/
def State.flueSend (s : State) (src dst type tag : Nat) (payload : Word) : State :=
  if Nat.blt dst 0x40000 && (type == 0x71 || type == 0x72) then s
  else if assignedType type then
    let s : State := { s with flue := s.flue ++ [{ src, dst, type, tag, payload }] }
    if Nat.blt dst 0x40000 && queuedType type then s.admitQueued dst 1 else s
  else if Nat.ble 0x40000 dst then { s with dbbad := satInc s.dbbad }
  else s

/-! ### Command-link permits (R333) -/

/-- The permits of a region's command link. -/
def State.link (s : State) (region : Nat) : LinkPermits := Table.getD s.permits region {}

/-- The state with a link's permits replaced. -/
def State.setLink (s : State) (region : Nat) (p : LinkPermits) : State :=
  { s with permits := Table.put s.permits region p }

/-- Whether a message of a link waits for a permit. -/
def State.linkHeld (s : State) (src dst : Nat) : Bool := s.linkWait.any fun m => m.src == src && m.dst == dst

/-- The Collier sends a message to a Stoker: it spends a permit of the link, and waits for one where none is left. -/
def State.toStoker (s : State) (region type : Nat) (payload : Nat) : State :=
  let p := s.link region
  let m : FlueMsg := { src := collierCode, dst := stokerCode region, type, tag := 0, payload := BitVec.ofNat 64 payload }
  if p.toStoker == 0 || s.linkHeld m.src m.dst then { s with linkWait := s.linkWait ++ [m] }
  else (s.setLink region { p with toStoker := p.toStoker - 1 }).flueSend m.src m.dst type 0 m.payload

/-- A Stoker sends a message to the Collier: it spends a permit of the link, and waits for one where none is left. -/
def State.toCollier (s : State) (region type : Nat) (payload : Nat) : State :=
  let p := s.link region
  let m : FlueMsg := { src := stokerCode region, dst := collierCode, type, tag := 0, payload := BitVec.ofNat 64 payload }
  if p.toCollier == 0 || s.linkHeld m.src m.dst then { s with linkWait := s.linkWait ++ [m] }
  else (s.setLink region { p with toCollier := p.toCollier - 1 }).flueSend m.src m.dst type 0 m.payload

/-- The waiting messages of a link go, oldest first, while the sender has permits. -/
def State.releaseLink (s : State) (region : Nat) : Nat → State
  | 0 => s
  | n + 1 =>
    let p := s.link region
    match s.linkWait.find? fun m => (m.dst == stokerCode region && p.toStoker != 0) || (m.src == stokerCode region && p.toCollier != 0) with
    | none => s
    | some m =>
      let s := { s with linkWait := s.linkWait.erase m }
      let s := s.setLink region (if m.dst == stokerCode region then { p with toStoker := p.toStoker - 1 }
        else { p with toCollier := p.toCollier - 1 })
      (s.flueSend m.src m.dst m.type m.tag m.payload).releaseLink region n

/-! ### What the tiles of a region count (R334) -/

/-- The counts of a launch at a region's tiles that its Stoker has not reported. -/
def State.tallyOf (s : State) (region idx : Nat) : ErrorLog :=
  ((s.tally.find? fun r => r.1 == (region, idx)).map (·.2)).getD {}

/-- A Stoker sends STATS for each nonzero count of a launch's tiles. -/
def State.sendStats (s : State) (region idx : Nat) : State :=
  let g := s.tallyOf region idx
  let s : State := { s with tally := s.tally.filter fun r => r.1 != (region, idx) }
  g.counts.zipIdx.foldl (fun s x =>
    if x.1 == 0 then s else s.toCollier region 0x45 (idx % 2 ^ 16 + x.2 * 2 ^ 16 + min x.1 (2 ^ 32 - 1) * 2 ^ 32)) s

/-- A tile counts for a live launch. Its Stoker reports at once where the launch has no vtile left in the region, whose RETIRE
would bring the report (log entry 49, DEDUCED). -/
def State.countAt (s : State) (site idx : Nat) (f : ErrorLog → ErrorLog) : State :=
  let r := regionOf site
  if (Table.get? s.launches idx).isNone then s
  else
    let s : State := { s with tally := s.tally.filter (fun x => x.1 != (r, idx)) ++ [((r, idx), f (s.tallyOf r idx))] }
    if s.tiles.any fun t => regionOf t.1 == r && (t.2.occ.map (·.1)) == some idx then s else s.sendStats r idx

/-! ### Event records (R331, R332) -/

/-- The host's consumer index. -/
def State.ringHead (s : State) : Nat := Memory.read s.host s.evring.headaddr 4

/-- Whether the event ring has no space (R332); a ring that was never set has none. -/
def State.ringFull (s : State) : Bool :=
  !s.evring.on || Nat.ble (2 ^ s.evring.log) ((s.evring.tail + 2 ^ 32 - s.ringHead) % 2 ^ 32)

/-- An event record of R331 as a 32-byte number. -/
def eventBytes (type status reason : Nat) (coalesced wrap : Bool) (queue hwq tag count info tb : Nat) : Nat :=
  type + status % 256 * 2 ^ 8 + reason % 256 * 2 ^ 16 + coalesced.toNat * 2 ^ 24 + wrap.toNat * 2 ^ 31
    + queue % 65536 * 2 ^ 32 + hwq % 512 * 2 ^ 48
    + (tag % 2 ^ 32 + count % 2 ^ 32 * 2 ^ 32) * 2 ^ 64 + info % 2 ^ 64 * 2 ^ 128 + tb % 2 ^ 64 * 2 ^ 192

/-- Writes an event record at the tail of the ring. The interrupt is raised where the ring held no unconsumed record (R424). -/
def State.writeEvent (s : State) (type status reason queue hwq tag count info tick : Nat) (coalesced : Bool) : State :=
  let r := s.evring
  let wrap := r.tail / 2 ^ r.log % 2 == 1
  let v := eventBytes type status reason coalesced wrap queue hwq tag count info tick
  { s with
    host := Memory.write s.host (r.base + 32 * (r.tail % 2 ^ r.log)) 32 v
    evring := { r with tail := (r.tail + 1) % 2 ^ 32 }
    msix := if s.ringHead == r.tail then s.msix + 1 else s.msix }

/-- The pending-error record of the first error, and its queue. -/
def State.firstPending (s : State) : Option (Nat × PendingError) :=
  s.pendings.foldl (fun b x =>
    match b with
    | some y => if Nat.blt x.2.order y.2.order then some x else some y
    | none => some x) none

/-- Returned space goes to the pending-error records first, in the order of their first error (R332). -/
def State.writePendings (s : State) : Nat → State
  | 0 => s
  | n + 1 =>
    match s.firstPending with
    | none => s
    | some (q, p) =>
      if s.ringFull then s
      else
        let s := s.writeEvent p.type p.status p.reason q p.hwq p.tag p.count
          (p.info.toNat ||| p.orTypes % 256 * 256) p.tick (p.count != 0)
        State.writePendings { s with pendings := Table.del s.pendings q } n

/-- A completion event that finds no space: with the ring full it is counted, and with no ring set it goes nowhere (log
entry 26, DEDUCED). -/
def State.dropEvent (s : State) : State := if s.evring.on then { s with evdrop := satInc s.evdrop } else s

/-- Posts an event of a queue (R331, R332) behind the pending-error records that the ring has space for: with the ring full a
completion event is dropped, a first error event waits in the queue's pending-error record, and a further one is coalesced into
it. -/
def State.postEvent (s : State) (type status reason queue tag info : Nat) : State :=
  let s := s.writePendings s.pendings.length
  let hwq := ((Table.get? s.queues queue).bind (·.slot)).getD 0
  if !s.ringFull then s.writeEvent type status reason queue hwq tag 0 info s.tb.toNat false
  else if type == 1 then s.dropEvent
  else
    match Table.get? s.pendings queue with
    | none =>
      let p : PendingError :=
        { type, hwq, tick := s.tb.toNat, status, reason, tag, info := BitVec.ofNat 64 info, count := 0, orTypes := 0, order := s.errorOrder }
      { s with pendings := Table.put s.pendings queue p, errorOrder := s.errorOrder + 1 }
    | some p =>
      let p := { p with count := p.count + 1, orTypes := p.orTypes ||| 2 ^ (type - 2) }
      { s with pendings := Table.put s.pendings queue p, evcoal := satInc s.evcoal }

/-! ### Order log (R388 to R392) -/

/-- Reads a doubleword of rim memory by virtual address; an untranslated one reads zero. -/
def State.virt64 (s : State) (asid va : Nat) : Nat :=
  match s.page? asid (va / 4096) with
  | some p => s.hbm64 (p.frame + va % 4096)
  | none => 0

/-- Writes a doubleword of rim memory by virtual address, where its page translates and has W. -/
def State.putVirt64 (s : State) (asid va v : Nat) : State :=
  match s.page? asid (va / 4096) with
  | some p =>
    if p.writable then
      { s.sealedFor (s.partOf asid) (unitsIn (p.frame + va % 4096) 8) with
        hbm := Memory.write s.hbm (p.frame + va % 4096) 8 v }
    else s
  | none => s

/-- The order log of a launch's queue. -/
def State.ologOf (s : State) (l : Launch) : OrderLog := ((Table.get? s.queues l.queue).map (·.olog)).getD {}

/-- The virtual address of a chunk of a launch's segment, whose header names the chunk size (R388). -/
def State.chunkAt (s : State) (l : Launch) (seg chunk : Nat) : Nat :=
  seg + 0x40 + chunk * 2 ^ bitsOf (s.virt64 l.asid seg) 60 56

/-- The entries of a chunk, each with its index and words, from byte offset `off` on (R390): an exchange has two words. -/
def readEntries (rd : Nat → Nat) : Nat → Nat → Nat → List (Nat × Nat × Nat)
  | 0, _, _ => []
  | n + 1, i, off =>
    let w := rd off
    if bitsOf w 31 30 == 3 then (i, w, rd (off + 8)) :: readEntries rd n (i + 1) (off + 16)
    else (i, w, 0) :: readEntries rd n (i + 1) (off + 8)

/-- The entries of a chunk of a launch's segment. -/
def State.entriesOf (s : State) (l : Launch) (chunk : Nat) : List (Nat × Nat × Nat) :=
  match l.logSeg with
  | none => []
  | some seg =>
    let base := s.chunkAt l seg chunk
    readEntries (fun off => s.virt64 l.asid (base + 16 + off)) (s.virt64 l.asid base % 2 ^ 32) 0 0

/-- The bytes that entries take. -/
def entryBytes (es : List (Nat × Nat × Nat)) : Nat :=
  es.foldl (fun n e => n + if bitsOf e.2.1 31 30 == 3 then 16 else 8) 0

/-- Marks a segment's STATUS the first time, with the vtile (R388). -/
def State.markSegment (s : State) (l : Launch) (status vt : Nat) : State :=
  match l.logSeg with
  | none => s
  | some seg =>
    if bitsOf (s.virt64 l.asid (seg + 8)) 1 0 == 0 then s.putVirt64 l.asid (seg + 8) (status + vt % 2 ^ 24 * 256) else s

/-- Appends an entry to a chunk of a launch's segment in record mode; one that does not fit is dropped and the chunk is
FULL (R390). One made before the launch has started waits for the segment (R388; log entry 55, DEDUCED). -/
def State.logEntry (s : State) (idx chunk w0 : Nat) (w1 : Option Nat) : State :=
  let l := s.launch idx
  if !l.pkt.det || l.forced || (s.ologOf l).mode != 1 then s
  else
    match l.logSeg with
    | none => s.setLaunch idx { l with early := l.early ++ [(chunk, w0, w1)] }
    | some seg =>
      let base := s.chunkAt l seg chunk
      let hd := s.virt64 l.asid base
      let used := entryBytes (s.entriesOf l chunk)
      let need := if w1.isSome then 16 else 8
      if Nat.blt (2 ^ (s.ologOf l).logv) (16 + used + need) then
        (s.putVirt64 l.asid base (hd % 2 ^ 32 + 2 ^ 32)).markSegment l 1 (if Nat.blt chunk l.pkt.vtiles then chunk else 0)
      else
        let s := s.putVirt64 l.asid (base + 16 + used) w0
        let s := match w1 with
          | some w => s.putVirt64 l.asid (base + 16 + used + 8) w
          | none => s
        s.putVirt64 l.asid base (hd + 1)

/-- Whether a launch is forced by its log (R391). -/
def Launch.replaying (l : Launch) : Bool := l.forced && l.logSeg.isSome

/-- The entries of a chunk that replay has not yet performed and that a test selects, oldest first. -/
def State.nextEntry (s : State) (l : Launch) (chunk : Nat) (sel : Nat → Nat → Bool) : Option (Nat × Nat × Nat) :=
  (s.entriesOf l chunk).find? fun e => sel e.2.1 e.2.2 && !l.replayDone.contains (chunk, e.1)

/-- An entry that replay has performed. -/
def State.consumeEntry (s : State) (idx chunk entry : Nat) : State :=
  let l := s.launch idx
  s.setLaunch idx { l with replayDone := l.replayDone ++ [(chunk, entry)] }

/-- The first divergence of a replayed launch (R392): its segment is diverged, a REPLAY_DIVERGED event is posted, and it
runs on without forcing. -/
def State.diverge (s : State) (idx vt entry : Nat) : State :=
  let l := s.launch idx
  let s := s.markSegment l 2 vt
  (s.setLaunch idx { l with forced := false }).postEvent 8 0 0 l.queue l.pkt.tag (vt % 2 ^ 24 + entry % 2 ^ 32 * 2 ^ 32)

/-- The first word of an entry of kind 0 to 3 (R390): `lo` stands in bits [29:24], `hi` in bits [39:32]. -/
def entryWord (kind vt lo hi seq : Nat) : Nat :=
  vt % 2 ^ 24 + lo % 2 ^ 6 * 2 ^ 24 + kind * 2 ^ 30 + hi % 2 ^ 8 * 2 ^ 32 + seq % 2 ^ 24 * 2 ^ 40

/-- The turn of an ASWAP or ACAS at a location of its home's chunk (R390, R391): recorded in record mode; in replay,
nothing while an exchange that precedes it in the location's entries has not been performed. -/
def State.exchangeTurn (s : State) (idx chunk loc vt slot n : Nat) : Option State :=
  let l := s.launch idx
  let w := entryWord 3 vt slot 0 n
  if !l.replaying then some (s.logEntry idx chunk w (some loc))
  else
    match s.nextEntry l chunk fun w0 w1 => bitsOf w0 31 30 == 3 && w1 == loc with
    | none => some (s.diverge idx chunk (s.entriesOf l chunk).length)
    | some e =>
      if e.2.1 == w then some (s.consumeEntry idx chunk e.1)
      else if (s.entriesOf l chunk).any fun x =>
          x.2.1 == w && x.2.2 == loc && !l.replayDone.contains (chunk, x.1) then none
      else some (s.diverge idx chunk e.1)

/-! ### Trace records (R403 to R405) -/

/-- The trace ring of a region. -/
def State.traceRing (s : State) (region : Nat) : TraceRing := Table.getD s.trace region {}

/-- Whether a packet brings a trace record. -/
def Packet.isTrace (p : Packet) : Bool :=
  match p.body with
  | .trace _ => true
  | _ => false

/-- The trace records of a region that are on their way to its ring. -/
def State.tracesOut (s : State) (region : Nat) : Nat :=
  let mine (p : Packet) : Bool := p.isTrace && regionOf p.site == region
  (s.fabric.filter mine).length + s.tiles.foldl (fun n r => n + (r.2.outq.filter mine).length) 0

/-- Whether the region's ring takes another record, beside those that are on their way to it. -/
def State.traceRoom (s : State) (region : Nat) : Bool :=
  Nat.ble ((s.traceRing region).used + 32 * (s.tracesOut region + 1)) (s.traceRing region).size

/-- A record of a site leaves for its region's ring in TC3 under colour 15, or stands in the interface until that colour has room (R404,
R346). It belongs to no launch. -/
def State.sendTrace (s : State) (site bits : Nat) : State :=
  let t := s.tile site
  let c : Fin 16 := 15
  let p : Packet :=
    { src := { idx := 65536, vt := site, slot := 0 }, id := 0, site, tc := 3, colour := 15, dst := .rim, hop := .site site,
      body := .trace bits, ts := s.tb.setWidth 16, seq := 0, pc := 0, cyc := s.cycle, walked := false, counts := true, sys := false }
  if t.mayColour 15 then
    { s.setTile site { t with colourCtr := t.colourCtr.set c (t.colourCtr[c] + 1) } with fabric := s.fabric ++ [p] }
  else s.setTile site { t with outq := t.outq ++ [p] }

/-- One 32-byte record of a site is made and counted (R403). -/
def State.putTrace (s : State) (site type slot : Nat) (sys : Bool) (delta w1 w2 w3 : Nat) : State :=
  let t := s.tile site
  let w0 := type + slot % 8 * 2 ^ 8 + sys.toNat * 2 ^ 11 + site * 2 ^ 12 + delta % 2 ^ 24 * 2 ^ 32 + t.trSeq % 256 * 2 ^ 56
  let v := w0 + w1 % 2 ^ 64 * 2 ^ 64 + w2 % 2 ^ 64 * 2 ^ 128 + w3 % 2 ^ 64 * 2 ^ 192
  (s.setTile site { t with trSeq := (t.trSeq + 1) % 256, trLast := s.tb.toNat }).sendTrace site v

/-- A record arrives and is appended to its region's ring, or finds it full (R404). -/
def State.landTrace (s : State) (site bits : Nat) : State :=
  let r := regionOf site
  let g := s.traceRing r
  if Nat.ble (g.used + 32) g.size then
    { s.sealedFor none (unitsIn (g.base + g.used) 32) with
      hbm := Memory.write s.hbm (g.base + g.used) 32 bits
      trace := Table.put s.trace r { g with used := g.used + 32 } }
  else s.setTile site { s.tile site with trLost := (s.tile site).trLost + 1 }

/-- A LOST record, once space has returned, and a REBASE record where R405 asks for one, before the next record. -/
def State.traceReady (s : State) (site : Nat) : State :=
  let t := s.tile site
  let s :=
    if t.trLost != 0 && s.traceRoom (regionOf site) then
      let s := s.putTrace site 0x0D 0 false (s.tb.toNat - t.trLast) t.trLost 0 0
      s.setTile site { s.tile site with trLost := 0, trRebase := true }
    else s
  let t := s.tile site
  if t.trRebase || Nat.ble (2 ^ 24) (s.tb.toNat - t.trLast) then
    if s.traceRoom (regionOf site) then
      let s := s.putTrace site 0x0C 0 false 0 s.tb.toNat 0 0
      s.setTile site { s.tile site with trRebase := false }
    else s
  else s

/-- Emits a trace record of a site when its launch has TRACE (R404): with the ring full it is dropped and counted. -/
def State.emit (s : State) (site type slot : Nat) (sys : Bool) (w1 w2 w3 : Nat) : State :=
  let t := s.tile site
  if !(s.launch t.name.1).pkt.traced || t.occ.isNone then s
  else if !s.traceRoom (regionOf site) then s.setTile site { t with trLost := t.trLost + 1 }
  else
    let s := s.traceReady site
    if s.traceRoom (regionOf site) then s.putTrace site type slot sys (s.tb.toNat - (s.tile site).trLast) w1 w2 w3
    else s.setTile site { s.tile site with trLost := (s.tile site).trLost + 1 }

/-- Word 1 of the records that name a thread (R403). -/
def traceThread (idx vt entry cls : Nat) : Nat :=
  idx % 2 ^ 16 + vt % 2 ^ 24 * 2 ^ 16 + entry % 2 ^ 16 * 2 ^ 40 + cls % 2 ^ 6 * 2 ^ 56

/-! ### Capture units (R407) -/

/-- The bin of a value (R407). -/
def captureBin (v : Nat) : Fin 16 := if v == 0 then 0 else Fin.ofNat 16 (min 15 (v.log2 + 1))

/-- A 32-bit value of a number, held at its maximum. -/
def sat32 (v : Nat) : BitVec 32 := BitVec.ofNat 32 (min v (2 ^ 32 - 1))

/-- A capture unit that has counted a value. -/
def CaptureUnit.take (c : CaptureUnit) (v : Nat) : CaptureUnit :=
  let b := captureBin v
  { c with
    min := if sat32 v < c.min then sat32 v else c.min
    max := if c.max < sat32 v then sat32 v else c.max
    count := satInc c.count
    bins := c.bins.set b (satInc c.bins[b]) }

/-- A value of a quantity that ends at a site of a region is counted when the region's unit selects it. -/
def State.capture (s : State) (site qty idx v : Nat) : State :=
  let r := regionOf site
  let c := s.stoker r
  if c.cap.qty == qty && (!c.cap.filt || c.cap.lidx == idx) then
    { s with stokers := Table.put s.stokers r { c with cap := c.cap.take v } }
  else s

/-! ### Sender sums (R406) -/

/-- A sum that saturates at 32 bits. -/
def satAdd (a b : Nat) : Nat := min (a + b) (2 ^ 32 - 1)

/-- Writes out a sender's sums as a SENDER_SUM record. -/
def State.emitSum (s : State) (site : Nat) (x : SenderSum) : State :=
  s.emit site 0x0E 0 false (x.idx % 2 ^ 16 + x.vt % 2 ^ 24 * 2 ^ 16 + min x.count 65535 * 2 ^ 40)
    (x.transit + x.wait * 2 ^ 32) x.run

/-- Adds to the sums of a sender; of 16 keys the least recently used is written out to make room. -/
def State.addSum (s : State) (site idx vt transit wait run n : Nat) : State :=
  let t := s.tile site
  match t.sums.find? fun x => x.idx == idx && x.vt == vt with
  | some x =>
    let y := { x with transit := satAdd x.transit transit, wait := satAdd x.wait wait, run := satAdd x.run run,
                      count := min (x.count + n) 65535 }
    s.setTile site { t with sums := y :: t.sums.filter fun x => !(x.idx == idx && x.vt == vt) }
  | none =>
    let y : SenderSum := { idx, vt, transit, wait, run, count := n }
    match t.sums[15]? with
    | some old =>
      let s := s.emitSum site old
      s.setTile site { s.tile site with sums := y :: t.sums.take 15 }
    | none => s.setTile site { t with sums := y :: t.sums }

/-- Every key is written out, at retirement and at PREEMPT (R406). -/
def State.flushSums (s : State) (site : Nat) : State :=
  let s := ((s.tile site).sums).foldl (fun s x => s.emitSum site x) s
  s.setTile site { s.tile site with sums := [] }

end Sys2Proof.Machine
end

