-- ==== Sys2Proof/Machine/Ops.lean ====
section
/-! DEFINITION. The shared operations: finding and replacing slots, tiles and cores; time and the completion of issued
results (spec/05_encoding.md R140 to R143, spec/02_state.md R38 to R42); taking an exception and what an instruction's issue
checks and does around its own effect (spec/05_encoding.md R139, spec/06_isa_scalar.md R169, spec/12_sys_isa.md R273 to
R289). -/

namespace Sys2Proof.Machine

/-- The outcome of a step of this machine. -/
abbrev Result := Host.Outcome State Fault Refusal

/-- Why an instruction that was looked at has no effect of its own: it waits before issue (R284), it raises a
synchronous cause with a TVAL or with the instruction word as TVAL (R281), a captured access does not fit (R126), or the
machine stops. -/
inductive Stop where
  | wait (w : Wait)
  | trap (c : Cause) (tval : Word)
  | word (c : Cause)
  | overflow
  | fault (f : Fault)
  deriving DecidableEq, Repr

/-- What an issued instruction leaves to the program counter: the next in sequence, the same with an effect that is seen from
the next cycle on, a target, the cause TRAP or BRK
whose return point is the next instruction (R265), a place the effect itself has set, or the end of the thread. -/
inductive Flow where
  | seq
  | seqLate
  | jump (pc : Half)
  | trapNext (c : Cause) (tval : Word)
  | ended
  deriving DecidableEq, Repr

/-- What the issue of an encoded instruction needs to know of it: the major and minor it has or is equivalent to (R133,
R144), its stall count, its length in halfwords and its word. -/
structure Op where
  major : Nat
  sub : Nat
  stl : Nat
  len : Nat
  word : Nat
  deriving DecidableEq, Repr

/-- The body of an instruction: it changes the state and answers a value, or stops without any effect. -/
abbrev M := StateT State (Except Stop)

/-! ### Encoded forms -/

/-- A 32-bit instruction in the form of R130 whose bits 21 to 0 are `body`. -/
def op32 (major sub : Nat) (stl : Stl) (body : Nat) : Op :=
  { major, sub, stl := stl.toNat, len := 2, word := 0x80000000 + major * 33554432 + stl.toNat * 4194304 + body }

/-- Forms A and X: D, A, B and a minor. -/
def opA (major sub : Nat) (stl : Stl) (d a b : Nat) : Op :=
  op32 major sub stl (d * 65536 + a * 1024 + b * 16 + sub)

/-- Form I, with D, A and a 10-bit literal. -/
def opI (major : Nat) (stl : Stl) (d a : Nat) (i : BitVec 10) : Op :=
  op32 major 0 stl (d * 65536 + a * 1024 + i.toNat)

/-- Forms L and B: one 6-bit field and 16 literal bits. -/
def opL (major : Nat) (stl : Stl) (d : Nat) (k : BitVec 16) : Op :=
  op32 major 0 stl (d * 65536 + k.toNat)

/-- Form F: the minor stands above the 2-bit C. -/
def opF (major sub : Nat) (stl : Stl) (d a b : Nat) (c : BitVec 2) : Op :=
  op32 major sub stl (d * 65536 + a * 1024 + b * 16 + sub * 4 + c.toNat)

/-- Form V: the governing mask stands above the 2-bit minor. -/
def opV (major sub : Nat) (stl : Stl) (d a b : Nat) (m : MaskNo) : Op :=
  op32 major sub stl (d * 65536 + a * 1024 + b * 16 + m.toNat * 4 + sub)

/-- Form M: size and scaled offset. -/
def opM (major : Nat) (stl : Stl) (d p : Nat) (z : BitVec 2) (f : BitVec 8) : Op :=
  op32 major 0 stl (d * 65536 + p * 1024 + z.toNat * 256 + f.toNat)

/-- A 16-bit instruction with the 32-bit major and minor it is equivalent to (R133). -/
def op16 (major sub word : Nat) : Op := { major, sub, stl := 0, len := 1, word }

/-! ### The current slot in a body -/

/-- The slot of the current agent. -/
def getSlot : M Slot := do
  let s ← get
  return s.slot s.cur

/-- Replaces the slot of the current agent. -/
def putSlot (x : Slot) : M Unit := modify fun s => s.setSlot s.cur x

/-- Changes the slot of the current agent. -/
def modSlot (f : Slot → Slot) : M Unit := modify fun s => s.setSlot s.cur (f (s.slot s.cur))

/-- The tile of the current agent; a core has none and sees a fresh one. -/
def getTile : M Tile := do
  let s ← get
  return s.tile s.cur.site

/-- Changes the tile of the current agent. -/
def modTile (f : Tile → Tile) : M Unit :=
  modify fun s => s.setTile s.cur.site (f (s.tile s.cur.site))

/-- The launch the current tile holds a vtile of. -/
def getLaunch : M Launch := do
  let s ← get
  return s.launch (s.tile s.cur.site).name.1

/-- Stops unless a condition holds. -/
def require (b : Bool) (stop : Stop) : M Unit :=
  if b then pure () else throw stop

/-- Draws a free word: an unpredictable value (R8). -/
def freeWord : M Word := do
  let s ← get
  set (s.spend s.cur 1)
  return Config.freeWord (s.freeAt s.cur)

/-- Draws a free vector. -/
def freeVec : M (Vec × Side) := do
  let s ← get
  set (s.spend s.cur 1)
  return (Config.freeVec (s.freeAt s.cur), Config.freeSide (s.freeAt s.cur))

/-! ### Completion of issued results -/

/-- Result of a value in the queue position that its instruction reserved (R143): a position that has moved past the
last age is gone. -/
def fillQueue (q : Vector QEntry 16) (id : Nat) (v : Word) : Vector QEntry 16 :=
  q.map fun e => if e.pend == id then { val := v, ready := 0, pend := 0 } else e

/-- As `fillQueue`, for the vector queue. -/
def fillVQueue (q : Vector VEntry 4) (id : Nat) (v : Vec) (sd : Side) : Vector VEntry 4 :=
  q.map fun e => if e.pend == id then { val := v, side := sd, ready := 0, pend := 0 } else e

/-- The results for a register that were issued before number `id` and have not completed leave it unchanged when they do,
now that a result issued later has (R40). -/
def Slot.supersede (sl : Slot) (d : Landing) (sys : Bool) (id : Nat) : Slot :=
  { sl with flights := sl.flights.map fun f =>
      if f.dst == d && f.sys == sys && Nat.blt f.id id then { f with stale := true } else f }

/-- A named register of the user bank takes a value of the slot's own and is full (R40, R41). -/
def Slot.landNamed (sl : Slot) (k : Fin 32) (id : Nat) (v : Word) : Slot :=
  { sl with n := sl.n.set k v, nfull := sl.nfull ||| (1#32 <<< k.val), nacq := sl.nacq &&& ~~~(1#32 <<< k.val) }.supersede
    (.named k) false id

/-- As `landNamed`, for the system bank, whose full bits are always set (R274). -/
def Slot.landSysNamed (sl : Slot) (k : Fin 32) (id : Nat) (v : Word) : Slot :=
  { sl with sn := sl.sn.set k v }.supersede (.named k) true id

/-- The mask a number names (R37); m0 is all true. -/
def Slot.maskReg (sl : Slot) (k : MaskNo) : MaskWord :=
  if k = 1 then sl.m1 else if k = 2 then sl.m2 else if k = 3 then sl.m3 else BitVec.allOnes 1024

/-- The slot with a mask written. -/
def Slot.setMask (sl : Slot) (k : MaskNo) (v : MaskWord) : Slot :=
  if k = 1 then { sl with m1 := v } else if k = 2 then { sl with m2 := v }
  else if k = 3 then { sl with m3 := v } else sl

/-- A mask takes a value (R40). -/
def Slot.landMask (sl : Slot) (k : MaskNo) (sys : Bool) (id : Nat) (v : MaskWord) : Slot :=
  (sl.setMask k v).supersede (.mask k) sys id

/-- A completed result lands in its slot, and its flags are ORed into FSTAT (R59). A vector register is scratchpad and
lands through `landVreg`. -/
def Slot.land (sl : Slot) (f : Flight) : Slot :=
  let sl := { sl with fstat := sl.fstat ||| f.flags }
  match f.dst with
  | .queue =>
    if f.sys then { sl with sq := fillQueue sl.sq f.id f.val } else { sl with q := fillQueue sl.q f.id f.val }
  | .named k =>
    if f.stale then sl else if f.sys then sl.landSysNamed k f.id f.val else sl.landNamed k f.id f.val
  | .mask k => if f.stale then sl else sl.landMask k f.sys f.id (f.vec.setWidth 1024)
  | .vqueue => { sl with vq := fillVQueue sl.vq f.id f.vec f.side }
  | .vreg _ => sl
  | .template _ => sl
  | .none => sl

/-- The scratchpad offset of vector register k of a slot (R43). -/
def vregOffset (l : Launch) (slot : Fin 8) (k : Nat) : Nat :=
  l.pkt.winbase * 128 + (slot.val * l.pkt.vregs + k) * 512

/-- The ECC words that a range of bytes covers whole leave the list of uncorrectable words (R98). -/
def clearEcc (words : List Nat) (a n : Nat) : List Nat :=
  words.filter fun w => !(Nat.ble a (w * 8) && Nat.ble (w * 8 + 8) (a + n))

/-- A named vector register write: its 512 bytes, its 16 shadow bytes, and its four lines set full (R46). Word
16,384 + i of the ECC list is shadow word i. -/
def Tile.landVreg (t : Tile) (off : Nat) (v : Vec) (sd : Side) : Tile :=
  { t with
    spad := Memory.write t.spad off 512 v.toNat
    shadow := Memory.write t.shadow (off / 32) 16 sd.toNat
    fe := t.fe ||| (0xF#1024 <<< (off / 128))
    eccWords := clearEcc (clearEcc t.eccWords off 512) (131072 + off / 32) 16 }

/-- One issued result of a slot of a tile completes; a vector register keeps the value of the write issued last (R40,
R46). -/
def landOne (l : Launch) (k : Fin 8) (t : Tile) (f : Flight) : Tile :=
  let t := t.setSlot k (t.slots[k].land f)
  match f.dst with
  | .vreg r =>
    if f.stale then t
    else (t.setSlot k (t.slots[k].supersede f.dst f.sys f.id)).landVreg (vregOffset l k r.val) f.vec f.side
  | .template r => { t with templates := t.templates.set r (f.vec.setWidth 256) }
  | _ => t

/-- Whether a fixed-latency result has completed by a cycle. -/
def Flight.done (c : Nat) (f : Flight) : Bool :=
  match f.due with
  | some d => Nat.ble d c
  | none => false

/-- Whether a result lands in the scratchpad: the vector window outlives the thread (R21, R46). -/
def Flight.inPad (f : Flight) : Bool :=
  match f.dst with
  | .vreg _ => true
  | _ => false

/-- Whether a result of a slot lands by a cycle: it has completed, and a vector register's write, which is a private store, stands
behind no earlier one that has not (R46, R111). -/
def Flight.lands (fs : List Flight) (c : Nat) (f : Flight) : Bool :=
  f.done c && !(f.inPad && fs.any fun g => g.inPad && g.sys == f.sys && Nat.blt g.id f.id && !g.done c)

/-- The results of one slot that land by a cycle, in issue order. -/
def settleSlot (l : Launch) (c : Nat) (t : Tile) (k : Fin 8) : Tile :=
  let fs := t.slots[k].flights
  if fs.any (Flight.done c) then
    (fs.filter (Flight.lands fs c)).foldl (landOne l k)
      (t.setSlot k { t.slots[k] with flights := fs.filter (fun f => !Flight.lands fs c f) })
  else t

/-- The completed results of every slot of a tile land. Those of the slots above slot `k` that complete in cycle `c` itself stand
behind slot k's accesses of that cycle at the banks (R97). -/
def settleTile (l : Launch) (c : Nat) (k : Nat) (t : Tile) : Tile :=
  if t.slots.toList.any (fun sl => sl.flights.any (Flight.done c)) then
    (List.finRange 8).foldl (fun t j => settleSlot l (if Nat.ble j.val k then c else c - 1) t j) t
  else t

/-- The completed results of a core's thread land. -/
def settleCore (c : Nat) (sl : Slot) : Slot :=
  (sl.flights.filter (Flight.done c)).foldl Slot.land
    { sl with flights := sl.flights.filter (fun f => !Flight.done c f) }

/-- The results at a tile that have completed by now land, as slot `k` of it, or for 8 and above the network interface and the
engines, find them. -/
def State.settleAt (s : State) (site k : Nat) : State :=
  let t := s.tile site
  if t.slots.toList.any (fun sl => sl.flights.any (Flight.done s.cycle)) then
    s.setTile site (settleTile (s.launch t.name.1) s.cycle k t)
  else s

/-- The results at an agent's tile or core that have completed by now land. -/
def State.settle (s : State) (a : Agent) : State :=
  match a with
  | .tile site k => s.settleAt site k.val
  | _ =>
    if (s.slot a).flights.any (Flight.done s.cycle) then s.setSlot a (settleCore s.cycle (s.slot a)) else s

/-- Time passes up to a cycle at an agent, and what has completed lands. -/
def State.advance (s : State) (a : Agent) (c : Nat) : State :=
  State.settle { s with cycle := max s.cycle c } a

/-- The latest completion among an agent's fixed-latency results: those on their way and those in the queues. -/
def Slot.lastDue (sl : Slot) : Nat :=
  let c := sl.flights.foldl (fun c f => max c (f.due.getD 0)) 0
  let c := sl.q.foldl (fun c e => max c e.ready) c
  let c := sl.sq.foldl (fun c e => max c e.ready) c
  sl.vq.foldl (fun c e => max c e.ready) c

/-- A cycle passes. -/
def State.tick (s : State) : State := { s with cycle := s.cycle + 1 }

/-- An action of a rank at the banks of a tile: slots 0 to 7, then 8 the network interface, 9 the copy engine, 10 the matrix engine.
In one cycle the banks take them in that order, so that one which comes when a later rank has acted in its cycle stands in the next
cycle (R97). -/
def State.bankTurn (s : State) (site rank : Nat) : State :=
  let t := s.tile site
  let s := if t.bankAt.1 == s.cycle && Nat.blt rank t.bankAt.2 then s.tick else s
  let s := s.settleAt site rank
  s.setTile site { s.tile site with bankAt := (s.cycle, rank) }

/-! ### Threads -/

/-- A thread start in a slot (R21): user state at its thread-start values and the next generation. Loads of earlier threads
into the vector window are still on their way. -/
def Slot.start (sl : Slot) (res : Bool) (seed : Word) (pc : Half) : Slot :=
  { thread := true, res, pc, sq := sl.sq, sn := sl.sn, nextId := sl.nextId, srseed := seed, gen := sl.gen + 1,
    epc := sl.epc, cause := sl.cause, tval := sl.tval, pie := sl.pie, pend := sl.pend, pendVal := sl.pendVal, ovr := sl.ovr,
    readyAt := sl.readyAt, lastIssue := sl.lastIssue, exchanges := sl.exchanges, flights := sl.flights.filter Flight.inPad }

/-- A thread ends: the slot is free (R22). What the thread has issued completes under its own rules (R170). -/
def Slot.free (sl : Slot) : Slot :=
  { sl with thread := false, res := false, sys := false, flights := sl.flights.filter Flight.inPad, msg := none, cursor := 0,
            msgcls := 0, wait := .none, probe := none, mheld := none, yieldAt := none, late := [],
            loading := false, recorded := false }

/-- A slot that its vtile has left: nothing of a thread remains. -/
def Slot.vacant (sl : Slot) : Slot := { sl.free with flights := [] }

/-- A thread starts in a slot of a tile (R21); queue-mode writes held for the slot are stale now (R256), and are
counted in their senders' launches. -/
def State.startThread (s : State) (site : Nat) (k : Fin 8) (res : Bool) (pc : Half) : State :=
  let t := s.tile site
  let seed := (s.launch t.name.1).pkt.seed
  let s1 := s.setTile site
    { t with hold := t.hold.filter (fun h => h.slot != k)
             slots := t.slots.set k { t.slots[k].start res seed pc with started := s.tb.toNat } }
  (t.hold.filter fun h => h.slot == k).foldl
    (fun s h => s.countAt site h.src.idx fun g => { g with stalecap := g.stalecap + 1 }) s1

/-! ### The guarded phase -/

/-- Whether a vtile is in stage SURROGATE or CHECK (R259). -/
def Tile.guarded (t : Tile) : Bool := t.guard.stage == .surrogate || t.guard.stage == .check

/-- The bytes of the guard buffer after the phase are free values (R262). -/
def scrambleBuffer (off len ctr : Nat) (m : Memory) : Memory :=
  Memory.write m off len (bytesToNat ((List.range len).map fun i => Config.freeByte (ctr + i)))

/-- A rejection (R262): no captured access is performed, GREJ counts, the reason and cause are recorded, the resident
thread of slot 0 starts at EXACT as a thread start (R21), and the buffer's bytes are free values. -/
def State.rejectPhase (s : State) (site : Nat) (reason cause : Nat) : State :=
  let t := s.tile site
  let l := s.launch t.name.1
  let off := l.pkt.guardbase * 128
  let len := l.pkt.guardsize * 128
  let t := { t with
    guard := { stage := .exact, window := none, caught := [], used := 0, reason, cause }
    spad := scrambleBuffer off len (s.freeAt (.tile site 0)) t.spad }
  let s := (s.setTile site t).spend (.tile site 0) len
  (s.startThread site 0 true (BitVec.ofNat 16 l.pkt.exact)).countAt site t.name.1 fun g => { g with grej := g.grej + 1 }

/-! ### Taking an exception -/

/-- The codes of R281. -/
def Cause.code : Cause → Nat
  | .illegalInstruction => 1
  | .illegalOperand => 2
  | .privileged => 3
  | .window => 4
  | .guardWindow => 5
  | .undersized => 6
  | .unmapped => 7
  | .hbm => 8
  | .alignment => 9
  | .bounds => 10
  | .ecc => 11
  | .counter => 12
  | .trap => 13
  | .brk => 14
  | .overwrite => 16
  | .preempt => 17
  | .wdkill => 18
  | .debug => 19
  | .restore => 20

/-- The PEND bit of a cause that has one (R277). -/
def Cause.pendBit : Cause → Option (Fin 6)
  | .overwrite => some 0
  | .preempt => some 1
  | .wdkill => some 2
  | .debug => some 3
  | .counter => some 4
  | .restore => some 5
  | _ => none

/-- Whether a cause is asynchronous (R281). -/
def Cause.isAsync : Cause → Bool
  | .overwrite | .preempt | .wdkill | .debug | .restore => true
  | _ => false

/-- The CAUSE word of a trap (R277): CODE, ASYNC, RES and SLOT of the trapping thread, SYSF. -/
def causeWord (code : Nat) (async res : Bool) (slot : Fin 8) (sysf : Bool) : BitVec 14 :=
  BitVec.ofNat 14 (code + async.toNat * 256 + res.toNat * 512 + slot.val * 1024 + sysf.toNat * 8192)

/-- The entry of R283 in a tile's slot: EPC, TVAL and CAUSE are written, the cause's PEND bit is cleared, the mode is SYS
and the pc is 0 of the system segment, whose first instruction issues 8 cycles later. -/
def Slot.enterTrap (sl : Slot) (slot : Fin 8) (now : Nat) (c : Cause) (tv : Word) (ret : Half) : Slot :=
  { sl with
    epc := ret
    tval := tv
    cause := causeWord c.code c.isAsync sl.res slot false
    pend := match c.pendBit with
      | some b => sl.pend &&& ~~~(1#6 <<< b.val)
      | none => sl.pend
    sys := true
    pc := 0
    readyAt := now + 8
    wait := .none
    probe := none
    mheld := none }

/-- Whether a packet belongs to an access of an origin. -/
def Packet.isOf (p : Packet) (o : Origin) (id : Nat) : Bool := p.src == o && p.id == id

/-- The probe of a slot's abandoned BARWAIT is withdrawn from the home that holds it (R172). -/
def State.withdraw (s : State) (site : Nat) (k : Fin 8) : State :=
  let t := s.tile site
  match t.slots[k].probe with
  | none => s
  | some pr =>
    let o : Origin := { idx := t.name.1, vt := t.name.2, slot := k }
    { s with tiles := s.tiles.map fun r =>
        (r.1, { r.2 with heldReqs := r.2.heldReqs.filter fun p => !p.isOf o pr.id }) }

/-- A slot of a tile enters the system routine, which a TRAP trace record notes (R283, R403); a BARWAIT that it waited in is
abandoned (R172). -/
def State.enterTile (s : State) (site : Nat) (k : Fin 8) (c : Cause) (tv : Word) (ret : Half) : State :=
  let s := s.withdraw site k
  let t := s.tile site
  let sl := t.slots[k].enterTrap k s.cycle c tv ret
  (s.setTile site (t.setSlot k sl)).emit site 0x06 k.val false
    (traceThread t.name.1 t.name.2 (s.launch t.name.1).entry 0) sl.cause.toNat ret.toNat

/-- The entry of a core (R310): PIE takes IE, IE is cleared, and the core continues at index 0x0010. -/
def Core.enterTrap (c : Core) (code : Nat) (async : Bool) (tv : Word) (ret : Half) : Core :=
  { c with
    pie := c.ie
    ie := false
    th := { c.th with
      epc := ret, tval := tv, cause := causeWord code async false 0 false, pc := 0x0010, wait := .none } }

/-- A double fault (R285): STOP and FAULTED are set, FAULTSTOP is sent with the CAUSE word of the cause that arose and
code 31 in its tag, and the slot issues nothing until RESETT. -/
def State.doubleFault (s : State) (site : Nat) (slot : Fin 8) (c : Cause) (tv : Word) (ret : Half) : State :=
  let t := s.tile site
  let sl := t.slots[slot]
  let cw := causeWord c.code c.isAsync sl.res slot true
  let s := s.setTile site
    { t with stop := true, faulted := true, slots := t.slots.set slot { sl with wait := .dead, mheld := none } }
  ((s.flueSend site (stokerCode (regionOf site)) 0x03 31 (cw.setWidth 64)).flueSend site
    (stokerCode (regionOf site)) 0x03 31 tv).flueSend site (stokerCode (regionOf site)) 0x03 31 (ret.setWidth 64)

/-- Who an agent's slot is to the fabric. -/
def State.origin (s : State) (a : Agent) : Origin :=
  let nm := (s.tile a.site).name
  { idx := nm.1, vt := nm.2, slot := a.slotNo }

/-- Whether trap entry at an agent still waits for a result (R284): one whose request is neither held nor parked. -/
def State.awaitsResult (s : State) (a : Agent) : Bool :=
  (s.slot a).flights.any fun f =>
    f.due.isNone && (s.fabric.any (fun p => p.isOf (s.origin a) f.id)
      || (s.tile a.site).outq.any (fun p => p.isOf (s.origin a) f.id))

/-- The slot waits: nothing of it changes but the mark of what it waits for, and a cycle passes. -/
def State.hold (s : State) (w : Wait) : State :=
  { s.setSlot s.cur { s.slot s.cur with wait := w } with cycle := s.cycle + 1 }

/-- Whether GEND has accepted the phase and issues what it captured: its buffer is open. A `used` of 1, which no capture gives,
marks it (R127, R261). -/
def GuardState.releasing (g : GuardState) : Bool := g.used == 1

/-- Whether a cause at a slot of a tile rejects the guarded phase: a synchronous one other than BRK and the counter fault, of
a USER-mode slot (R262, R289). A phase that GEND has accepted is rejected by nothing: a fault reported between its captured accesses
is a trap. -/
def State.rejects (s : State) (site : Nat) (k : Fin 8) (c : Cause) : Bool :=
  !(s.tile site).slots[k].sys && (s.tile site).guarded && !(s.tile site).guard.releasing && !c.isAsync && c != .brk && c != .counter

/-- The phase of a site is rejected for a cause (R262), whose code GQRY shows (R289). -/
def State.rejectFor (s : State) (site : Nat) (c : Cause) : State :=
  s.rejectPhase site (if c == .guardWindow then 4 else 5) c.code

/-- Whether taking a cause at the current agent waits for a result (R284). -/
def State.trapWaits (s : State) (c : Cause) : Bool :=
  match s.cur with
  | .tile site k => !s.rejects site k c && (s.advance s.cur (s.slot s.cur).lastDue).awaitsResult s.cur
  | _ => false

/-- A cause is taken at the current agent with a return point (R282 to R285, R289, R310), once every result that
entry waits for has completed. -/
def State.takeTrap (s : State) (c : Cause) (tv : Word) (ret : Half) : State :=
  let s1 := s.advance s.cur (s.slot s.cur).lastDue
  match s.cur with
  | .tile site k =>
    if s1.rejects site k c then s1.rejectFor site c
    else if s1.awaitsResult s.cur then s.hold (s.slot s.cur).wait
    else if (s1.slot s.cur).sys && c != .restore then s1.doubleFault site k c tv ret
    else s1.enterTile site k c tv ret
  | a => s1.setCore a ((s1.core a).enterTrap c.code c.isAsync tv ret)

/-- Return from a trap (R287): a core takes IE from PIE and continues at EPC; a tile's slot goes to USER mode at EPC. -/
def State.returnTrap (s : State) (a : Agent) : State :=
  match a with
  | .tile _ _ => s.setSlot a { s.slot a with sys := false, recorded := false, pc := (s.slot a).epc, wait := .none }
  | a =>
    let c := s.core a
    s.setCore a { c with ie := c.pie, th := { c.th with pc := c.th.epc, wait := .none } }

/-! ### Issue -/

/-- What a SYS-mode slot of a tile executes (R275, R297). -/
def sysAllows (major sub : Nat) : Bool :=
  Nat.ble major 0x17 || (Nat.ble 0x19 major && Nat.ble major 0x1B)
  || (major == 0x18 && [0, 1, 2, 5, 7, 8, 9].contains sub)
  || (Nat.ble 0x1C major && Nat.ble major 0x1F)
  || (major == 0x20 && Nat.ble sub 9)
  || (major == 0x3B && (sub == 2 || sub == 3))
  || (major == 0x3C && [0, 1, 2, 8, 9, 10, 12, 13].contains sub)
  || (major == 0x3D && sub == 3)

/-- What a core executes (R308, R297). -/
def coreAllows (collier : Bool) (major sub : Nat) : Bool :=
  Nat.ble major 0x17 || (Nat.ble 0x19 major && Nat.ble major 0x1B)
  || (major == 0x18 && [0, 1, 2, 5].contains sub)
  || (Nat.ble 0x1C major && Nat.ble major 0x1E)
  || (major == 0x1F && Nat.ble sub 1)
  || (major == 0x20 && Nat.ble sub 9)
  || major == 0x3B
  || (major == 0x3C && [0, 8, 9, 10, 11].contains sub)
  || (collier && major == 0x3C && [6, 7].contains sub)
  || (!collier && major == 0x3C && [3, 4, 5, 14, 15].contains sub)
  || (!collier && major == 0x3D && [0, 1, 2].contains sub)

/-- The cause that an instruction's major and minor raise in the mode and agent they stand in (R139 step 5, R273, R275,
R308), or none. The illegal-instruction cases of R275 and R308 stand at step 5 of R139 with the privileged ones, after the
fixed fields of the decoding and before every check of a body (log entry 47, DEDUCED). -/
def modeCause (a : Agent) (sys : Bool) (o : Op) : Option Cause :=
  match a with
  | .tile _ _ =>
    if sys then (if sysAllows o.major o.sub then none else some .illegalInstruction)
    else if Nat.ble 0x3C o.major then some .privileged
    else none
  | .collier => if coreAllows true o.major o.sub then none else some .illegalInstruction
  | .stoker _ => if coreAllows false o.major o.sub then none else some .illegalInstruction

/-- Whether a template load of XTDEF is outstanding: the slot issues nothing until its entry is written (R222). -/
def Slot.loadsTemplate (sl : Slot) : Bool := sl.flights.any fun f =>
  match f.dst with
  | .template _ => true
  | _ => false

/-- Whether the current agent may issue now: a running core, or a slot of an in-service tile that runs a thread, that no
stop, halt, closed gate, chain in test mode or image load holds (R36, R278, R285, R355, R397, R415, R418). -/
def State.mayIssue (s : State) : Bool :=
  match s.cur with
  | .tile site k =>
    let t := s.tile site
    let sl := t.slots[k]
    sl.thread && !sl.loadsTemplate && !(t.stop && !sl.sys) && !s.halted && !t.outOfService && !sl.loading && sl.wait != .dead
      && s.powered site
  | a => (s.core a).running

/-- The issue duty of a site in sixteenths: that of its sub-region, and 1 while a trip holds its region (R306, R419). -/
def State.dutyAt (s : State) (site : Nat) : Nat :=
  if (Table.getD s.thermal (regionOf site) {}).trip then 1
  else (s.stoker (regionOf site)).duties[(Fin.ofNat 16 (subRegionOf site) : Fin 16)]

/-- The first issue-enabled cycle from c on: under a duty of d sixteenths the first d of every 16 are (R36; log entry
11, DESIGN CHOICE). -/
def enabledFrom (d c : Nat) : Nat := if Nat.blt (c % 16) d then c else c + (16 - c % 16)

/-- The cycle from which a slot of a tile is ready: its stall count (R140), and after a YIELD the earlier of 8 cycles and the
issue of one instruction by every other slot that was ready then (R170). -/
def Tile.readyFrom (t : Tile) (sl : Slot) : Nat :=
  match sl.yieldAt with
  | some (at_, others) =>
    if (List.finRange 8).all fun k => !others.getLsbD k.val || Nat.blt at_ t.slots[k].lastIssue then sl.readyAt
    else max sl.readyAt (at_ + 8)
  | none => sl.readyAt

/-- The cycle from which a tile's slot may issue: when it is ready, under the issue duty. -/
def State.tileReady (s : State) (site : Nat) (sl : Slot) : Nat :=
  enabledFrom (s.dutyAt site) (max s.cycle ((s.tile site).readyFrom sl))

/-- The cycle from which the current agent may issue. -/
def State.readyCycle (s : State) : Nat :=
  match s.cur with
  | .tile site _ => s.tileReady site (s.slot s.cur)
  | _ => (s.slot s.cur).readyAt

/-- What stands before an instruction's own effect: the slot may issue, its stall count has elapsed, completed results
have landed, and the mode admits the instruction. -/
def openIssue (o : Op) : M Unit := do
  let s ← get
  require s.mayIssue (.wait (s.slot s.cur).wait)
  set (s.advance s.cur s.readyCycle)
  match modeCause s.cur (s.slot s.cur).sys o with
  | none => pure ()
  | some c => throw (.word c)

/-- The end check of R169 at an instruction that leaves the pc sequential: the next pc and the loop levels after it. -/
def endCheck (sl : Slot) (nextPc : Half) : Half × LoopLevel × LoopLevel :=
  let at1 := sl.lc1.count != 0 && sl.pc == sl.lc1.stop
  let l1 : LoopLevel := if at1 then { sl.lc1 with count := sl.lc1.count - 1 } else sl.lc1
  if at1 && l1.count != 0 then (l1.start, sl.lc0, l1)
  else
    let at0 := sl.lc0.count != 0 && sl.pc == sl.lc0.stop
    let l0 : LoopLevel := if at0 then { sl.lc0 with count := sl.lc0.count - 1 } else sl.lc0
    if at0 && l0.count != 0 then (l0.start, l0, l1) else (nextPc, l0, l1)

/-- The slot after an instruction that leaves the pc sequential. -/
def Slot.next (sl : Slot) (len : Nat) : Slot :=
  let r := endCheck sl (sl.pc + BitVec.ofNat 16 len)
  { sl with pc := r.1, lc0 := r.2.1, lc1 := r.2.2 }

/-- What stands after an instruction's own effect: the next pc with the end check of R169, and the stall count (R140), which
also holds back what a thread of the slot issues next. A TRAP or BRK counts a loop's pass when its trap is taken (R265). -/
def finish (o : Op) (fl : Flow) (s : State) : State :=
  let sl := s.slot s.cur
  let stalled (x : Slot) : Slot := { x with readyAt := max x.readyAt (s.cycle + o.stl + 1), lastIssue := s.cycle, wait := .none }
  match fl with
  | .seq => s.setSlot s.cur (stalled (sl.next o.len))
  | .seqLate => (s.setSlot s.cur (stalled (sl.next o.len))).tick
  | .jump t => s.setSlot s.cur (stalled { sl with pc := t })
  | .trapNext c tv =>
    if s.trapWaits c then s.hold sl.wait
    else (s.setSlot s.cur (stalled (sl.next o.len))).takeTrap c tv (sl.next o.len).pc
  | .ended => s.setSlot s.cur (stalled sl)

/-- The issue of an encoded instruction: `body` is its own effect. A stop leaves no effect of it but the entry of the
cause it raises (R139). -/
def issue (o : Op) (body : M Flow) (s : State) : Result :=
  match (do openIssue o; body : M Flow) s with
  | .ok (fl, s') => .next (finish o fl s')
  | .error (.wait w) => .next (s.hold w)
  | .error (.trap c tv) => .next (s.takeTrap c tv (s.slot s.cur).pc)
  | .error (.word c) => .next (s.takeTrap c (BitVec.ofNat 64 o.word) (s.slot s.cur).pc)
  | .error .overflow => .next (s.rejectPhase s.cur.site 3 0)
  | .error (.fault f) => .fault f

end Sys2Proof.Machine
end

