-- ==== Sys2Proof/Machine/Fence.lean ====
section
/-! DEFINITION. What a fence or an implicit release holds (spec/04_memory.md R108 to R117, spec/06_isa_scalar.md R174): which accesses
of a slot have not been performed or have not returned. -/

namespace Sys2Proof.Machine

/-! ### Fences (R114, R174) -/

/-- Whether a packet is an access that has not been performed, as against the answer to one. -/
def Packet.unperformed (p : Packet) : Bool :=
  match p.body with
    | .message .. | .regWrite .. | .request .. => true
    | .reply .. | .errorReply .. | .trace _ => false

/-- Whether a packet is a request. -/
def Packet.isRequest (p : Packet) : Bool :=
  match p.body with
  | .request .. => true
  | _ => false

/-- Whether some access that a test selects has not been performed (R109): it waits in the interface of a site, travels, or is
a request that a tile, the image of a vtile that is swapped out (R104), or a parking ring holds. A send or register write in a
ring is performed (R350), and so is what a spilling interface has written there (R352). -/
def State.anyOpen (s : State) (site : Nat) (q : Packet → Bool) : Bool :=
  let q (p : Packet) : Bool := !p.spilled && q p
  s.fabric.any q || (s.tile site).outq.any q || s.tiles.any (fun r => r.2.heldReqs.any q)
    || s.images.any (fun r => r.2.owner.isSome && r.2.heldReqs.any q)
    || s.rings.any (fun r => r.2.any fun e => e.1.isRequest && q e.1)

/-- Whether a write of a vector register that the slot of an agent issued before number n, a private store (R46), is still to land. -/
def State.padBefore (s : State) (a : Agent) (n : Nat) : Bool :=
  let fs := (s.slot a).flights
  fs.any fun f => f.inPad && Nat.blt f.id n && !f.lands fs s.cycle

/-- Whether an access of an agent issued before number n has not been performed. -/
def State.unperformedBefore (s : State) (a : Agent) (n : Nat) : Bool :=
  s.padBefore a n || s.anyOpen a.site fun p => p.src == s.origin a && Nat.blt p.id n && p.unperformed

/-- Whether a load or atomic with return of an agent issued before number n has not returned. -/
def Slot.unreturnedBefore (sl : Slot) (n : Nat) : Bool := sl.flights.any fun f => f.due.isNone && Nat.blt f.id n

/-- Whether an access of an agent to its own scratchpad, through either alias, issued before number n, has not been
performed. -/
def State.loopbackBefore (s : State) (a : Agent) (n : Nat) : Bool :=
  let o := s.origin a
  s.padBefore a n || s.anyOpen a.site fun p => p.src == o && Nat.blt p.id n && p.isRequest && p.dst == .vtile o.idx o.vt

/-- Whether the fences of the current slot let an access issue: a store, send, register write, matrix command or copy waits
behind REL, any access behind ACQ and FULL, an access to the own scratchpad behind LB. -/
def State.fencesOpen (s : State) (store own : Bool) : Bool :=
  let sl := s.slot s.cur
  let rel := store && sl.fenceRel != 0 && (sl.unreturnedBefore sl.fenceRel || s.unperformedBefore s.cur sl.fenceRel)
  let acq := sl.fenceAcq != 0 && sl.unreturnedBefore sl.fenceAcq
  let all := sl.fenceAll != 0 && s.unperformedBefore s.cur sl.fenceAll
  let lb := own && sl.fenceLb != 0 && s.loopbackBefore s.cur sl.fenceLb
  !(rel || acq || all || lb)

/-- Whether every earlier access of the current slot has returned and been performed. -/
def State.released (s : State) : Bool :=
  let sl := s.slot s.cur
  !(sl.unreturnedBefore sl.nextId || s.unperformedBefore s.cur sl.nextId)

/-- What the fences of the slot hold waits. -/
def fenceGate (store own : Bool) : M Unit := do
  let s ← get
  require (s.fencesOpen store own) (.wait .held)

/-- An implicit release: every earlier access of the slot has returned and been performed (R117, R120). -/
def releaseGate : M Unit := do
  let s ← get
  require s.released (.wait .held)

/-- An implicit acquire: no later access issues until what is out has returned (R117). -/
def acquireHere : M Unit := modSlot fun sl => { sl with fenceAcq := sl.nextId }

end Sys2Proof.Machine
end

