-- ==== Sys2Proof/Machine/Operands.lean ====
section
/-! DEFINITION. Operands: what each specifier of spec/05_encoding.md R134 to R137 reads and writes, with the waits of
spec/02_state.md R40, R41, R46, R49 to R51 and the undersized-stall check of spec/05_encoding.md R142. An instruction first
awaits its operands, then reads them in the order of its fields (R39). -/

namespace Sys2Proof.Machine

/-! ### Formats and vector control -/

/-- Bits per element of a format code (R64); 0 for the reserved codes. -/
def fmtWidth : Nat → Nat
  | 0 => 8
  | 1 => 16
  | 2 => 32
  | 3 => 4
  | 4 => 32
  | 5 => 16
  | 6 => 16
  | 7 => 8
  | 8 => 8
  | 9 => 4
  | 10 => 8
  | 11 => 16
  | 12 => 64
  | _ => 0

/-- Lanes of a 512-byte vector in a format (R64). -/
def fmtLanes (fmt : Nat) : Nat := 4096 / fmtWidth fmt

/-- VT FMT (R58). -/
def Slot.fmt (sl : Slot) : Nat := (sl.vt.extractLsb' 0 4).toNat
/-- VT VL (R58). -/
def Slot.vl (sl : Slot) : Nat := (sl.vt.extractLsb' 4 11).toNat
/-- VT BLK (R58). -/
def Slot.blk (sl : Slot) : Nat := (sl.vt.extractLsb' 16 2).toNat
/-- VT2 FMT2 (R58). -/
def Slot.fmt2 (sl : Slot) : Nat := (sl.vt2.extractLsb' 0 4).toNat
/-- VT2 BLK2 (R58). -/
def Slot.blk2 (sl : Slot) : Nat := (sl.vt2.extractLsb' 16 2).toNat
/-- RND MODE (R59). -/
def Slot.mode (sl : Slot) : Nat := (sl.rnd.extractLsb' 0 3).toNat
/-- RND FTZ (R59). -/
def Slot.ftz (sl : Slot) : Bool := sl.rnd.getLsbD 3

/-- The active lanes of an instruction over `lanes` lanes under a mask (R47): lane i is active when i is below both VL and
the lane count and the mask's bit i is set. -/
def activeLanes (vl lanes : Nat) (mask : MaskWord) : MaskWord :=
  mask &&& BitVec.ofNat 1024 (2 ^ (min (min vl lanes) 1024) - 1)

/-- Copies an element of `w` bits into every lane of a vector (R51). -/
def splat (w v : Nat) : Vec :=
  if w = 0 then 0 else BitVec.ofNat 4096 (v % 2 ^ w * ((2 ^ 4096 - 1) / (2 ^ w - 1)))

/-! ### Waiting -/

/-- The latest cycle at which the selected results of a slot complete; nothing when one of them has no fixed latency. -/
def pendingUntil (fs : List Flight) (sel : Landing → Bool) (sys : Bool) : Option Nat :=
  fs.foldl (fun acc f =>
    if sel f.dst && f.sys == sys then
      match acc, f.due with
      | some c, some d => some (max c d)
      | _, _ => none
    else acc) (some 0)

/-- Waits while a result that lands in the selected place is outstanding (R40). -/
def awaitLanding (sel : Landing → Bool) : M Unit := do
  let s ← get
  let sl := s.slot s.cur
  match pendingUntil sl.flights sel sl.sys with
  | some c => set (s.advance s.cur c)
  | none => throw (.wait .held)

/-- The entry of the current mode's scalar result queue (R37, R274). -/
def Slot.queue (sl : Slot) : Vector QEntry 16 := if sl.sys then sl.sq else sl.q

/-- Waits for a result-queue entry whose producer has variable latency (R40). -/
def awaitQueue (k : Fin 16) : M Unit := do
  let sl ← getSlot
  require (sl.queue[k].pend == 0) (.wait .held)

/-- Waits for a named register: its full bit and its outstanding writes (R41); the system bank is always full (R274). -/
def awaitNamed (k : Fin 32) : M Unit := do
  let sl ← getSlot
  require (sl.sys || sl.nfull.getLsbD k.val) (.wait .held)
  awaitLanding (· == .named k)

/-- What a scalar source waits for. -/
def awaitSrc : Src → M Unit
  | .q k => awaitQueue k
  | .n k => awaitNamed k
  | _ => pure ()

/-- What reading the old value of a destination waits for (R156). -/
def awaitOld : Dst → M Unit
  | .push => awaitQueue 0
  | .n k => awaitNamed k
  | _ => pure ()

/-- Waits for a mask's outstanding writes (R40). -/
def awaitMask (k : MaskNo) : M Unit := if k = 0 then pure () else awaitLanding (· == .mask k)

/-! ### Scalar sources -/

/-- Reads a queue entry: one whose fixed-latency producer has not completed traps under SCHK and reads a free value
otherwise (R142). -/
def readQueue (k : Fin 16) : M Word := do
  let s ← get
  let sl := s.slot s.cur
  let e := sl.queue[k]
  if Nat.ble e.ready s.cycle then return e.val
  else if sl.schk then throw (.trap .undersized (BitVec.ofNat 64 k.val))
  else freeWord

/-- The slot after the read of a user register whose value an RPUTR brought: it is observed, an implicit acquire (R117). -/
def Slot.observe (sl : Slot) (k : Fin 32) : Slot :=
  { sl with fenceAcq := sl.nextId, nacq := sl.nacq &&& ~~~(1#32 <<< k.val) }

/-- A named register of the current mode's bank. -/
def readNamed (k : Fin 32) : M Word := do
  let sl ← getSlot
  if sl.sys then return sl.sn[k]
  else do
    if sl.nacq.getLsbD k.val then putSlot (sl.observe k)
    return sl.n[k]

/-- The next payload word of the current message, or zero at its end, in a resident thread and in SYS mode (R50,
R274). -/
def readMsg : M Word := do
  let sl ← getSlot
  match sl.msg with
  | none => return 0
  | some m =>
    if sl.sys then return 0
    else
      match m.words[sl.cursor]? with
      | none => return 0
      | some w => do
        putSlot { sl with cursor := sl.cursor + 1 }
        return w

/-- The number of elements of a stream binding (R230). -/
def StreamBinding.count (b : StreamBinding) : Nat := b.rowLen * b.rows / (if b.wide then 512 else 8)

/-- The next element of stream k, of the wanted size (R49, R230): a read past the last element, or after a failed
fetch, is zero; an element that has not landed is awaited. -/
def readStream (k : Fin 4) (wide : Bool) : M (Vec × Side) := do
  let s ← get
  let sl ← getSlot
  require (!s.cur.isCore && !sl.sys) (.word .illegalOperand)
  let t ← getTile
  match t.streams[k] with
  | none => throw (.word .illegalOperand)
  | some b =>
    require (b.wide == wide) (.word .illegalOperand)
    if Nat.ble b.count b.next then return (0, 0)
    else
      match b.landed with
      | v :: rest => do
        modTile fun t => { t with streams := t.streams.set k (some { b with next := b.next + 1, landed := rest }) }
        return v
      | [] =>
        if b.failed then do
          modTile fun t => { t with streams := t.streams.set k (some { b with next := b.next + 1 }) }
          return (0, 0)
        else throw (.wait .held)

/-- The work identifier of vtile n (R13, R14). -/
def Packet128.wid (p : Packet128) (n : Nat) : Word :=
  let go := (List.range 6).foldl (fun (acc : Nat × Nat × Nat) k =>
    let (rem, off, packed) := acc
    (rem / p.extent k, off + p.widths.getD k 0, packed + (rem % p.extent k) <<< off)) (n, 0, 0)
  p.widbase + BitVec.ofNat 64 go.2.2

/-- The constants of R134 codes 24 to 31. -/
def constWord (k : Fin 8) : Word :=
  if k = 7 then BitVec.allOnes 64 else 1#64 <<< k.val

/-- Reads a scalar source (R134, R51). A core has no vtile: wid and vtn read free values there. -/
def readSrc : Src → M Word
  | .q k => readQueue k
  | .z => pure 0
  | .msg => readMsg
  | .st k => do
    let v ← readStream k false
    return v.1.setWidth 64
  | .wid => do
    let s ← get
    if s.cur.isCore then freeWord
    else
      let nm := (s.tile s.cur.site).name
      return (s.launch nm.1).pkt.wid nm.2
  | .vtn => do
    let s ← get
    if s.cur.isCore then freeWord else return BitVec.ofNat 64 (s.tile s.cur.site).name.2
  | .const k => pure (constWord k)
  | .n k => readNamed k

/-- Reads one source. -/
def read1 (a : Src) : M Word := do
  awaitSrc a
  readSrc a

/-- Reads two sources, A before B. -/
def read2 (a b : Src) : M (Word × Word) := do
  awaitSrc a
  awaitSrc b
  let x ← readSrc a
  let y ← readSrc b
  return (x, y)

/-- Reads three sources, A, B, then C. -/
def read3 (a b c : Src) : M (Word × Word × Word) := do
  awaitSrc a
  awaitSrc b
  awaitSrc c
  let x ← readSrc a
  let y ← readSrc b
  let z ← readSrc c
  return (x, y, z)

/-- The value a destination held before the instruction (R156): q0 before the push, the register, or 0. -/
def readOld : Dst → M Word
  | .push => readQueue 0
  | .n k => readNamed k
  | _ => pure 0

/-! ### Scalar destinations -/

/-- A destination code that names no destination faults (R135, R139 step 6). -/
def checkDst : Dst → M Unit
  | .ill _ => throw (.word .illegalOperand)
  | _ => pure ()

/-- A queue after a push: every entry is one age older and the last is lost (R38). -/
def pushEntry {α : Type} {n : Nat} (q : Vector α (n + 1)) (e : α) : Vector α (n + 1) :=
  Vector.ofFn fun i => if h : i.val = 0 then e else q[i.val - 1]

/-- The slot with an entry pushed on the current mode's scalar queue. -/
def Slot.push (sl : Slot) (e : QEntry) : Slot :=
  if sl.sys then { sl with sq := pushEntry sl.sq e } else { sl with q := pushEntry sl.q e }

/-- The slot with a named register of the current mode's bank written and the write's number noted (R38, R40). -/
def Slot.setNamed (sl : Slot) (k : Fin 32) (v : Word) : Slot :=
  if sl.sys then { sl.landSysNamed k sl.nextId v with nextId := sl.nextId + 1 }
  else { sl.landNamed k sl.nextId v with nextId := sl.nextId + 1 }

/-- The slot with a result issued that completes at a cycle. -/
def Slot.fly (sl : Slot) (due : Nat) (dst : Landing) (val : Word) (vec : Vec) (side : Side) (flags : BitVec 6) : Slot :=
  { sl with
    flights := sl.flights ++ [{ id := sl.nextId, due := some due, dst, sys := sl.sys, val, vec, side, parts := 0, flags }]
    nextId := sl.nextId + 1 }

/-- The flags of a result of fixed latency, which FSTAT takes at its completion (R59). -/
def Slot.flagsAt (sl : Slot) (due : Nat) (flags : BitVec 6) : Slot :=
  if flags = 0 then sl else sl.fly due .none 0 0 0 flags

/-- The slot after a scalar result of latency `lam` with its flags has issued in cycle `c` (R38, R39, R141). -/
def Slot.result (sl : Slot) (c lam : Nat) (flags : BitVec 6) (d : Dst) (v : Word) : Slot :=
  match d with
  | .push => (sl.push { val := v, ready := if Nat.ble lam 1 then 0 else c + lam, pend := 0 }).flagsAt (c + lam) flags
  | .n k =>
    if Nat.ble lam 1 then (sl.setNamed k v).flagsAt (c + lam) flags
    else sl.fly (c + lam) (.named k) v 0 0 flags
  | _ => sl.flagsAt (c + lam) flags

/-- Whether a scalar source names a stream. -/
def Src.isStream : Src → Bool
  | .st _ => true
  | _ => false

/-- The latency of a class, or what a variable-latency result has when every stream element has landed (R141). -/
def slat (lam : Nat) (srcs : List Src) : Nat := if srcs.any Src.isStream then 1 else lam

/-- Issues a scalar result of a fixed latency with its flags (R38, R39, R141). -/
def writeDst (lam : Nat) (flags : BitVec 6) (d : Dst) (v : Word) : M Unit :=
  modify fun s => s.setSlot s.cur ((s.slot s.cur).result s.cycle lam flags d v)

/-- Delivers the value of a variable-latency instruction that was performed as it issued. -/
def deliver (d : Dst) (v : Word) : M Unit := writeDst 1 0 d v

/-- Where a scalar destination lands. -/
def landingOf : Dst → Landing
  | .push => .queue
  | .n k => .named k
  | _ => .none

/-- Reserves the destination of a variable-latency result that will arrive in `parts` replies (R39, R142), and answers
the issue number. -/
def reserve (d : Landing) (parts : Nat) : M Nat := do
  let sl ← getSlot
  let id := sl.nextId
  let f : Flight := { id, due := none, dst := d, sys := sl.sys, val := 0, vec := 0, side := 0, parts, flags := 0 }
  let sl := { sl with nextId := id + 1, flights := sl.flights ++ [f] }
  let sl := match d with
    | .queue => sl.push { val := 0, ready := 0, pend := id }
    | .vqueue => { sl with vq := pushEntry sl.vq { val := 0, side := 0, ready := 0, pend := id } }
    | _ => sl
  putSlot sl
  return id

/-! ### Vector sources -/

/-- Whether every line of a range of the scratchpad is full (R101). -/
def Tile.linesFull (t : Tile) (off n : Nat) : Bool :=
  n == 0 || (t.fe >>> (off / 128)).toNat % 2 ^ ((off + n - 1) / 128 - off / 128 + 1)
    == 2 ^ ((off + n - 1) / 128 - off / 128 + 1) - 1

/-- The first uncorrectable word that a range touches (R98). -/
def Tile.eccAt (t : Tile) (off n : Nat) : Option Nat :=
  t.eccWords.find? fun w => Nat.ble (off / 8) w && Nat.ble w ((off + n - 1) / 8)

/-- The first uncorrectable word of the scale shadow that the shadow bytes of a range touch: word 16,384 + i of the list is
shadow word i (R98). -/
def Tile.shadowEccAt (t : Tile) (off n : Nat) : Option Nat := t.eccAt (131072 + off / 32) ((n + 31) / 32)

/-- A pointer of the private alias (R62). -/
def privPtr (off : Nat) : Word := BitVec.ofNat 64 (0x0200000000000000 + off)

/-- Whether a result lands in a vector register. -/
def Landing.isVreg : Landing → Bool
  | .vreg _ => true
  | _ => false

/-- Waits for the slot's outstanding vector register writes: they are private stores, and reads and writes of a vector register
are performed in issue order with the slot's other private accesses (R46, R111; log entry 59, DEDUCED). -/
def awaitVregs : M Unit := awaitLanding Landing.isVreg

/-- Checks a vector register number against VREGS (R44). -/
def checkVreg (k : Fin 16) : M Unit := do
  let l ← getLaunch
  require (Nat.blt k.val l.pkt.vregs) (.trap .window (BitVec.ofNat 64 k.val))

/-- Legality of a vector source specifier (R136, R139 step 6). -/
def checkVSrc (bcastOk : Bool) : VSrc → M Unit
  | .ill _ => throw (.word .illegalOperand)
  | .bcast _ => require bcastOk (.word .illegalOperand)
  | _ => pure ()

/-- Window check of a vector source (R139 step 7). -/
def windowVSrc : VSrc → M Unit
  | .v k => checkVreg k
  | _ => pure ()

/-- Legality of a vector destination specifier (R136). -/
def checkVDst : VDst → M Unit
  | .ill _ => throw (.word .illegalOperand)
  | _ => pure ()

/-- Window check of a vector destination (R139 step 7). A write of a vector register is a store to the own scratchpad, which the
slot's fences hold (R46, R114). -/
def windowVDst : VDst → M Unit
  | .v k => do
    checkVreg k
    fenceGate true true
  | _ => pure ()

/-- What a vector source waits for; a stream is awaited as it is read. A broadcast waits as the read of its named register does
(R41; log entry 64, DEDUCED). -/
def awaitVSrc : VSrc → M Unit
  | .vq k => do
    let sl ← getSlot
    require (sl.vq[k].pend == 0) (.wait .held)
  | .v k => do
    let s ← get
    let off := vregOffset (s.launch (s.tile s.cur.site).name.1) s.cur.slotNo k.val
    fenceGate false true
    awaitVregs
    let t ← getTile
    require (t.linesFull off 512) (.wait .held)
  | .bcast k => awaitNamed ⟨k.val, Nat.lt_of_lt_of_le k.isLt (by decide)⟩
  | _ => pure ()

/-- The 512 bytes and 16 shadow bytes of a scratchpad range that starts at a granule. -/
def Tile.vecAt (t : Tile) (off : Nat) : Vec × Side :=
  (BitVec.ofNat 4096 (Memory.read t.spad off 512), BitVec.ofNat 128 (Memory.read t.shadow (off / 32) 16))

/-- The payload of a message as one vector (R50). -/
def Msg.vec (m : Msg) : Vec :=
  BitVec.ofNat 4096 (m.words.foldr (fun w acc => w.toNat + acc * 2 ^ 64) 0)

/-- Reads a vector source with its sidecar (R136, R45). -/
def readVSrc : VSrc → M (Vec × Side)
  | .vq k => do
    let s ← get
    let sl := s.slot s.cur
    let e := sl.vq[k]
    if Nat.ble e.ready s.cycle then return (e.val, e.side)
    else if sl.schk then throw (.trap .undersized (BitVec.ofNat 64 (16 + k.val)))
    else freeVec
  | .v k => do
    let s ← get
    let t := s.tile s.cur.site
    let off := vregOffset (s.launch t.name.1) s.cur.slotNo k.val
    match t.eccAt off 512, t.shadowEccAt off 512 with
    | some w, _ => throw (.trap .ecc (privPtr (w * 8)))
    | none, some _ => throw (.trap .ecc (privPtr off))
    | none, none => return t.vecAt off
  | .vz => pure (0, 0)
  | .vst k => readStream k true
  | .vmsg => do
    let sl ← getSlot
    match sl.msg with
    | none => return (0, 0)
    | some m => return (m.vec, 0)
  | .bcast k => do
    let v ← readNamed ⟨k.val, Nat.lt_of_lt_of_le k.isLt (by decide)⟩
    let sl ← getSlot
    return (splat (fmtWidth sl.fmt) v.toNat, 0)
  | .ill _ => throw (.word .illegalOperand)

/-- Reads a mask (R37). -/
def readMask (k : MaskNo) : M MaskWord := do
  let sl ← getSlot
  return sl.maskReg k

/-! ### Vector and mask destinations -/

/-- The slot after a vector result of latency `lam` with its sidecar and flags has issued in cycle `c`. -/
def Slot.vresult (sl : Slot) (c lam : Nat) (flags : BitVec 6) (d : VDst) (v : Vec) (sd : Side) : Slot :=
  match d with
  | .push =>
    { sl with vq := pushEntry sl.vq { val := v, side := sd, ready := c + lam, pend := 0 } }.flagsAt (c + lam) flags
  | .v k => sl.fly (c + lam) (.vreg k) 0 v sd flags
  | .ill _ => sl

/-- Issues a vector result (R38, R46). -/
def writeVDst (lam : Nat) (flags : BitVec 6) (d : VDst) (v : Vec) (sd : Side) : M Unit :=
  modify fun s => s.setSlot s.cur ((s.slot s.cur).vresult s.cycle lam flags d v sd)

/-- Where a vector destination lands. -/
def vlandingOf : VDst → Landing
  | .push => .vqueue
  | .v k => .vreg k
  | .ill _ => .none

/-- Issues a mask result of latency `lam` (R40). -/
def writeMask (lam : Nat) (flags : BitVec 6) (d : MaskNo) (v : MaskWord) : M Unit :=
  modify fun s => s.setSlot s.cur
    ((s.slot s.cur).fly (s.cycle + lam) (.mask d) 0 (v.setWidth 4096) 0 flags)

/-- A mask destination that names m0 faults (R48, R137). -/
def checkMaskDst (d : MaskNo) : M Unit := require (d != 0) (.word .illegalOperand)

end Sys2Proof.Machine
end

