-- ==== Sys2Proof/Machine/Flags.lean ====
section
/-! DEFINITION. Number formats, rounding and the FSTAT flags (spec/03_numbers.md R64 to R80, R90, R91, R433): values are exact
until one rounding delivers them with their flags. -/

namespace Sys2Proof.Machine

/-! ### Flags and exact values -/

/-- NV: invalid operation (R59). -/
def fNV : BitVec 6 := 1
/-- DZ: division by zero. -/
def fDZ : BitVec 6 := 2
/-- OF: overflow. -/
def fOF : BitVec 6 := 4
/-- UF: underflow. -/
def fUF : BitVec 6 := 8
/-- NX: inexact. -/
def fNX : BitVec 6 := 16
/-- SAT: a saturated integer, KN or fixed-point conversion. -/
def fSAT : BitVec 6 := 32

/-- A flag if a condition holds. -/
def flagIf (b : Bool) (f : BitVec 6) : BitVec 6 := if b then f else 0

/-- A value of any format: a NaN, signalling or quiet; an infinity; or the number (−1)^neg · m · 2^e, where m = 0 is a zero
with its sign. -/
inductive Val where
  | nan (signalling : Bool)
  | inf (neg : Bool)
  | num (neg : Bool) (m : Nat) (e : Int)
  deriving DecidableEq, Repr

/-- How a result is rounded: RND MODE (R72), the random word of R75 for this element, and flush to zero (R74). -/
structure Rounding where
  mode : Nat
  rnd : Nat
  ftz : Bool
  deriving DecidableEq, Repr

/-- Round to nearest, ties to even, without flushing. -/
def rne : Rounding := { mode := 0, rnd := 0, ftz := false }

/-- Fraction bits of a floating-point format code (R67). -/
def fracBits : Nat → Nat
  | 4 => 23
  | 5 => 7
  | 6 => 10
  | 7 => 3
  | 8 => 2
  | _ => 0

/-- Exponent bias of a floating-point format code (R67). -/
def expBias : Nat → Nat
  | 4 => 127
  | 5 => 127
  | 6 => 15
  | 7 => 7
  | 8 => 15
  | _ => 0

/-- Exponent bits of a floating-point format code (R67). -/
def expBits : Nat → Nat
  | 4 => 8
  | 5 => 8
  | 6 => 5
  | 7 => 4
  | 8 => 5
  | _ => 0

/-- Whether a format code is a floating-point format. -/
def isFloat (c : Nat) : Bool := Nat.ble 4 c && Nat.ble c 8
/-- Whether a format code is a KN format. -/
def isKN (c : Nat) : Bool := Nat.ble 9 c && Nat.ble c 11
/-- Whether a format code is an integer vector format. -/
def isInt (c : Nat) : Bool := Nat.ble c 3

/-- The sign bit of a format as a number. -/
def signBit (c : Nat) : Nat := 2 ^ (fmtWidth c - 1)

/-- The largest finite pattern of a format without its sign (R67). -/
def maxFinite (c : Nat) : Nat := if c == 7 then 0x7E else (2 ^ expBits c - 1) * 2 ^ fracBits c - 1

/-- The canonical NaN of a format (R68). -/
def canonicalNaN : Nat → Nat
  | 4 => 0x7FC00000
  | 5 => 0x7FC0
  | 6 => 0x7E00
  | 7 => 0x7F
  | 8 => 0x7E
  | _ => 0

/-- A pattern with its sign. -/
def withSign (c : Nat) (neg : Bool) (mag : Nat) : Nat := if neg then signBit c + mag else mag

/-- The value of a floating-point pattern (R67). -/
def floatVal (c bits : Nat) : Val :=
  let f := fracBits c
  let neg := Nat.ble (signBit c) (bits % 2 ^ fmtWidth c)
  let mag := bits % signBit c
  let ex := mag / 2 ^ f
  let fr := mag % 2 ^ f
  if c == 7 && mag == 0x7F then .nan false
  else if c != 7 && ex == 2 ^ expBits c - 1 then
    if fr == 0 then .inf neg else .nan (Nat.blt fr (2 ^ (f - 1)))
  else if ex == 0 then .num neg fr (1 - (expBias c : Int) - f)
  else .num neg (fr + 2 ^ f) ((ex : Int) - expBias c - f)

/-- Flush of a subnormal FP32 input under FTZ (R74). -/
def flushIn (ftz : Bool) (c bits : Nat) : Nat :=
  if ftz && c == 4 && bits / 2 ^ 23 % 256 == 0 then bits / 2 ^ 31 % 2 * 2 ^ 31 else bits

/-- Whether a magnitude q + r/d rounds up, by R72 and R75: `q` is the kept part, r/d what is cut off. -/
def roundUp (R : Rounding) (neg : Bool) (q r d : Nat) : Bool :=
  match R.mode with
  | 0 => Nat.blt d (2 * r) || (2 * r == d && q % 2 == 1)
  | 2 => neg && r != 0
  | 3 => !neg && r != 0
  | 4 => Nat.blt (R.rnd * d) (r * 2 ^ 32)
  | _ => false

/-- A magnitude m · 2^e in units of 2^u: the rounded integer, and whether it differs. -/
def roundUnits (R : Rounding) (neg : Bool) (m : Nat) (e u : Int) : Nat × Bool :=
  if u ≤ e then (m * 2 ^ (e - u).toNat, false)
  else
    let d := 2 ^ (u - e).toNat
    let q := m / d
    let r := m % d
    (if roundUp R neg q r d then q + 1 else q, r != 0)

/-- The exponent of the leading bit of m · 2^e, for m > 0. -/
def leadExp (m : Nat) (e : Int) : Int := (m.log2 : Int) + e

/-- The infinity of a format, or what stands for it: E4M3 delivers ±448 with OF and NX (R433). -/
def infBits (c : Nat) (neg : Bool) : Nat × BitVec 6 :=
  if c == 7 then (withSign c neg 0x7E, fOF ||| fNX) else (withSign c neg (maxFinite c + 1), 0)

/-- What an overflow delivers (R72, R75, R76). -/
def overflowBits (c : Nat) (mode : Nat) (neg : Bool) : Nat :=
  if c == 7 then withSign c neg 0x7E
  else
    let toInf := mode == 0 || mode == 4 || (mode == 2 && neg) || (mode == 3 && !neg)
    withSign c neg (if toInf then maxFinite c + 1 else maxFinite c)

/-- The magnitude pattern of m · 2^e rounded to a format without a bound on its exponent, and whether it differs. -/
def roundMag (c : Nat) (R : Rounding) (neg : Bool) (m : Nat) (e : Int) : Nat × Bool :=
  let emin : Int := 1 - (expBias c : Int)
  let E := max (leadExp m e) emin
  let r := roundUnits R neg m e (E - fracBits c)
  ((E - emin).toNat * 2 ^ fracBits c + r.1, r.2)

/-- Whether m · 2^e exceeds the largest finite magnitude of a format. -/
def beyondFinite (c m : Nat) (e : Int) : Bool :=
  let t := roundMag c { rne with mode := 1 } false m e
  Nat.blt (maxFinite c) t.1 || (t.1 == maxFinite c && t.2)

/-- One rounding of a value to a floating-point format, with the flags of R73, R74 and R433. A NaN gives the canonical
NaN, with NV if it signals. A value above the largest finite magnitude rounds under SR as in RNE (R75). A nonzero exact value
that is delivered as a zero raises UF with NX (log entry 41, DEDUCED: R73's "the result is nonzero" is taken of the exact
result). -/
def roundFloat (c : Nat) (R : Rounding) : Val → Nat × BitVec 6
  | .nan s => (canonicalNaN c, flagIf s fNV)
  | .inf neg => infBits c neg
  | .num neg 0 _ => (withSign c neg 0, 0)
  | .num neg m e =>
    let R := if R.mode == 4 && beyondFinite c m e then { R with mode := 0 } else R
    let (mag, nx) := roundMag c R neg m e
    if Nat.blt (maxFinite c) mag then (overflowBits c R.mode neg, fOF ||| fNX)
    else
      let tiny := Nat.blt mag (2 ^ fracBits c)
      if R.ftz && c == 4 && tiny then (withSign c neg 0, fUF ||| fNX)
      else (withSign c neg mag, flagIf nx fNX ||| flagIf (nx && tiny) fUF)

/-! ### Exact operations -/

/-- Whether a value is a NaN. -/
def Val.isNaN : Val → Bool
  | .nan _ => true
  | _ => false

/-- NV for a signalling NaN (R68). -/
def Val.snan : Val → Bool
  | .nan s => s
  | _ => false

/-- Whether a value is a zero. -/
def Val.isZero : Val → Bool
  | .num _ 0 _ => true
  | _ => false

/-- The sign of a value. -/
def Val.neg : Val → Bool
  | .nan _ => false
  | .inf n => n
  | .num n _ _ => n

/-- The value with its sign inverted. -/
def Val.negate : Val → Val
  | .nan s => .nan s
  | .inf n => .inf (!n)
  | .num n m e => .num (!n) m e

/-- The NaN of an operation and its flags: NV when an input signals or the operation is invalid (R68). -/
def nanResult (nv : Bool) : Val × BitVec 6 := (.nan false, flagIf nv fNV)

/-- The signed integer value of a number in units of 2^u, for u at most its exponent. -/
def scaledInt (neg : Bool) (m : Nat) (e u : Int) : Int :=
  let k : Int := (m * 2 ^ (e - u).toNat : Nat)
  if neg then -k else k

/-- A number from a signed integer in units of 2^u; a zero takes the given sign. -/
def ofScaled (k : Int) (u : Int) (zeroNeg : Bool) : Val :=
  if k == 0 then .num zeroNeg 0 0 else .num (decide (k < 0)) k.natAbs u

/-- Exact sum (R68): ∞ − ∞ is invalid; an exact zero keeps the common sign of its operands, and is else +0, or −0 under
RDN (R165). -/
def addVal (mode : Nat) (x y : Val) : Val × BitVec 6 :=
  match x, y with
  | .nan s, b => nanResult (s || b.snan)
  | a, .nan s => nanResult (s || a.snan)
  | .inf n, .inf n' => if n == n' then (.inf n, 0) else nanResult true
  | .inf n, .num _ _ _ => (.inf n, 0)
  | .num _ _ _, .inf n => (.inf n, 0)
  | .num n m e, .num n' m' e' =>
    let u := min e e'
    (ofScaled (scaledInt n m e u + scaledInt n' m' e' u) u (if n == n' then n else mode == 2), 0)

/-- Exact product (R68): 0 × ∞ is invalid. -/
def mulVal (x y : Val) : Val × BitVec 6 :=
  match x, y with
  | .nan s, b => nanResult (s || b.snan)
  | a, .nan s => nanResult (s || a.snan)
  | .inf n, .inf n' => (.inf (n != n'), 0)
  | .inf n, .num n' m _ => if m == 0 then nanResult true else (.inf (n != n'), 0)
  | .num n m _, .inf n' => if m == 0 then nanResult true else (.inf (n != n'), 0)
  | .num n m e, .num n' m' e' => (.num (n != n') (m * m') (e + e'), 0)

/-- Exact a × b + c, with NV for 0 × ∞ whatever c is (R165). -/
def fmaVal (mode : Nat) (a b c : Val) : Val × BitVec 6 :=
  let p := mulVal a b
  let r := addVal mode p.1 c
  (r.1, p.2 ||| r.2 ||| flagIf (c.snan) fNV)

/-- Quotient (R68, R163): 0/0 and ∞/∞ are invalid, a finite nonzero value over ±0 raises DZ. The last bit of the quotient
of two numbers stands for a nonzero remainder, below every rounding position. -/
def divVal (x y : Val) : Val × BitVec 6 :=
  match x, y with
  | .nan s, b => nanResult (s || b.snan)
  | a, .nan s => nanResult (s || a.snan)
  | .inf _, .inf _ => nanResult true
  | .inf n, .num n' _ _ => (.inf (n != n'), 0)
  | .num n _ _, .inf n' => (.num (n != n') 0 0, 0)
  | .num n m e, .num n' m' e' =>
    if m' == 0 then (if m == 0 then nanResult true else (.inf (n != n'), fDZ))
    else if m == 0 then (.num (n != n') 0 0, 0)
    else
      let k := 64 + m'.log2
      let a := m * 2 ^ k
      (.num (n != n') (2 * (a / m') + (if a % m' == 0 then 0 else 1)) (e - e' - k - 1), 0)

/-- Newton's steps toward an integer square root from above. -/
def isqrtFrom : Nat → Nat → Nat → Nat
  | 0, _, x => x
  | fuel + 1, n, x =>
    let y := (x + n / x) / 2
    if Nat.blt y x then isqrtFrom fuel n y else x

/-- The integer square root. -/
def isqrt (n : Nat) : Nat := if n == 0 then 0 else isqrtFrom 600 n (2 ^ (n.log2 / 2 + 1))

/-- Square root (R163): of a negative number it is invalid, √−0 is −0. The last bit stands for a nonzero remainder. -/
def sqrtVal (x : Val) : Val × BitVec 6 :=
  match x with
  | .nan s => nanResult s
  | .inf n => if n then nanResult true else (.inf false, 0)
  | .num n m e =>
    if m == 0 then (.num n 0 0, 0)
    else if n then nanResult true
    else
      let k := 64 + (e % 2).toNat
      let a := m * 2 ^ (k + 64)
      let r := isqrt a
      (.num false (2 * r + (if r * r == a then 0 else 1)) ((e - (k + 64 : Nat)) / 2 - 1), 0)

/-- Comparison of two values, none for an unordered pair. The zeros are equal. -/
def cmpVal (x y : Val) : Option Ordering :=
  match x, y with
  | .nan _, _ => none
  | _, .nan _ => none
  | .inf n, .inf n' => some (if n == n' then .eq else if n then .lt else .gt)
  | .inf n, .num _ _ _ => some (if n then .lt else .gt)
  | .num _ _ _, .inf n => some (if n then .gt else .lt)
  | .num n m e, .num n' m' e' =>
    let u := min e e'
    some (compare (scaledInt n m e u) (scaledInt n' m' e' u))

/-- Whether x precedes y for a minimum or maximum, −0 before +0 (R68). -/
def orderBefore (x y : Val) : Bool :=
  match cmpVal x y with
  | some .lt => true
  | some .eq => x.isZero && x.neg && !y.neg
  | _ => false

/-! ### Operations on patterns -/

/-- An operation on exact values and one rounding, on the patterns of a format with FTZ at input and output. -/
def floatOp2 (c : Nat) (R : Rounding) (f : Val → Val → Val × BitVec 6) (a b : Nat) : Nat × BitVec 6 :=
  let v := f (floatVal c (flushIn R.ftz c a)) (floatVal c (flushIn R.ftz c b))
  let r := roundFloat c R v.1
  (r.1, v.2 ||| r.2)

/-- Sum of two patterns. -/
def floatAdd (c : Nat) (R : Rounding) (a b : Nat) : Nat × BitVec 6 := floatOp2 c R (addVal R.mode) a b
/-- Difference of two patterns. -/
def floatSub (c : Nat) (R : Rounding) (a b : Nat) : Nat × BitVec 6 :=
  floatOp2 c R (fun x y => addVal R.mode x y.negate) a b
/-- Product of two patterns. -/
def floatMul (c : Nat) (R : Rounding) (a b : Nat) : Nat × BitVec 6 := floatOp2 c R mulVal a b
/-- Quotient of two patterns. -/
def floatDiv (c : Nat) (R : Rounding) (a b : Nat) : Nat × BitVec 6 := floatOp2 c R divVal a b

/-- Square root of a pattern. -/
def floatSqrt (c : Nat) (R : Rounding) (a : Nat) : Nat × BitVec 6 :=
  let v := sqrtVal (floatVal c (flushIn R.ftz c a))
  let r := roundFloat c R v.1
  (r.1, v.2 ||| r.2)

/-- Fused ±(a × b) ± c with one rounding (R165). -/
def floatFma (c : Nat) (R : Rounding) (negProd negAdd : Bool) (a b d : Nat) : Nat × BitVec 6 :=
  let x := floatVal c (flushIn R.ftz c a)
  let y := floatVal c (flushIn R.ftz c b)
  let z := floatVal c (flushIn R.ftz c d)
  let v := fmaVal R.mode (if negProd then x.negate else x) y (if negAdd then z.negate else z)
  let r := roundFloat c R v.1
  (r.1, v.2 ||| r.2)

/-- Minimum or maximum by R68: one NaN operand gives the other operand, two the canonical NaN. -/
def floatMinMax (c : Nat) (R : Rounding) (wantMax : Bool) (a b : Nat) : Nat × BitVec 6 :=
  let a := flushIn R.ftz c a
  let b := flushIn R.ftz c b
  let x := floatVal c a
  let y := floatVal c b
  let fl := flagIf (x.snan || y.snan) fNV
  if x.isNaN && y.isNaN then (canonicalNaN c, fl)
  else if x.isNaN then (b, fl)
  else if y.isNaN then (a, fl)
  else if orderBefore x y then (if wantMax then b else a, fl)
  else (if wantMax then a else b, fl)

/-- The comparisons of floating-point values. -/
inductive FCmp where
  | eq
  | lt
  | le
  | un
  deriving DecidableEq, Repr

/-- A comparison of patterns (R68): false when unordered, except the test for unordered; NV only for a signalling NaN. -/
def floatCmp (c : Nat) (ftz : Bool) (k : FCmp) (a b : Nat) : Bool × BitVec 6 :=
  let x := floatVal c (flushIn ftz c a)
  let y := floatVal c (flushIn ftz c b)
  let o := cmpVal x y
  (match k with
    | .eq => o == some .eq
    | .lt => o == some .lt
    | .le => o == some .lt || o == some .eq
    | .un => o == none, flagIf (x.snan || y.snan) fNV)

/-- The class of a pattern (R164). -/
def floatClass (c bits : Nat) : Nat :=
  match floatVal c bits with
  | .nan s => if s then 2 ^ 8 else 2 ^ 9
  | .inf n => if n then 2 ^ 0 else 2 ^ 7
  | .num n m _ =>
    if m == 0 then (if n then 2 ^ 3 else 2 ^ 4)
    else if Nat.blt m (2 ^ fracBits c) then (if n then 2 ^ 2 else 2 ^ 5)
    else if n then 2 ^ 1 else 2 ^ 6

/-! ### Conversions (R76) -/

/-- The two's-complement integer in the low w bits of a number. -/
def toSigned (w v : Nat) : Int :=
  let x := v % 2 ^ w
  if Nat.blt x (2 ^ (w - 1)) then x else (x : Int) - (2 ^ w : Nat)

/-- The low w bits of an integer. -/
def ofSigned (w : Nat) (i : Int) : Nat := (i % ((2 ^ w : Nat) : Int)).toNat

/-- An integer as a value. -/
def intVal (i : Int) : Val := .num (decide (i < 0)) i.natAbs 0

/-- A value to an integer between two bounds: out of range gives the bound with SAT alone, a NaN 0 with NV (R76). -/
def valToInt (lo hi : Int) (R : Rounding) : Val → Int × BitVec 6
  | .nan _ => (0, fNV)
  | .inf n => (if n then lo else hi, fSAT)
  | .num n m e =>
    let r := roundUnits R n m e 0
    let k : Int := if n then -(r.1 : Int) else r.1
    if k < lo then (lo, fSAT) else if hi < k then (hi, fSAT) else (k, flagIf r.2 fNX)

/-- An integer to a signed integer of w bits, saturating with SAT (R76). -/
def satInt (w : Nat) (i : Int) : Nat × BitVec 6 :=
  let hi : Int := 2 ^ (w - 1) - 1
  let lo : Int := -2 ^ (w - 1)
  if i < lo then (ofSigned w lo, fSAT) else if hi < i then (ofSigned w hi, fSAT) else (ofSigned w i, 0)

/-- Fraction bits by which R72 tells a narrowing conversion. -/
def narrowFrac (c : Nat) : Nat :=
  if isFloat c then fracBits c
  else if c == 9 then 1 else if c == 10 then 5 else if c == 11 then 13
  else fmtWidth c - 1

/-- Whether a conversion rounds stochastically under SR (R72): to KN, or to a floating-point format of fewer fraction bits. -/
def narrowing (src dst : Nat) : Bool := isKN dst || (isFloat dst && Nat.blt (narrowFrac dst) (narrowFrac src))

/-- The rounding a conversion uses: SR acts as RNE where the conversion does not narrow (R72). -/
def convRounding (R : Rounding) (src dst : Nat) : Rounding :=
  if R.mode == 4 && !narrowing src dst then { R with mode := 0 } else R

/-- The value of an element of an integer or floating-point format. -/
def elemVal (ftz : Bool) (c bits : Nat) : Val :=
  if isFloat c then floatVal c (flushIn ftz c bits) else intVal (toSigned (fmtWidth c) bits)

/-- A value delivered in an integer or floating-point format (R76). -/
def deliverElem (src dst : Nat) (R : Rounding) (v : Val) : Nat × BitVec 6 :=
  let R := convRounding R src dst
  if isFloat dst then roundFloat dst R v
  else
    let w := fmtWidth dst
    let r := valToInt (-2 ^ (w - 1)) (2 ^ (w - 1) - 1) R v
    if isInt src then (let k := satInt w r.1; (k.1, r.2 ||| k.2)) else (ofSigned w r.1, r.2)

/-! ### Stochastic rounding (R75) -/

/-- The increment of SRSEED and of the generator. -/
def srStep : Nat := 0x9E3779B97F4A7C15

/-- The random word of element i under a key, at a slot of a vtile (R75). -/
def srWord (key : Word) (slot vtn i : Nat) : Nat :=
  let x := key + BitVec.ofNat 64 (srStep * (1 + i + 2048 * (slot + 8 * vtn)))
  let x := (x ^^^ (x >>> 30)) * 0xBF58476D1CE4E5B9#64
  let x := (x ^^^ (x >>> 27)) * 0x94D049BB133111EB#64
  let x := x ^^^ (x >>> 31)
  (x >>> 32).toNat

/-! ### KN blocks (R69 to R71, R77) -/

/-- Magnitude bits of a KN format (R69). -/
def knBits : Nat → Nat
  | 9 => 2
  | 10 => 6
  | 11 => 14
  | _ => 0

/-- Elements of a block (R70). -/
def blockLen (blk : Nat) : Nat := 16 * 2 ^ blk

/-- A block spans at least one granule, or the format and block code are illegal (R70). -/
def knLegal (c blk : Nat) : Bool := !isKN c || Nat.ble 256 (blockLen blk * fmtWidth c)

/-- The value of element i of a KN operand whose element bits from element 0 on are `bits`, under block exponent E
(R69, R71). -/
def knVal (c : Nat) (bits i E : Nat) : Val :=
  let m := knBits c
  let w := fmtWidth c
  let P := bits / 2 ^ (2 * w * (i / 2)) % 2 ^ (2 * w)
  let mu := P / 2 ^ (2 * w - 2)
  let el := P / 2 ^ ((m + 1) * (i % 2)) % 2 ^ (m + 1)
  if E == 255 then .nan false
  else .num (el / 2 ^ m == 1) (el % 2 ^ m) ((E : Int) - 127 - mu - ((m : Int) - 1))

/-- Twice a value's leading exponent made comparable: the magnitude of an element for R77, an infinity as 2^128. -/
def knMag : Val → Option (Nat × Int)
  | .nan _ => none
  | .inf _ => some (1, 128)
  | .num _ m e => if m == 0 then none else some (m, e)

/-- The greatest leading exponent among values, none when all are zero. -/
def maxLead (xs : List Val) : Option Int :=
  xs.foldl (fun acc x =>
    match knMag x with
    | none => acc
    | some (m, e) =>
      match acc with
      | none => some (leadExp m e)
      | some a => some (max a (leadExp m e))) none

/-- An integer held between two bounds. -/
def clampInt (lo hi x : Int) : Int := if x < lo then lo else if hi < x then hi else x

/-- One element of a pair under block exponent e and micro-exponent mu (R77): the sign and magnitude field, and flags. -/
def knElem (c : Nat) (R : Rounding) (e mu : Int) (x : Val) : Nat × BitVec 6 :=
  let m := knBits c
  match x with
  | .nan _ => (0, 0)
  | .inf n => ((if n then 2 ^ m else 0) + (2 ^ m - 1), fSAT ||| fNX)
  | .num n k ex =>
    let u : Int := e - mu - ((m : Int) - 1)
    let q := roundUnits R n k ex u
    let M := min q.1 (2 ^ m - 1)
    ((if n then 2 ^ m else 0) + M, flagIf (q.2 || q.1 != M) fNX ||| flagIf (k != 0 && M == 0) fUF)

/-- The pair containers of a block, lowest pair first, as one number (R69, R77). -/
def knPairs (c : Nat) (R : Nat → Rounding) (e : Int) : Nat → List Val → Nat × BitVec 6
  | i, x :: y :: rest =>
    let w := fmtWidth c
    let mu : Int := match maxLead [x, y] with
      | none => 3
      | some l => clampInt 0 3 (e - l)
    let lo := knElem c (R i) e mu x
    let hi := knElem c (R (i + 1)) e mu y
    let P := lo.1 + hi.1 * 2 ^ (knBits c + 1) + mu.toNat * 2 ^ (2 * w - 2)
    let r := knPairs c R e (i + 2) rest
    (P + r.1 * 2 ^ (2 * w), lo.2 ||| hi.2 ||| r.2)
  | _, _ => (0, 0)

/-- Quantisation of one block (R77): its bits, its block exponent and its flags. `R i` rounds element i of the block. -/
def quantBlock (c : Nat) (R : Nat → Rounding) (xs : List Val) : Nat × Nat × BitVec 6 :=
  if xs.any Val.isNaN then (0, 255, flagIf (xs.any Val.snan) fNV)
  else
    let E : Int := match maxLead xs with
      | none => 0
      | some l => clampInt 0 254 (l + 127)
    let r := knPairs c R (E - 127) 0 xs
    (r.1, E.toNat, r.2)

end Sys2Proof.Machine
end

