-- ==== Sys2Proof/Machine/Home.lean ====
section
/-! DEFINITION. What one access does at the home of its location, as one action there (spec/04_memory.md R97 to R102, R107,
R118, R120, R175, spec/03_numbers.md R76 to R78, R93 to R95, spec/07_isa_vector.md R203, R204, spec/09_isa_fabric.md R235 to
R240). -/

namespace Sys2Proof.Machine

/-! ### Conversion of a vector's lanes (R76, R77, R204) -/

/-- Element i, w bits wide, of a little-endian bit string. -/
def elemBits (bits w i : Nat) : Nat := bits / 2 ^ (w * i) % 2 ^ w

/-- The bytes of a block of a KN format. -/
def blockBytes (c blk : Nat) : Nat := blockLen blk * fmtWidth c / 8

/-- The value that lane i brings to a conversion: an inactive lane enters as +0 (R77). -/
def laneVal (ftz : Bool) (c blk : Nat) (scale : Nat → Nat) (active : Nat → Bool) (bits i : Nat) : Val :=
  if !active i then .num false 0 0
  else if isKN c then knVal c bits i (scale (i / blockLen blk))
  else elemVal ftz c (elemBits bits (fmtWidth c) i)

/-- Lanes i, i + 1, … of a conversion to a format that is not KN, its own among them (log entry 70, DEDUCED): bits from lane i on, and
flags. -/
def convertPlain (src dst : Nat) (R : Nat → Rounding) (val : Nat → Val) (active : Nat → Bool) :
    Nat → Nat → Nat × BitVec 6
  | 0, _ => (0, 0)
  | n + 1, i =>
    let r := convertPlain src dst R val active n (i + 1)
    if active i then
      let e := deliverElem src dst (R i) (val i)
      (e.1 + r.1 * 2 ^ fmtWidth dst, e.2 ||| r.2)
    else (r.1 * 2 ^ fmtWidth dst, r.2)

/-- Blocks b, b + 1, … of a conversion to a KN format: bits from block b on, the block exponents, and flags. -/
def convertBlocks (dst blk : Nat) (R : Nat → Rounding) (val : Nat → Val) : Nat → Nat → Nat × List Nat × BitVec 6
  | 0, _ => (0, [], 0)
  | n + 1, b =>
    let len := blockLen blk
    let q := quantBlock dst (fun j => R (b * len + j)) ((List.range len).map fun j => val (b * len + j))
    let r := convertBlocks dst blk R val n (b + 1)
    (q.1 + r.1 * 2 ^ (len * fmtWidth dst), q.2.1 :: r.2.1, q.2.2 ||| r.2.2)

/-- Conversion of `lanes` elements: bits, block exponents (none where the target is not KN), and flags. -/
def convertLanes (src srcBlk dst dstBlk lanes : Nat) (R : Nat → Rounding) (ftz : Bool) (scale : Nat → Nat)
    (active : Nat → Bool) (bits : Nat) : Nat × List Nat × BitVec 6 :=
  let val := laneVal ftz src srcBlk scale active bits
  if isKN dst then
    convertBlocks dst dstBlk (fun i => convRounding (R i) src dst) val (lanes / blockLen dstBlk) 0
  else
    let r := convertPlain src dst R val active lanes 0
    (r.1, [], r.2)

/-- The sidecar of a vector of blocks: every granule of block b holds its exponent (R45, R70). -/
def sidecarOf (c blk : Nat) (es : List Nat) : Nat :=
  es.foldr (fun E acc =>
    let g := blockBytes c blk / 32
    (2 ^ (8 * g) - 1) / 255 * E + acc * 2 ^ (8 * g)) 0

/-- The block exponent of block b in a sidecar: the byte of its first granule (R70). -/
def sidecarScale (c blk : Nat) (side b : Nat) : Nat := elemBits side 8 (b * (blockBytes c blk / 32))

/-- The rounding of element i of a result under RND with a key (R72, R75). -/
def roundingAt (rnd : BitVec 4) (key : Word) (slot vtn i : Nat) : Rounding :=
  let mode := rnd.toNat % 8
  { mode, rnd := if mode == 4 then srWord key slot vtn i else 0, ftz := rnd.getLsbD 3 }

/-! ### Fixed-point cells (R93, R94) -/

/-- The bounds of a cell's VALUE (R93). -/
def fxMax : Int := 2 ^ 118 - 1
/-- The lower bound. -/
def fxMin : Int := -2 ^ 118

/-- conv(v, s) of R94: truncated toward zero, saturating; the flag says that it saturated. -/
def fxConv (v : Val) (s : Nat) : Int × Bool :=
  match v with
  | .nan _ => (0, true)
  | .inf n => (if n then fxMin else fxMax, true)
  | .num n m e =>
    let k := (roundUnits { rne with mode := 1 } n m e ((s : Int) - 190)).1
    let i : Int := if n then -(k : Int) else k
    if i < fxMin then (fxMin, true) else if fxMax < i then (fxMax, true) else (i, false)

/-- SCALE of a cell. -/
def cellScale (c : Nat) : Nat := c / 2 ^ 120 % 256
/-- STICKY of a cell. -/
def cellSticky (c : Nat) : Bool := c / 2 ^ 119 % 2 == 1
/-- VALUE of a cell. -/
def cellValue (c : Nat) : Int := toSigned 119 c
/-- A cell of its fields. -/
def mkCell (s : Nat) (sticky : Bool) (i : Int) : Nat := s * 2 ^ 120 + sticky.toNat * 2 ^ 119 + ofSigned 119 i

/-- AFXADD: the cell after adding an FP32 operand; a NaN sets STICKY alone. -/
def cellAdd (c v : Nat) : Nat :=
  match floatVal 4 v with
  | .nan _ => mkCell (cellScale c) true (cellValue c)
  | x =>
    let r := fxConv x (cellScale c)
    let sum := cellValue c + r.1
    if sum < fxMin then mkCell (cellScale c) true fxMin
    else if fxMax < sum then mkCell (cellScale c) true fxMax
    else mkCell (cellScale c) (cellSticky c || r.2) sum

/-- AFXSET: the cell set to an FP32 value under a scale. -/
def cellSet (v s : Nat) : Nat :=
  let r := fxConv (floatVal 4 v) s
  mkCell s r.2 r.1

/-- AFXRD: the FP32 value of a cell, with STICKY in bit 32 (R236). -/
def cellRead (c : Nat) : Nat :=
  let i := cellValue c
  (roundFloat 4 rne (.num (decide (i < 0)) i.natAbs ((cellScale c : Int) - 190))).1 + (cellSticky c).toNat * 2 ^ 32

/-! ### Read-modify-writes -/

/-- The new value of an atomic on w-bit words (R235): the old value o, the operand b, the expected value e. -/
def atomNew (k : AtomKind) (w o b e : Nat) : Nat :=
  let b := b % 2 ^ w
  match k with
  | .add => (o + b) % 2 ^ w
  | .smax => if toSigned w o < toSigned w b then b else o
  | .smin => if toSigned w b < toSigned w o then b else o
  | .umax => max o b
  | .umin => min o b
  | .band => o &&& b
  | .bor => o ||| b
  | .bxor => o ^^^ b
  | .swap => b
  | .cas => if o == e % 2 ^ w then b else o

/-- The returned old value (R235): AADD, AMAX and AMIN sign-extend a 4-byte word. -/
def atomOld (k : AtomKind) (w o : Nat) : Nat :=
  match k with
  | .add | .smax | .smin => ofSigned 64 (toSigned w o)
  | _ => o

/-- BARARR on a barrier word (R119, R120). -/
def barrierArrive (w : Nat) : Nat :=
  let a := w % 2 ^ 16 + 1
  let e0 := w / 2 ^ 32 % 2 ^ 16
  let e := if e0 == 0 then 65536 else e0
  let rest := w / 2 ^ 16 * 2 ^ 16
  if a == e then (if w / 2 ^ 63 % 2 == 1 then rest - 2 ^ 63 else rest + 2 ^ 63) else rest + a % 2 ^ 16

/-! ### Access through a translation -/

/-- Reads n bytes at an address, page by page. -/
def readVia (tr : Nat → Nat) (m : Memory) : Nat → Nat → Nat → Nat
  | 0, _, _ => 0
  | fuel + 1, a, n =>
    let room := 4096 - a % 4096
    if Nat.ble n room then Memory.read m (tr a) n
    else Memory.read m (tr a) room + readVia tr m fuel (a + room) (n - room) * 2 ^ (8 * room)

/-- Writes the n low bytes of a value at an address, page by page. -/
def writeVia (tr : Nat → Nat) : Nat → Memory → Nat → Nat → Nat → Memory
  | 0, m, _, _, _ => m
  | fuel + 1, m, a, n, v =>
    let room := 4096 - a % 4096
    if Nat.ble n room then Memory.write m (tr a) n v
    else writeVia tr fuel (Memory.write m (tr a) room v) (a + room) (n - room) (v / 2 ^ (8 * room))

/-- Reads one field of a raw load. -/
def getBits (tr : Nat → Nat) (m : Memory) (g : BitGet) : Nat :=
  readVia tr m 40 g.addr ((g.boff + g.len + 7) / 8) / 2 ^ g.boff % 2 ^ g.len

/-- Writes one field of a raw store; a part of a byte is a read-modify-write (R203). -/
def putBits (tr : Nat → Nat) (m : Memory) (p : BitPut) : Memory :=
  let n := (p.boff + p.len + 7) / 8
  if p.boff == 0 && p.len % 8 == 0 then writeVia tr 40 m p.addr n p.data
  else
    let o := readVia tr m 40 p.addr n
    let old := o / 2 ^ p.boff % 2 ^ p.len
    writeVia tr 40 m p.addr n (o - old * 2 ^ p.boff + p.data % 2 ^ p.len * 2 ^ p.boff)

/-- The multiples of a step, none for 0, from a distance on and short of n beyond it. -/
def stepsIn (lo n step : Nat) : List Nat :=
  if step == 0 then []
  else ((List.range (n / step + 2)).map fun i => (lo / step + i) * step).filter fun o => Nat.ble lo o && Nat.blt o (lo + n)

/-- What an access answers: a value (a scalar in its low bits), a sidecar, and conversion flags. -/
structure HomeResult where
  val : Nat := 0
  side : Nat := 0
  flags : BitVec 6 := 0
  deriving DecidableEq, Repr

/-- The data of an access on a memory, through a translation `tr` of addresses and with the block exponents `sh` of
granule addresses: the memory after it, the shadow bytes it writes by granule address, and its answer. Full/empty bits are
the tile's. -/
def MemOp.onMem (op : MemOp) (tr : Nat → Nat) (sh : Nat → Nat) (m : Memory) (a : Nat) :
    Memory × List (Nat × Byte) × HomeResult :=
  let rd (n : Nat) : Nat := Memory.read m (tr a) n
  let wr (n v : Nat) : Memory := Memory.write m (tr a) n v
  match op with
  | .load size signed =>
    (m, [], { val := if signed then ofSigned 64 (toSigned (8 * size) (rd size)) else rd size })
  | .store size data => (wr size data.toNat, [], {})
  | .ldt => (m, [], { val := rd 8 })
  | .stf data => (wr 8 data.toNat, [], {})
  | .femark | .fefill | .fetest => (m, [], {})
  | .atomic k size b e =>
    let o := rd size
    (wr size (atomNew k (8 * size) o b.toNat e.toNat), [], { val := atomOld k (8 * size) o })
  | .fxAdd v =>
    let c := cellAdd (rd 16) v.toNat
    (wr 16 c, [], { val := (cellSticky c).toNat })
  | .fxRead => (m, [], { val := cellRead (rd 16) })
  | .fxSet v s =>
    let c := cellSet v.toNat s.toNat
    (wr 16 c, [], { val := (cellSticky c).toNat })
  | .absmax v =>
    let o := rd 4
    (wr 4 (max o (v.toNat % 2 ^ 31)), [], { val := o })
  | .barArrive =>
    let o := rd 8
    (wr 8 (barrierArrive o), [], { val := o })
  | .barProbe _ => (m, [], { val := rd 8 })
  | .vecLoad els => (m, [], { val := els.foldl (fun acc g => acc ||| getBits tr m g <<< g.pos) 0 })
  | .fetch n skew step =>
    (m, [], { val := rd n, side := (stepsIn skew n step).foldl (fun v o => v + sh (a + o - skew) * 2 ^ (8 * (o / 32))) 0 })
  | .vecConvert c =>
    let lanes := fmtLanes c.regFmt
    let bits := readVia tr m 40 a (lanes * fmtWidth c.memFmt / 8)
    let r := convertLanes c.memFmt c.memBlk c.regFmt c.regBlk lanes (roundingAt c.rnd c.key c.slot c.vtn)
      (c.rnd.getLsbD 3) (fun b => sh (a + b * blockBytes c.memFmt c.memBlk)) (fun i => c.active.getLsbD i) bits
    (m, [], { val := r.1, side := sidecarOf c.regFmt c.regBlk r.2.1, flags := r.2.2 })
  | .vecStore els shadow => (els.foldl (putBits tr) m, shadow, {})
  | .vecAtomic k size els =>
    (els.foldl (fun m x =>
      Memory.write m (tr x.1) size
        (if k == .umax then max (Memory.read m (tr x.1) size) (x.2.toNat % 2 ^ 31)
         else atomNew k (8 * size) (Memory.read m (tr x.1) size) x.2.toNat 0)) m, [], {})
  | .vecFx els =>
    (els.foldl (fun m x => Memory.write m (tr x.1) 16 (cellAdd (Memory.read m (tr x.1) 16) x.2.toNat)) m, [], {})
  | .xtdef _ => (m, [], { val := readVia tr m 4 a 32 })

/-! ### Access at a tile -/

/-- The byte ranges that an access reads and whose lines it waits for (R101); a plain store, STF, FEMARK, FEFILL and
FETEST wait for none. -/
def MemOp.reads (op : MemOp) (a : Nat) : List (Nat × Nat) :=
  match op with
  | .load size _ => [(a, size)]
  | .ldt => [(a, 8)]
  | .atomic _ size _ _ => [(a, size)]
  | .fxAdd _ | .fxRead | .fxSet _ _ => [(a, 16)]
  | .absmax _ => [(a, 4)]
  | .barArrive | .barProbe _ => [(a, 8)]
  | .vecLoad els => els.map fun g => (g.addr, (g.boff + g.len + 7) / 8)
  | .fetch n _ _ => [(a, n)]
  | .vecConvert c =>
    let w := fmtWidth c.memFmt
    if isKN c.memFmt then
      let n := blockBytes c.memFmt c.memBlk
      (List.range (fmtLanes c.regFmt / blockLen c.memBlk)).filterMap fun b =>
        if (c.active.toNat >>> (b * blockLen c.memBlk)) % 2 ^ blockLen c.memBlk == 0 then none else some (a + b * n, n)
    else (List.range (fmtLanes c.regFmt)).filterMap fun i =>
      if c.active.getLsbD i then some (a + w * i / 8, (w + 7) / 8) else none
  | .vecAtomic _ size els => els.map fun x => (x.1, size)
  | .vecFx els => els.map fun x => (x.1, 16)
  | .xtdef _ => [(a, 32)]
  | .store _ _ | .stf _ | .femark | .fefill | .fetest | .vecStore _ _ => []

/-- The granules whose block exponents an access takes from the scale shadow: the first of every block that holds an active
element (R70, R204). -/
def MemOp.scales (op : MemOp) (a : Nat) : List Nat :=
  match op with
  | .vecConvert c => if isKN c.memFmt then ((MemOp.vecConvert c).reads a).map (·.1) else []
  | .fetch n skew step => (stepsIn skew n step).map fun o => a + o - skew
  | _ => []

/-- The byte ranges that an access writes. -/
def MemOp.writes (op : MemOp) (a : Nat) : List (Nat × Nat) :=
  match op with
  | .store size _ => [(a, size)]
  | .stf _ => [(a, 8)]
  | .atomic _ size _ _ => [(a, size)]
  | .fxAdd _ | .fxSet _ _ => [(a, 16)]
  | .absmax _ => [(a, 4)]
  | .barArrive => [(a, 8)]
  | .vecStore els _ => els.map fun p => (p.addr, (p.boff + p.len + 7) / 8)
  | .vecAtomic _ size els => els.map fun x => (x.1, size)
  | .vecFx els => els.map fun x => (x.1, 16)
  | .load _ _ | .ldt | .femark | .fefill | .fetest | .fxRead | .barProbe _ | .vecLoad _ | .fetch .. | .vecConvert _ | .xtdef _ => []

/-- Whether an access only reads: a load, a test of a line or a probe. -/
def MemOp.onlyReads : MemOp → Bool
  | .load _ _ | .fetest | .fxRead | .barProbe _ | .vecLoad _ | .fetch .. | .vecConvert _ | .xtdef _ => true
  | _ => false

/-- The bit of a line in the F/E bits. -/
def lineBit (off : Nat) : BitVec 1024 := 1#1024 <<< (off / 128)

/-- F/E bits after an access (R100). -/
def MemOp.marks (op : MemOp) (fe : BitVec 1024) (a : Nat) : BitVec 1024 :=
  match op with
  | .ldt | .femark => fe &&& ~~~(lineBit a)
  | .stf _ | .fefill => fe ||| lineBit a
  | _ => fe

/-- What becomes of an access at a tile's banks. -/
inductive Performed where
  | waits
  | ecc (word : Nat)
  | ok (t : Tile) (r : HomeResult)
  deriving DecidableEq, Repr

/-- Shadow bytes written by granule address. -/
def writeShadow (m : Memory) (ws : List (Nat × Byte)) : Memory :=
  ws.foldl (fun m w => Memory.write m (w.1 / 32) 1 w.2.toNat) m

/-- The uncorrectable words after shadow bytes are written: one whose eight shadow bytes are all written is replaced
(R98). -/
def clearShadowEcc (words : List Nat) (ws : List (Nat × Byte)) : List Nat :=
  words.filter fun w =>
    !(Nat.ble 16384 w && (List.range 8).all fun i => ws.any fun x => x.1 / 32 == (w - 16384) * 8 + i)

/-- Whether a probe of a barrier word goes on waiting there: bit 63 of the word is the phase that the BARWAIT waits to see
ended (R120, R172). -/
def MemOp.standsBy (op : MemOp) (m : Memory) (a : Nat) : Bool :=
  match op with
  | .barProbe phase => (Memory.read m a 8 / 2 ^ 63 % 2 == 1) == phase
  | _ => false

/-- One access at offset `a` of a tile's scratchpad as one action at its banks (R97): it waits at empty lines, and a probe
until its phase has ended, fails at an uncorrectable word of data or scale shadow that it reads (R98), or is performed. All its words become visible in one
step, also those of an access of more than 8 bytes, whose order R107 leaves open (log entry 46, DESIGN CHOICE). -/
def Tile.perform (t : Tile) (op : MemOp) (a : Nat) : Performed :=
  let rs := op.reads a
  if !(rs.all fun r => t.linesFull r.1 r.2) then .waits
  else
    match (rs.findSome? fun r => t.eccAt r.1 r.2).or ((op.scales a).findSome? fun g => t.shadowEccAt g 1) with
    | some w => .ecc w
    | none =>
      if op.standsBy t.spad a then .waits else
      let (m, sh, r) := op.onMem (fun x => x) (fun x => (Memory.get t.shadow (x / 32)).toNat) t.spad a
      .ok { t with
          spad := m
          shadow := writeShadow t.shadow sh
          fe := op.marks t.fe a
          eccWords := clearShadowEcc ((op.writes a).foldl (fun ws w => clearEcc ws w.1 w.2) t.eccWords) sh }
        (if op == .fetest then { r with val := (t.fe.getLsbD (a / 128)).toNat } else r)

end Sys2Proof.Machine
end

