-- ==== Sys2Proof/Machine/Rim.lean ====
section
/-! DEFINITION. The rim: translation of HBM virtual addresses (spec/14_sys_swap.md R362 to R366) and accesses to rim and
host memory at their homes (spec/04_memory.md R105, R106). -/

namespace Sys2Proof.Machine

/-- The pages that a list of byte ranges touches. -/
def pagesOf (rs : List (Nat × Nat)) : List Nat :=
  (rs.flatMap fun r =>
    if r.2 == 0 then [] else (List.range ((r.1 + r.2 - 1) / 4096 - r.1 / 4096 + 1)).map (· + r.1 / 4096)).eraseDups

/-- Whether every page an access touches translates, and every page it writes has W (R364). -/
def State.translates (s : State) (asid : Nat) (rs ws : List (Nat × Nat)) : Bool :=
  ((pagesOf rs).all fun p => (s.page? asid p).isSome)
    && (pagesOf ws).all fun p =>
      match s.page? asid p with
      | some pg => pg.writable
      | none => false

/-- The first uncorrectable doubleword of rim memory that physical ranges touch. -/
def hbmEccHit (words : List Nat) (tr : Nat → Nat) (rs : List (Nat × Nat)) : Bool :=
  rs.any fun r => (List.range ((r.2 + 7) / 8 + 1)).any fun i =>
    Nat.blt (i * 8) (r.2 + r.1 % 8) && words.contains (tr (r.1 / 8 * 8 + i * 8) / 8)

/-- The uncorrectable doublewords of rim memory after stores: one that a store covers whole is replaced with its code, as R98
says of the scratchpad (log entry 48, DEDUCED). -/
def hbmEccClear (words : List Nat) (tr : Nat → Nat) (rs : List (Nat × Nat)) : List Nat :=
  words.filter fun w => !(rs.any fun r => (List.range (r.2 / 8 + 1)).any fun i =>
    Nat.ble ((r.1 + 7) / 8 * 8 + 8 * i + 8) (r.1 + r.2) && tr ((r.1 + 7) / 8 * 8 + 8 * i) / 8 == w)

/-- Shadow bytes written at the rim by granule address; on a page without a shadow they are dropped (R365). -/
def writeRimShadow (addr : Nat → Option Nat) (m : Memory) (ws : List (Nat × Byte)) : Memory :=
  ws.foldl (fun m w =>
    match addr w.1 with
    | some a => Memory.write m a 1 w.2.toNat
    | none => m) m

/-- Whether the shadow byte of a granule of rim memory stands in an uncorrectable doubleword (R98, R365). -/
def State.scaleEcc (s : State) (asid g : Nat) : Bool :=
  match s.shadowAddr asid g with
  | some a => s.hbmEcc.contains (a / 8)
  | none => false

/-- An access to rim memory by virtual address at its home: the state after it and its answer, or the cause that the
rim reports. -/
def State.performHbm (s : State) (asid : Nat) (op : MemOp) (a : Nat) : State × Except Cause HomeResult :=
  let rs := op.reads a
  let ws := op.writes a
  if !s.translates asid rs ws then (s, .error .hbm)
  else
    let s := (pagesOf (rs ++ ws)).foldl (fun s p => s.cachePage asid p) s
    let tr := s.physical asid
    if hbmEccHit s.hbmEcc tr rs || (op.scales a).any fun g => s.scaleEcc asid g then (s, .error .ecc)
    else
      let (m, sh, r) := op.onMem tr (s.hbmScale asid) s.hbm a
      let units := (ws.flatMap fun w => unitsIn w.1 w.2).map (fun u => tr (64 * u) / 64)
        ++ sh.filterMap fun w => (s.shadowAddr asid w.1).map (· / 64)
      ({ s.sealedFor (s.partOf asid) units with
          hbm := writeRimShadow (s.shadowAddr asid) m sh, hbmEcc := hbmEccClear s.hbmEcc tr ws }, .ok r)

/-- The host address of an aperture offset in a partition's window (R366). Queue 0 and Amizhabo use the whole host
address space. -/
def State.hostWindow (s : State) (part off n : Nat) : Option Nat :=
  let p := Table.getD s.partitions part {}
  if p.hostBound && Nat.ble (off + n) p.hostLen then some (p.hostBase + off) else none

/-- Whether every range of a host access lies inside the partition's window. -/
def State.hostInside (s : State) (part : Nat) (rs : List (Nat × Nat)) : Bool :=
  rs.all fun r => (s.hostWindow part r.1 r.2).isSome

/-- An access to host memory through a partition's window (R366). -/
def State.performHost (s : State) (part : Nat) (op : MemOp) (a : Nat) : State × Except Cause HomeResult :=
  if !s.hostInside part (op.reads a ++ op.writes a) then (s, .error .hbm)
  else
    let base := (Table.getD s.partitions part {}).hostBase
    let (m, _, r) := op.onMem (fun x => base + x) (fun _ => 127) s.host a
    ({ s with host := m }, .ok r)

end Sys2Proof.Machine
end

