-- ==== Sys2Proof/Machine/Access.lean ====
section
/-! DEFINITION. Accesses as a slot issues them: pointer checks (spec/02_state.md R62, R63, spec/12_sys_isa.md R307), what a
fence holds (spec/04_memory.md R108 to R117), capture in the guarded phase (R125 to R127), and where an access is performed:
at once on the own banks or a core's memory, or by a request that travels to its home (R105, R113). -/

namespace Sys2Proof.Machine

/-! ### Pointers -/

/-- SPACE of a pointer (R62). -/
def ptrSpace (p : Word) : Nat := bitsOf p.toNat 57 56
/-- FMT of a pointer. -/
def ptrFmt (p : Word) : Nat := bitsOf p.toNat 63 60
/-- BLK of a pointer. -/
def ptrBlk (p : Word) : Nat := bitsOf p.toNat 59 58
/-- ADDRESS of a pointer. -/
def ptrAddr (p : Word) : Nat := bitsOf p.toNat 55 0

/-- A pointer with a signed distance added to its ADDRESS field, modulo 2^56. -/
def ptrAdd (p : Word) (k : Int) : Word :=
  (p &&& 0xFF00000000000000) ||| (BitVec.ofInt 64 ((ptrAddr p : Int) + k) &&& 0x00FFFFFFFFFFFFFF)

/-- Where an access goes (R105): the own banks, a vtile's scratchpad, rim memory by virtual address, an aperture with
its number, a core's local memory, rim memory by physical address. -/
inductive Place where
  | priv (off : Nat)
  | vtile (vt off : Nat)
  | hbm (va : Nat)
  | aperture (k off : Nat)
  | coreLocal (off : Nat)
  | phys (pa : Nat)
  deriving DecidableEq, Repr

/-- The causes with which an instruction's page turns away a space, none where it allows it (R63, R176, R234). -/
structure SpaceRule where
  global : Option Cause := none
  hbm : Option Cause := none
  host : Option Cause := none
  peer : Option Cause := some .hbm

/-- The spaces of LD, ST and the vector accesses (R176, R202). -/
def anySpace : SpaceRule := {}
/-- The spaces of atomics and barriers (R172, R234). -/
def atomicSpace : SpaceRule := { host := some .hbm }
/-- The spaces of LDT, STF, FEMARK, FEFILL and FETEST (R171, R176). -/
def lineSpace : SpaceRule := { hbm := some .bounds, host := some .bounds, peer := some .bounds }
/-- The private alias alone (R133, R171, R275). -/
def privateSpace : SpaceRule :=
  { global := some .bounds, hbm := some .bounds, host := some .bounds, peer := some .bounds }

/-- Throws a cause with the pointer as TVAL. -/
def ptrFault (c : Cause) (p : Word) : M Unit := throw (.trap c p)

/-- Throws the cause of a space that an instruction turns away. -/
def spaceCheck (c : Option Cause) (p : Word) : M Unit :=
  match c with
  | some c => ptrFault c p
  | none => pure ()

/-- The pointer checks of a core (R307). -/
def corePlace (rule : SpaceRule) (p : Word) (size align : Nat) : M Place := do
  let s ← get
  let a := ptrAddr p
  if ptrSpace p == 2 then do
    let top := if s.cur == .collier then Config.collierBytes else Config.stokerBytes
    require (a / 2 ^ 20 == 0 && Nat.ble (a + size) top) (.trap .bounds p)
    require (a % align == 0) (.trap .alignment p)
    return .coreLocal a
  else if ptrSpace p == 0 then do
    spaceCheck rule.hbm p
    require (a / 2 ^ 48 == 0) (.trap .hbm p)
    require (a % align == 0) (.trap .alignment p)
    require (Nat.ble (a + size) Config.hbmBytes) (.fault (.noSuchStorage a))
    return .phys a
  else if ptrSpace p == 1 then throw (.trap .bounds p)
  else do
    spaceCheck (if s.cur == .collier then rule.host else some .hbm) p
    require (a / 2 ^ 48 == 0) (.trap .hbm p)
    require (a % align == 0) (.trap .alignment p)
    return .aperture 0 a

/-- The pointer checks of a tile's slot: the spaces that the instruction's page turns away, then the table of R63 in
order, up to the alignment. -/
def tilePlace (rule : SpaceRule) (p : Word) (size align : Nat) : M Place := do
  let s ← get
  let a := ptrAddr p
  if ptrSpace p == 2 then do
    require (a / 2 ^ 17 == 0 && Nat.ble (a + size) Config.spadBytes) (.trap .bounds p)
    require (a % align == 0) (.trap .alignment p)
    return .priv a
  else if ptrSpace p == 1 then do
    spaceCheck rule.global p
    let off := a % 2 ^ 17
    require (bitsOf a 31 17 == 0 && Nat.ble (off + size) Config.spadBytes) (.trap .bounds p)
    let l := s.launch (s.tile s.cur.site).name.1
    require (Nat.blt (bitsOf a 55 32) l.pkt.vtiles) (.trap .unmapped (BitVec.ofNat 64 (bitsOf a 55 32)))
    require (off % align == 0) (.trap .alignment p)
    return .vtile (bitsOf a 55 32) off
  else if ptrSpace p == 0 then do
    spaceCheck rule.hbm p
    require (a / 2 ^ 48 == 0) (.trap .hbm p)
    require (a % align == 0) (.trap .alignment p)
    return .hbm a
  else do
    spaceCheck (if a / 2 ^ 48 == 0 then rule.host else rule.peer) p
    require (Nat.ble (a / 2 ^ 48) 16) (.trap .hbm p)
    require (a % 2 ^ 48 % align == 0) (.trap .alignment p)
    return .aperture (a / 2 ^ 48) (a % 2 ^ 48)

/-- The pointer checks of R63 for an access of a size and an alignment. -/
def placeOf (rule : SpaceRule) (p : Word) (size align : Nat) : M Place := do
  let s ← get
  if s.cur.isCore then corePlace rule p size align else tilePlace rule p size align

/-! ### What holds an access -/

/-- Whether a place is in the own scratchpad. -/
def Place.isOwn (pl : Place) (vt : Nat) : Bool :=
  match pl with
  | .priv _ => true
  | .vtile v _ => v == vt
  | _ => false

/-- Holds an access behind the slot's fences. -/
def accessGate (store : Bool) (pl : Place) : M Unit := do
  let s ← get
  fenceGate store (pl.isOwn (s.tile s.cur.site).name.2)

/-- The site that holds a vtile of a launch, where its interface takes arrivals directly (R352, R353). -/
def State.siteOf (s : State) (idx vt : Nat) : Option Nat :=
  (s.tiles.find? fun r => r.2.occ == some (idx, vt) && (r.2.ni == .direct || r.2.ni == .sealed)).map (·.1)

/-! ### Packets -/

/-- What the name cache of a site says of a vtile (R339, R342). -/
def Tile.hopTo (t : Tile) (site idx vt ganglog : Nat) : Hop :=
  if t.occ == some (idx, vt) then .site site
  else
    match t.names.find? fun e => e.idx == idx && e.vt == vt with
    | some e =>
      match e.state with
      | .present | .forwarded => .site e.site
      | .absent => .ring idx (vt / 2 ^ ganglog)
    | none => .unresolved

/-- The name-cache entry of a packet's destination is the one used last (R339). -/
def Tile.touch (t : Tile) (d : Dest) : Tile :=
  match d with
  | .rim => t
  | .vtile idx vt =>
    let mine (e : NameEntry) : Bool := e.idx == idx && e.vt == vt
    { t with names := t.names.filter (fun e => !mine e) ++ t.names.filter mine }

/-- The home stack of a request to the rim, by its virtual stripe (R106, R364). -/
def Packet.stack (p : Packet) : Nat :=
  match p.body with
  | .request _ ptr _ => ptrAddr ptr / 4096 % 48
  | _ => 0

/-- The homes of a request to the rim: the stacks of the stripes that it touches (R106), and 48 for the host port. -/
def Packet.homes (p : Packet) : List Nat :=
  match p.body with
  | .request op ptr _ =>
    if ptrSpace ptr == 0 then (pagesOf (op.reads (ptrAddr ptr) ++ op.writes (ptrAddr ptr))).map (· % 48) else [48]
  | _ => []

/-- Whether a request is one of a copy engine: those have numbers that no slot's accesses have. -/
def Packet.byEngine (p : Packet) : Bool := Nat.ble (2 ^ 64) p.id

/-- Whether packet q, sent earlier, must be performed before packet p: one source slot and a home in common for requests, one
sender and receiver vtile for messages and register writes, in one traffic class (R112), while replies and the requests of a copy
engine, between which R123 alone has edges, have no order; and for a
packet whose translation came from a walk, every earlier one of its class from its interface (R341); the trace records of a site leave
it in order (R404). -/
def Packet.precedes (q p : Packet) : Bool :=
  q.tc == p.tc &&
    ((p.unperformed && q.dst == p.dst && q.src.idx == p.src.idx && q.src.vt == p.src.vt
        && (if p.isRequest then q.src.slot == p.src.slot && !q.byEngine && !p.byEngine && (p.dst != .rim || q.homes.any p.homes.contains)
          else true))
      || ((p.walked || p.isTrace) && q.site == p.site))

/-- Sends a packet into the fabric from its site: the site's counter of its colour counts it until it is ejected
(R346). -/
def State.inject (s : State) (p : Packet) : State :=
  let t := s.tile p.site
  let c := p.colour % 16
  let k : Fin 16 := Fin.ofNat 16 c
  if p.counts then
    { s.setTile p.site { t.touch p.dst with colourCtr := t.colourCtr.set k (t.colourCtr[k] + 1) } with fabric := s.fabric ++ [p] }
  else { s with fabric := s.fabric ++ [p] }

/-- A packet from the current slot. -/
def State.packet (s : State) (id tc : Nat) (dst : Dest) (body : Body) : Packet :=
  let site := s.cur.site
  let t := s.tile site
  { src := s.origin s.cur, id, site, tc, colour := t.colour, dst
    hop := match dst with
      | .rim => .unresolved
      | .vtile idx vt => t.hopTo site idx vt (s.launch idx).pkt.ganglog
    body, ts := (s.tb).setWidth 16, seq := (s.slot s.cur).exchanges, pc := (s.slot s.cur).pc, cyc := s.cycle, walked := false, counts := true,
    sys := (s.slot s.cur).sys }

/-- Takes the next issue number of the slot. -/
def freshId : M Nat := do
  let sl ← getSlot
  putSlot { sl with nextId := sl.nextId + 1 }
  return sl.nextId

/-- Whether a packet stands in its interface before it is injected: its translation is still to be found, or an earlier one that
must be performed before it stands there (R112, R341). -/
def State.queued (s : State) (p : Packet) : Bool :=
  (p.hop == .unresolved && p.dst != .rim) || (s.tile p.site).outq.any fun q => q.precedes p

/-- A request leaves its tile, or stands in the interface until it may; none where the router has no room under its colour. -/
def State.sendOff (s : State) (p : Packet) : Option State :=
  let t := s.tile p.site
  if s.queued p then some (s.setTile p.site { t.touch p.dst with outq := t.outq ++ [p] })
  else if t.mayColour p.colour then some (s.inject p) else none

/-- Sends a request of the current slot to the home of its place, in TC0 (R113). A tile injects nothing under a colour
whose counter is full (R346). -/
def sendRequest (op : MemOp) (ptr : Word) (dst : Dest) (id : Nat) (wants : Bool) : M Unit := do
  let s ← get
  match s.sendOff (s.packet id 0 dst (.request op ptr wants)) with
  | some s' => set s'
  | none => throw (.wait .held)

/-! ### The guarded phase (R125, R126) -/

/-- Whether a range lies in the private window of the phase. -/
def GuardState.inWindow (g : GuardState) (off n : Nat) : Bool :=
  match g.window with
  | some (b, len) => Nat.ble b off && Nat.ble (off + n) (b + len)
  | none => false

/-- Bytes of a captured access: its entry and its data rounded up to 16 (R126). -/
def captureBytes (data : Nat) : Nat := 16 + (data + 15) / 16 * 16

/-- Appends a captured access to the guard buffer, or ends the phase where it does not fit (R126). -/
def capture (c : Captured) (bytes : Nat) : M Unit := do
  let t ← getTile
  let l ← getLaunch
  require (Nat.ble (t.guard.used + bytes) (l.pkt.guardsize * 128)) .overflow
  modTile fun t => { t with guard := { t.guard with caught := t.guard.caught ++ [c], used := t.guard.used + bytes } }

/-- Whether the current slot runs a stage of the phase: the routine of SYS mode does not. -/
def inPhase : M Bool := do
  let s ← get
  return !s.cur.isCore && !(s.slot s.cur).sys && (s.tile s.cur.site).guarded

/-- The fate of a write in the phase (R125): a private one is performed inside the window and faults outside; another is
captured unless its result is wanted, which faults. Answers whether it was captured. -/
def guardWrite (op : MemOp) (p : Word) (pl : Place) (n data : Nat) (wants : Bool) : M Bool := do
  let ph ← inPhase
  if !ph then return false
  else
    let t ← getTile
    match pl with
    | .priv off => do
      require (t.guard.inWindow off n) (.trap .guardWindow p)
      return false
    | .vtile vt _ => do
      require (!wants) (.trap .guardWindow p)
      let s ← get
      capture (.packets [s.packet 0 0 (.vtile t.name.1 vt) (.request op p false)]) (captureBytes data)
      return true
    | _ => do
      require (!wants) (.trap .guardWindow p)
      let s ← get
      capture (.packets [s.packet 0 0 .rim (.request op p false)]) (captureBytes data)
      return true

/-! ### Performing -/

/-- The lowest start and the length of a list of ranges. -/
def spanOf : List (Nat × Nat) → Nat × Nat
  | [] => (0, 0)
  | r :: rs =>
    let lo := rs.foldl (fun x q => min x q.1) r.1
    let hi := rs.foldl (fun x q => max x (q.1 + q.2)) (r.1 + r.2)
    (lo, hi - lo)

/-- Whether an access is an ASWAP or ACAS, whose order R386 leaves free. -/
def MemOp.isExchange : MemOp → Bool
  | .atomic .swap _ _ _ | .atomic .cas _ _ _ => true
  | _ => false

/-- Counts an exchange of the slot (R390). -/
def countExchange (op : MemOp) : M Unit :=
  if op.isExchange then modSlot fun sl => { sl with exchanges := sl.exchanges + 1 } else pure ()

/-- The turn of an exchange at the own banks under DET (R391). -/
def privExchange (op : MemOp) (off : Nat) : M Unit :=
  if op.isExchange then do
    let s ← get
    let o := s.origin s.cur
    match s.exchangeTurn o.idx o.vt off o.vt o.slot.val (s.slot s.cur).exchanges with
    | some s' => set s'
    | none => throw (.wait .held)
  else pure ()

/-- An action of the current agent's tile at its own banks, of a rank of R97. -/
def bankAction (rank : Nat) : M Unit := modify fun s => s.bankTurn s.cur.site rank

/-- An access of a rank at the own banks, ordered with the slot's vector register writes (R46, R111) and with the other actions of
its cycle there (R97). -/
def bankAccess (rank : Nat) (op : MemOp) (p : Word) (off : Nat) : M HomeResult := do
  awaitVregs
  bankAction rank
  privExchange op off
  countExchange op
  let t ← getTile
  match t.perform op off with
  | .waits => throw (.wait .held)
  | .ecc _ => throw (.trap .ecc p)
  | .ok t' r => do
    modTile fun _ => t'
    return r

/-- An access of the current slot through the private alias. -/
def privAccess (op : MemOp) (p : Word) (off : Nat) : M HomeResult := do
  let s ← get
  bankAccess s.cur.slotNo.val op p off

/-- An access of a core to its local memory (R307). -/
def localAccess (op : MemOp) (off : Nat) : M HomeResult := do
  let s ← get
  let c := s.core s.cur
  let (m, _, r) := op.onMem (fun x => x) (fun _ => 127) c.mem off
  set (s.setCore s.cur { c with mem := m })
  return r

/-- An access of a core to rim memory by physical address (R307): what a core stores is Amizhabo's, under the device key
(R367; log entry 40, DEDUCED). -/
def physAccess (op : MemOp) (p : Word) (pa : Nat) : M HomeResult := do
  let s ← get
  require (!hbmEccHit s.hbmEcc (fun x => x) (op.reads pa)) (.trap .ecc p)
  let (m, _, r) := op.onMem (fun x => x) (fun _ => 127) s.hbm pa
  set { s.sealedFor none ((op.writes pa).flatMap fun w => unitsIn w.1 w.2) with
    hbm := m, hbmEcc := hbmEccClear s.hbmEcc (fun x => x) (op.writes pa) }
  return r

/-- An access of the Collier to host memory, through the window of the physical function (R366). -/
def coreHostAccess (op : MemOp) (off : Nat) : M HomeResult := do
  let s ← get
  let (m, _, r) := op.onMem (fun x => x) (fun _ => 127) s.host off
  set { s with host := m }
  return r

/-- Sends a request, reserving the destination where its answer is wanted (R142). -/
def remoteAccess (op : MemOp) (p : Word) (dst : Dest) (land : Landing) (wants : Bool) : M Unit := do
  if wants then do
    let id ← reserve land 1
    sendRequest op p dst id true
    countExchange op
  else do
    let id ← freshId
    sendRequest op p dst id false
    countExchange op

/-- The launch index of the current slot's vtile. -/
def currentIdx : M Nat := do
  let t ← getTile
  return t.name.1

/-- Performs an access at its place, or sends its request: nothing comes back at once from another home. An access that
has no valid translation at the rim faults at the instruction, which issues only once the rim has accepted it (R63,
R286). -/
def access (op : MemOp) (p : Word) (pl : Place) (land : Landing) (wants : Bool) : M (Option HomeResult) := do
  let s ← get
  match pl with
  | .priv off => do
    let r ← privAccess op p off
    return some r
  | .coreLocal off => do
    let r ← localAccess op off
    return some r
  | .phys pa => do
    let r ← physAccess op p pa
    return some r
  | .vtile vt _ => do
    let idx ← currentIdx
    remoteAccess op p (.vtile idx vt) land wants
    return none
  | .hbm va => do
    let l ← getLaunch
    require (s.translates l.asid (op.reads va ++ op.writes va) (op.writes va)) (.trap .hbm p)
    remoteAccess op p .rim land wants
    return none
  | .aperture _ off =>
    if s.cur.isCore then do
      let r ← coreHostAccess op off
      return some r
    else do
      let l ← getLaunch
      require (s.hostInside l.part (op.reads off ++ op.writes off)) (.trap .hbm p)
      remoteAccess op p .rim land wants
      return none

/-- A load or atomic with a scalar destination: a value that comes back at once is delivered, another when its reply
arrives. -/
def accessTo (op : MemOp) (p : Word) (pl : Place) (d : Dst) (wants : Bool) : M Flow := do
  let r ← access op p pl (landingOf d) wants
  match r with
  | some r => do
    if wants then deliver d (BitVec.ofNat 64 r.val)
    return .seq
  | none => return .seq

end Sys2Proof.Machine
end

