-- ==== Sys2Proof/Machine/Vector.lean ====
section
/-! DEFINITION. Vector instructions of majors 0x22 to 0x34 but the transcendentals (spec/07_isa_vector.md R178 to R201,
spec/03_numbers.md R90): lanes are fields of a little-endian bit string (R65). -/

namespace Sys2Proof.Machine

/-! ### Lanes -/

/-- Lanes i, i + 1, … of w bits. -/
def packLanes (w : Nat) (f : Nat → Nat) : Nat → Nat → Nat
  | 0, _ => 0
  | n + 1, i => f i % 2 ^ w + packLanes w f n (i + 1) * 2 ^ w

/-- Lanes with flags, ORed. -/
def packFlags (w : Nat) (f : Nat → Nat × BitVec 6) : Nat → Nat → Nat × BitVec 6
  | 0, _ => (0, 0)
  | n + 1, i =>
    let x := f i
    let r := packFlags w f n (i + 1)
    (x.1 % 2 ^ w + r.1 * 2 ^ w, x.2 ||| r.2)

/-- Elements of w bits, lowest first. -/
def packList (w : Nat) (xs : List Nat) : Nat := xs.foldr (fun x acc => x % 2 ^ w + acc * 2 ^ w) 0

/-- The sum over n lanes from lane i on. -/
def countLanes (f : Nat → Bool) (n : Nat) : Nat := (List.range n).foldl (fun c i => c + (f i).toNat) 0

/-- What a vector instruction knows beside its operands: format, lane count, element width, active lanes, V = min(VL, L),
rounding with SR acting as RNE, and FTZ. -/
structure VEnv where
  fmt : Nat
  lanes : Nat
  width : Nat
  active : MaskWord
  v : Nat
  rounding : Rounding

/-- RND MODE with SR acting as RNE, and FTZ (R72, R74). -/
def Slot.vecRounding (sl : Slot) : Rounding :=
  { mode := if sl.mode == 4 then 0 else sl.mode, rnd := 0, ftz := sl.ftz }

/-- The environment of a slot under a mask. -/
def Slot.venv (sl : Slot) (m : MaskWord) : VEnv :=
  let l := fmtLanes sl.fmt
  { fmt := sl.fmt, lanes := l, width := fmtWidth sl.fmt, active := activeLanes sl.vl l m, v := min sl.vl l,
    rounding := sl.vecRounding }

/-- Whether a lane is active. -/
def VEnv.on (e : VEnv) (i : Nat) : Bool := e.active.getLsbD i
/-- Lane i of a vector. -/
def VEnv.lane (e : VEnv) (x i : Nat) : Nat := elemBits x e.width i

/-! ### Formats, streams, the vector unit -/

/-- INTF of R179. -/
def fmtInt (c : Nat) : Bool := Nat.ble c 3
/-- FLTF. -/
def fmtFloat (c : Nat) : Bool := isFloat c
/-- RAWF. -/
def fmtRaw (c : Nat) : Bool := Nat.ble c 8
/-- ANYF. -/
def fmtAny (c : Nat) : Bool := Nat.ble c 11

/-- The format of VT must be one of a set (R58, R179). -/
def checkFmt (ok : Nat → Bool) : M Unit := do
  let sl ← getSlot
  require (ok sl.fmt && Nat.ble sl.fmt 11) (.word .illegalOperand)

/-- Whether a vector source names a stream. -/
def VSrc.isStream : VSrc → Bool
  | .vst _ => true
  | _ => false

/-- The latency of a class, or what a variable-latency result has when every stream element had landed (R178). -/
def vlat (lam : Nat) (srcs : List VSrc) : Nat := if srcs.any VSrc.isStream then 1 else lam

/-- Waits for the tile's vector unit, and occupies it for 4 × g cycles (R182). -/
def vectorUnit (g : Nat) : M Unit := do
  let t ← getTile
  modify fun s => s.advance s.cur t.vfree
  modify fun s => s.setTile s.cur.site { s.tile s.cur.site with vfree := s.cycle + 4 * g }

/-- A broadcast source of a KN format faults (R181). -/
def checkBcast (b : VSrc) : M Unit := do
  let sl ← getSlot
  match b with
  | .bcast _ => require (Nat.ble sl.fmt 8) (.word .illegalOperand)
  | _ => pure ()

/-! ### Shapes of form V -/

/-- Two vector sources to a vector. Of several numbers beyond VREGS the fault reports the first of A, B and D (log entry 68,
DESIGN CHOICE). -/
def vop2 (lam : Nat) (ok : Nat → Bool) (d : VDst) (a b : VSrc) (m : MaskNo)
    (f : VEnv → Nat → Nat → Nat → Nat × BitVec 6) : M Flow := do
  checkVSrc false a
  checkVSrc true b
  checkVDst d
  windowVSrc a
  windowVSrc b
  windowVDst d
  checkFmt ok
  awaitVSrc a
  awaitVSrc b
  awaitMask m
  vectorUnit 1
  let x ← readVSrc a
  let y ← readVSrc b
  let k ← readMask m
  let sl ← getSlot
  let e := sl.venv k
  let r := packFlags e.width (f e x.1.toNat y.1.toNat) e.lanes 0
  writeVDst (vlat lam [a, b]) r.2 d (BitVec.ofNat 4096 r.1) x.2
  return .seq

/-- A lanewise operation on active lanes, inactive lanes zero (R48). -/
def lanewise (f : VEnv → Nat → Nat → Nat × BitVec 6) (e : VEnv) (x y i : Nat) : Nat × BitVec 6 :=
  if e.on i then f e (e.lane x i) (e.lane y i) else (0, 0)

/-- An integer lanewise operation. -/
def vint2 (ok : Nat → Bool) (d : VDst) (a b : VSrc) (m : MaskNo) (f : Nat → Nat → Nat → Nat) : M Flow :=
  vop2 5 ok d a b m (lanewise fun e x y => (f e.width x y, 0))

/-- A floating-point lanewise operation. -/
def vfp2 (d : VDst) (a b : VSrc) (m : MaskNo) (f : Nat → Rounding → Nat → Nat → Nat × BitVec 6) : M Flow :=
  vop2 6 fmtFloat d a b m (lanewise fun e x y => f e.fmt e.rounding x y)

/-- One vector source to a vector. -/
def vop1 (lam : Nat) (ok : Nat → Bool) (d : VDst) (a : VSrc) (m : MaskNo)
    (f : VEnv → Nat → Nat × BitVec 6) : M Flow := do
  checkVSrc false a
  checkVDst d
  windowVSrc a
  windowVDst d
  checkFmt ok
  awaitVSrc a
  awaitMask m
  vectorUnit 1
  let x ← readVSrc a
  let k ← readMask m
  let sl ← getSlot
  let e := sl.venv k
  let r := f e x.1.toNat
  writeVDst (vlat lam [a]) r.2 d (BitVec.ofNat 4096 r.1) x.2
  return .seq

/-- A lanewise operation on one source. -/
def lanewise1 (f : VEnv → Nat → Nat × BitVec 6) (e : VEnv) (x : Nat) : Nat × BitVec 6 :=
  packFlags e.width (fun i => if e.on i then f e (e.lane x i) else (0, 0)) e.lanes 0

/-- A comparison: the whole mask is written (R48, R187). -/
def vcmp (lam : Nat) (ok : Nat → Bool) (d : MaskNo) (a b : VSrc) (m : MaskNo)
    (f : VEnv → Nat → Nat → Bool × BitVec 6) : M Flow := do
  checkMaskDst d
  checkVSrc false a
  checkVSrc true b
  windowVSrc a
  windowVSrc b
  checkFmt ok
  awaitVSrc a
  awaitVSrc b
  awaitMask m
  vectorUnit 1
  let x ← readVSrc a
  let y ← readVSrc b
  let k ← readMask m
  let sl ← getSlot
  let e := sl.venv k
  let r := packFlags 1 (fun i =>
    if e.on i then
      let c := f e (e.lane x.1.toNat i) (e.lane y.1.toNat i)
      (c.1.toNat, c.2)
    else (0, 0)) e.lanes 0
  writeMask (vlat lam [a, b]) r.2 d (BitVec.ofNat 1024 r.1)
  return .seq

/-- One vector source to a scalar destination. -/
def vred (lam : Nat) (ok : Nat → Bool) (d : Dst) (a : VSrc) (m : MaskNo) (f : VEnv → Nat → Nat × BitVec 6) :
    M Flow := do
  checkDst d
  checkVSrc false a
  windowVSrc a
  checkFmt ok
  awaitVSrc a
  awaitMask m
  vectorUnit 1
  let x ← readVSrc a
  let k ← readMask m
  let sl ← getSlot
  let r := f (sl.venv k) x.1.toNat
  writeDst (vlat lam [a]) r.2 d (BitVec.ofNat 64 r.1)
  return .seq

/-- A vector and a scalar source to a vector. -/
def vopS (ok : Nat → Bool) (d : VDst) (a : VSrc) (b : Src) (m : MaskNo) (f : VEnv → Nat → Word → Nat → Nat) :
    M Flow := do
  checkVSrc false a
  checkVDst d
  windowVSrc a
  windowVDst d
  checkFmt ok
  awaitVSrc a
  awaitSrc b
  awaitMask m
  vectorUnit 1
  let x ← readVSrc a
  let y ← readSrc b
  let k ← readMask m
  let sl ← getSlot
  let e := sl.venv k
  writeVDst (vlat (slat 5 [b]) [a]) 0 d (BitVec.ofNat 4096 (packLanes e.width (f e x.1.toNat y) e.lanes 0)) x.2
  return .seq

/-! ### Integer lanewise (R183, R184) -/

/-- VADD. -/
def execVadd (stl : Stl) (d : VDst) (a b : VSrc) (m : MaskNo) (s : State) : Result :=
  issue (opV 0x22 0 stl d.code a.code b.code m) (vint2 fmtInt d a b m fun _ x y => x + y) s
/-- VSUB. -/
def execVsub (stl : Stl) (d : VDst) (a b : VSrc) (m : MaskNo) (s : State) : Result :=
  issue (opV 0x22 1 stl d.code a.code b.code m) (vint2 fmtInt d a b m fun w x y => x + (2 ^ w - y)) s
/-- VMUL. -/
def execVmul (stl : Stl) (d : VDst) (a b : VSrc) (m : MaskNo) (s : State) : Result :=
  issue (opV 0x22 2 stl d.code a.code b.code m) (vint2 fmtInt d a b m fun _ x y => x * y) s
/-- VMULH: the high half of the signed product. -/
def execVmulh (stl : Stl) (d : VDst) (a b : VSrc) (m : MaskNo) (s : State) : Result :=
  issue (opV 0x22 3 stl d.code a.code b.code m)
    (vint2 fmtInt d a b m fun w x y => ofSigned (2 * w) (toSigned w x * toSigned w y) / 2 ^ w) s

/-- VAND. -/
def execVand (stl : Stl) (d : VDst) (a b : VSrc) (m : MaskNo) (s : State) : Result :=
  issue (opV 0x23 0 stl d.code a.code b.code m) (vint2 fmtRaw d a b m fun _ x y => x &&& y) s
/-- VOR. -/
def execVor (stl : Stl) (d : VDst) (a b : VSrc) (m : MaskNo) (s : State) : Result :=
  issue (opV 0x23 1 stl d.code a.code b.code m) (vint2 fmtRaw d a b m fun _ x y => x ||| y) s
/-- VXOR. -/
def execVxor (stl : Stl) (d : VDst) (a b : VSrc) (m : MaskNo) (s : State) : Result :=
  issue (opV 0x23 2 stl d.code a.code b.code m) (vint2 fmtRaw d a b m fun _ x y => x ^^^ y) s
/-- VANDN. -/
def execVandn (stl : Stl) (d : VDst) (a b : VSrc) (m : MaskNo) (s : State) : Result :=
  issue (opV 0x23 3 stl d.code a.code b.code m)
    (vint2 fmtRaw d a b m fun w x y => x &&& (2 ^ w - 1 - y)) s

/-- VSHL. -/
def execVshl (stl : Stl) (d : VDst) (a b : VSrc) (m : MaskNo) (s : State) : Result :=
  issue (opV 0x24 0 stl d.code a.code b.code m)
    (vint2 fmtInt d a b m fun w x y => if Nat.ble w y then 0 else x * 2 ^ y) s
/-- VSHR. -/
def execVshr (stl : Stl) (d : VDst) (a b : VSrc) (m : MaskNo) (s : State) : Result :=
  issue (opV 0x24 1 stl d.code a.code b.code m)
    (vint2 fmtInt d a b m fun w x y => if Nat.ble w y then 0 else x / 2 ^ y) s
/-- VSHRA. -/
def execVshra (stl : Stl) (d : VDst) (a b : VSrc) (m : MaskNo) (s : State) : Result :=
  issue (opV 0x24 2 stl d.code a.code b.code m)
    (vint2 fmtInt d a b m fun w x y => ofSigned w (toSigned w x / ((2 ^ min w y : Nat) : Int))) s
/-- VABSD. -/
def execVabsd (stl : Stl) (d : VDst) (a b : VSrc) (m : MaskNo) (s : State) : Result :=
  issue (opV 0x24 3 stl d.code a.code b.code m)
    (vint2 fmtInt d a b m fun w x y => (toSigned w x - toSigned w y).natAbs) s

/-- VMIN. -/
def execVmin (stl : Stl) (d : VDst) (a b : VSrc) (m : MaskNo) (s : State) : Result :=
  issue (opV 0x25 0 stl d.code a.code b.code m)
    (vint2 fmtInt d a b m fun w x y => if toSigned w y < toSigned w x then y else x) s
/-- VMAX. -/
def execVmax (stl : Stl) (d : VDst) (a b : VSrc) (m : MaskNo) (s : State) : Result :=
  issue (opV 0x25 1 stl d.code a.code b.code m)
    (vint2 fmtInt d a b m fun w x y => if toSigned w x < toSigned w y then y else x) s
/-- VMINU. -/
def execVminu (stl : Stl) (d : VDst) (a b : VSrc) (m : MaskNo) (s : State) : Result :=
  issue (opV 0x25 2 stl d.code a.code b.code m) (vint2 fmtInt d a b m fun _ x y => min x y) s
/-- VMAXU. -/
def execVmaxu (stl : Stl) (d : VDst) (a b : VSrc) (m : MaskNo) (s : State) : Result :=
  issue (opV 0x25 3 stl d.code a.code b.code m) (vint2 fmtInt d a b m fun _ x y => max x y) s

/-! ### Floating-point lanewise (R185, R186) -/

/-- VFADD. -/
def execVfadd (stl : Stl) (d : VDst) (a b : VSrc) (m : MaskNo) (s : State) : Result :=
  issue (opV 0x26 0 stl d.code a.code b.code m) (vfp2 d a b m floatAdd) s
/-- VFSUB. -/
def execVfsub (stl : Stl) (d : VDst) (a b : VSrc) (m : MaskNo) (s : State) : Result :=
  issue (opV 0x26 1 stl d.code a.code b.code m) (vfp2 d a b m floatSub) s
/-- VFMUL. -/
def execVfmul (stl : Stl) (d : VDst) (a b : VSrc) (m : MaskNo) (s : State) : Result :=
  issue (opV 0x26 2 stl d.code a.code b.code m) (vfp2 d a b m floatMul) s
/-- VFDIV. -/
def execVfdiv (stl : Stl) (d : VDst) (a b : VSrc) (m : MaskNo) (s : State) : Result :=
  issue (opV 0x26 3 stl d.code a.code b.code m) (vfp2 d a b m floatDiv) s
/-- VFMIN. -/
def execVfmin (stl : Stl) (d : VDst) (a b : VSrc) (m : MaskNo) (s : State) : Result :=
  issue (opV 0x27 0 stl d.code a.code b.code m) (vfp2 d a b m fun c R x y => floatMinMax c R false x y) s
/-- VFMAX. -/
def execVfmax (stl : Stl) (d : VDst) (a b : VSrc) (m : MaskNo) (s : State) : Result :=
  issue (opV 0x27 1 stl d.code a.code b.code m) (vfp2 d a b m fun c R x y => floatMinMax c R true x y) s
/-- VFABS: the pattern with its sign bit cleared. -/
def execVfabs (stl : Stl) (d : VDst) (a : VSrc) (m : MaskNo) (s : State) : Result :=
  issue (opV 0x27 2 stl d.code a.code 0 m)
    (vop1 6 fmtFloat d a m (lanewise1 fun e x => (x % signBit e.fmt, 0))) s
/-- VFNEG: the pattern with its sign bit inverted. -/
def execVfneg (stl : Stl) (d : VDst) (a : VSrc) (m : MaskNo) (s : State) : Result :=
  issue (opV 0x27 3 stl d.code a.code 0 m)
    (vop1 6 fmtFloat d a m (lanewise1 fun e x => (x + signBit e.fmt, 0))) s

/-- A fused lanewise operation; C names a vector queue entry (R186). -/
def vfma (d : VDst) (a b : VSrc) (c : BitVec 2) (np na : Bool) : M Flow := do
  checkVSrc false a
  checkVSrc true b
  checkVDst d
  windowVSrc a
  windowVSrc b
  windowVDst d
  checkFmt fmtFloat
  awaitVSrc a
  awaitVSrc b
  awaitVSrc (.vq (Fin.ofNat 4 c.toNat))
  vectorUnit 1
  let x ← readVSrc a
  let y ← readVSrc b
  let z ← readVSrc (.vq (Fin.ofNat 4 c.toNat))
  let sl ← getSlot
  let e := sl.venv (BitVec.allOnes 1024)
  let r := packFlags e.width (fun i =>
    if e.on i then
      floatFma e.fmt e.rounding np na (e.lane x.1.toNat i) (e.lane y.1.toNat i) (e.lane z.1.toNat i)
    else (0, 0)) e.lanes 0
  writeVDst (vlat 6 [a, b]) r.2 d (BitVec.ofNat 4096 r.1) x.2
  return .seq

/-- VFMA. -/
def execVfma (stl : Stl) (d : VDst) (a b : VSrc) (c : BitVec 2) (s : State) : Result :=
  issue (opF 0x28 0 stl d.code a.code b.code c) (vfma d a b c false false) s
/-- VFMS. -/
def execVfms (stl : Stl) (d : VDst) (a b : VSrc) (c : BitVec 2) (s : State) : Result :=
  issue (opF 0x28 1 stl d.code a.code b.code c) (vfma d a b c false true) s
/-- VFNMA. -/
def execVfnma (stl : Stl) (d : VDst) (a b : VSrc) (c : BitVec 2) (s : State) : Result :=
  issue (opF 0x28 2 stl d.code a.code b.code c) (vfma d a b c true true) s
/-- VFNMS. -/
def execVfnms (stl : Stl) (d : VDst) (a b : VSrc) (c : BitVec 2) (s : State) : Result :=
  issue (opF 0x28 3 stl d.code a.code b.code c) (vfma d a b c true false) s

/-! ### Compares (R187) -/

/-- An integer compare. -/
def vicmp (d : MaskNo) (a b : VSrc) (m : MaskNo) (f : Nat → Nat → Nat → Bool) : M Flow :=
  vcmp 5 fmtInt d a b m fun e x y => (f e.width x y, 0)
/-- A floating-point compare. -/
def vfcmp (d : MaskNo) (a b : VSrc) (m : MaskNo) (k : FCmp) : M Flow :=
  vcmp 6 fmtFloat d a b m fun e x y => floatCmp e.fmt e.rounding.ftz k x y

/-- VCMPEQ. -/
def execVcmpeq (stl : Stl) (d : MaskNo) (a b : VSrc) (m : MaskNo) (s : State) : Result :=
  issue (opV 0x29 0 stl d.toNat a.code b.code m) (vicmp d a b m fun _ x y => x == y) s
/-- VCMPLT. -/
def execVcmplt (stl : Stl) (d : MaskNo) (a b : VSrc) (m : MaskNo) (s : State) : Result :=
  issue (opV 0x29 1 stl d.toNat a.code b.code m) (vicmp d a b m fun w x y => decide (toSigned w x < toSigned w y)) s
/-- VCMPLTU. -/
def execVcmpltu (stl : Stl) (d : MaskNo) (a b : VSrc) (m : MaskNo) (s : State) : Result :=
  issue (opV 0x29 2 stl d.toNat a.code b.code m) (vicmp d a b m fun _ x y => Nat.blt x y) s
/-- VCMPLE. -/
def execVcmple (stl : Stl) (d : MaskNo) (a b : VSrc) (m : MaskNo) (s : State) : Result :=
  issue (opV 0x29 3 stl d.toNat a.code b.code m) (vicmp d a b m fun w x y => decide (toSigned w x ≤ toSigned w y)) s
/-- VFCMPEQ. -/
def execVfcmpeq (stl : Stl) (d : MaskNo) (a b : VSrc) (m : MaskNo) (s : State) : Result :=
  issue (opV 0x2A 0 stl d.toNat a.code b.code m) (vfcmp d a b m .eq) s
/-- VFCMPLT. -/
def execVfcmplt (stl : Stl) (d : MaskNo) (a b : VSrc) (m : MaskNo) (s : State) : Result :=
  issue (opV 0x2A 1 stl d.toNat a.code b.code m) (vfcmp d a b m .lt) s
/-- VFCMPLE. -/
def execVfcmple (stl : Stl) (d : MaskNo) (a b : VSrc) (m : MaskNo) (s : State) : Result :=
  issue (opV 0x2A 2 stl d.toNat a.code b.code m) (vfcmp d a b m .le) s
/-- VFCMPUN. -/
def execVfcmpun (stl : Stl) (d : MaskNo) (a b : VSrc) (m : MaskNo) (s : State) : Result :=
  issue (opV 0x2A 3 stl d.toNat a.code b.code m) (vfcmp d a b m .un) s

/-! ### Select, broadcast, extract, insert (R188) -/

/-- Lane j of a source where it is available, else zero. -/
def VEnv.avail (e : VEnv) (x j : Nat) : Nat := if Nat.blt j e.lanes && e.on j then e.lane x j else 0

/-- VSEL: the mask selects and does not govern. -/
def execVsel (stl : Stl) (d : VDst) (a b : VSrc) (m : MaskNo) (s : State) : Result :=
  issue (opV 0x2B 0 stl d.code a.code b.code m) (vop2 5 fmtRaw d a b m fun e x y i =>
    if Nat.blt i e.v then (if e.on i then e.lane x i else e.lane y i, 0) else (0, 0)) s

/-- VBCAST. -/
def execVbcast (stl : Stl) (d : VDst) (a : VSrc) (b : Src) (m : MaskNo) (s : State) : Result :=
  issue (opV 0x2B 1 stl d.code a.code b.code m) (vopS fmtRaw d a b m fun e x y i =>
    if e.on i then e.avail x y.toNat else 0) s

/-- VEXTR: integer lanes are sign-extended. -/
def execVextr (stl : Stl) (d : Dst) (a : VSrc) (b : Src) (m : MaskNo) (s : State) : Result :=
  issue (opV 0x2B 2 stl d.code a.code b.code m) (do
    checkDst d
    checkVSrc false a
    windowVSrc a
    checkFmt fmtRaw
    awaitVSrc a
    awaitSrc b
    awaitMask m
    vectorUnit 1
    let x ← readVSrc a
    let y ← readSrc b
    let k ← readMask m
    let sl ← getSlot
    let e := sl.venv k
    let v := e.avail x.1.toNat y.toNat
    writeDst (vlat (slat 5 [b]) [a]) 0 d
      (BitVec.ofNat 64 (if isInt e.fmt then ofSigned 64 (toSigned e.width v) else v))
    return .seq) s

/-- VINS: lanes that are not active keep the lanes of A. -/
def execVins (stl : Stl) (d : VDst) (a : VSrc) (b : Src) (m : MaskNo) (s : State) : Result :=
  issue (opV 0x2B 3 stl d.code a.code b.code m) (vopS fmtRaw d a b m fun e x y i =>
    if e.on i then y.toNat else e.lane x i) s

/-! ### Permutes (R189) -/

/-- VPERM. -/
def execVperm (stl : Stl) (d : VDst) (a b : VSrc) (m : MaskNo) (s : State) : Result :=
  issue (opV 0x2C 0 stl d.code a.code b.code m) (vop2 5 fmtRaw d a b m fun e x y i =>
    if e.on i then (e.avail x (e.lane y i), 0) else (0, 0)) s

/-- VROT. -/
def execVrot (stl : Stl) (d : VDst) (a : VSrc) (b : Src) (m : MaskNo) (s : State) : Result :=
  issue (opV 0x2C 1 stl d.code a.code b.code m) (vopS fmtRaw d a b m fun e x y i =>
    if e.on i then e.avail x ((i + y.toNat % e.lanes) % e.lanes) else 0) s

/-- VCOMP: the available lanes, packed. -/
def execVcomp (stl : Stl) (d : VDst) (a : VSrc) (m : MaskNo) (s : State) : Result :=
  issue (opV 0x2C 2 stl d.code a.code 0 m) (vop1 5 fmtRaw d a m fun e x =>
    (packList e.width (((List.range e.lanes).filter e.on).map (e.lane x)), 0)) s

/-- The lanes of VEXPN from lane i on, c active lanes standing below. -/
def expandLanes (e : VEnv) (x : Nat) : Nat → Nat → Nat → Nat
  | 0, _, _ => 0
  | n + 1, i, c =>
    if e.on i then e.lane x c + expandLanes e x n (i + 1) (c + 1) * 2 ^ e.width
    else expandLanes e x n (i + 1) c * 2 ^ e.width

/-- VEXPN. -/
def execVexpn (stl : Stl) (d : VDst) (a : VSrc) (m : MaskNo) (s : State) : Result :=
  issue (opV 0x2C 3 stl d.code a.code 0 m) (vop1 5 fmtRaw d a m fun e x => (expandLanes e x e.lanes 0 0, 0)) s

/-! ### Reductions (R190, R191, R196) -/

/-- The active lanes of a vector, ascending. -/
def VEnv.actives (e : VEnv) (x : Nat) : List Nat := ((List.range e.lanes).filter e.on).map (e.lane x)

/-- VREDADD. -/
def execVredadd (stl : Stl) (d : Dst) (a : VSrc) (m : MaskNo) (s : State) : Result :=
  issue (opV 0x2D 0 stl d.code a.code 0 m) (vred 8 fmtInt d a m fun e x =>
    (ofSigned 64 ((e.actives x).foldl (fun acc v => acc + toSigned e.width v) 0), 0)) s

/-- A pattern of a floating-point format widened exactly to FP32, flushed under FTZ when it is FP32; NV for a signalling
NaN. -/
def widenLane (e : VEnv) (v : Nat) : Nat × BitVec 6 :=
  if e.fmt == 4 then (flushIn e.rounding.ftz 4 v, flagIf (floatVal 4 v).snan fNV)
  else roundFloat 4 rne (floatVal e.fmt v)

/-- An FP32 result under FTZ: a tiny one is flushed to zero of its sign with UF and NX (R74). -/
def flushOut (ftz : Bool) (r : Nat × BitVec 6) : Nat × BitVec 6 :=
  if ftz && r.1 / 2 ^ 23 % 256 == 0 && r.1 % 2 ^ 31 != 0 then (r.1 / 2 ^ 31 % 2 * 2 ^ 31, r.2 ||| fUF ||| fNX) else r

/-- VREDMAX and VREDMIN on floating-point lanes (R74, R190). -/
def redFloat (wantMax : Bool) (e : VEnv) (x : Nat) : Nat × BitVec 6 :=
  let xs := (e.actives x).map (widenLane e)
  let fl := xs.foldl (fun acc v => acc ||| v.2) 0
  let ys := (xs.map Prod.fst).filter fun v => !(floatVal 4 v).isNaN
  match xs, ys with
  | [], _ => (if wantMax then 0xFF800000 else 0x7F800000, 0)
  | _, [] => (canonicalNaN 4, fl)
  | _, y :: rest =>
    flushOut e.rounding.ftz (rest.foldl (fun acc v => (floatMinMax 4 rne wantMax acc v).1) y, fl)

/-- VREDMAX and VREDMIN. -/
def redMinMax (wantMax : Bool) (e : VEnv) (x : Nat) : Nat × BitVec 6 :=
  if isFloat e.fmt then redFloat wantMax e x
  else
    let lo : Int := -2 ^ (e.width - 1)
    let hi : Int := 2 ^ (e.width - 1) - 1
    (ofSigned 64 ((e.actives x).foldl (fun acc v =>
      let i := toSigned e.width v
      if wantMax then max acc i else min acc i) (if wantMax then lo else hi)), 0)

/-- VREDMAX. -/
def execVredmax (stl : Stl) (d : Dst) (a : VSrc) (m : MaskNo) (s : State) : Result :=
  issue (opV 0x2D 1 stl d.code a.code 0 m) (vred 8 fmtRaw d a m (redMinMax true)) s
/-- VREDMIN. -/
def execVredmin (stl : Stl) (d : Dst) (a : VSrc) (m : MaskNo) (s : State) : Result :=
  issue (opV 0x2D 2 stl d.code a.code 0 m) (vred 8 fmtRaw d a m (redMinMax false)) s

/-- One level of the pairwise tree. -/
def pairSums (R : Rounding) : List Nat → List Nat × BitVec 6
  | x :: y :: rest =>
    let t := floatAdd 4 R x y
    let r := pairSums R rest
    (t.1 :: r.1, t.2 ||| r.2)
  | xs => (xs, 0)

/-- The pairwise tree, level by level. -/
def treeSum (R : Rounding) : Nat → List Nat → Nat × BitVec 6
  | 0, xs => (xs.headD 0, 0)
  | fuel + 1, xs =>
    match xs with
    | [] => (0, 0)
    | [x] => (x, 0)
    | xs =>
      let l := pairSums R xs
      let r := treeSum R fuel l.1
      (r.1, l.2 ||| r.2)

/-- VFREDADD: every lane widened, −0 in inactive lanes, summed in the tree of R191. -/
def redTree (e : VEnv) (x : Nat) : Nat × BitVec 6 :=
  let xs := (List.range e.lanes).map fun i => if e.on i then widenLane e (e.lane x i) else (0x80000000, 0)
  let r := treeSum { rne with ftz := e.fmt == 4 && e.rounding.ftz } 11 (xs.map Prod.fst)
  (r.1, xs.foldl (fun acc v => acc ||| v.2) r.2)

/-- VFREDADD. -/
def execVfredadd (stl : Stl) (d : Dst) (a : VSrc) (m : MaskNo) (s : State) : Result :=
  issue (opV 0x2D 3 stl d.code a.code 0 m) (vred 8 fmtFloat d a m redTree) s

/-- The unsigned maximum of bits [30:0] of the active lanes widened to FP32, a NaN of any format to 0x7FC00000 (R78, R196).
An FP32 subnormal lane is flushed at the input under FTZ, without a flag (R74); the result is not, since R196 raises no
flag (log entry 42, DEDUCED). -/
def absMaxOf (e : VEnv) (x : Nat) : Nat :=
  (e.actives x).foldl (fun acc v =>
    max acc ((roundFloat 4 rne (floatVal e.fmt (flushIn e.rounding.ftz e.fmt v))).1 % 2 ^ 31)) 0

/-- VAMAX, V form. -/
def execVamax (stl : Stl) (d : Dst) (a : VSrc) (m : MaskNo) (s : State) : Result :=
  issue (opV 0x31 0 stl d.code a.code 0 m) (vred 8 fmtFloat d a m fun e x => (absMaxOf e x, 0)) s

/-! ### Conversions (R192 to R194) -/

/-- The key of an instruction that rounds stochastically, which moves SRSEED on (R75). -/
def takeKey (sr : Bool) : M Word := do
  let sl ← getSlot
  if sr && sl.mode == 4 then do
    putSlot { sl with srseed := sl.srseed + BitVec.ofNat 64 srStep }
    return sl.srseed
  else return sl.srseed

/-- The vtile number that the generator of R75 takes. -/
def currentVt : M Nat := do
  let t ← getTile
  return t.name.2

/-- The rounding of element i of a conversion under a key. -/
def Slot.convRound (sl : Slot) (key : Word) (slot vtn : Nat) : Nat → Rounding := roundingAt sl.rnd key slot vtn

/-- A conversion needs a legal block length on its KN side (R70). -/
def checkBlock (c blk : Nat) : M Unit := require (knLegal c blk) (.word .illegalOperand)

/-- VCVT (R192). -/
def execVcvt (stl : Stl) (d : VDst) (a : VSrc) (m : MaskNo) (s : State) : Result :=
  issue (opV 0x2E 0 stl d.code a.code 0 m) (do
    checkVSrc false a
    checkVDst d
    windowVSrc a
    windowVDst d
    checkFmt fmtAny
    let sl ← getSlot
    require (Nat.ble sl.fmt2 8 && fmtWidth sl.fmt == fmtWidth sl.fmt2) (.word .illegalOperand)
    checkBlock sl.fmt sl.blk
    awaitVSrc a
    awaitMask m
    vectorUnit 1
    let x ← readVSrc a
    let k ← readMask m
    let key ← takeKey (narrowing sl.fmt sl.fmt2)
    let vtn ← currentVt
    let st ← get
    let e := sl.venv k
    let r := if sl.fmt == sl.fmt2 then
        (packLanes e.width (fun i => if e.on i then e.lane x.1.toNat i else 0) e.lanes 0, [], 0)
      else convertLanes sl.fmt sl.blk sl.fmt2 sl.blk2 e.lanes (sl.convRound key st.cur.slotNo.val vtn) sl.ftz
        (sidecarScale sl.fmt sl.blk x.2.toNat) e.on x.1.toNat
    writeVDst (vlat 6 [a]) r.2.2 d (BitVec.ofNat 4096 r.1) (if isKN sl.fmt then 0 else x.2)
    return .seq) s

/-- One lane of VROUND (R193). -/
def roundIntegral (c : Nat) (R : Rounding) (bits : Nat) : Nat × BitVec 6 :=
  let b := flushIn R.ftz c bits
  match floatVal c b with
  | .nan sg => (canonicalNaN c, flagIf sg fNV)
  | .inf _ => (b, 0)
  | .num n m e =>
    let q := roundUnits R n m e 0
    if q.2 then ((roundFloat c rne (.num n q.1 0)).1, fNX) else (b, 0)

/-- VROUND. -/
def execVround (stl : Stl) (d : VDst) (a : VSrc) (m : MaskNo) (s : State) : Result :=
  issue (opV 0x2E 3 stl d.code a.code 0 m)
    (vop1 6 fmtFloat d a m (lanewise1 fun e x => roundIntegral e.fmt e.rounding x)) s

/-- The parts of a group source (R194), part 0 first. -/
def groupSrc (a : VSrc) (g : Nat) : List VSrc :=
  match a with
  | .v k => (List.range g).map fun p => .v (Fin.ofNat 16 (k.val + p))
  | .vq k => (List.range g).map fun p => .vq (Fin.ofNat 4 (k.val + (g - 1 - p)))
  | a => List.replicate g a

/-- Legality of a group source of g vectors: a group of one is an ordinary source. -/
def checkGroupSrc (a : VSrc) (g : Nat) : M Unit :=
  match a with
  | .v k => require (Nat.ble (k.val + g) 16) (.word .illegalOperand)
  | .vq k => require (Nat.ble (k.val + g) 4) (.word .illegalOperand)
  | .vmsg => throw (.word .illegalOperand)
  | _ => pure ()

/-- The parts of a group destination, in the order in which they are written. -/
def groupDst (d : VDst) (g : Nat) : List VDst :=
  match d with
  | .v k => (List.range g).map fun p => .v (Fin.ofNat 16 (k.val + p))
  | d => List.replicate g d

/-- Legality of a group destination. -/
def checkGroupDst (d : VDst) (g : Nat) : M Unit :=
  match d with
  | .v k => require (Nat.ble (k.val + g) 16) (.word .illegalOperand)
  | _ => pure ()

/-- Does something for every member of a list, in order. -/
def forAll {α : Type} (f : α → M Unit) : List α → M Unit
  | [] => pure ()
  | x :: xs => do
    f x
    forAll f xs

/-- Reads the parts of a group, part 0 first. -/
def readGroup : List VSrc → M (List (Vec × Side))
  | [] => pure []
  | a :: rest => do
    let x ← readVSrc a
    let r ← readGroup rest
    return x :: r

/-- The bits of a group, part 0 lowest. -/
def groupBits (xs : List (Vec × Side)) : Nat := packList 4096 (xs.map fun x => x.1.toNat)

/-- The block exponent of block b of a group of KN vectors. -/
def groupScale (c blk : Nat) (xs : List (Vec × Side)) (b : Nat) : Nat :=
  let per := fmtLanes c / blockLen blk
  sidecarScale c blk (xs.getD (b / per) (0, 0)).2.toNat (b % per)

/-- Writes the parts of a group. -/
def writeGroup (lam : Nat) (fl : BitVec 6) : List VDst → Nat → M Unit
  | [], _ => pure ()
  | d :: rest, bits => do
    writeVDst lam fl d (BitVec.ofNat 4096 bits) 0
    writeGroup lam 0 rest (bits / 2 ^ 4096)

/-- VWIDEN (R194). -/
def execVwiden (stl : Stl) (d : VDst) (a : VSrc) (m : MaskNo) (s : State) : Result :=
  issue (opV 0x2E 1 stl d.code a.code 0 m) (do
    checkVSrc false a
    checkVDst d
    windowVSrc a
    windowVDst d
    checkFmt fmtAny
    let sl ← getSlot
    let g := fmtWidth sl.fmt2 / fmtWidth sl.fmt
    require (Nat.ble sl.fmt2 8 && (g == 2 || g == 4)) (.word .illegalOperand)
    checkBlock sl.fmt sl.blk
    checkGroupDst d g
    forAll windowVDst (groupDst d g)
    awaitVSrc a
    awaitMask m
    vectorUnit g
    let x ← readVSrc a
    let k ← readMask m
    let key ← takeKey (narrowing sl.fmt sl.fmt2)
    let vtn ← currentVt
    let st ← get
    let e := sl.venv k
    let r := convertLanes sl.fmt sl.blk sl.fmt2 sl.blk2 e.lanes (sl.convRound key st.cur.slotNo.val vtn) sl.ftz
      (sidecarScale sl.fmt sl.blk x.2.toNat) e.on x.1.toNat
    writeGroup (vlat 6 [a]) r.2.2 (groupDst d g) r.1
    return .seq) s

/-- VNARROW (R194). -/
def execVnarrow (stl : Stl) (d : VDst) (a : VSrc) (m : MaskNo) (s : State) : Result :=
  issue (opV 0x2E 2 stl d.code a.code 0 m) (do
    checkVSrc false a
    checkVDst d
    windowVSrc a
    windowVDst d
    checkFmt fmtAny
    let sl ← getSlot
    require (Nat.ble sl.fmt2 8) (.word .illegalOperand)
    let g := fmtWidth sl.fmt / fmtWidth sl.fmt2
    require (g == 2 || g == 4) (.word .illegalOperand)
    checkBlock sl.fmt sl.blk
    checkGroupSrc a g
    forAll windowVSrc (groupSrc a g)
    forAll awaitVSrc (groupSrc a g)
    awaitMask m
    vectorUnit g
    let xs ← readGroup (groupSrc a g)
    let k ← readMask m
    let key ← takeKey (narrowing sl.fmt sl.fmt2)
    let vtn ← currentVt
    let st ← get
    let n := fmtLanes sl.fmt2
    let r := convertLanes sl.fmt sl.blk sl.fmt2 sl.blk2 n (sl.convRound key st.cur.slotNo.val vtn) sl.ftz
      (groupScale sl.fmt sl.blk xs) (fun i => (activeLanes sl.vl n k).getLsbD i) (groupBits xs)
    writeVDst (vlat 6 [a]) r.2.2 d (BitVec.ofNat 4096 r.1) 0
    return .seq) s

/-- VQUANT (R197). -/
def execVquant (stl : Stl) (d : VDst) (a : VSrc) (m : MaskNo) (s : State) : Result :=
  issue (opV 0x31 1 stl d.code a.code 0 m) (do
    checkVSrc false a
    checkVDst d
    windowVSrc a
    windowVDst d
    checkFmt fmtFloat
    let sl ← getSlot
    require (isKN sl.fmt2 && Nat.ble (fmtWidth sl.fmt2) (fmtWidth sl.fmt)) (.word .illegalOperand)
    let g := fmtWidth sl.fmt / fmtWidth sl.fmt2
    require (g != 8 || match a with
      | .v _ => true
      | _ => false) (.word .illegalOperand)
    checkBlock sl.fmt2 sl.blk2
    checkGroupSrc a g
    forAll windowVSrc (groupSrc a g)
    forAll awaitVSrc (groupSrc a g)
    awaitMask m
    vectorUnit g
    let xs ← readGroup (groupSrc a g)
    let k ← readMask m
    let key ← takeKey true
    let vtn ← currentVt
    let st ← get
    let n := fmtLanes sl.fmt2
    let r := convertLanes sl.fmt sl.blk sl.fmt2 sl.blk2 n (sl.convRound key st.cur.slotNo.val vtn) sl.ftz
      (fun _ => 127) (fun i => (activeLanes sl.vl n k).getLsbD i) (groupBits xs)
    writeVDst (vlat 6 [a]) r.2.2 d (BitVec.ofNat 4096 r.1) (BitVec.ofNat 128 (sidecarOf sl.fmt2 sl.blk2 r.2.1))
    return .seq) s

/-! ### VSCALE, VDOT (R198, R199) -/

/-- A value times 2^k. -/
def Val.scale (v : Val) (k : Int) : Val :=
  match v with
  | .num n m e => .num n m (e + k)
  | v => v

/-- The block exponents of a vector scaled by 2^k, and whether one was clamped. -/
def scaleBlocks (c blk : Nat) (side : Nat) (k : Int) : Nat × Bool :=
  let n := fmtLanes c / blockLen blk
  let es := (List.range n).map fun b =>
    let E := sidecarScale c blk side b
    if E == 255 then (255, false)
    else
      let x := clampInt 0 254 ((E : Int) + k)
      (x.toNat, x != (E : Int) + k)
  (sidecarOf c blk (es.map Prod.fst), es.any Prod.snd)

/-- VSCALE. -/
def execVscale (stl : Stl) (d : VDst) (a : VSrc) (b : Src) (m : MaskNo) (s : State) : Result :=
  issue (opV 0x31 2 stl d.code a.code b.code m) (do
    checkVSrc false a
    checkVDst d
    windowVSrc a
    windowVDst d
    checkFmt fun c => Nat.ble 4 c
    let sl ← getSlot
    checkBlock sl.fmt sl.blk
    awaitVSrc a
    awaitSrc b
    awaitMask m
    vectorUnit 1
    let x ← readVSrc a
    let y ← readSrc b
    let k ← readMask m
    let e := sl.venv k
    let n := clampInt (-512) 512 y.toInt
    if isKN sl.fmt then do
      let r := scaleBlocks sl.fmt sl.blk x.2.toNat n
      writeVDst (vlat (slat 6 [b]) [a]) (flagIf r.2 fSAT) d x.1 (BitVec.ofNat 128 r.1)
    else do
      let r := lanewise1 (fun e v =>
        roundFloat e.fmt e.rounding ((floatVal e.fmt (flushIn e.rounding.ftz e.fmt v)).scale n)) e x.1.toNat
      writeVDst (vlat (slat 6 [b]) [a]) r.2 d (BitVec.ofNat 4096 r.1) x.2
    return .seq) s

/-- The exact sum of values as one operation, by R68: a NaN among them gives NaN, infinities of both signs are invalid. The
sign of an exact zero sum of more than two terms is the model's choice: the sign that all share, and else +0, or −0 under
RDN, as for two (log entry 43, DESIGN CHOICE). -/
def sumVals (mode : Nat) (xs : List Val) : Val × BitVec 6 :=
  if xs.any Val.isNaN then nanResult (xs.any Val.snan)
  else if xs.any (· == .inf false) then (if xs.any (· == .inf true) then nanResult true else (.inf false, 0))
  else if xs.any (· == .inf true) then (.inf true, 0)
  else
    let u := xs.foldl (fun u x =>
      match x with
      | .num _ _ e => min u e
      | _ => u) 0
    let t := xs.foldl (fun t x =>
      match x with
      | .num n m e => t + scaledInt n m e u
      | _ => t) 0
    let zeroNeg := if xs.all Val.neg && !xs.isEmpty then true else mode == 2 && xs.any Val.neg
    (ofScaled t u zeroNeg, 0)

/-- The exact sum of some values and of products of values, with the flags of the products. -/
def dotVals (mode : Nat) (xs : List Val) (ps : List (Val × Val)) : Val × BitVec 6 :=
  let qs := ps.map fun p => mulVal p.1 p.2
  let r := sumVals mode (xs ++ qs.map Prod.fst)
  (r.1, qs.foldl (fun fl q => fl ||| q.2) r.2)

/-- The value of element i of a VDOT source. -/
def dotElem (c blk bits side i : Nat) : Val :=
  if isKN c then knVal c bits i (sidecarScale c blk side (i / blockLen blk)) else floatVal c (elemBits bits (fmtWidth c) i)

/-- One result lane of VDOT. -/
def dotLane (sl : Slot) (x y : Vec × Side) (i : Nat) : Nat × BitVec 6 :=
  let w := fmtWidth sl.fmt
  let g := 32 / w
  let idx := (List.range g).map (· + g * i)
  if isInt sl.fmt then
    let t := idx.foldl (fun acc j =>
      acc + toSigned w (elemBits x.1.toNat w j) * toSigned w (elemBits y.1.toNat w j)) 0
    satInt 32 t
  else
    let r := dotVals sl.vecRounding.mode [] (idx.map fun j =>
      (dotElem sl.fmt sl.blk x.1.toNat x.2.toNat j, dotElem sl.fmt2 sl.blk2 y.1.toNat y.2.toNat j))
    let f := roundFloat 4 sl.vecRounding r.1
    (f.1, r.2 ||| f.2)

/-- VDOT. A broadcast B faults where either format is KN, as R181 does not say which of the two decides (log entry 44,
DEDUCED). -/
def execVdot (stl : Stl) (d : VDst) (a b : VSrc) (m : MaskNo) (s : State) : Result :=
  issue (opV 0x31 3 stl d.code a.code b.code m) (do
    checkVSrc false a
    checkVSrc true b
    checkVDst d
    windowVSrc a
    windowVSrc b
    windowVDst d
    checkFmt fmtAny
    let sl ← getSlot
    let w := fmtWidth sl.fmt
    require (Nat.ble sl.fmt2 11 && w == fmtWidth sl.fmt2 && Nat.ble w 16 && isInt sl.fmt == isInt sl.fmt2)
      (.word .illegalOperand)
    checkBlock sl.fmt sl.blk
    checkBlock sl.fmt2 sl.blk2
    checkBcast b
    match b with
    | .bcast _ => require (!isKN sl.fmt2) (.word .illegalOperand)
    | _ => pure ()
    awaitVSrc a
    awaitVSrc b
    awaitMask m
    vectorUnit 1
    let x ← readVSrc a
    let y ← readVSrc b
    let k ← readMask m
    let r := packFlags 32 (fun i =>
      if Nat.blt (32 / w * i) sl.vl && k.getLsbD i then dotLane sl x y i else (0, 0)) 128 0
    writeVDst (vlat 8 [a, b]) r.2 d (BitVec.ofNat 4096 r.1) 0
    return .seq) s

/-! ### Masks (R200) -/

/-- A mask result of two masks. -/
def maskOp2 (d a b m : MaskNo) (f : Bool → Bool → Bool) : M Flow := do
  checkMaskDst d
  checkFmt fmtAny
  forAll awaitMask [a, b, m]
  vectorUnit 1
  let x ← readMask a
  let y ← readMask b
  let k ← readMask m
  let sl ← getSlot
  let e := sl.venv k
  writeMask 5 0 d (BitVec.ofNat 1024
    (packLanes 1 (fun i => (e.on i && f (x.getLsbD i) (y.getLsbD i)).toNat) e.lanes 0))
  return .seq

/-- MAND. -/
def execMand (stl : Stl) (d a b m : MaskNo) (s : State) : Result :=
  issue (opV 0x32 0 stl d.toNat a.toNat b.toNat m) (maskOp2 d a b m fun x y => x && y) s
/-- MOR. -/
def execMor (stl : Stl) (d a b m : MaskNo) (s : State) : Result :=
  issue (opV 0x32 1 stl d.toNat a.toNat b.toNat m) (maskOp2 d a b m fun x y => x || y) s
/-- MXOR. -/
def execMxor (stl : Stl) (d a b m : MaskNo) (s : State) : Result :=
  issue (opV 0x32 2 stl d.toNat a.toNat b.toNat m) (maskOp2 d a b m fun x y => x != y) s
/-- MNOT. -/
def execMnot (stl : Stl) (d a m : MaskNo) (s : State) : Result :=
  issue (opV 0x32 3 stl d.toNat a.toNat 0 m) (maskOp2 d a a m fun x _ => !x) s

/-- A scalar result of a mask over active lanes. -/
def maskScalar (d : Dst) (a m : MaskNo) (f : VEnv → MaskWord → Word) : M Flow := do
  checkDst d
  checkFmt fmtAny
  forAll awaitMask [a, m]
  vectorUnit 1
  let x ← readMask a
  let k ← readMask m
  let sl ← getSlot
  writeDst 8 0 d (f (sl.venv k) x)
  return .seq

/-- MPOP. -/
def execMpop (stl : Stl) (d : Dst) (a m : MaskNo) (s : State) : Result :=
  issue (opV 0x33 0 stl d.code a.toNat 0 m) (maskScalar d a m fun e x =>
    BitVec.ofNat 64 (countLanes (fun i => e.on i && x.getLsbD i) e.lanes)) s

/-- MFIRST. -/
def execMfirst (stl : Stl) (d : Dst) (a m : MaskNo) (s : State) : Result :=
  issue (opV 0x33 1 stl d.code a.toNat 0 m) (maskScalar d a m fun e x =>
    match (List.range e.lanes).find? fun i => e.on i && x.getLsbD i with
    | some i => BitVec.ofNat 64 i
    | none => BitVec.allOnes 64) s

/-- MSETN. -/
def execMsetn (stl : Stl) (d : MaskNo) (a : Src) (m : MaskNo) (s : State) : Result :=
  issue (opV 0x33 2 stl d.toNat a.code 0 m) (do
    checkMaskDst d
    checkFmt fmtAny
    awaitSrc a
    awaitMask m
    vectorUnit 1
    let n ← readSrc a
    let k ← readMask m
    let sl ← getSlot
    let e := sl.venv k
    writeMask (slat 5 [a]) 0 d
      (BitVec.ofNat 1024 (packLanes 1 (fun i => (e.on i && Nat.blt i n.toNat).toNat) e.lanes 0))
    return .seq) s

/-- The lanes of VIOTA from lane i on, c active set lanes standing below. -/
def iotaLanes (e : VEnv) (x : MaskWord) : Nat → Nat → Nat → Nat
  | 0, _, _ => 0
  | n + 1, i, c =>
    (if e.on i then c % 2 ^ e.width else 0)
      + iotaLanes e x n (i + 1) (c + (e.on i && x.getLsbD i).toNat) * 2 ^ e.width

/-- VIOTA. -/
def execViota (stl : Stl) (d : VDst) (a m : MaskNo) (s : State) : Result :=
  issue (opV 0x33 3 stl d.code a.toNat 0 m) (do
    checkVDst d
    windowVDst d
    checkFmt fmtInt
    forAll awaitMask [a, m]
    vectorUnit 1
    let x ← readMask a
    let k ← readMask m
    let sl ← getSlot
    let e := sl.venv k
    writeVDst 5 0 d (BitVec.ofNat 4096 (iotaLanes e x e.lanes 0 0)) 0
    return .seq) s

/-! ### Sidecars and moves (R201) -/

/-- A move of one vector source. -/
def vmove (d : VDst) (a : VSrc) (f : Vec → Side → Vec × Side) : M Flow := do
  checkVSrc false a
  checkVDst d
  windowVSrc a
  windowVDst d
  awaitVSrc a
  vectorUnit 1
  let x ← readVSrc a
  let r := f x.1 x.2
  writeVDst (vlat 5 [a]) 0 d r.1 r.2
  return .seq

/-- VGETSC. -/
def execVgetsc (stl : Stl) (d : VDst) (a : VSrc) (s : State) : Result :=
  issue (opV 0x34 0 stl d.code a.code 0 0) (vmove d a fun _ sd => (sd.setWidth 4096, 0)) s

/-- VSETSC. A broadcast B takes its lane width from VT and faults for formats 9 to 15 (R181, R58), although R179 has no
format check here (log entry 44, DEDUCED). -/
def execVsetsc (stl : Stl) (d : VDst) (a b : VSrc) (s : State) : Result :=
  issue (opV 0x34 1 stl d.code a.code b.code 0) (do
    checkVSrc false a
    checkVSrc true b
    checkVDst d
    windowVSrc a
    windowVSrc b
    windowVDst d
    checkBcast b
    awaitVSrc a
    awaitVSrc b
    vectorUnit 1
    let x ← readVSrc a
    let y ← readVSrc b
    writeVDst (vlat 5 [a, b]) 0 d x.1 (y.1.setWidth 128)
    return .seq) s

/-- VMOV. -/
def execVmov (stl : Stl) (d : VDst) (a : VSrc) (s : State) : Result :=
  issue (opV 0x34 2 stl d.code a.code 0 0) (vmove d a fun x sd => (x, sd)) s

/-- VLANES. -/
def execVlanes (stl : Stl) (d : Dst) (s : State) : Result :=
  issue (opV 0x34 3 stl d.code 0 0 0) (do
    checkDst d
    checkFmt fmtAny
    vectorUnit 1
    let sl ← getSlot
    writeDst 5 0 d (BitVec.ofNat 64 (min sl.vl (fmtLanes sl.fmt)))
    return .seq) s

end Sys2Proof.Machine
end

