-- ==== Sys2Proof/Machine/VectorMem.lean ====
section
/-! DEFINITION. Vector loads and stores, major 0x35 (spec/07_isa_vector.md R202 to R206), and vector atomics, major 0x21
(spec/09_isa_fabric.md R239, R240). -/

namespace Sys2Proof.Machine

/-! ### Elements and homes -/

/-- An element of a vector access: its distance from the pointer, its bytes, the alignment it needs, and the bits it has:
`len` bits at bit `boff` of its first byte, bit `pos` of the register. -/
structure VElem where
  delta : Int
  bytes : Nat
  align : Nat
  pos : Nat
  len : Nat
  boff : Nat

/-- An element of `len` bits at bit `8 × delta + boff`. -/
def VElem.at (pos len bit : Nat) : VElem :=
  { delta := bit / 8, bytes := (bit % 8 + len + 7) / 8, align := 1, pos, len, boff := bit % 8 }

/-- An element with the address it has at its home. -/
structure Placed where
  place : Place
  el : VElem

/-- The address of a place at its home. -/
def Place.addr : Place → Nat
  | .priv off => off
  | .vtile _ off => off
  | .hbm va => va
  | .aperture _ off => off
  | .coreLocal off => off
  | .phys pa => pa

/-- The home of a place, by its lowest address there. -/
def Place.home : Place → Place
  | .priv _ => .priv 0
  | .vtile vt _ => .vtile vt 0
  | .hbm _ => .hbm 0
  | .aperture k _ => .aperture k 0
  | .coreLocal _ => .coreLocal 0
  | .phys _ => .phys 0

/-- The bytes of rim memory or of a host window that an element takes, for the check of its translation. -/
def Place.range (pl : Place) (n : Nat) : List (Nat × Nat) := [(pl.addr, n)]

/-- Whether the rim translates a place, and writes it where `write` asks that (R63, R286, R364). -/
def rimTranslates (write : Bool) (p : Word) (n : Nat) (pl : Place) : M Unit := do
  let s ← get
  let l ← getLaunch
  match pl with
  | .hbm _ => require (s.translates l.asid (pl.range n) (if write then pl.range n else [])) (.trap .hbm p)
  | .aperture _ _ => require (s.hostInside l.part (pl.range n)) (.trap .hbm p)
  | _ => pure ()

/-- How an access checks its elements: the space it may use, the alignment of its base, whether its elements are one
access at the base, whose pointer a fault reports (log entry 25, DEDUCED), and whether the rim's translation is checked, for
reading or for writing. -/
structure ElemRule where
  rule : SpaceRule
  baseAlign : Nat
  one : Bool
  rim : Option Bool

/-- A check's cause with the pointer of the whole access. -/
def atBase {α : Type} (one : Bool) (base : Word) (m : M α) : M α := fun s =>
  match m s with
  | .error (.trap .unmapped tv) => .error (.trap .unmapped tv)
  | .error (.trap c tv) => .error (.trap c (if one then base else tv))
  | r => r

/-- The checks of one element (R63): its place, the alignment of the base, the translation. -/
def placeElem (r : ElemRule) (base : Word) (e : VElem) : M Placed := do
  let p := ptrAdd base e.delta
  let pl ← placeOf r.rule p e.bytes e.align
  require (ptrAddr base % r.baseAlign == 0) (.trap .alignment base)
  match r.rim with
  | some w => rimTranslates w p e.bytes pl
  | none => pure ()
  return { place := pl, el := e }

/-- Checks elements in ascending order (R202): the first failing one gives the cause. -/
def placeElems (r : ElemRule) (base : Word) : List VElem → M (List Placed)
  | [] => pure []
  | e :: rest => do
    let p ← atBase r.one base (placeElem r base e)
    let ps ← placeElems r base rest
    return p :: ps

/-- The translation check of an access that writes: none for one that the guarded phase may capture. -/
def writeRim : M (Option Bool) := do
  let ph ← inPhase
  return if ph then none else some true

/-- The homes of elements, each with its elements in ascending order. -/
def byHome (ps : List Placed) : List (Place × List Placed) :=
  ((ps.map fun p => p.place.home).eraseDups).map fun h => (h, ps.filter fun p => p.place.home == h)

/-- The field that an element of a load has at its home. -/
def Placed.get (p : Placed) : BitGet := { pos := p.el.pos, len := p.el.len, addr := p.place.addr, boff := p.el.boff }

/-- The field that an element of a store has at its home. -/
def Placed.put (data : Nat) (p : Placed) : BitPut :=
  { len := p.el.len, addr := p.place.addr, boff := p.el.boff, data := data / 2 ^ p.el.pos % 2 ^ p.el.len }

/-- Adjacent fields of a load as one. -/
def mergeGets : List BitGet → List BitGet
  | [] => []
  | g :: rest =>
    match mergeGets rest with
    | h :: t =>
      if g.pos + g.len == h.pos && g.addr * 8 + g.boff + g.len == h.addr * 8 + h.boff then
        { g with len := g.len + h.len } :: t
      else g :: h :: t
    | [] => [g]

/-- Adjacent fields of a store as one. -/
def mergePuts : List BitPut → List BitPut
  | [] => []
  | g :: rest =>
    match mergePuts rest with
    | h :: t =>
      if g.addr * 8 + g.boff + g.len == h.addr * 8 + h.boff then
        { g with len := g.len + h.len, data := g.data + h.data * 2 ^ g.len } :: t
      else g :: h :: t
    | [] => [g]

/-! ### Performing -/

/-- The packet destination of a home that is not the own banks. -/
def homeDest (idx : Nat) : Place → Dest
  | .vtile vt _ => .vtile idx vt
  | _ => .rim

/-- Sends one request to each home under one issue number. -/
def sendParts (p : Word) (id : Nat) (wants : Bool) : List (Place × MemOp) → M Unit
  | [] => pure ()
  | x :: rest => do
    let idx ← currentIdx
    sendRequest x.2 p (homeDest idx x.1) id wants
    sendParts p id wants rest

/-- Performs parts of one access that wants no answer: at the own banks at once, elsewhere by requests. -/
def storeParts (p : Word) (parts : List (Place × MemOp)) : M Unit := do
  match parts with
  | [(.priv off, op)] => do
    let _ ← privAccess op p off
    pure ()
  | [] => pure ()
  | parts => do
    let id ← freshId
    sendParts p id false parts

/-- Performs parts of a vector load into a destination. -/
def loadParts (p : Word) (d : VDst) (parts : List (Place × MemOp)) : M Unit := do
  match parts with
  | [(.priv off, op)] => do
    let r ← privAccess op p off
    writeVDst 1 r.flags d (BitVec.ofNat 4096 r.val) (BitVec.ofNat 128 r.side)
  | [] => writeVDst 1 0 d 0 0
  | parts => do
    let id ← reserve (vlandingOf d) parts.length
    sendParts p id true parts

/-- Holds an access behind the slot's fences: an access to the own scratchpad when one of its elements stands there. -/
def gateParts (store : Bool) (ps : List Placed) : M Unit := do
  let s ← get
  if ps.isEmpty then pure () else fenceGate store (ps.any fun p => p.place.isOwn (s.tile s.cur.site).name.2)

/-- Packets of captured requests, one for each home. -/
def capturedPackets (s : State) (p : Word) (parts : List (Place × MemOp)) : List Packet :=
  parts.map fun x => s.packet 0 0 (homeDest (s.tile s.cur.site).name.1 x.1) (.request x.2 p false)

/-- The fate of a vector store or atomic in the guarded phase (R125, R126, R202, R239): a private one is judged by the
window, another is captured as one access. Answers whether it was captured. -/
def guardParts (p : Word) (ps : List Placed) (parts : List (Place × MemOp)) (data : Nat) : M Bool := do
  let ph ← inPhase
  if !ph then return false
  else
    match parts with
    | [] => return false
    | [(.priv _, _)] => do
      let t ← getTile
      require (ps.all fun q => t.guard.inWindow q.place.addr q.el.bytes) (.trap .guardWindow p)
      return false
    | parts => do
      let s ← get
      capture (.packets (capturedPackets s p parts)) (captureBytes data)
      return true

/-- A store or atomic of parts, one captured access in the phase. -/
def storeOrCapture (p : Word) (ps : List Placed) (parts : List (Place × MemOp)) (data : Nat) : M Flow := do
  let caught ← guardParts p ps parts data
  if caught then return .seq
  else do
    gateParts true ps
    storeParts p parts
    return .seq

/-- The active lanes of the current format under m0. -/
def activeUnder0 (sl : Slot) : MaskWord := activeLanes sl.vl (fmtLanes sl.fmt) (BitVec.allOnes 1024)

/-- The active lane numbers, ascending. -/
def activeList (sl : Slot) : List Nat :=
  (List.range (fmtLanes sl.fmt)).filter fun i => (activeUnder0 sl).getLsbD i

/-! ### VLD and VST (R203) -/

/-- The fields that VLD moves: of a KN container with one active element, the other element's field stays zero. -/
def loadElems (sl : Slot) : List VElem :=
  let w := fmtWidth sl.fmt
  let act := activeUnder0 sl
  if isKN sl.fmt then
    let m := knBits sl.fmt
    (List.range (fmtLanes sl.fmt / 2)).flatMap fun p =>
      let lo := act.getLsbD (2 * p)
      let hi := act.getLsbD (2 * p + 1)
      let b := 2 * w * p
      if lo && hi then [VElem.at b (2 * w) b]
      else if lo then [VElem.at b (m + 1) b, VElem.at (b + 2 * w - 2) 2 (b + 2 * w - 2)]
      else if hi then [VElem.at (b + m + 1) (m + 3) (b + m + 1)]
      else []
  else (activeList sl).map fun i => VElem.at (w * i) w (w * i)

/-- The fields that VST moves: KN containers whole. -/
def storeElems (sl : Slot) : List VElem :=
  let w := fmtWidth sl.fmt
  let act := activeUnder0 sl
  if isKN sl.fmt then
    (List.range (fmtLanes sl.fmt / 2)).filterMap fun p =>
      if act.getLsbD (2 * p) || act.getLsbD (2 * p + 1) then some (VElem.at (2 * w * p) (2 * w) (2 * w * p)) else none
  else (activeList sl).map fun i => VElem.at (w * i) w (w * i)

/-- The pointer of R203: 512-byte steps. -/
def stepPtr (a b : Word) (n : Nat) : Word := ptrAdd a (n * (b.toNat : Int))

/-- The raw load of placed elements at each home. -/
def rawLoads (ps : List Placed) : List (Place × MemOp) :=
  (byHome ps).map fun h => (h.1, .vecLoad (mergeGets (h.2.map Placed.get)))

/-- The raw store of placed elements at each home. -/
def rawStores (data : Nat) (ps : List Placed) : List (Place × MemOp) :=
  (byHome ps).map fun h => (h.1, .vecStore (mergePuts (h.2.map (Placed.put data))) [])

/-- The checks of a vector load's destination. -/
def checkVLoad (d : VDst) (ok : Nat → Bool) : M Unit := do
  checkVDst d
  windowVDst d
  checkFmt ok

/-- The checks of a vector store's data. -/
def checkVStore (d : VSrc) (ok : Nat → Bool) : M Unit := do
  checkVSrc false d
  windowVSrc d
  checkFmt ok

/-- VLD. -/
def execVld (stl : Stl) (d : VDst) (a b : Src) (s : State) : Result :=
  issue (opA 0x35 0 stl d.code a.code b.code) (do
    checkVLoad d fmtAny
    let (x, y) ← read2 a b
    let sl ← getSlot
    let base := stepPtr x y 512
    let ps ← placeElems { rule := anySpace, baseAlign := 8, one := true, rim := some false } base (loadElems sl)
    gateParts false ps
    loadParts base d (rawLoads ps)
    return .seq) s

/-- Reads the operands of a vector store with scalar A and B, then its data (R202). -/
def readVStore (d : VSrc) (a b : Src) : M (Word × Word × (Vec × Side)) := do
  awaitSrc a
  awaitSrc b
  awaitVSrc d
  let x ← readSrc a
  let y ← readSrc b
  let v ← readVSrc d
  return (x, y, v)

/-- VST. Its one captured store has 512 data bytes (log entry 67, DEDUCED). -/
def execVst (stl : Stl) (d : VSrc) (a b : Src) (s : State) : Result :=
  issue (opA 0x35 1 stl d.code a.code b.code) (do
    checkVStore d fmtAny
    let (x, y, v) ← readVStore d a b
    let sl ← getSlot
    let base := stepPtr x y 512
    let w ← writeRim
    let ps ← placeElems { rule := anySpace, baseAlign := 8, one := true, rim := w } base (storeElems sl)
    storeOrCapture base ps (rawStores v.1.toNat ps) 512) s

/-! ### VLDC and VSTC (R204) -/

/-- The memory ranges of a converting access: active elements, or blocks that hold one. -/
def convElems (sl : Slot) (memFmt memBlk : Nat) : List VElem :=
  let w := fmtWidth memFmt
  let act := activeUnder0 sl
  if isKN memFmt then
    let n := blockLen memBlk
    (List.range (fmtLanes sl.fmt / n)).filterMap fun b =>
      if (act.toNat >>> (b * n)) % 2 ^ n == 0 then none else some (VElem.at (w * n * b) (w * n) (w * n * b))
  else (activeList sl).map fun i => VElem.at (w * i) w (w * i)

/-- The alignment of a converting access's pointer. -/
def convAlign (memFmt memBlk : Nat) : Nat :=
  if isKN memFmt then blockBytes memFmt memBlk else (fmtWidth memFmt + 7) / 8

/-- The bytes that the lanes of a converting access take. -/
def convBytes (sl : Slot) (memFmt : Nat) : Nat := fmtLanes sl.fmt * fmtWidth memFmt / 8

/-- The formats of a converting access, the last row of R63: the pointer's FMT is 0 to 11; and blocks are legal (R70). -/
def checkConv (sl : Slot) (p : Word) : M Unit := do
  require (Nat.ble (ptrFmt p) 11) (.word .illegalOperand)
  checkBlock sl.fmt sl.blk
  checkBlock (ptrFmt p) (ptrBlk p)

/-- The pointer checks of a converting access in the order of R63, its formats last. An FMT of 12 to 15 names no element size:
the pointer's own byte is checked then (log entry 45, DEDUCED). -/
def placeConv (sl : Slot) (x base : Word) (rim : Option Bool) : M (List Placed) := do
  let legal : Bool := Nat.ble (ptrFmt x) 11
  let ps ← placeElems
    { rule := anySpace, baseAlign := if legal then convAlign (ptrFmt x) (ptrBlk x) else 1, one := true, rim } base
    (if legal then convElems sl (ptrFmt x) (ptrBlk x) else [VElem.at 0 8 0])
  checkConv sl x
  return ps

/-- VLDC. -/
def execVldc (stl : Stl) (d : VDst) (a b : Src) (s : State) : Result :=
  issue (opA 0x35 2 stl d.code a.code b.code) (do
    checkVLoad d fmtAny
    let (x, y) ← read2 a b
    let sl ← getSlot
    let base := stepPtr x y (convBytes sl (ptrFmt x))
    let ps ← placeConv sl x base (some false)
    gateParts false ps
    let key ← takeKey (narrowing (ptrFmt x) sl.fmt)
    let vtn ← currentVt
    let st ← get
    let c : Convert :=
      { regFmt := sl.fmt, regBlk := sl.blk, memFmt := ptrFmt x, memBlk := ptrBlk x, rnd := sl.rnd, key,
        slot := st.cur.slotNo.val, vtn, active := activeUnder0 sl }
    match ps with
    | [] =>
      let r := convertLanes c.memFmt c.memBlk c.regFmt c.regBlk (fmtLanes c.regFmt) (fun _ => rne) false (fun _ => 0)
        (fun _ => false) 0
      writeVDst 1 0 d (BitVec.ofNat 4096 r.1) (BitVec.ofNat 128 (sidecarOf c.regFmt c.regBlk r.2.1))
    | p :: _ => do
      let home := match p.place with
        | .priv off => Place.priv (off - p.el.delta.toNat)
        | .vtile vt off => .vtile vt (off - p.el.delta.toNat)
        | .hbm va => .hbm (va - p.el.delta.toNat)
        | .aperture k off => .aperture k (off - p.el.delta.toNat)
        | pl => pl
      match home with
      | .priv off => do
        let r ← privAccess (.vecConvert c) base off
        writeVDst 1 r.flags d (BitVec.ofNat 4096 r.val) (BitVec.ofNat 128 r.side)
      | _ => do
        let id ← reserve (vlandingOf d) 1
        let idx ← currentIdx
        sendRequest (.vecConvert c) base (homeDest idx home) id true
    return .seq) s

/-- The granule bytes that a KN block's exponent goes to. -/
def shadowPuts (memFmt memBlk : Nat) (es : List Nat) (p : Placed) : List (Nat × Byte) :=
  let n := blockBytes memFmt memBlk
  let b := p.el.delta.toNat / n
  (List.range (n / 32)).map fun g => (p.place.addr + 32 * g, BitVec.ofNat 8 (es.getD b 0))

/-- VSTC. Its one captured store has 512 data bytes (log entry 67, DEDUCED). -/
def execVstc (stl : Stl) (d : VSrc) (a b : Src) (s : State) : Result :=
  issue (opA 0x35 3 stl d.code a.code b.code) (do
    checkVStore d fmtAny
    let (x, y, v) ← readVStore d a b
    let sl ← getSlot
    let base := stepPtr x y (convBytes sl (ptrFmt x))
    let w ← writeRim
    let ps ← placeConv sl x base w
    let key ← takeKey (narrowing sl.fmt (ptrFmt x))
    let vtn ← currentVt
    let st ← get
    let act := activeUnder0 sl
    let r := convertLanes sl.fmt sl.blk (ptrFmt x) (ptrBlk x) (fmtLanes sl.fmt)
      (roundingAt sl.rnd key st.cur.slotNo.val vtn) sl.ftz (sidecarScale sl.fmt sl.blk v.2.toNat)
      (fun i => act.getLsbD i) v.1.toNat
    let parts := (byHome ps).map fun h =>
      (h.1, MemOp.vecStore (mergePuts (h.2.map (Placed.put r.1)))
        (if isKN (ptrFmt x) then h.2.flatMap (shadowPuts (ptrFmt x) (ptrBlk x) r.2.1) else []))
    let fl ← storeOrCapture base ps parts 512
    modify fun s => s.setSlot s.cur ((s.slot s.cur).flagsAt (s.cycle + 1) r.2.2)
    return fl) s

/-! ### VLDS, VSTS, VGATH, VSCAT (R205, R206) -/

/-- Formats of strided accesses. -/
def fmtStride (c : Nat) : Bool := Nat.ble c 2 || (Nat.ble 4 c && Nat.ble c 8)
/-- Formats of gathers and scatters. -/
def fmtGather (c : Nat) : Bool := [1, 2, 4, 5, 6].contains c

/-- The active elements of an access whose element i stands at a distance of its own. -/
def spreadElems (sl : Slot) (delta : Nat → Int) : List VElem :=
  let w := fmtWidth sl.fmt
  (activeList sl).map fun i =>
    { delta := delta i, bytes := w / 8, align := w / 8, pos := w * i, len := w, boff := 0 }

/-- The loads of elements that stand apart, at each home. -/
def apartLoads (ps : List Placed) : List (Place × MemOp) :=
  (byHome ps).map fun h => (h.1, .vecLoad (h.2.map Placed.get))

/-- The stores of elements that stand apart, at each home in ascending lane order. -/
def apartStores (data : Nat) (ps : List Placed) : List (Place × MemOp) :=
  (byHome ps).map fun h => (h.1, .vecStore (h.2.map (Placed.put data)) [])

/-- Captures one store for each active element (R202). -/
def captureEach (p : Word) (data : Nat) (bytes : Nat) : List Placed → M Unit
  | [] => pure ()
  | q :: rest => do
    let s ← get
    capture (.packets (capturedPackets s p [(q.place.home, .vecStore [q.put data] [])])) (captureBytes bytes)
    captureEach p data bytes rest

/-- A store of elements that stand apart. -/
def storeApart (p : Word) (ps : List Placed) (data bytes : Nat) : M Flow := do
  let ph ← inPhase
  match ph, ps with
  | true, q :: _ =>
    match q.place with
    | .priv _ => storeOrCapture p ps (apartStores data ps) bytes
    | _ => do
      captureEach p data bytes ps
      return .seq
  | _, _ => do
    gateParts true ps
    storeParts p (apartStores data ps)
    return .seq

/-- VLDS. -/
def execVlds (stl : Stl) (d : VDst) (a b : Src) (s : State) : Result :=
  issue (opA 0x35 4 stl d.code a.code b.code) (do
    checkVLoad d fmtStride
    let (x, y) ← read2 a b
    let sl ← getSlot
    let ps ← placeElems { rule := anySpace, baseAlign := 1, one := false, rim := some false } x (spreadElems sl fun i => i * y.toInt)
    gateParts false ps
    loadParts x d (apartLoads ps)
    return .seq) s

/-- VSTS. -/
def execVsts (stl : Stl) (d : VSrc) (a b : Src) (s : State) : Result :=
  issue (opA 0x35 5 stl d.code a.code b.code) (do
    checkVStore d fmtStride
    let (x, y, v) ← readVStore d a b
    let sl ← getSlot
    let w ← writeRim
    let ps ← placeElems { rule := anySpace, baseAlign := 1, one := false, rim := w } x (spreadElems sl fun i => i * y.toInt)
    storeApart x ps v.1.toNat (fmtWidth sl.fmt / 8)) s

/-- The distance of element i of a gather or scatter. -/
def gatherDelta (sl : Slot) (o : Vec) (i : Nat) : Int :=
  let w := fmtWidth sl.fmt
  toSigned w (elemBits o.toNat w i) * ((w / 8 : Nat) : Int)

/-- VGATH. -/
def execVgath (stl : Stl) (d : VDst) (a : Src) (b : VSrc) (s : State) : Result :=
  issue (opA 0x35 6 stl d.code a.code b.code) (do
    checkVSrc true b
    checkVDst d
    windowVSrc b
    windowVDst d
    checkFmt fmtGather
    awaitSrc a
    awaitVSrc b
    let x ← readSrc a
    let o ← readVSrc b
    let sl ← getSlot
    let ps ← placeElems { rule := anySpace, baseAlign := 1, one := false, rim := some false } x (spreadElems sl (gatherDelta sl o.1))
    gateParts false ps
    loadParts x d (apartLoads ps)
    return .seq) s

/-- Reads the operands of a vector store whose B is a vector. -/
def readVStoreV (d : VSrc) (a : Src) (b : VSrc) : M (Word × Vec × Vec) := do
  awaitSrc a
  awaitVSrc b
  awaitVSrc d
  let x ← readSrc a
  let o ← readVSrc b
  let v ← readVSrc d
  return (x, o.1, v.1)

/-- The checks of a vector store whose B is a vector. -/
def checkVStoreV (d b : VSrc) (ok : Nat → Bool) : M Unit := do
  checkVSrc true b
  checkVSrc false d
  windowVSrc b
  windowVSrc d
  checkFmt ok

/-- VSCAT. -/
def execVscat (stl : Stl) (d : VSrc) (a : Src) (b : VSrc) (s : State) : Result :=
  issue (opA 0x35 7 stl d.code a.code b.code) (do
    checkVStoreV d b fmtGather
    let (x, o, v) ← readVStoreV d a b
    let sl ← getSlot
    let w ← writeRim
    let ps ← placeElems { rule := anySpace, baseAlign := 1, one := false, rim := w } x (spreadElems sl (gatherDelta sl o))
    storeApart x ps v.toNat (fmtWidth sl.fmt / 8)) s

/-! ### Vector atomics (R239, R240) -/

/-- The lane of a vector that a placed element stands for. -/
def Placed.lane (w : Nat) (v : Nat) (p : Placed) : Nat := elemBits v w (p.el.pos / w)

/-- A vector atomic on contiguous elements. -/
def atomicLanes (k : AtomKind) (ok : Nat → Bool) (d : VSrc) (a b : Src) : M Flow := do
  checkVStore d ok
  let (x, y, v) ← readVStore d a b
  let sl ← getSlot
  let w := fmtWidth sl.fmt
  let base := stepPtr x y 512
  let wr ← writeRim
  let ps ← placeElems { rule := atomicSpace, baseAlign := 8, one := true, rim := wr } base ((activeList sl).map fun i => VElem.at (w * i) w (w * i))
  let parts := (byHome ps).map fun h =>
    (h.1, MemOp.vecAtomic k (w / 8) (h.2.map fun p => (p.place.addr, BitVec.ofNat 64 (p.lane w v.1.toNat))))
  storeOrCapture base ps parts 512

/-- VAADD. -/
def execVaadd (stl : Stl) (d : VSrc) (a b : Src) (s : State) : Result :=
  issue (opA 0x21 0 stl d.code a.code b.code) (atomicLanes .add (fun c => c == 1 || c == 2) d a b) s

/-- VAMAXABS. -/
def execVamaxabs (stl : Stl) (d : VSrc) (a b : Src) (s : State) : Result :=
  issue (opA 0x21 1 stl d.code a.code b.code) (atomicLanes .umax (fun c => c == 4) d a b) s

/-- VAFX. -/
def execVafx (stl : Stl) (d : VSrc) (a : Src) (b : VSrc) (s : State) : Result :=
  issue (opA 0x21 2 stl d.code a.code b.code) (do
    checkVStoreV d b fun c => c == 4
    let (x, o, v) ← readVStoreV d a b
    let sl ← getSlot
    let wr ← writeRim
    let ps ← placeElems { rule := atomicSpace, baseAlign := 16, one := false, rim := wr } x ((activeList sl).map fun i =>
      { delta := 16 * toSigned 32 (elemBits o.toNat 32 i), bytes := 16, align := 1, pos := 32 * i, len := 32, boff := 0 })
    let parts := (byHome ps).map fun h =>
      (h.1, MemOp.vecFx (h.2.map fun p => (p.place.addr, BitVec.ofNat 32 (p.lane 32 v.toNat))))
    storeOrCapture x ps parts 1024) s

/-- VAMAX of major 0x21: one AAMAX whose operand is the lanewise maximum, taken as form V takes it (R240), under FTZ too (log entry 42,
DEDUCED). -/
def execVamaxDrain (stl : Stl) (d : VSrc) (a : Src) (s : State) : Result :=
  issue (opA 0x21 3 stl d.code a.code 0) (do
    checkVStore d fmtFloat
    awaitSrc a
    awaitVSrc d
    let x ← readSrc a
    let v ← readVSrc d
    let sl ← getSlot
    let e := sl.venv (BitVec.allOnes 1024)
    let op := MemOp.absmax (BitVec.ofNat 32 (absMaxOf e v.1.toNat))
    let pl ← placeOf atomicSpace x 4 4
    let caught ← guardWrite op x pl 4 512 false
    if caught then return .seq
    else do
      accessGate true pl
      accessTo op x pl .discard false) s

end Sys2Proof.Machine
end

