-- ==== Sys2Proof/Machine/Matrix.lean ====
section
/-! DEFINITION. The matrix engine: its commands, major 0x36 (spec/08_isa_matrix_copy.md R207 to R220, spec/03_numbers.md R91,
R92, spec/02_state.md R52 to R55), and how it grants them (spec/01_machine.md R34, R35, R208 to R211, R229). -/

namespace Sys2Proof.Machine

/-! ### Commands -/

/-- A matrix command: its issue form, minor, tile registers, S and MODE. -/
structure MatrixCmd where
  op : Op
  minor : Nat
  td : Fin 8
  ta : Fin 8
  tb : Fin 8
  s : Src
  mode : Nat
  deriving DecidableEq, Repr

/-- A tile register number. -/
def treg (x : BitVec 3) : Fin 8 := Fin.ofNat 8 x.toNat

/-- The command of fields (R210). -/
def matrixCmd (minor : Nat) (stl : Stl) (x y w : BitVec 3) (u : Src) (g : BitVec 3) : MatrixCmd :=
  { op := op32 0x36 minor stl
      (x.toNat * 524288 + y.toNat * 65536 + w.toNat * 8192 + u.code * 128 + g.toNat * 16 + minor)
    minor, td := treg x, ta := treg y, tb := treg w, s := u, mode := g.toNat }

/-- The matrix command that an instruction is. -/
def matrixOf : Instr → Option MatrixCmd
  | .tld stl x u => some (matrixCmd 0 stl x 0 0 u 0)
  | .tst stl y u => some (matrixCmd 1 stl 0 y 0 u 0)
  | .tzero stl x => some (matrixCmd 2 stl x 0 0 (.q 0) 0)
  | .mma stl x y w u g => some (matrixCmd 3 stl x y w u g)
  | .mmas stl x y w u g => some (matrixCmd 4 stl x y w u g)
  | .tadd stl x y w => some (matrixCmd 5 stl x y w (.q 0) 0)
  | .tcvt stl x y u => some (matrixCmd 6 stl x y 0 u 0)
  | .ttrans stl x y => some (matrixCmd 7 stl x y 0 (.q 0) 0)
  | .trowv stl y u => some (matrixCmd 8 stl 0 y 0 u 0)
  | .tvrow stl x y u => some (matrixCmd 9 stl x (y.setWidth 3) 0 u 0)
  | _ => none

/-! ### Configurations and elements (R53 to R55, R207) -/

/-- A tile-register configuration (R53). -/
structure TileCfg where
  fmt : Nat
  rows : Nat
  cols : Nat
  layout : Nat
  deriving DecidableEq, Repr

/-- The configuration that TCFGk holds. -/
def Tile.cfg (t : Tile) (k : Fin 8) : TileCfg :=
  let w := t.tcfg[k].toNat
  { fmt := bitsOf w 3 0, rows := if bitsOf w 8 4 == 0 then 32 else bitsOf w 8 4, cols := bitsOf w 16 9,
    layout := bitsOf w 18 17 }

/-- Element width of a configuration. -/
def TileCfg.width (c : TileCfg) : Nat := fmtWidth c.fmt
/-- Element count of a configuration. -/
def TileCfg.count (c : TileCfg) : Nat := c.rows * c.cols

/-- Validity of a configuration (R54). -/
def TileCfg.valid (c : TileCfg) : Bool :=
  Nat.ble c.fmt 11 && Nat.ble 1 c.cols && Nat.ble c.cols 128 && Nat.ble (c.count * c.width) 8192

/-- Whether the predicates enable element (r, c) (R55). -/
def Tile.mxOn (t : Tile) (r c : Nat) : Bool :=
  t.mrow.getLsbD r && (if Nat.blt c 64 then t.mcol0.getLsbD c else t.mcol1.getLsbD (c - 64))

/-- Whether the predicates enable element e of a configuration. -/
def Tile.elemOn (t : Tile) (c : TileCfg) (e : Nat) : Bool := t.mxOn (e / c.cols) (e % c.cols)

/-- The bits of element (r, c) of tile register k. -/
def Tile.telem (t : Tile) (k : Fin 8) (c : TileCfg) (r col : Nat) : Nat :=
  elemBits t.tregs[k].toNat c.width (r * c.cols + col)

/-- The value of element (r, c) as a source (R71, R211): a disabled one is zero. `E` is its KN block exponent. -/
def Tile.sourceVal (t : Tile) (k : Fin 8) (c : TileCfg) (E r col : Nat) : Val :=
  if !t.mxOn r col then .num false 0 0
  else if isKN c.fmt then knVal c.fmt t.tregs[k].toNat (r * c.cols + col) E
  else elemVal false c.fmt (t.telem k c r col)

/-- The storage of a register with its first n elements of w bits replaced. -/
def replaceElems (w n old : Nat) (f : Nat → Nat) : Nat := packLanes w f n 0 + old / 2 ^ (w * n) * 2 ^ (w * n)

/-- Writes the elements of a register that the predicates enable. -/
def writeEnabled (k : Fin 8) (c : TileCfg) (f : Nat → Nat → Nat) : M Unit := do
  let t ← getTile
  let old := t.tregs[k].toNat
  let new := replaceElems c.width c.count old fun e =>
    if t.elemOn c e then f (e / c.cols) (e % c.cols) else elemBits old c.width e
  modTile fun t => { t with tregs := t.tregs.set k (BitVec.ofNat 8192 new) }

/-- Elements with flags, of the enabled ones only. -/
def enabledFlags (t : Tile) (c : TileCfg) (f : Nat → Nat → Nat × BitVec 6) : Nat × BitVec 6 :=
  packFlags c.width (fun e => if t.elemOn c e then f (e / c.cols) (e % c.cols) else (0, 0)) c.count 0

/-! ### Checks (R210) -/

/-- An illegal operand of a command. -/
def matrixIllegal (ok : Bool) : M Unit := require ok (.word .illegalOperand)

/-- The tile registers that a minor names. -/
def MatrixCmd.named (c : MatrixCmd) : List (Fin 8) :=
  match c.minor with
  | 0 | 2 | 9 => [c.td]
  | 1 | 8 => [c.ta]
  | 6 | 7 => [c.td, c.ta]
  | _ => [c.td, c.ta, c.tb]

/-- Check 1 of R210, and the KN rule of R207. -/
def checkCfgs (c : MatrixCmd) : M Unit := do
  let t ← getTile
  matrixIllegal (c.named.all fun k => (t.cfg k).valid)
  matrixIllegal (c.minor == 2 || c.named.all fun k => !(isKN (t.cfg k).fmt && (t.cfg k).cols % 2 == 1))

/-- Checks 3 to 5 of R210 for a pointer whose bytes from `lo` up to `hi` are accessed; answers the offset. -/
def matrixPtr (p : Word) (lo hi align : Nat) (writes : Bool) : M Nat := do
  let a := ptrAddr p
  require (ptrSpace p == 2 && a / 2 ^ 17 == 0 && (Nat.ble hi lo || Nat.ble (a + hi) Config.spadBytes)) (.trap .bounds p)
  require (a % align == 0) (.trap .alignment p)
  let ph ← inPhase
  let t ← getTile
  require (!(writes && ph) || Nat.ble hi lo || t.guard.inWindow (a + lo) (hi - lo)) (.trap .guardWindow p)
  return a

/-! ### Effects: each answers its busy cycles and flags (R209) -/

/-- An access of a command at its grant: after every private access that the slot issued before the command (R111), and behind every
other action of its cycle at the banks (R97). -/
def matrixAccess (op : MemOp) (p : Word) (off : Nat) : M HomeResult := bankAccess 10 op p off

/-- Bit offset of element (r, c) in memory (R212). -/
def layoutBit (c : TileCfg) (r col : Nat) : Nat :=
  match c.layout with
  | 0 => (r * c.cols + col) * c.width
  | 1 => (col * c.rows + r) * c.width
  | 2 => r * 1024 + col * c.width
  | _ => r * 4096 + col * c.width

/-- Whether a layout suits a configuration (R212). -/
def layoutOk (c : TileCfg) : Bool :=
  match c.layout with
  | 1 => !(c.fmt == 3 || isKN c.fmt)
  | 2 => Nat.ble (c.cols * c.width) 1024
  | _ => true

/-- The enabled elements of a register with their bit offsets in memory. -/
def Tile.memElems (t : Tile) (c : TileCfg) : List (Nat × Nat) :=
  ((List.range c.count).filter (t.elemOn c)).map fun e => (e, layoutBit c (e / c.cols) (e % c.cols))

/-- The bytes that elements span, from the first to the end of the last. -/
def memSpan (w : Nat) (els : List (Nat × Nat)) : Nat × Nat :=
  match els with
  | [] => (0, 0)
  | x :: rest =>
    (rest.foldl (fun m y => min m (y.2 / 8)) (x.2 / 8),
      rest.foldl (fun m y => max m ((y.2 + w + 7) / 8)) ((x.2 + w + 7) / 8))

/-- TLD. -/
def effTld (c : MatrixCmd) (rd : M Word) : M (Nat × BitVec 6) := do
  let t ← getTile
  let g := t.cfg c.td
  matrixIllegal (layoutOk g)
  let p ← rd
  let els := t.memElems g
  let sp := memSpan g.width els
  let a ← matrixPtr p sp.1 sp.2 8 false
  let gets := els.map fun x => { pos := x.1 * g.width, len := g.width, addr := a + x.2 / 8, boff := x.2 % 8 : BitGet }
  let r ← matrixAccess (.vecLoad (mergeGets gets)) p a
  writeEnabled c.td g fun row col => elemBits r.val g.width (row * g.cols + col)
  return (4 + (els.length * g.width + 1023) / 1024, 0)

/-- TST. -/
def effTst (c : MatrixCmd) (rd : M Word) : M (Nat × BitVec 6) := do
  let t ← getTile
  let g := t.cfg c.ta
  matrixIllegal (layoutOk g)
  let p ← rd
  let els := t.memElems g
  let sp := memSpan g.width els
  let a ← matrixPtr p sp.1 sp.2 8 true
  let puts := els.map fun x =>
    { len := g.width, addr := a + x.2 / 8, boff := x.2 % 8, data := elemBits t.tregs[c.ta].toNat g.width x.1 : BitPut }
  let _ ← matrixAccess (.vecStore (mergePuts puts) []) p a
  return (4 + (els.length * g.width + 1023) / 1024, 0)

/-- A KN pair container (R69) written over another: whole where both elements are enabled, else the enabled element's
sign-and-magnitude field alone, with the micro-exponent and the other element kept, as R218 says of TZERO (log entry 63, DEDUCED). -/
def mergePair (m P old : Nat) (lo hi : Bool) : Nat :=
  let f := 2 ^ (m + 1)
  if lo && hi then P
  else if lo then P % f + old / f * f
  else if hi then old % f + P / f % f * f + old / (f * f) * (f * f)
  else old

/-- A KN pair container read with disabled elements: their fields are zero, and the micro-exponent stays beside an enabled one (R69, R71). -/
def readPair (m P : Nat) (lo hi : Bool) : Nat :=
  let f := 2 ^ (m + 1)
  if lo || hi then mergePair m P (P / (f * f) * (f * f)) lo hi else 0

/-- Row r of a register in KN format with its containers changed by `f`, which takes the pair's number in the row, the container, and
whether each element is enabled. -/
def Tile.mapPairs (t : Tile) (c : TileCfg) (r old : Nat) (f : Nat → Nat → Bool → Bool → Nat) : Nat :=
  let half := c.cols / 2
  replaceElems (2 * c.width) (c.count / 2) old fun e =>
    let P := elemBits old (2 * c.width) e
    if e / half == r then f (e % half) P (t.elemOn c (2 * e)) (t.elemOn c (2 * e + 1)) else P

/-- TZERO. -/
def effTzero (c : MatrixCmd) : M (Nat × BitVec 6) := do
  let t ← getTile
  let g := t.cfg c.td
  let old := t.tregs[c.td].toNat
  let new :=
    if isKN g.fmt then
      replaceElems (2 * g.width) ((g.count + 1) / 2) old fun p =>
        mergePair (knBits g.fmt) 0 (elemBits old (2 * g.width) p) (t.elemOn g (2 * p))
          (Nat.blt (2 * p + 1) g.count && t.elemOn g (2 * p + 1))
    else replaceElems g.width g.count old fun e => if t.elemOn g e then 0 else elemBits old g.width e
  modTile fun t => { t with tregs := t.tregs.set c.td (BitVec.ofNat 8192 new) }
  return (12, 0)

/-- Whether formats form a row of R214; MMAS takes the BF16, FP16, E4M3 and E5M2 rows alone (R217). -/
def mmaFormats (fa fb fd : Nat) (scaled : Bool) : Bool :=
  let half := (fa == 5 || fa == 6) && (fb == 5 || fb == 6)
  let quarter := (fa == 7 || fa == 8) && (fb == 7 || fb == 8)
  if half || quarter then fd == 4
  else if scaled then false
  else if fa == fb && (fa == 4 || fa == 9 || fa == 10) then fd == 4
  else fa == fb && (fa == 0 || fa == 3) && fd == 2

/-- Multiply-accumulates per cycle by source format (R209). -/
def mmaRate (f : Nat) : Nat :=
  match f with
  | 4 => 32
  | 5 | 6 => 128
  | 7 | 8 | 10 | 0 => 256
  | _ => 512

/-- One rounding step of R91: the exact sum of up to eight products, and its exact sum with the accumulator, each under
R68 with its own flags (R215). -/
def mmaGroup (acc : Nat × BitVec 6) (ps : List (Val × Val)) : Nat × BitVec 6 :=
  let p := dotVals 0 [] ps
  let s := addVal 0 (floatVal 4 acc.1) p.1
  let r := roundFloat 4 rne s.1
  (r.1, acc.2 ||| p.2 ||| s.2 ||| r.2)

/-- The groups of eight of an inner product, ascending (R91, R215). -/
def mmaGroups (acc : Nat × BitVec 6) (f : Nat → Val × Val) (k g : Nat) : Nat → Nat × BitVec 6
  | 0 => acc
  | n + 1 =>
    mmaGroups (mmaGroup acc (((List.range 8).filter fun j => Nat.blt (8 * g + j) k).map fun j => f (8 * g + j)))
      f k (g + 1) n

/-- The shape of a product: M, K, N, and whether the registers agree (R213). -/
def mmaShape (ca cb cd : TileCfg) (tra trb : Bool) : Nat × Nat × Nat × Bool :=
  let m := if tra then ca.cols else ca.rows
  let k := if tra then ca.rows else ca.cols
  let k' := if trb then cb.cols else cb.rows
  let n := if trb then cb.rows else cb.cols
  (m, k, n, k == k' && cd.rows == m && cd.cols == n)

/-- MMA and MMAS (R213 to R217). -/
def effMma (c : MatrixCmd) (rd : M Word) : M (Nat × BitVec 6) := do
  let t ← getTile
  let ca := t.cfg c.ta
  let cb := t.cfg c.tb
  let cd := t.cfg c.td
  let tra := c.mode % 2 == 1
  let trb := c.mode / 2 % 2 == 1
  let zacc := c.mode / 4 % 2 == 1
  let scaled := c.minor == 4
  let (m, k, n, shapeOk) := mmaShape ca cb cd tra trb
  matrixIllegal (mmaFormats ca.fmt cb.fmt cd.fmt scaled && shapeOk)
  matrixIllegal (scaled || isKN ca.fmt || c.s == .q 0)
  let v ← if scaled || isKN ca.fmt then rd else pure 0
  let table ← if isKN ca.fmt then do
      let a ← matrixPtr v 0 160 32 false
      let r ← matrixAccess (.vecLoad [{ pos := 0, len := 1280, addr := a, boff := 0 }]) v a
      pure r.val
    else pure 0
  let shift : Int := if scaled then -(toSigned 8 v.toNat + toSigned 8 (v.toNat / 256)) else 0
  let av (i x : Nat) : Val :=
    (t.sourceVal c.ta ca (elemBits table 8 i) (if tra then x else i) (if tra then i else x)).scale shift
  let bv (x j : Nat) : Val :=
    t.sourceVal c.tb cb (elemBits table 8 (32 + j)) (if trb then j else x) (if trb then x else j)
  let r := enabledFlags t cd fun i j =>
    let old := if zacc then 0 else t.telem c.td cd i j
    if cd.fmt == 2 then
      let s := (List.range k).foldl (fun s x =>
        match av i x, bv x j with
        | .num na ma _, .num nb mb _ => s + scaledInt (na != nb) (ma * mb) 0 0
        | _, _ => s) (0 : Int)
      (ofSigned 32 (old + s), 0)
    else mmaGroups (old, 0) (fun x => (av i x, bv x j)) k 0 ((k + 7) / 8)
  writeEnabled c.td cd fun i j => elemBits r.1 cd.width (i * cd.cols + j)
  return (max 4 ((m * n * k + mmaRate ca.fmt - 1) / mmaRate ca.fmt), r.2)

/-- TADD. -/
def effTadd (c : MatrixCmd) : M (Nat × BitVec 6) := do
  let t ← getTile
  let cd := t.cfg c.td
  let same (x : TileCfg) : Bool := x.fmt == cd.fmt && x.rows == cd.rows && x.cols == cd.cols
  matrixIllegal (same (t.cfg c.ta) && same (t.cfg c.tb) && (cd.fmt == 2 || cd.fmt == 4))
  let r := enabledFlags t cd fun i j =>
    let x := t.telem c.ta cd i j
    let y := t.telem c.tb cd i j
    if cd.fmt == 4 then floatAdd 4 rne x y else ((x + y) % 2 ^ 32, 0)
  writeEnabled c.td cd fun i j => elemBits r.1 32 (i * cd.cols + j)
  return (12, r.2)

/-- One stored row of a KN target: its containers, its block exponent and flags (R219). -/
def quantRow (t : Tile) (ta : Fin 8) (ca cd : TileCfg) (R : Nat → Rounding) (row : Nat) : Nat × Nat × BitVec 6 :=
  quantBlock cd.fmt (fun j => R (row * cd.cols + j)) ((List.range cd.cols).map fun j => t.sourceVal ta ca 127 row j)

/-- TCVT to a KN target: enabled rows whole, and their table bytes. -/
def effTcvtKn (c : MatrixCmd) (ca cd : TileCfg) (R : Nat → Rounding) (rd : M Word) : M (Nat × BitVec 6) := do
  let t ← getTile
  let rows := (List.range cd.rows).filter fun r => t.mrow.getLsbD r
  let p ← rd
  let a ← matrixPtr p (rows.headD 0) (match rows.getLast? with
    | some r => r + 1
    | none => 0) 32 true
  let qs := (List.range cd.rows).map fun r => if t.mrow.getLsbD r then quantRow t c.ta ca cd R r else (0, 0, 0)
  let old := t.tregs[c.td].toNat
  let rw := cd.cols * cd.width
  let new := replaceElems rw cd.rows old fun r =>
    if t.mrow.getLsbD r then (qs.getD r (0, 0, 0)).1 else elemBits old rw r
  let puts := rows.map fun r => { len := 8, addr := a + r, boff := 0, data := (qs.getD r (0, 0, 0)).2.1 : BitPut }
  let _ ← matrixAccess (.vecStore puts []) p a
  modTile fun t => { t with tregs := t.tregs.set c.td (BitVec.ofNat 8192 new) }
  return (12, qs.foldl (fun fl q => fl ||| q.2.2) 0)

/-- TCVT to a format that is not KN. -/
def effTcvtPlain (c : MatrixCmd) (ca cd : TileCfg) (R : Nat → Rounding) (rd : M Word) : M (Nat × BitVec 6) := do
  let t ← getTile
  let table ← if isKN ca.fmt then do
      let p ← rd
      let a ← matrixPtr p 0 32 32 false
      let r ← matrixAccess (.vecLoad [{ pos := 0, len := 256, addr := a, boff := 0 }]) p a
      pure r.val
    else pure 0
  let r := enabledFlags t cd fun i j =>
    deliverElem ca.fmt cd.fmt (R (i * cd.cols + j)) (t.sourceVal c.ta ca (elemBits table 8 i) i j)
  writeEnabled c.td cd fun i j => elemBits r.1 cd.width (i * cd.cols + j)
  return (12, r.2)

/-- TCVT (R218, R219): in RND MODE, without FTZ (R211). -/
def effTcvt (c : MatrixCmd) (rd : M Word) : M (Nat × BitVec 6) := do
  let t ← getTile
  let ca := t.cfg c.ta
  let cd := t.cfg c.td
  matrixIllegal (cd.rows == ca.rows && cd.cols == ca.cols && !(isKN ca.fmt && isKN cd.fmt))
  matrixIllegal (isKN ca.fmt || isKN cd.fmt || c.s == .q 0)
  let sl ← getSlot
  let key ← takeKey (narrowing ca.fmt cd.fmt)
  let vtn ← currentVt
  let st ← get
  let R := roundingAt (sl.rnd &&& 7) key st.cur.slotNo.val vtn
  if isKN cd.fmt then effTcvtKn c ca cd (fun i => convRounding (R i) ca.fmt cd.fmt) rd
  else effTcvtPlain c ca cd R rd

/-- TTRANS. -/
def effTtrans (c : MatrixCmd) : M (Nat × BitVec 6) := do
  let t ← getTile
  let ca := t.cfg c.ta
  let cd := t.cfg c.td
  matrixIllegal (cd.fmt == ca.fmt && !isKN ca.fmt && cd.rows == ca.cols && cd.cols == ca.rows)
  writeEnabled c.td cd fun i j => if t.mxOn j i then t.telem c.ta ca j i else 0
  return (12, 0)

/-- TROWV (R220): the row is pushed as one vector. -/
def effTrowv (c : MatrixCmd) (rd : M Word) : M (Nat × BitVec 6) := do
  let t ← getTile
  let ca := t.cfg c.ta
  let r ← rd
  matrixIllegal (Nat.blt r.toNat ca.rows)
  let row :=
    if isKN ca.fmt then
      packLanes (2 * ca.width) (fun p =>
        readPair (knBits ca.fmt) (elemBits t.tregs[c.ta].toNat (2 * ca.width) (r.toNat * (ca.cols / 2) + p))
          (t.mxOn r.toNat (2 * p)) (t.mxOn r.toNat (2 * p + 1))) (ca.cols / 2) 0
    else packLanes ca.width (fun j => if t.mxOn r.toNat j then t.telem c.ta ca r.toNat j else 0) ca.cols 0
  writeVDst 1 0 .push (BitVec.ofNat 4096 row) 0
  return (4, 0)

/-- TVROW (R220): TA[1:0] names the vector queue entry. -/
def effTvrow (c : MatrixCmd) (rd : M Word) : M (Nat × BitVec 6) := do
  let q : VSrc := .vq (Fin.ofNat 4 c.ta.val)
  awaitVSrc q
  let v ← readVSrc q
  let t ← getTile
  let cd := t.cfg c.td
  let r ← rd
  matrixIllegal (Nat.blt r.toNat cd.rows)
  if isKN cd.fmt then
    let new := t.mapPairs cd r.toNat t.tregs[c.td].toNat fun p P lo hi =>
      mergePair (knBits cd.fmt) (elemBits v.1.toNat (2 * cd.width) p) P lo hi
    modTile fun t => { t with tregs := t.tregs.set c.td (BitVec.ofNat 8192 new) }
  else
    writeEnabled c.td cd fun i j =>
      if i == r.toNat then elemBits v.1.toNat cd.width j else t.telem c.td cd i j
  return (4, 0)

/-- A command's checks and effect, its S read by `rd`. -/
def matrixEffect (c : MatrixCmd) (rd : M Word) : M (Nat × BitVec 6) := do
  checkCfgs c
  match c.minor with
  | 0 => effTld c rd
  | 1 => effTst c rd
  | 2 => effTzero c
  | 3 => effMma c rd
  | 4 => effMma c rd
  | 5 => effTadd c
  | 6 => effTcvt c rd
  | 7 => effTtrans c
  | 8 => effTrowv c rd
  | _ => effTvrow c rd

/-- A granted command: its effect, its flags at completion, and the cycles for which the engine is busy. -/
def grantEffect (c : MatrixCmd) (rd : M Word) : M Unit := do
  let r ← matrixEffect c rd
  modify fun s =>
    let s := s.setSlot s.cur ((s.slot s.cur).flagsAt (s.cycle + r.1) r.2)
    s.setTile s.cur.site { s.tile s.cur.site with mfree := s.cycle + r.1 }

/-- Waits where a body would wait, and does nothing else of it. -/
def M.awaits {α : Type} (m : M α) : M Unit := fun s =>
  match m s with
  | .error (.wait w) => .error (.wait w)
  | _ => .ok ((), s)

/-- Whether a command reads its S under the configurations in force (R213, R217 to R220). -/
def MatrixCmd.readsS (c : MatrixCmd) (t : Tile) : Bool :=
  match c.minor with
  | 0 | 1 | 4 | 8 | 9 => true
  | 3 => isKN (t.cfg c.ta).fmt
  | 6 => isKN (t.cfg c.ta).fmt || isKN (t.cfg c.td).fmt
  | _ => false

/-- The sources of a command are there before its checks: only then is its slot otherwise ready (R208). -/
def awaitSources (c : MatrixCmd) : M Unit := do
  let t ← getTile
  if c.readsS t then M.awaits (read1 c.s)
  if c.minor == 9 then awaitVSrc (.vq (Fin.ofNat 4 c.ta.val))

/-- The body of a command that a slot issues. -/
def matrixBody (c : MatrixCmd) : M Flow := do
  fenceGate true true
  awaitSources c
  grantEffect c (read1 c.s)
  modSlot fun sl => { sl with mheld := none }
  return .seq

/-! ### Grants (R35, R208) -/

/-- Whether a body would do anything but wait. -/
def M.ready {α : Type} (m : M α) (s : State) : Bool :=
  match m s with
  | .error (.wait _) => false
  | _ => true

/-- The matrix command that a word of XFOLLOW encodes, of the minors that R229 admits. -/
def followCmd (w : BitVec 32) : Option MatrixCmd :=
  if w.extractLsb' 25 7 != 0x76#7 then none
  else
    match decodeMajor36 w.toNat with
    | .ok i =>
      match matrixOf i with
      | some c => if c.op.stl == 0 && [0, 1, 2, 3, 4, 5, 7].contains c.minor then some c else none
      | none => none
    | .error _ => none

/-- The follow-on commands of a slot that wait for a grant, oldest ticket first. -/
def Tile.follows (t : Tile) (k : Fin 8) : List CopyJob := t.jobs.filter fun j => j.slot == k && j.follow == .ready

/-- Whether a follow-on is ready: its checks fail, or its lines are full. -/
def State.followReady (s : State) (site : Nat) (k : Fin 8) : Bool :=
  match (s.tile site).follows k with
  | j :: _ =>
    match followCmd j.followWord with
    | some c => M.ready (grantEffect c (pure j.followS)) { s with cur := .tile site k }
    | none => true
  | [] => false

/-- Whether a slot holds a command that is ready. -/
def State.heldReady (s : State) (site : Nat) (k : Fin 8) : Bool :=
  match ((s.tile site).slots[k].mheld).bind matrixOf with
  | some c => M.ready (do openIssue c.op; matrixBody c) { s with cur := .tile site k }
  | none => false

/-- Whether a slot has a command ready. -/
def State.matrixReady (s : State) (site : Nat) (k : Fin 8) : Bool := s.followReady site k || s.heldReady site k

/-- The slot an entry of MSLOT names, when it is valid. -/
def mslotEntry (w : Word) (i : Nat) : Option (Fin 8) :=
  let e := bitsOf w.toNat (4 * i + 3) (4 * i)
  if Nat.ble 8 e then some (Fin.ofNat 8 (e % 8)) else none

/-- The slot that the engine grants next, with the pointers it moves (R35). -/
def State.pickMatrix (s : State) (site : Nat) : Option (Fin 8 × Tile) :=
  let t := s.tile site
  let listed := (List.range 16).findSome? fun d =>
    let i := (t.mptr + d) % 16
    match mslotEntry t.mslot i with
    | some k => if s.matrixReady site k then some (i, k) else none
    | none => none
  match listed with
  | some (i, k) => some (k, { t with mptr := (i + 1) % 16 })
  | none =>
    let first := match t.mlast with
      | some k => k.val + 1
      | none => 0
    ((List.range 8).map fun d => Fin.ofNat 8 (first + d)).findSome? fun k =>
      if s.matrixReady site k then some (k, { t with mlast := some k }) else none

/-- The oldest follow-on of a slot is granted: a failing check drops it and sets XERR bit 4 (R229). -/
def State.runFollow (s : State) (site : Nat) (k : Fin 8) : State :=
  match (s.tile site).follows k with
  | [] => s
  | j :: _ =>
    let done (t : Tile) (fault : Bool) : Tile :=
      { t with
        jobs := t.jobs.map fun x => if x.ticket == j.ticket then { x with follow := .finished } else x
        xerr := if fault then t.xerr ||| 16 else t.xerr }
    match followCmd j.followWord with
    | none => s.setTile site (done (s.tile site) true)
    | some c =>
      match grantEffect c (pure j.followS) { s with cur := .tile site k } with
      | .ok (_, s') => { s' with cur := s.cur }.setTile site (done (s'.tile site) false)
      | .error _ => s.setTile site (done (s.tile site) true)

/-- A matrix instruction of the current slot (R208): it is held until the free engine grants it. A follow-on of the slot
goes first. -/
def matrixIssue (i : Instr) (c : MatrixCmd) (s : State) : Result :=
  match s.cur, openIssue c.op s with
  | .tile site k, .ok (_, s1) =>
    let s2 := s1.setSlot s1.cur { s1.slot s1.cur with mheld := some i }
    if Nat.blt s1.cycle (s1.tile site).mfree then .next (s2.hold .matrix)
    else
    match s2.pickMatrix site with
    | some (k', t) =>
      let s3 := s2.setTile site t
      if k' == k && !s2.followReady site k then issue c.op (matrixBody c) s3
      else if k' == k then .next ((s3.runFollow site k).hold .matrix)
      else .next (s2.hold .matrix)
    | none => .next (s2.hold .matrix)
  | _, _ => issue c.op (do openIssue c.op; return .seq) s

/-- TLD (R212). -/
def execTld (stl : Stl) (x : BitVec 3) (u : Src) (s : State) : Result :=
  matrixIssue (.tld stl x u) (matrixCmd 0 stl x 0 0 u 0) s
/-- TST (R212). -/
def execTst (stl : Stl) (y : BitVec 3) (u : Src) (s : State) : Result :=
  matrixIssue (.tst stl y u) (matrixCmd 1 stl 0 y 0 u 0) s
/-- TZERO (R218). -/
def execTzero (stl : Stl) (x : BitVec 3) (s : State) : Result :=
  matrixIssue (.tzero stl x) (matrixCmd 2 stl x 0 0 (.q 0) 0) s
/-- MMA (R213 to R216). -/
def execMma (stl : Stl) (x y w : BitVec 3) (u : Src) (g : BitVec 3) (s : State) : Result :=
  matrixIssue (.mma stl x y w u g) (matrixCmd 3 stl x y w u g) s
/-- MMAS (R217). -/
def execMmas (stl : Stl) (x y w : BitVec 3) (u : Src) (g : BitVec 3) (s : State) : Result :=
  matrixIssue (.mmas stl x y w u g) (matrixCmd 4 stl x y w u g) s
/-- TADD (R218). -/
def execTadd (stl : Stl) (x y w : BitVec 3) (s : State) : Result :=
  matrixIssue (.tadd stl x y w) (matrixCmd 5 stl x y w (.q 0) 0) s
/-- TCVT (R219). -/
def execTcvt (stl : Stl) (x y : BitVec 3) (u : Src) (s : State) : Result :=
  matrixIssue (.tcvt stl x y u) (matrixCmd 6 stl x y 0 u 0) s
/-- TTRANS (R218). -/
def execTtrans (stl : Stl) (x y : BitVec 3) (s : State) : Result :=
  matrixIssue (.ttrans stl x y) (matrixCmd 7 stl x y 0 (.q 0) 0) s
/-- TROWV (R220). -/
def execTrowv (stl : Stl) (y : BitVec 3) (u : Src) (s : State) : Result :=
  matrixIssue (.trowv stl y u) (matrixCmd 8 stl 0 y 0 u 0) s
/-- TVROW (R220). -/
def execTvrow (stl : Stl) (x : BitVec 3) (y : BitVec 2) (u : Src) (s : State) : Result :=
  matrixIssue (.tvrow stl x y u) (matrixCmd 9 stl x (y.setWidth 3) 0 u 0) s

/-! ### Steps of the engine -/

/-- MATRIX_GRANT: the free engine of a tile grants the next ready command of its slots. -/
def execMatrixGrant (site : Nat) (s : State) : Result :=
  if s.halted || Nat.blt s.cycle (s.tile site).mfree then .next s
  else
    match s.pickMatrix site with
    | none => .next s
    | some (k, t) =>
      let s1 := s.setTile site t
      if s.followReady site k then .next (s1.runFollow site k)
      else
        match (t.slots[k].mheld).bind matrixOf with
        | none => .next s
        | some c =>
          match issue c.op (matrixBody c) { s1 with cur := .tile site k } with
          | .next s' => .next { s' with cur := s.cur }
          | r => r

/-- MATRIX_ENGINE_FREE: the engine's busy cycles have passed (R209). -/
def execMatrixEngineFree (site : Nat) (s : State) : Result :=
  .next { s with cycle := max s.cycle (s.tile site).mfree }

/-- MSLOT_WRITE: a write of MSLOT sets the engine's pointer to 0 (R35). -/
def execMslotWrite (site : Nat) (val : Word) (s : State) : Result :=
  .next (s.setTile site { s.tile site with mslot := val, mptr := 0 })

end Sys2Proof.Machine
end

