-- ==== Sys2Proof/Machine/Boundary.lean ====
section
/-! DEFINITION. Instruction boundaries: which pending cause a slot takes there (spec/12_sys_isa.md R282, R284 to R286) and
which interrupt a core takes (R309, R310). -/

namespace Sys2Proof.Machine

/-- The pending bits of PEND in the order in which a slot takes them (R282). -/
def pendOrder : List Cause := [.debug, .wdkill, .preempt, .restore, .overwrite, .counter]

/-- OVRH of an overwrite record (R278). -/
def Overwrite.header (o : Overwrite) : Word :=
  BitVec.ofNat 64 (o.valid.toNat + o.vec.toNat * 2 + o.reg % 64 * 4 + o.srcVt % 16777216 * 256
    + o.srcSlot % 8 * 4294967296)

/-- The value a pending cause writes to TVAL (R281): OVRH for an overwrite fault, what was noted at its arrival for the
others. -/
def Slot.pendTval (sl : Slot) (c : Cause) : Word :=
  match c.pendBit with
  | some 0 => sl.ovr.header
  | some b => sl.pendVal[b]
  | none => 0

/-- EPC of the save record of a slot (R281, R292). -/
def State.recordEpc (s : State) (site : Nat) (k : Fin 8) : Half :=
  let t := s.tile site
  BitVec.ofNat 16 (Memory.read t.spad ((s.launch t.name.1).pkt.savebase * 128 + 3072 * k.val + 0xBC8) 2)

/-- The reported fault that a slot takes next: the oldest, in SYS mode the oldest of a SYS-mode access. -/
def Slot.dueFault (sl : Slot) : Option LateFault := sl.late.find? fun f => f.sys || !sl.sys

/-- The cause a slot of a tile takes at its next instruction boundary, with TVAL and return point (R281, R282, R285, R286): in
USER mode a fault that a home reported, then PEND in order, OVW and CTR held back in the guarded phase; in SYS mode the
restore request of a slot that a swap-in holds, whose return point `epc` is its record's, and a fault that a home reported of an
access issued in SYS mode. One of a USER-mode access waits for USER mode (log entry 50, DEDUCED). -/
def boundaryCause (t : Tile) (sl : Slot) (epc : Half) : Option (Cause × Word × Half) :=
  if sl.sys then
    if sl.loading && sl.pend.getLsbD 5 then some (.restore, sl.pendTval .restore, epc)
    else sl.dueFault.map fun f => (f.cause, f.tval, f.pc)
  else
    match sl.dueFault with
    | some f => some (f.cause, f.tval, f.pc)
    | none =>
      (pendOrder.find? fun c =>
        match c.pendBit with
        | some b => sl.pend.getLsbD b.val && !(t.guarded && (c == .overwrite || c == .counter))
        | none => false).map fun c => (c, sl.pendTval c, if c == .restore then epc else sl.pc)

/-- Whether a slot stands at an instruction boundary at all: it runs a thread and no double fault has stopped it. -/
def Slot.atBoundary (sl : Slot) : Bool := sl.thread && sl.wait != .dead

/-- Whether the timebase has reached TIMERCMP since its last write and no INTACK has taken it: source 4 is pending from the first tick,
after that of the write, in which TB is at or above TIMERCMP (R427). -/
def State.timerDue (s : State) (a : Agent) : Bool :=
  let c := s.core a
  c.timerArmed && Nat.ble c.timercmp.toNat s.tb.toNat && Nat.blt c.timerAt s.tb.toNat

/-- IPEND of a core (R309): sources 0 and 1 hold while their condition holds, the others keep their edges. -/
def State.ipend (s : State) (a : Agent) : BitVec 7 :=
  let c := s.core a
  let code := match a with
    | .collier => collierCode
    | .stoker r => stokerCode r
    | .tile _ _ => 0
  let msg : Bool := s.flue.any fun m => m.dst == code && !m.onLink
  let link : Bool := s.flue.any fun m => m.dst == code && m.onLink
  (c.iedge &&& 0x7C) ||| BitVec.ofNat 7 (msg.toNat + link.toNat * 2 + (s.timerDue a).toNat * 16)

/-- The lowest set bit of an interrupt set. -/
def lowestBit (x : BitVec 7) : Option (Fin 7) := (List.finRange 7).find? fun k => x.getLsbD k.val

/-- A core's thread at its instruction boundary: an IDLE that it waited in has ended (R301), so that the next instruction is the
one behind it (R310). -/
def Slot.afterIdle (sl : Slot) : Slot := if sl.wait == .idle then { sl.next 2 with wait := .none } else sl

/-- The core takes the lowest pending enabled interrupt (R310), once its issued results have completed (R142). -/
def State.takeInterrupt (s : State) (a : Agent) : State :=
  let s := s.advance a (s.slot a).lastDue
  let c := s.core a
  match lowestBit (s.ipend a &&& c.iena) with
  | some k => if c.ie then s.setCore a ({ c with th := c.th.afterIdle }.enterTrap (0x40 + k.val) true 0 c.th.afterIdle.pc) else s
  | none => s

/-- Whether an interrupt is about to be taken at a core. -/
def State.interrupted (s : State) (a : Agent) : Bool :=
  a.isCore && (s.core a).running && (s.core a).ie && (s.ipend a &&& (s.core a).iena) != 0

/-- A slot takes its pending cause: the entry is that of R283, once every result it waits for has completed. A fault that a home
reported rejects the guarded phase (R262, R289), and one of a SYS-mode access is a double fault (R285). -/
def State.takePending (s : State) (site : Nat) (k : Fin 8) : State :=
  let a : Agent := .tile site k
  let t := s.tile site
  let sl := t.slots[k]
  match (if sl.atBoundary then boundaryCause t sl (s.recordEpc site k) else none) with
  | none => s
  | some (c, tv, ret) =>
    let s1 := s.advance a sl.lastDue
    let clear (s : State) : State := s.setSlot a { s.slot a with late := sl.dueFault.elim sl.late sl.late.erase }
    if c.isAsync || c == .counter then
      if s1.awaitsResult a && c != .restore then s.tick
      else
        let s2 := s1.enterTile site k c tv ret
        s2.setSlot a { s2.slot a with loading := false }
    else if sl.sys || sl.dueFault.any (·.sys) then (clear s1).doubleFault site k c tv ret
    else if s1.rejects site k c then (clear s1).rejectFor site c
    else if s1.awaitsResult a then s.tick
    else (clear s1).enterTile site k c tv ret

/-- Whether a slot has a cause to take at its boundary; a wafer halt and a chain in test mode let none through (R399, R415). -/
def State.pendingAt (s : State) (a : Agent) : Bool :=
  match a with
  | .tile site k =>
    let t := s.tile site
    !s.halted && !t.outOfService && t.slots[k].atBoundary && (boundaryCause t t.slots[k] (s.recordEpc site k)).isSome
  | _ => false

end Sys2Proof.Machine
end

