-- ==== Sys2Proof/Machine/Device.lean ====
section
/-! DEFINITION. Device registers of the cores and what writing them does (spec/19_sys_wafer.md R409 to R414, R418 to R420,
spec/18_sys_determinism_debug.md R407, spec/20_prog_thermal.md R427), and the reset of a tile (spec/12_sys_isa.md R305). -/

namespace Sys2Proof.Machine

/-! ### Sites of a region -/

/-- The site at position (y mod 64, x mod 64) of a region, given as 64 × row + column. -/
def siteIn (region p : Nat) : Nat := (region / 8 * 64 + p / 64) * 512 + region % 8 * 64 + p % 64

/-- The sites of a region in row order. -/
def regionSites (region : Nat) : List Nat := (List.range 4096).map (siteIn region)

/-- The sites that stand in the tile table, of a region. A site that stands in no row is a fresh good tile. -/
def State.rowsOf (s : State) (region : Nat) : List (Nat × Tile) := s.tiles.filter fun r => regionOf r.1 == region

/-- Whether a tile counts as good (R412, R421). A tile in test mode is still one (R415). -/
def Tile.isGood (t : Tile) : Bool := t.good && !t.fused && !t.retired

/-- The good tiles of a region (R413). -/
def State.goodOf (s : State) (region : Nat) : Nat := 4096 - ((s.rowsOf region).filter fun r => !r.2.isGood).length

/-- Whether a region is class 0: every sub-region of it is fused off (R412), or its Stoker's image did not verify (R416). -/
def State.regionFused (s : State) (region : Nat) : Bool :=
  (s.stoker region).sfuse == BitVec.allOnes 16 || (s.stoker region).noBoot

/-- The class of a region (R413). -/
def State.classOf (s : State) (region : Nat) : Nat :=
  if s.regionFused region then 0
  else
    let g := s.goodOf region
    if Nat.ble 4032 g then 1 else if Nat.ble 3968 g then 2 else if Nat.ble 3840 g then 3 else 4

/-- The local-memory offset of a region's good map in its Stoker (R417). -/
def goodMapBase : Nat := 0x3FE00

/-- A site's bit in its region's good map, written (R417). -/
def State.markGood (s : State) (site : Nat) (good : Bool) : State :=
  let r := regionOf site
  let c := s.stoker r
  let b := 64 * (site / 512 % 64) + site % 64
  let v := Memory.read c.mem (goodMapBase + b / 8) 1
  let v := v - bitsOf v (b % 8) (b % 8) * 2 ^ (b % 8) + good.toNat * 2 ^ (b % 8)
  { s with stokers := Table.put s.stokers r { c with mem := Memory.write c.mem (goodMapBase + b / 8) 1 v } }

/-- The good tiles of the wafer. -/
def State.goodTiles (s : State) : Nat := Config.sites - (s.tiles.filter fun r => !r.2.isGood).length

/-- The grade code that a good-tile count meets (R414). -/
def gradeOf (good : Nat) : Nat :=
  if Nat.ble 250000 good then 1 else if Nat.ble 240000 good then 2 else if Nat.ble 225000 good then 3 else 0

/-- The guarantee of a grade code (R414). -/
def gradeFloor : Nat → Nat
  | 1 => 250000
  | 2 => 240000
  | 3 => 225000
  | _ => 0

/-! ### Resetting a tile (R305) -/

/-- A slot freed and in USER mode. Its generation and its issue numbers go on. -/
def Slot.wiped (sl : Slot) : Slot := { gen := sl.gen, nextId := sl.nextId, exchanges := sl.exchanges, readyAt := sl.readyAt }

/-- A tile with every state that SWPIN and RESETT overwrite at its reset value; the router's counters, what the tile is and
its trace record counts go on. -/
def Tile.wiped (t : Tile) (sys : List Half) : Tile :=
  { retired := t.retired, slots := t.slots.map Slot.wiped, sysSeg := sys, colourCtr := t.colourCtr, colour := t.colour,
    condemned := t.condemned, bankAt := t.bankAt, trSeq := t.trSeq, trLast := t.trLast, trRebase := t.trRebase, trLost := t.trLost, sums := t.sums, good := t.good,
    fused := t.fused, outOfService := t.outOfService, eccStops := t.eccStops }

/-- A tile is reset as by RESETT (R305): it holds no vtile any more. -/
def State.resetTile (s : State) (site : Nat) : State := s.setTile site ((s.tile site).wiped s.sysImage)

/-! ### Thermal registers (R418, R419) -/

/-- The sensor and duty state of a region. -/
def State.therm (s : State) (region : Nat) : RegionThermal := Table.getD s.thermal region {}

/-- The state with it replaced. -/
def State.setTherm (s : State) (region : Nat) (r : RegionThermal) : State :=
  { s with thermal := Table.put s.thermal region r }

/-- A write of THR_DUTYj: 0 and above 16 are ignored; nothing while the link has no permit (R419). -/
def State.writeDuty (s : State) (region : Nat) (v : Nat) : Option State :=
  let d := v % 32
  if d == 0 || Nat.blt 16 d then some s
  else if (s.link region).toStoker == 0 then none
  else
    let s := s.toStoker region 0x80 (d * 2 ^ 16)
    some (s.setTherm region { s.therm region with duty := d, pend := true })

/-- An interrupt source of a core becomes pending (R309). -/
def State.raise (s : State) (a : Agent) (k : Nat) : State :=
  let c := s.core a
  s.setCore a { c with iedge := c.iedge ||| (1#7 <<< k) }

/-- A region's trip: in force from CRIT on until TEMP falls below CRIT - 80 (R419). -/
def RegionThermal.judged (x : RegionThermal) (crit : BitVec 12) : RegionThermal :=
  { x with trip := Nat.ble crit.toNat x.temp.toNat || (x.trip && !Nat.blt (x.temp.toNat + 80) crit.toNat) }

/-- A write of SNS_CRIT: every region's trip follows the new value. -/
def State.writeCrit (s : State) (crit : BitVec 12) : State :=
  (List.range 64).foldl (fun s r => s.setTherm r ((s.therm r).judged crit)) { s with snsCrit := crit }

/-- A W1C write of THERM_ALERT: a bit whose sensor crosses in the same cycle ends set, and is reported again (R419, R430). -/
def State.clearAlerts (s : State) (v : Word) : State :=
  let kept := if s.crossed.1 == s.cycle then s.crossed.2 &&& v else 0
  let s := { s with alert := (s.alert &&& ~~~v) ||| kept }
  if kept == 0 then s else s.raise .collier 3

/-- A sensor of a region crosses upward to WARN: its ALERT bit is set, and source 3 becomes pending when it was clear. -/
def State.crossing (s : State) (region : Nat) : State :=
  let bit : Word := 1#64 <<< region
  let s' := { s with
    alert := s.alert ||| bit
    crossed := (s.cycle, if s.crossed.1 == s.cycle then s.crossed.2 ||| bit else bit) }
  if s.alert &&& bit == 0 then s'.raise .collier 3 else s'

/-- A core with another count of corrected errors or another threshold: source 6 becomes pending when the count has come to stand at or
above the threshold (R309, R418). -/
def State.setEcc (s : State) (a : Agent) (n thr : BitVec 32) : State :=
  let c := s.core a
  let s := s.setCore a { c with eccCnt := n, eccThr := thr }
  if Nat.ble thr.toNat n.toNat && !Nat.ble c.eccThr.toNat c.eccCnt.toNat then s.raise a 6 else s

/-- A corrected ECC error is reported to a core. -/
def State.corrected (s : State) (a : Agent) : State := s.setEcc a (satInc (s.core a).eccCnt) (s.core a).eccThr

/-- An uncorrectable error appears in a word of a tile's scratchpad, or from word 16,384 on of its scale shadow (R98). -/
def State.upset (s : State) (site word : Nat) : State :=
  let t := s.tile site
  s.setTile site { t with eccWords := t.eccWords.filter (· != word) ++ [word] }

/-- An uncorrectable error appears in a word of rim memory. -/
def State.upsetRim (s : State) (word : Nat) : State := { s with hbmEcc := s.hbmEcc.filter (· != word) ++ [word] }

/-- A peer link has trained: its UP bit reads 1 (R418, R424). -/
def State.peerLinkUp (s : State) (link : Fin 16) : State :=
  { s with peers := Table.put s.peers link.val { Table.getD s.peers link.val {} with up := true } }

/-- The 64 sites of a region on the management chain of its row (R415). -/
def chainSegment (region row : Fin 64) : List Nat := (List.range 64).map fun x => siteIn region.val (row.val * 64 + x)

/-- The region's Stoker takes the chain segment of a row into test mode, in which its tiles execute nothing, or out of it (R415). -/
def State.testMode (s : State) (region row : Fin 64) (on : Bool) : State :=
  (chainSegment region row).foldl (fun s site => s.setTile site { s.tile site with outOfService := on }) s

/-! ### Translation registers (R420) -/

/-- An invalidation of one page or of all pages of an ASID starts in the 48 RXUs. -/
def State.rxuInvalidate (s : State) (asid : Nat) (page : Option Nat) : State :=
  { s with
    rxuBusy := true
    rxu := s.rxu.filter fun r => !(r.1.1 == asid && (page.isNone || page == some r.1.2)) }

/-! ### Power gating (R411) -/

/-- Whether a tile of a sub-region holds a vtile, a swap in progress or a migration: a tile that a gang or a migration holds. -/
def State.subBusy (s : State) (region sub : Nat) : Bool :=
  let inside (site : Nat) : Bool := regionOf site == region && subRegionOf site == sub
  s.tiles.any (fun r => inside r.1 && (r.2.occ.isSome || r.2.ni != .direct)) || s.moves.any (fun m => inside m.old || inside m.new)
    || s.launches.any fun l => l.2.gangs.any fun g => g.sites.any fun x => inside x.2

/-- The tiles of a sub-region lose their state when its core supply is absent, and are reset as it returns (R410, R411). -/
def State.ungate (s : State) (region sub : Nat) : State :=
  { s with tiles := s.tiles.map fun r =>
      if regionOf r.1 == region && subRegionOf r.1 == sub then
        (r.1, { r.2.wiped s.sysImage with trRebase := true })
      else r }

/-- A write of SGATE: a 1 for a busy sub-region is ignored; a bit that goes from 1 to 0 ungates its sub-region. -/
def State.writeSgate (s : State) (region : Nat) (v : BitVec 16) : State :=
  let old := (s.stoker region).sgate
  let new := BitVec.ofNat 16 ((List.range 16).foldl (fun n k =>
    n + (v.getLsbD k && (old.getLsbD k || !s.subBusy region k)).toNat * 2 ^ k) 0)
  let s := (List.range 16).foldl (fun s k => if old.getLsbD k && !new.getLsbD k then s.ungate region k else s) s
  { s with stokers := Table.put s.stokers region { s.stoker region with sgate := new } }

/-- The core supply of a site that a placement or migration needs: a gated sub-region is ungated first (R411). -/
def State.supply (s : State) (site : Nat) : State :=
  let r := regionOf site
  let k := subRegionOf site
  let c := s.stoker r
  if c.sgate.getLsbD k then
    ({ s with stokers := Table.put s.stokers r { c with sgate := c.sgate &&& ~~~(1#16 <<< k) } } : State).ungate r k
  else s

/-- A tile is taken out of service in the field: its Stoker clears the good-map bit and reports it (R421). What the Collier knows
changes with RETIRE_TILE, in one action. -/
def State.reportBad (s : State) (site : Nat) : State :=
  ((s.setTile site { s.tile site with condemned := false }).markGood site false).toCollier (regionOf site) 0x82 site

/-- A tile that was to go and that its vtile has left goes now. -/
def State.reportLeft (s : State) (site : Nat) : State :=
  if (s.tile site).condemned && (s.tile site).occ.isNone then s.reportBad site else s

/-! ### Capture units (R407) -/

/-- A capture unit with its values zeroed. -/
def CaptureUnit.clear (c : CaptureUnit) : CaptureUnit := { qty := c.qty, filt := c.filt, lidx := c.lidx }

/-- A write of CSEL. -/
def CaptureUnit.select (c : CaptureUnit) (v : Nat) : CaptureUnit :=
  let d := if v % 16 != c.qty || bitsOf v 5 5 == 1 then c.clear else c
  { d with qty := v % 16, filt := bitsOf v 4 4 == 1, lidx := bitsOf v 31 16 }

/-- A write of a region's CSEL. -/
def State.captureSelect (s : State) (region : Nat) (v : Nat) : State :=
  let c := s.stoker region
  { s with stokers := Table.put s.stokers region { c with cap := c.cap.select v } }

/-! ### Timer (R427) -/

/-- A write of TIMERCMP: the comparison is armed, from the next tick on; a pending source 4 stays pending. -/
def State.writeTimer (s : State) (a : Agent) (v : Word) : State :=
  let s := if s.timerDue a then s.raise a 4 else s
  s.setCore a { s.core a with timercmp := v, timerArmed := true, timerAt := s.tb.toNat }

/-- Source 4 has become pending by the comparison, which is over. -/
def State.timerTick (s : State) (a : Agent) : State :=
  if s.timerDue a then (s.setCore a { s.core a with timerArmed := false }).raise a 4 else s

end Sys2Proof.Machine
end

