-- ==== Sys2Proof/Machine/Ring.lean ====
section
/-! DEFINITION. Gangs and placement entries (spec/01_machine.md R18, spec/14_sys_swap.md R338) and the parking rings of gangs
(R348). -/

namespace Sys2Proof.Machine

/-! ### Gangs and placement entries -/

/-- The gang of a vtile (R18). -/
def Launch.gangOf (l : Launch) (vt : Nat) : Nat := vt / 2 ^ l.pkt.ganglog

/-- The number of vtiles of a gang (R18). -/
def Launch.gangSize (l : Launch) (j : Nat) : Nat := min (2 ^ l.pkt.ganglog) (l.pkt.vtiles - j * 2 ^ l.pkt.ganglog)

/-- The vtiles of a gang. -/
def Launch.gangVts (l : Launch) (j : Nat) : List Nat :=
  (List.range (l.gangSize j)).map (· + j * 2 ^ l.pkt.ganglog)

/-- The number of gangs of a launch. -/
def Launch.gangCount (l : Launch) : Nat := (l.pkt.vtiles + 2 ^ l.pkt.ganglog - 1) / 2 ^ l.pkt.ganglog

/-- A gang of a launch. -/
def Launch.gang (l : Launch) (j : Nat) : Gang := l.gangs.getD j {}

/-- The launch with one gang changed. -/
def Launch.modGang (l : Launch) (j : Nat) (f : Gang → Gang) : Launch :=
  { l with gangs := l.gangs.mapIdx fun i g => if i == j then f g else g }

/-- Changes one gang of a live launch. -/
def State.modGang (s : State) (idx j : Nat) (f : Gang → Gang) : State :=
  match Table.get? s.launches idx with
  | some l => s.setLaunch idx (l.modGang j f)
  | none => s

/-- The physical address of a vtile's placement entry (R338). -/
def Launch.ptEntry (l : Launch) (vt : Nat) : Nat := l.ptbase + 8 * vt

/-- A placement entry with some bits replaced: `v` stands in bits [hi:lo]. The table is Amizhabo's, under the device key (R367). -/
def State.setPt (s : State) (l : Launch) (vt hi lo v : Nat) : State :=
  let a := l.ptEntry vt
  let w := s.hbm64 a
  { s.sealedFor none (unitsIn a 8) with hbm := Memory.write s.hbm a 8 (w - bitsOf w hi lo * 2 ^ lo + v % 2 ^ (hi + 1 - lo) * 2 ^ lo) }

/-- STATE of a placement entry: 0 ABSENT, 1 PRESENT, 2 RETIRED (R338). -/
def State.setPtState (s : State) (l : Launch) (vt st : Nat) : State := s.setPt l vt 19 18 st

/-- Whether a vtile of a launch has retired (R24, R31). -/
def State.vtRetired (s : State) (idx vt : Nat) : Bool :=
  match Table.get? s.launches idx with
  | none => true
  | some l =>
    match l.gangs[vt / 2 ^ l.pkt.ganglog]? with
    | some g => g.retiredVts.contains vt || g.state == .retired
    | none => false

/-! ### Parking rings (R348, R349) -/

/-- The log of a ring's size: 4 KiB times 2^RINGLOG (R337, R344). -/
def Launch.ringLog (l : Launch) : Nat := if Nat.ble l.gangCount 16384 then 4 else 0

/-- The physical address of a gang's ring. -/
def Launch.ringBase (l : Launch) (gang : Nat) : Nat := l.parkbase + gang * 2 ^ (12 + l.ringLog)

/-- The 16-byte units of a ring's entry space. -/
def Launch.ringUnits (l : Launch) : Nat := (2 ^ (12 + l.ringLog) - 64) / 16

/-- The header doubleword of a ring (R348). -/
def Ring.header (r : Ring) : Nat :=
  r.head % 2 ^ 16 + r.tail % 2 ^ 16 * 2 ^ 16 + r.entries.length % 2 ^ 16 * 2 ^ 32 + r.summoned.toNat * 2 ^ 48
    + r.drainpark.toNat * 2 ^ 49

/-- The parking ring of a gang: the header as it stands in rim memory, and COUNT entries from HEAD on (R348). -/
def State.ring (s : State) (idx gang : Nat) : Ring :=
  let w := s.hbm64 ((s.launch idx).ringBase gang)
  let es := ((s.rings.find? fun r => r.1 == (idx, gang)).map (·.2)).getD []
  { entries := (es.dropWhile fun e => e.2 != bitsOf w 15 0).take (bitsOf w 47 32), head := bitsOf w 15 0, tail := bitsOf w 31 16,
    summoned := bitsOf w 48 48 == 1, drainpark := bitsOf w 49 49 == 1 }

/-- The state with the entries of a parking ring replaced. -/
def State.putRing (s : State) (idx gang : Nat) (es : List (Packet × Nat)) : State :=
  { s with rings :=
      if s.rings.any fun x => x.1 == (idx, gang) then s.rings.map fun x => if x.1 == (idx, gang) then (x.1, es) else x
      else s.rings ++ [((idx, gang), es)] }

/-- A ring stored, with its header in rim memory. -/
def State.storeRing (s : State) (idx gang : Nat) (r : Ring) : State :=
  let a := (s.launch idx).ringBase gang
  { (s.putRing idx gang r.entries).sealedFor (some (s.launch idx).part) (unitsIn a 8) with hbm := Memory.write s.hbm a 8 r.header }

/-- The ring without its entry i. -/
def Ring.remove (r : Ring) (i : Nat) : Ring :=
  let es := r.entries.eraseIdx i
  { r with entries := es, head := (es.head?.map (·.2)).getD r.tail }

/-- A vtile that retires leaves its entries of its gang's ring to be handled as late (R31). -/
def State.leaveRing (s : State) (idx vt : Nat) : State :=
  let g := (s.launch idx).gangOf vt
  let r := s.ring idx g
  let mine (e : Packet × Nat) : Bool := e.1.dst == .vtile idx vt
  if !r.entries.any mine then s
  else
    let es := r.entries.filter fun e => !mine e
    let s := s.storeRing idx g { r with entries := es, head := (es.head?.map (·.2)).getD r.tail }
    { s with fabric := s.fabric ++ (r.entries.filter mine).map fun e => { e.1 with hop := .gone, counts := false } }

end Sys2Proof.Machine
end

