-- ==== Sys2Proof/Machine/Retire.lean ====
section
/-! DEFINITION. The end of threads and of vtiles (spec/01_machine.md R22 to R24, R31, spec/18_sys_determinism_debug.md R403,
R406), and what of a launch a retirement changes (spec/14_sys_swap.md R338, R345). -/

namespace Sys2Proof.Machine

/-! ### The end of a thread (R22, R403, R406) -/

/-- The handler entry of a class (R25). -/
def Launch.handler (l : Launch) (cls : Nat) : Half := l.handlers.getD cls 0xFFFF

/-- KIND of the record that a reflection makes the current message (R287): no send carries it. -/
def faultRecordKind : Nat := 4

/-- What the end of an activation writes down: an ACT_END record, its RUN to the region's capture unit, and its times to
the sums of its sender. -/
def State.recordEnd (s : State) (site : Nat) (k : Fin 8) : State :=
  let t := s.tile site
  let sl := t.slots[k]
  match sl.msg with
  | none => s
  | some m =>
    let run := s.tb.toNat - sl.started
    let cls := (sl.msgcls.extractLsb' 0 6).toNat
    let s := s.emit site 0x02 k.val false
      (traceThread t.name.1 t.name.2 ((s.launch t.name.1).handler cls).toNat cls) (run % 2 ^ 32) 0
    if m.kind == faultRecordKind then s
    else (s.capture site 3 t.name.1 run).addSum site t.name.1 m.srcVt m.transit (sl.started - m.accepted) run 1

/-- A thread ends at a tile: what it has issued completes, and its slot is free (R22). -/
def State.endThread (s : State) (site : Nat) (k : Fin 8) : State :=
  let s := s.advance (.tile site k) (s.slot (.tile site k)).lastDue
  let s := s.recordEnd site k
  s.setSlot (.tile site k) (s.slot (.tile site k)).free

/-! ### Retirement (R24, R31) -/

/-- Whether a packet carries a store, an atomic, a send or a register write of a vtile (R24). -/
def Packet.ofVtile (p : Packet) (idx vt : Nat) : Bool :=
  p.src.idx == idx && p.src.vt == vt && p.unperformed && match p.body with
    | .request op _ _ => !op.onlyReads
    | _ => true

/-- Whether every store, atomic, send and register write of a vtile has been performed. -/
def State.allPerformed (s : State) (site idx vt : Nat) : Bool := !s.anyOpen site (·.ofVtile idx vt)

/-- The conditions of R24, for the slot that executes DONEF. -/
def State.retireReady (s : State) (site : Nat) (k : Fin 8) : Bool :=
  let t := s.tile site
  (List.finRange 8).all (fun j => j == k || !t.slots[j].thread)
    && t.iqs.toList.all (fun q => q.msgs.isEmpty) && t.jobs.isEmpty
    && s.allPerformed site t.name.1 t.name.2

/-- A tile that its vtile has left: its slots and its interface are free. -/
def Tile.vacated (t : Tile) : Tile :=
  { t with
    occ := none, slots := t.slots.map Slot.vacant, hold := [], heldReqs := [], ctrSets := [], jobs := [],
    streams := Vector.replicate 4 none, iqs := Vector.replicate 4 {}, names := [], guard := {},
    ni := .direct, sealing := false, fwd := none, stop := false, nodisp := false, faulted := false, svq := [], quiesce := false,
    packMask := none, savedMask := 0, fresh := false, pdone := false, killSent := false, opening := false }

/-- A vtile that retires before its Stoker has taken its PDONE: the Stoker has taken it by then, and reports PLACED when it
was the last of the gang in the region. -/
def State.closeOpening (s : State) (site : Nat) : State :=
  let t := s.tile site
  if !t.opening then s
  else
    let j := (s.launch t.name.1).gangOf t.name.2
    let r := regionOf site
    let s := { s with flue := s.flue.filter fun m => !(m.src == site && m.type == 0x71) }.setTile site { t with opening := false }
    if ((s.launch t.name.1).gang j).sites.any fun x => regionOf x.2 == r && (s.tile x.2).opening then s
    else s.toCollier r 0x6A (t.name.1 % 2 ^ 16 + j % 2 ^ 24 * 2 ^ 16)

/-- The Stokers report each retired vtile at whose site the counter of its residency's colour reads zero (R347): the counts of the
launch's tiles of the region first (R334). -/
def State.reportRetired (s : State) : State :=
  let ready (x : Nat × Nat × Nat) : Bool := (s.tile x.2.1).colourCtr[(Fin.ofNat 16 x.2.2 : Fin 16)] == 0
  (s.retiring.filter ready).foldl (fun s x =>
    let r := regionOf x.2.1
    (s.sendStats r x.1).toCollier r 0x43 (x.1 % 2 ^ 16 + 2 ^ 16)) { s with retiring := s.retiring.filter fun x => !ready x }

/-- The vtile of a site retires: its slots and interface are free, held writes and requests become late, the sums are
written out, the placement entry reads RETIRED, and the region's Stoker reports it on its command link (R31, R334, R347). A request that waited at an empty line
has left the fabric before, and no router counts it any more (R346). A held
queue-mode write is counted as LATE in its sender's launch, as every late message is (log entry 36, DEDUCED). -/
def State.retireVtile (s : State) (site : Nat) : State :=
  let nm := (s.tile site).name
  let s := (s.closeOpening site).flushSums site
  let s := s.emit site 0x04 0 false (nm.1 % 2 ^ 16 + nm.2 % 2 ^ 24 * 2 ^ 16) 0 0
  let t := s.tile site
  let s := t.hold.foldl (fun s h => s.countAt site h.src.idx fun g => { g with late := g.late + 1 }) s
  let s := s.setTile site t.vacated
  let late := t.heldReqs.map fun p : Packet => { p with counts := false }
  let s := ({ s with fabric := s.fabric ++ late } : State).leaveRing nm.1 nm.2
  match Table.get? s.launches nm.1 with
  | none => s
  | some l =>
    let j := l.gangOf nm.2
    let vts := (l.gang j).retiredVts ++ [nm.2]
    let s := (s.reportLeft site).modGang nm.1 j fun g =>
      { g with retiredVts := vts, sites := g.sites.filter (·.1 != nm.2),
               state := if vts.length == l.gangSize j && g.phase != 6 then .retired else g.state }
    State.reportRetired { s.setPtState l nm.2 2 with retiring := s.retiring ++ [(nm.1, site, t.colour)] }

end Sys2Proof.Machine
end

