-- ==== Sys2Proof/Machine/Copy.lean ====
section
/-! DEFINITION. The copy engine, major 0x39 (spec/08_isa_matrix_copy.md R221 to R232, spec/04_memory.md R103, R121 to R124): a
job moves in pieces of one destination line, or of the blocks that a conversion needs, each read and written at its home
in one step; a piece of another vtile's scratchpad is read or written by a TC0 request that travels there (R104, R105). -/

namespace Sys2Proof.Machine

/-! ### Templates and geometry (R221, R223) -/

/-- The geometry of a job, a digest or a stream. -/
structure Geometry where
  src : Word
  dst : Word
  rowLen : Nat
  rows : Nat
  sstride : Int
  dstride : Int
  conv : Bool
  bar : Option Nat
  reserved : Nat
  deriving DecidableEq, Repr

/-- The geometry of a template with the offsets of an operand added (R223). -/
def geometry (tmpl : BitVec 256) (o : Word) : Geometry :=
  let v := tmpl.toNat
  { src := ptrAdd (BitVec.ofNat 64 (bitsOf v 63 0)) (toSigned 32 (bitsOf o.toNat 31 0))
    dst := ptrAdd (BitVec.ofNat 64 (bitsOf v 127 64)) (toSigned 32 (bitsOf o.toNat 63 32))
    rowLen := bitsOf v 147 128, rows := bitsOf v 159 148 + 1,
    sstride := toSigned 32 (bitsOf v 191 160), dstride := toSigned 32 (bitsOf v 223 192),
    conv := bitsOf v 239 239 == 1, bar := if bitsOf v 238 238 == 1 then some (bitsOf v 237 224 * 8) else none,
    reserved := bitsOf v 255 240 }

/-- Elements of a row under CONV. -/
def Geometry.elems (g : Geometry) : Nat := g.rowLen * 8 / fmtWidth (ptrFmt g.src)

/-- Destination bytes of a row (R226). -/
def Geometry.dlen (g : Geometry) : Nat := if g.conv then g.elems * fmtWidth (ptrFmt g.dst) / 8 else g.rowLen

/-- Elements that one side of a conversion moves together: its block, or one element. -/
def convUnit (p : Word) : Nat := if isKN (ptrFmt p) then blockLen (ptrBlk p) else 1

/-- Whether a format and block code may stand on a side of a converting copy (R226, R70). -/
def convSideOk (p : Word) : Bool := Nat.ble 4 (ptrFmt p) && Nat.ble (ptrFmt p) 11 && knLegal (ptrFmt p) (ptrBlk p)

/-- The formats and lengths of a converting copy (R226). -/
def Geometry.convOk (g : Geometry) : Bool :=
  convSideOk g.src && convSideOk g.dst && g.rowLen * 8 % fmtWidth (ptrFmt g.src) == 0
    && g.elems % convUnit g.src == 0 && g.elems % convUnit g.dst == 0

/-- The alignment that a row start needs on a side of a converting copy. -/
def convRowAlign (p : Word) : Nat :=
  if isKN (ptrFmt p) then blockBytes (ptrFmt p) (ptrBlk p) else fmtWidth (ptrFmt p) / 8

/-- Whether every row start of a side is aligned. -/
def rowsAligned (p : Word) (rows : Nat) (stride : Int) : Bool :=
  let n := convRowAlign p
  ptrAddr p % n == 0 && (rows == 1 || stride % (n : Int) == 0)

/-! ### Footprints (R122) -/

/-- Where bytes lie: a space, an index in it, and a range of signed addresses. -/
structure Region where
  space : Nat
  index : Nat
  lo : Int
  hi : Int
  deriving DecidableEq, Repr

/-- Whether two regions overlap. -/
def Region.overlaps (x y : Region) : Bool :=
  x.space == y.space && x.index == y.index && decide (x.lo < y.hi) && decide (y.lo < x.hi)

/-- The region of bytes from a distance `lo` up to `hi` of a pointer, seen from a vtile: its own scratchpad is one place
under both spaces. -/
def regionAt (vt : Nat) (p : Word) (lo hi : Int) : Region :=
  let a := ptrAddr p
  match ptrSpace p with
  | 0 => { space := 0, index := 0, lo := a + lo, hi := a + hi }
  | 1 =>
    let o : Int := (a % 2 ^ 32 : Nat)
    { space := 1, index := if bitsOf a 55 32 == vt then 0 else bitsOf a 55 32 + 1, lo := o + lo, hi := o + hi }
  | 2 => { space := 1, index := 0, lo := a + lo, hi := a + hi }
  | _ =>
    let o : Int := (a % 2 ^ 48 : Nat)
    { space := 3, index := a / 2 ^ 48, lo := o + lo, hi := o + hi }

/-- The hull of rows of `len` bytes. -/
def hullAt (vt : Nat) (p : Word) (rows : Nat) (stride : Int) (len : Nat) : Region :=
  let top : Int := ((rows : Int) - 1) * stride
  regionAt vt p (min 0 top) (max 0 top + len)

/-- The source footprint. -/
def Geometry.srcHull (g : Geometry) (vt : Nat) : Region := hullAt vt g.src g.rows g.sstride g.rowLen
/-- The destination footprint; a digest writes 32 bytes. -/
def Geometry.dstHull (g : Geometry) (vt : Nat) (digest : Bool) : Region :=
  if digest then regionAt vt g.dst 0 32 else hullAt vt g.dst g.rows g.dstride g.dlen

/-! ### Issue (R223 to R225) -/

/-- The spaces of a copy: all of R105. -/
def copySpace : SpaceRule := { peer := none }

/-- Steps 1 to 3 of R224. -/
def checkJobEarly (g : Geometry) (digest : Bool) : M Unit := do
  require (g.rowLen != 0 && g.reserved == 0 && !(g.conv && digest) && (!g.conv || g.convOk)) (.word .illegalOperand)
  let vt ← currentVt
  let fs := g.srcHull vt
  let fd := g.dstHull vt digest
  require (!fs.overlaps fd) (.word .illegalOperand)
  let _ ← placeOf copySpace g.src 0 1
  let inPad (f : Region) : Bool := f.space != 1 || (decide (0 ≤ f.lo) && decide (f.hi ≤ (Config.spadBytes : Int)))
  require (inPad fs) (.trap .bounds g.src)
  let _ ← placeOf copySpace g.dst 0 1
  require (inPad fd) (.trap .bounds g.dst)

/-- Steps 4 and 5 of R224: a barrier word below 0x2_0000 is all that BAROFF can name. -/
def checkJobLate (g : Geometry) : M Unit := do
  require (!g.conv || rowsAligned g.src g.rows g.sstride) (.trap .alignment g.src)
  require (!g.conv || rowsAligned g.dst g.rows g.dstride) (.trap .alignment g.dst)

/-- The ticket after one (R225): 0 is skipped. -/
def nextTicket (t : BitVec 32) : BitVec 32 := if t + 1 = 0 then 1 else t + 1

/-- The lines of the own scratchpad that a region touches. -/
def ownLines (f : Region) : List Nat :=
  if f.space == 1 && f.index == 0 && decide (f.lo < f.hi) then
    (List.range ((f.hi.toNat - 1) / 128 - f.lo.toNat / 128 + 1)).map (· + f.lo.toNat / 128)
  else []

/-- F/E bits with lines set empty. -/
def markEmpty (fe : BitVec 1024) (ls : List Nat) : BitVec 1024 := ls.foldl (fun fe k => fe &&& ~~~(1#1024 <<< k)) fe
/-- F/E bits with lines set full. -/
def markFull (fe : BitVec 1024) (ls : List Nat) : BitVec 1024 := ls.foldl (fun fe k => fe ||| (1#1024 <<< k)) fe

/-- A tile with a job started: its ticket, and its own destination lines empty (R103, R225). -/
def Tile.startJob (t : Tile) (now : Nat) (slot : Fin 8) (g : Geometry) (digest : Bool) (follow : Option (BitVec 32 × Word)) : Tile :=
  let ls := if digest then [] else ownLines (g.dstHull t.name.2 false)
  let ticket := nextTicket t.lastTicket
  let j : CopyJob :=
    { ticket, slot, digest, src := g.src, dst := g.dst, rowLen := g.rowLen, rows := g.rows, sstride := g.sstride,
      dstride := g.dstride, conv := g.conv, bar := g.bar, moved := 0, marked := ls, failed := false,
      follow := if follow.isSome then .waiting else .none,
      followWord := (follow.map Prod.fst).getD 0, followS := (follow.map Prod.snd).getD 0, colour := t.colour, bits := 0, since := now,
      issued := t.slots[slot].nextId }
  { t with fe := markEmpty t.fe ls, jobs := t.jobs ++ [j], lastTicket := ticket }

/-- A COPY_ISSUE, COPY_FIRST or COPY_LAST record of a job (R403). -/
def State.emitCopy (s : State) (site type : Nat) (j : CopyJob) : State :=
  s.emit site type j.slot.val false
    (j.rows * j.rowLen % 2 ^ 32 + j.bar.getD 0 / 8 * 2 ^ 32 + j.bar.isSome.toNat * 2 ^ 46 + j.failed.toNat * 2 ^ 47
      + j.ticket.toNat % 2 ^ 16 * 2 ^ 48) j.src.toNat j.dst.toNat

/-- A job starts at a site. -/
def State.beginJob (s : State) (site : Nat) (slot : Fin 8) (g : Geometry) (digest : Bool)
    (follow : Option (BitVec 32 × Word)) : State :=
  let t := (s.tile site).startJob s.tb.toNat slot g digest follow
  match t.jobs.getLast? with
  | some j => (s.setTile site t).emitCopy site 0x08 j
  | none => s.setTile site t

/-- XCOPY, XCOPYM and XDIG on the template of an entry: captured in the guarded phase unless the destination is private
(R232), else started; one that would start a job while 16 are outstanding is not ready, whatever its checks would find (R225). No
page names the latency of the ticket: it takes 1 cycle (log entry 52, DESIGN CHOICE). -/
def issueJob (d : Dst) (t o : Word) (digest : Bool) (follow : M (Option (BitVec 32 × Word))) : M Flow := do
  let tile ← getTile
  let tmpl := tile.templates[(Fin.ofNat 64 t.toNat : Fin 64)]
  let g := geometry tmpl o
  let ph ← inPhase
  let captured := ph && ptrSpace g.dst != 2
  require (captured || Nat.blt tile.jobs.length 16) (.wait .held)
  require (Nat.ble t.toNat 63) (.word .illegalOperand)
  let f ← follow
  checkJobEarly g digest
  let s ← get
  if captured then do
    capture (.copy s.cur.slotNo digest tmpl o f) 48
    writeDst 1 0 d 0
    return .seq
  else do
    checkJobLate g
    let fd := g.dstHull tile.name.2 digest
    require (!ph || tile.guard.inWindow fd.lo.toNat (fd.hi - fd.lo).toNat) (.trap .guardWindow g.dst)
    fenceGate true true
    modify fun s => s.beginJob s.cur.site s.cur.slotNo g digest f
    let t' ← getTile
    writeDst 1 0 d (t'.lastTicket.setWidth 64)
    return .seq

/-- XCOPY. -/
def execXcopy (stl : Stl) (d : Dst) (a b : Src) (s : State) : Result :=
  issue (opA 0x39 0 stl d.code a.code b.code) (do
    checkDst d
    let (t, o) ← read2 a b
    issueJob d t o false (pure none)) s

/-- XFOLLOW's command, and its S as it reads now (R229). TZERO, TADD and TTRANS alone have no S operand. -/
def readFollow : M (Option (BitVec 32 × Word)) := do
  let sl ← getSlot
  match followCmd sl.xfollow with
  | none => throw (.word .illegalOperand)
  | some c => do
    let v ← if [0, 1, 3, 4].contains c.minor then read1 c.s else pure 0
    return some (sl.xfollow, v)

/-- XCOPYM. -/
def execXcopym (stl : Stl) (d : Dst) (a b : Src) (s : State) : Result :=
  issue (opA 0x39 1 stl d.code a.code b.code) (do
    checkDst d
    let (t, o) ← read2 a b
    issueJob d t o false readFollow) s

/-- XDIG. -/
def execXdig (stl : Stl) (d : Dst) (a b : Src) (s : State) : Result :=
  issue (opA 0x39 6 stl d.code a.code b.code) (do
    checkDst d
    let (t, o) ← read2 a b
    issueJob d t o true (pure none)) s

/-! ### XWAIT and XPOLL (R228) -/

/-- Whether ticket a is at or before ticket b. -/
def ticketBefore (a b : BitVec 32) : Bool := Nat.blt (b - a).toNat (2 ^ 31)

/-- The check of both, and whether a covered job has not completed: 0 stands for the newest ticket, another value counts modulo
2^32. -/
def coverCheck (v : Word) : M Bool := do
  let t ← getTile
  let n : BitVec 32 := v.setWidth 32
  if t.lastTicket = 0 then do
    require (v == 0) (.word .illegalOperand)
    return false
  else do
    require (v == 0 || ticketBefore n t.lastTicket) (.word .illegalOperand)
    return t.jobs.any fun j => ticketBefore j.ticket (if v = 0 then t.lastTicket else n)

/-- XWAIT: XERR is returned and cleared. -/
def execXwait (stl : Stl) (d : Dst) (a : Src) (s : State) : Result :=
  issue (opA 0x39 3 stl d.code a.code 0) (do
    checkDst d
    let v ← read1 a
    let busy ← coverCheck v
    require (!busy) (.wait .held)
    let t ← getTile
    modTile fun t => { t with xerr := 0 }
    deliver d (t.xerr.setWidth 64)
    return .seq) s

/-- XPOLL. -/
def execXpoll (stl : Stl) (d : Dst) (a : Src) (s : State) : Result :=
  issue (opA 0x39 4 stl d.code a.code 0) (do
    checkDst d
    let v ← read1 a
    let busy ← coverCheck v
    deliver d (BitVec.ofNat 64 (!busy).toNat)
    return .seq) s

/-! ### XTDEF (R222) -/

/-- The spaces of XTDEF. -/
def templateSpace : SpaceRule := { host := some .hbm }

/-- XTDEF. -/
def execXtdef (stl : Stl) (a b : Src) (s : State) : Result :=
  issue (opA 0x39 5 stl 0 a.code b.code) (do
    let (i, p) ← read2 a b
    require (Nat.ble i.toNat 63) (.word .illegalOperand)
    let pl ← placeOf templateSpace p 32 8
    accessGate false pl
    let r ← access (.xtdef i.toNat) p pl (.template (Fin.ofNat 64 i.toNat)) true
    match r with
    | some r => do
      modTile fun t => { t with templates := t.templates.set (Fin.ofNat 64 i.toNat : Fin 64) (BitVec.ofNat 256 r.val) }
      return .seq
    | none => return .seq) s

/-! ### Streams (R230) -/

/-- XSTRM: binds stream D[1:0] with element size D[2]; a source in a vtile that the launch does not have is R17's fault. -/
def execXstrm (stl : Stl) (d : BitVec 3) (a b : Src) (s : State) : Result :=
  issue (opA 0x39 2 stl d.toNat a.code b.code) (do
    let (t, o) ← read2 a b
    require (Nat.ble t.toNat 63) (.word .illegalOperand)
    let tile ← getTile
    let g := geometry tile.templates[(Fin.ofNat 64 t.toNat : Fin 64)] o
    let wide := d.getLsbD 2
    require (g.rowLen != 0 && g.reserved == 0 && !g.conv && g.bar.isNone
      && g.rowLen * g.rows % (if wide then 512 else 8) == 0) (.word .illegalOperand)
    let l ← getLaunch
    require (ptrSpace g.src != 1 || Nat.blt (bitsOf (ptrAddr g.src) 55 32) l.pkt.vtiles)
      (.trap .unmapped (BitVec.ofNat 64 (bitsOf (ptrAddr g.src) 55 32)))
    let k : Fin 4 := Fin.ofNat 4 d.toNat
    modTile fun t => { t with
      streams := t.streams.set k (some { src := g.src, rowLen := g.rowLen, rows := g.rows, sstride := g.sstride, wide,
                                         next := 0, landed := [], asked := 0, failed := false }) }
    return .seq) s

/-- XSTRM.OFF: unbinds stream D[1:0]. -/
def execXstrmOff (stl : Stl) (d : BitVec 3) (s : State) : Result :=
  issue (opA 0x39 2 stl (d.toNat + 8) 0 0) (do
    modTile fun t => { t with streams := t.streams.set (Fin.ofNat 4 d.toNat : Fin 4) none }
    return .seq) s

/-! ### Reading and writing at homes -/

/-- What becomes of one access of the engine: it waits, it sends a request under a number and waits for the answer, it fails with XERR
bits, or it is performed. -/
inductive Engine (α : Type) where
  | waits
  | asks (s : State) (id : Nat)
  | fails (s : State) (bits : BitVec 5)
  | ok (s : State) (v : α)

/-- The place of a byte at a distance of a pointer, seen from a vtile; none beyond its space. -/
def enginePlace (vt : Nat) (p : Word) (delta : Int) : Option Place :=
  let r := regionAt vt p delta (delta + 1)
  let x := r.lo.toNat
  if r.lo < 0 then none
  else if r.space == 0 then (if x / 2 ^ 48 == 0 then some (.hbm x) else none)
  else if r.space == 1 then
    (if Nat.ble Config.spadBytes x then none else if r.index == 0 then some (.priv x) else some (.vtile (r.index - 1) x))
  else if x / 2 ^ 48 == 0 then some (.aperture r.index x) else none

/-- The XERR bit of a cause that the home of an access reports. -/
def engineBit (write : Bool) (c : Cause) : BitVec 5 := if c == .ecc then 4 else if write then 2 else 1

/-- An access of the engine of a site to its own scratchpad, behind the slots' and the network's of its cycle (R97). -/
def engineTile (s : State) (site : Nat) (op : MemOp) (a : Nat) : Engine HomeResult :=
  let s := s.bankTurn site 9
  match (s.tile site).perform op a with
  | .waits => .waits
  | .ecc _ => .fails s 4
  | .ok t r => .ok (s.setTile site t) r

/-- A request of the engine to another vtile's tile, in TC0 under the job's colour (R105): it travels like every other, is held at empty
lines, refused, parked, spilled and forwarded (R104, R342, R352). A write is acknowledged (log entry 54, DEDUCED). -/
def engineAsk (s : State) (site colour : Nat) (slot : Fin 8) (vt : Nat) (op : MemOp) (p : Word) : Engine HomeResult :=
  let t := s.tile site
  let idx := t.name.1
  let id := 2 ^ 64 + s.engineId
  let q : Packet :=
    { src := { idx, vt := t.name.2, slot }, id, site, tc := 0, colour, dst := .vtile idx vt,
      hop := t.hopTo site idx vt (s.launch idx).pkt.ganglog, body := .request op p true, ts := s.tb.setWidth 16, seq := 0, pc := 0,
      cyc := s.cycle, walked := false, counts := true, sys := false }
  match ({ s with engineId := s.engineId + 1 } : State).sendOff q with
  | some s => .asks s id
  | none => .waits

/-- An access of the engine at a peer module: the link must be bound, and what stands there is free. -/
def enginePeer (s : State) (site part k : Nat) (op : MemOp) : Engine HomeResult :=
  let l := Table.getD s.peers (k - 1) {}
  if l.up && l.paired && l.part == part then
    match op with
    | .vecLoad els =>
      let n := els.foldl (fun n g => max n (g.pos + g.len)) 0
      .ok (s.spend (.tile site 0) n)
        { val := bytesToNat ((List.range ((n + 7) / 8)).map fun i => Config.freeByte (s.freeAt (.tile site 0) + i)) }
    | _ => .ok s {}
  else .fails s 8

/-- The packets of an access of the engine to another home: counted under the job's colour until they are acknowledged (R346). -/
def State.engineSent (s : State) (site colour : Nat) : State :=
  let t := s.tile site
  let k : Fin 16 := Fin.ofNat 16 colour
  { s.setTile site { t with colourCtr := t.colourCtr.set k (t.colourCtr[k] + 1) } with
    acks := s.acks ++ [(site, colour, t.name.1)] }

/-- One access of the engine of a site to a home beyond the tiles. -/
def enginePerform (s : State) (site : Nat) (write : Bool) (op : Nat → MemOp) (pl : Place) : Engine HomeResult :=
  let l := s.launch (s.tile site).name.1
  match pl with
  | .hbm va =>
    match s.performHbm l.asid (op va) va with
    | (s', .ok r) => .ok s' r
    | (s', .error c) => .fails s' (engineBit write c)
  | .aperture 0 off =>
    match s.performHost l.part (op off) off with
    | (s', .ok r) => .ok s' r
    | (s', .error c) => .fails s' (engineBit write c)
  | .aperture k off => enginePeer s site l.part k (op off)
  | .priv _ | .vtile _ _ | .coreLocal _ | .phys _ => .fails s 0

/-- Who an access of the engine of a site belongs to: the colour that its packets have, and the slot that issued the job. -/
structure EngineUser where
  site : Nat
  colour : Nat
  slot : Fin 8
  deriving DecidableEq, Repr

/-- One access of the engine at a place: to another home it waits while its colour has no room (R346). `far` is what is asked of
another vtile's tile. -/
def engineAccess (s : State) (u : EngineUser) (write : Bool) (op far : Nat → MemOp) (p : Word) (pl : Place) : Engine HomeResult :=
  match pl with
  | .priv off => engineTile s u.site (op off) off
  | .vtile vt off => engineAsk s u.site u.colour u.slot vt (far off) (BitVec.ofNat 64 (p.toNat / 2 ^ 32 * 2 ^ 32 + off))
  | _ =>
    if (s.tile u.site).colourCtr[(Fin.ofNat 16 u.colour : Fin 16)] == 65535 then .waits
    else
      match enginePerform s u.site write op pl with
      | .ok s r => .ok (s.engineSent u.site u.colour) r
      | .fails s b => .fails (s.engineSent u.site u.colour) b
      | .waits => .waits
      | .asks s id => .asks s id

/-- n bytes at a place. -/
def bytesOp (n a : Nat) : MemOp := .vecLoad [{ pos := 0, len := 8 * n, addr := a, boff := 0 }]

/-- A write of n bytes at a place. -/
def putOp (n v : Nat) (shadow : List (Nat × Byte)) (a : Nat) : MemOp :=
  .vecStore [{ len := 8 * n, addr := a, boff := 0, data := v }] shadow

/-- Reads n bytes at a distance of a pointer; what another tile is asked for has its exponents with it. -/
def engineRead (s : State) (u : EngineUser) (p : Word) (delta : Int) (n skew step : Nat) : Engine HomeResult :=
  match enginePlace (s.tile u.site).name.2 p delta with
  | some pl => engineAccess s u false (bytesOp n) (fun _ => .fetch n skew step) p pl
  | none => .fails s 1

/-- Writes n bytes at a distance of a pointer; `shadow` gives block exponents by distance from the first byte. -/
def engineWrite (s : State) (u : EngineUser) (p : Word) (delta : Int) (n v : Nat) (shadow : List (Nat × Byte)) : Engine HomeResult :=
  match enginePlace (s.tile u.site).name.2 p delta with
  | some pl =>
    let op (a : Nat) : MemOp := putOp n v (shadow.map fun x => (a + x.1, x.2)) a
    engineAccess s u true op op p pl
  | none => .fails s 2

/-- The scale-shadow byte at a distance of a pointer: where the place has none, the given value (R45, R226). Those of another vtile's
tile come with the data. -/
def engineShadow (s : State) (site : Nat) (p : Word) (delta : Int) (none_ : Nat) : Nat :=
  let nm := (s.tile site).name
  match enginePlace nm.2 p delta with
  | some (.priv off) => (Memory.get (s.tile site).shadow (off / 32)).toNat
  | some (.hbm va) =>
    match s.shadowAddr (s.launch nm.1).asid va with
    | some a => Memory.read s.hbm a 1
    | none => none_
  | _ => none_

/-- Whether the scale-shadow byte at a distance of a pointer stands in an uncorrectable word (R98). -/
def engineShadowEcc (s : State) (site : Nat) (p : Word) (delta : Int) : Bool :=
  let nm := (s.tile site).name
  match enginePlace nm.2 p delta with
  | some (.priv off) => ((s.tile site).shadowEccAt off 1).isSome
  | some (.hbm va) => s.scaleEcc (s.launch nm.1).asid va
  | _ => false

/-! ### Moving a job (R223, R226, R227) -/

/-- The geometry a job runs with. -/
def CopyJob.geo (j : CopyJob) : Geometry :=
  { src := j.src, dst := j.dst, rowLen := j.rowLen, rows := j.rows, sstride := j.sstride, dstride := j.dstride,
    conv := j.conv, bar := j.bar, reserved := 0 }

/-- Whether a job has read everything it will read. -/
def CopyJob.readAll (j : CopyJob) : Bool := Nat.ble (j.rowLen * j.rows) j.moved

/-- Whether a job has written everything it will write. -/
def CopyJob.written (j : CopyJob) : Bool := j.failed || (j.readAll && (!j.digest || j.wrote))

/-- Destination bytes that stand for the first n source bytes of a row. -/
def CopyJob.toDst (j : CopyJob) (n : Nat) : Nat :=
  if j.conv then n * fmtWidth (ptrFmt j.dst) / fmtWidth (ptrFmt j.src) else n

/-- Source bytes of the next piece: up to the end of the destination line, or the blocks of a conversion; a digest reads up to 512
bytes of a row. -/
def CopyJob.piece (j : CopyJob) (vt : Nat) : Nat :=
  let row := j.moved / j.rowLen
  let off := j.moved % j.rowLen
  if j.digest then min (j.rowLen - off) 512
  else
    let d := (regionAt vt j.dst (row * j.dstride + j.toDst off) 0).lo.toNat
    let room := 128 - d % 128
    if j.conv then
      let ws := fmtWidth (ptrFmt j.src)
      let wd := fmtWidth (ptrFmt j.dst)
      let unit := max (convUnit j.src) (convUnit j.dst)
      min (j.rowLen - off) ((if unit == 1 then max 1 (room * 8 / wd) else unit) * ws / 8)
    else min (j.rowLen - off) room

/-- The source ranges a job has still to read, and the destination ranges it has still to write. -/
def CopyJob.unread (j : CopyJob) (vt : Nat) : List Region :=
  if j.written then []
  else (List.range (j.rows - j.moved / j.rowLen)).map fun i =>
    let r := j.moved / j.rowLen + i
    regionAt vt j.src (r * j.sstride + (if i == 0 then j.moved % j.rowLen else 0)) (r * j.sstride + j.rowLen)

/-- As `unread`, for the destination. -/
def CopyJob.unwritten (j : CopyJob) (vt : Nat) : List Region :=
  if j.written then []
  else if j.digest then [regionAt vt j.dst 0 32]
  else (List.range (j.rows - j.moved / j.rowLen)).map fun i =>
    let r := j.moved / j.rowLen + i
    regionAt vt j.dst (r * j.dstride + (if i == 0 then j.toDst (j.moved % j.rowLen) else 0)) (r * j.dstride + j.toDst j.rowLen)

/-- The edges of R123: whether an earlier job holds a piece back. -/
def CopyJob.holds (e : CopyJob) (vt : Nat) (src dst : List Region) : Bool :=
  (e.unwritten vt).any (fun w => dst.any w.overlaps || src.any w.overlaps) || (e.unread vt).any fun r => dst.any r.overlaps

/-- The source bytes of a stream or digest, from byte `i` on, row by row: each piece a distance and a length. -/
def rowPieces (rowLen : Nat) (stride : Int) : Nat → Nat → Nat → List (Int × Nat)
  | 0, _, _ => []
  | fuel + 1, i, n =>
    if n == 0 then []
    else
      let off := i % rowLen
      let k := min n (rowLen - off)
      (((i / rowLen : Nat) : Int) * stride + off, k) :: rowPieces rowLen stride fuel (i + k) (n - k)

/-- Reads pieces of an element in order; another vtile's tile is asked for the first of them. -/
def readPieces (s : State) (u : EngineUser) (p : Word) (skew step : Nat) : List (Int × Nat) → Engine Nat
  | [] => .ok s 0
  | x :: rest =>
    match engineRead s u p x.1 x.2 skew step with
    | .waits => .waits
    | .asks s id => .asks s id
    | .fails s b => .fails s b
    | .ok s' r =>
      match readPieces s' u p (skew + x.2) step rest with
      | .waits => .waits
      | .asks s id => .asks s id
      | .fails s b => .fails s b
      | .ok s'' v => .ok s'' (r.val + v * 2 ^ (8 * x.2))

/-- Bytes between the block exponents that a job's source needs: none without a conversion from a KN format. -/
def CopyJob.scaleStep (j : CopyJob) : Nat :=
  if j.conv && isKN (ptrFmt j.src) then blockBytes (ptrFmt j.src) (ptrBlk j.src) else 0

/-- Whether a block exponent of a converted piece of n elements stands in an uncorrectable word. -/
def pieceEcc (s : State) (site : Nat) (j : CopyJob) (delta : Int) (n : Nat) : Bool :=
  isKN (ptrFmt j.src) && (List.range (n / blockLen (ptrBlk j.src))).any fun b =>
    engineShadowEcc s site j.src (delta + b * blockBytes (ptrFmt j.src) (ptrBlk j.src))

/-- A converted piece of n elements (R226): its bits, and the block exponents of its granules. `scale` gives the exponents of the
source by block. -/
def convertPiece (j : CopyJob) (scale : Nat → Nat) (n bits : Nat) : Nat × List (Nat × Byte) :=
  let fd := ptrFmt j.dst
  let bd := ptrBlk j.dst
  let r := convertLanes (ptrFmt j.src) (ptrBlk j.src) fd bd n (fun _ => rne) false scale (fun _ => true) bits
  let per := blockBytes fd bd
  (r.1, r.2.1.zipIdx.flatMap fun x =>
    (List.range (per / 32)).map fun g => (x.2 * per + 32 * g, BitVec.ofNat 8 x.1))

/-- Replaces a job of a tile. -/
def State.setJob (s : State) (site : Nat) (j : CopyJob) : State :=
  let t := s.tile site
  s.setTile site { t with jobs := t.jobs.map fun x => if x.ticket == j.ticket then j else x }

/-- The job of a ticket, and the jobs before it. -/
def Tile.findJob (t : Tile) (ticket : Nat) : Option (CopyJob × List CopyJob) :=
  (t.jobs.find? fun j => j.ticket.toNat == ticket).map fun j =>
    (j, t.jobs.takeWhile fun x => x.ticket != j.ticket)

/-- A job after a piece has landed: own lines with nothing left to land are set full (R103). -/
def State.landPiece (s : State) (site : Nat) (j : CopyJob) (n : Nat) (dst : Region) : State :=
  let vt := (s.tile site).name.2
  let j' := { j with moved := j.moved + n, out := 0, got := none }
  let left := j'.unwritten vt
  let done := (ownLines dst).filter fun k => j.marked.contains k &&
    !(left.any fun r => r.space == 1 && r.index == 0 && decide (r.lo < 128 * (k : Int) + 128) && decide (128 * (k : Int) < r.hi))
  let s := s.setJob site { j' with marked := j.marked.filter fun k => !done.contains k }
  let s := s.setTile site { s.tile site with fe := markFull (s.tile site).fe done }
  if j.moved == 0 then s.emitCopy site 0x09 j else s

/-- The digest of a job is written (R231). -/
def State.landDigest (s : State) (site : Nat) (j : CopyJob) : State :=
  (s.setJob site { j with wrote := true, out := 0 }).emitCopy site 0x09 j

/-- What a job's request brings for its next piece: a digest keeps the bytes, another job converts and writes them. -/
def State.takePiece (s : State) (site : Nat) (j : CopyJob) (n val side : Nat) : State :=
  s.setJob site (if j.digest then { j with moved := j.moved + n, acc := j.acc ++ natToBytes n val, out := 0 }
    else { j with got := some (val, side), out := 0 })

/-- What stands between an engine's access and its continuation. -/
def Engine.bind {α β : Type} (e : Engine α) (f : State → α → Engine β) : Engine β :=
  match e with
  | .waits => .waits
  | .asks s id => .asks s id
  | .fails s b => .fails s b
  | .ok s v => f s v

/-- Who the accesses of a job belong to. -/
def CopyJob.user (j : CopyJob) (site : Nat) : EngineUser := { site, colour := j.colour, slot := j.slot }

/-- The next piece of a digest: bytes that it reads, or once it has read all the digest itself. -/
def State.digestPiece (s : State) (site : Nat) (j : CopyJob) (before : List CopyJob) : Engine Unit :=
  let vt := (s.tile site).name.2
  if j.readAll then
    if before.any fun e => e.holds vt [] [regionAt vt j.dst 0 32] then .waits
    else (engineWrite s (j.user site) j.dst 0 32 (bytesToNat (sha256 j.acc)) []).bind fun s _ => .ok (s.landDigest site j) ()
  else
    let n := j.piece vt
    let sd : Int := (j.moved / j.rowLen : Nat) * j.sstride + (j.moved % j.rowLen : Nat)
    if before.any fun e => e.holds vt [regionAt vt j.src sd (sd + n)] [] then .waits
    else (engineRead s (j.user site) j.src sd n 0 0).bind fun s r => .ok (s.takePiece site j n r.val 0) ()

/-- The bytes of the next piece of a copy with their block exponents by block: what a request has brought, or what the engine reads. -/
def State.pieceData (s : State) (site : Nat) (j : CopyJob) (sd : Int) (n : Nat) : Engine (Nat × (Nat → Nat)) :=
  let step := j.scaleStep
  match j.got with
  | some (v, side) => .ok s (v, fun b => side / 2 ^ (8 * (b * step / 32)) % 256)
  | none =>
    (engineRead s (j.user site) j.src sd n 0 step).bind fun s' r =>
      if step != 0 && pieceEcc s site j sd (n * 8 / fmtWidth (ptrFmt j.src)) then .fails s' 4
      else .ok s' (r.val, fun b => engineShadow s site j.src (sd + b * step) 127)

/-- The next piece of a job: what becomes of it. Its bytes are read in one step and written in one (log entry 46, DESIGN CHOICE). -/
def State.copyPiece (s : State) (site : Nat) (j : CopyJob) (before : List CopyJob) : Engine Unit :=
  let vt := (s.tile site).name.2
  if j.out != 0 then .waits
  else if j.digest then s.digestPiece site j before
  else
    let n := j.piece vt
    let row := j.moved / j.rowLen
    let off := j.moved % j.rowLen
    let sd : Int := row * j.sstride + off
    let dd : Int := row * j.dstride + j.toDst off
    let dn := j.toDst n
    let dst := regionAt vt j.dst dd (dd + dn)
    if before.any fun e => e.holds vt [regionAt vt j.src sd (sd + n)] [dst] then .waits
    else
      (s.pieceData site j sd n).bind fun s' x =>
        let c := if j.conv then convertPiece j x.2 (n * 8 / fmtWidth (ptrFmt j.src)) x.1 else (x.1, [])
        (engineWrite s' (j.user site) j.dst dd dn c.1 c.2).bind fun s'' _ => .ok (s''.landPiece site j n dst) ()

/-- A job that meets an error writes nothing more and drops its follow-on (R227, R229). -/
def CopyJob.fail (j : CopyJob) (bits : BitVec 5) : CopyJob :=
  { j with failed := true, bits := j.bits ||| bits, follow := .none }

/-- Whether a pointer leads to another vtile's tile. -/
def isFar (vt : Nat) (p : Word) : Bool := (regionAt vt p 0 0).space == 1 && (regionAt vt p 0 0).index != 0

/-- Whether the request of a job that is out reads: it brings data of a source in another tile. -/
def CopyJob.asksData (j : CopyJob) (vt : Nat) : Bool := if j.digest then !j.readAll else isFar vt j.src && j.got.isNone

/-- The answer to a request of a job: the data of its next piece, or its writing (R225). A job that has failed meanwhile takes nothing
of it. -/
def State.jobAnswered (s : State) (site : Nat) (j : CopyJob) (val side : Nat) : State :=
  let vt := (s.tile site).name.2
  if j.failed then s.setJob site { j with out := 0 }
  else if j.asksData vt then s.takePiece site j (j.piece vt) val side
  else if j.digest then s.landDigest site j
  else s.landPiece site j (j.piece vt) (regionAt vt j.dst 0 0)

/-- Bytes of an element of a stream. -/
def StreamBinding.size (b : StreamBinding) : Nat := if b.wide then 512 else 8

/-- The element of a stream that is fetched next. -/
def StreamBinding.index (b : StreamBinding) : Nat := b.next + b.landed.length

/-- The pieces of the next element of a stream that are still to be read. -/
def StreamBinding.pieces (b : StreamBinding) : List (Int × Nat) :=
  rowPieces b.rowLen b.sstride (b.size + 1) (b.size * b.index + b.part.1) (b.size - b.part.1)

/-- Replaces a stream binding of a site. -/
def State.setStream (s : State) (site : Nat) (k : Fin 4) (b : StreamBinding) : State :=
  s.setTile site { s.tile site with streams := (s.tile site).streams.set k (some b) }

/-- A stream's request has brought the next bytes of its element. -/
def State.streamAnswered (s : State) (site : Nat) (k : Fin 4) (b : StreamBinding) (val side : Nat) : State :=
  let n := (b.pieces.head?.map (·.2)).getD 0
  s.setStream site k { b with out := 0, part := (b.part.1 + n, b.part.2.1 + val * 2 ^ (8 * b.part.1), b.part.2.2 + side) }

/-- A fetch of a stream has failed (R230). -/
def State.failStream (s : State) (site : Nat) (k : Fin 4) (b : StreamBinding) (bits : BitVec 5) : State :=
  let s := s.setStream site k { b with failed := true, out := 0 }
  s.setTile site { s.tile site with xerr := (s.tile site).xerr ||| bits }

/-- The stream of a site whose request has a number. -/
def Tile.streamOf (t : Tile) (id : Nat) : Option (Fin 4 × StreamBinding) :=
  (List.finRange 4).findSome? fun k => (t.streams[k].filter fun b => b.out == id).map fun b => (k, b)

/-- An answer to a request of the engine of a site. -/
def State.engineReply (s : State) (site id val side : Nat) : State :=
  match (s.tile site).jobs.find? fun j => j.out == id with
  | some j => s.jobAnswered site j val side
  | none =>
    match (s.tile site).streamOf id with
    | some (k, b) => s.streamAnswered site k b val side
    | none => s

/-- An error reply to a request of the engine of a site. A late read fails as a failed translation of the source does, and a late write
is as good as performed (R31; log entry 54, DEDUCED). -/
def State.engineError (s : State) (site id : Nat) (c : Cause) : State :=
  match (s.tile site).jobs.find? fun j => j.out == id with
  | some j =>
    if j.failed then s.setJob site { j with out := 0 }
    else if j.asksData (s.tile site).name.2 then s.setJob site { j.fail (engineBit false c) with out := 0 }
    else s.jobAnswered site j 0 0
  | none =>
    match (s.tile site).streamOf id with
    | some (k, b) => s.failStream site k b (engineBit false c)
    | none => s

/-! ### Steps of the engine -/

/-- COPY_LINE_LANDING: the next piece of a job lands; a wafer halt lets the row in progress end (R399). -/
def execCopyLineLanding (site ticket : Nat) (s : State) : Result :=
  match (s.tile site).findJob ticket with
  | none => .next s
  | some (j, before) =>
    if j.written || (s.halted && j.moved % j.rowLen == 0) then .next s
    else
      match s.copyPiece site j before with
      | .ok s' _ => .next s'
      | .asks s' id => .next (s'.setJob site { j with out := id })
      | .fails _ _ | .waits => .next s

/-- Whether an aperture is an end of a job, where a transaction can fail (R227). -/
def CopyJob.throughPort (j : CopyJob) : Bool := ptrSpace j.src == 3 || ptrSpace j.dst == 3

/-- COPY_JOB_ERROR: the job meets the error that its next piece runs into, or a failed host or peer transaction; in a wafer halt no
further row is read (R399). -/
def execCopyJobError (site ticket : Nat) (bits : BitVec 5) (s : State) : Result :=
  match (s.tile site).findJob ticket with
  | none => .next s
  | some (j, before) =>
    if j.written || (s.halted && j.moved % j.rowLen == 0) then .next s
    else
      match s.copyPiece site j before with
      | .fails s b => .next (s.setJob site (j.fail b))
      | _ => if bits == 8 && j.throughPort then .next (s.setJob site (j.fail 8)) else .next s

/-- FOLLOW_ON_COMMAND: the writes of a job have been performed without error, and its follow-on becomes ready (R229). -/
def execFollowOnCommand (site ticket : Nat) (s : State) : Result :=
  match (s.tile site).findJob ticket with
  | none => .next s
  | some (j, _) =>
    if j.written && !j.failed && j.follow == .waiting then .next (s.setJob site { j with follow := .ready }) else .next s

/-- A job leaves the table: its marked lines are full, also those that got no byte of it (R103; log entry 65, DEDUCED), its error bits go
to XERR, and its time is captured (R225, R227, R407). -/
def State.finishJob (s : State) (site : Nat) (j : CopyJob) : State :=
  let t := s.tile site
  let s := (s.setTile site { t with
    jobs := t.jobs.filter (fun x => x.ticket != j.ticket), fe := markFull t.fe j.marked,
    xerr := t.xerr ||| j.bits }).emitCopy site 0x0A j
  s.capture site 4 t.name.1 (s.tb.toNat - j.since)

/-- The implicit release of a job's barrier arrival, on behalf of its slot (R121): what the slot issued before the job has returned
and been performed. -/
def State.jobReleased (s : State) (site : Nat) (j : CopyJob) : Bool :=
  let a : Agent := .tile site j.slot
  !(s.unperformedBefore a j.issued || (s.slot a).unreturnedBefore j.issued)

/-- COPY_JOB_COMPLETION: every write and the follow-on are performed; the job arrives at its barrier and completes
(R121, R225). -/
def execCopyJobCompletion (site ticket : Nat) (s : State) : Result :=
  match (s.tile site).findJob ticket with
  | none => .next s
  | some (j, _) =>
    if j.written && j.out == 0 && (j.follow == .none || j.follow == .finished) then
      match j.bar with
      | none => .next (s.finishJob site j)
      | some off =>
        if !s.jobReleased site j then .next s
        else
        match ({ s.tile site with fe := markFull (s.tile site).fe j.marked } : Tile).perform .barArrive off with
        | .waits => .next s
        | .ecc _ => .next (s.finishJob site (j.fail 4))
        | .ok t _ => .next ((s.setTile site t).finishJob site j)
    else .next s

/-- STREAM_FETCH: the engine asks for the next element of a binding, at most 4 ahead of the reads (R230). -/
def execStreamFetch (site : Nat) (k : Fin 4) (s : State) : Result :=
  let t := s.tile site
  match t.streams[k] with
  | none => .next s
  | some b =>
    if !s.halted && !b.failed && Nat.blt b.asked b.count && Nat.blt b.asked (b.next + 4) then
      .next (s.setTile site { t with streams := t.streams.set k (some { b with asked := b.asked + 1 }) })
    else .next s

/-- The sidecar of a wide element: the shadow bytes of its source granules (R45). -/
def streamSide (s : State) (site : Nat) (b : StreamBinding) (e : Nat) : Side :=
  BitVec.ofNat 128 (bytesToNat ((List.range 16).map fun g =>
    let i := 512 * e + 32 * g
    BitVec.ofNat 8 (engineShadow s site b.src (((i / b.rowLen : Nat) : Int) * b.sstride + (i % b.rowLen : Nat)) 0)))

/-- Whether a shadow byte of a wide element stands in an uncorrectable word. -/
def streamEcc (s : State) (site : Nat) (b : StreamBinding) (e : Nat) : Bool :=
  b.wide && (List.range 16).any fun g =>
    let i := 512 * e + 32 * g
    engineShadowEcc s site b.src (((i / b.rowLen : Nat) : Int) * b.sstride + (i % b.rowLen : Nat))

/-- The bytes of a stream's next element: what requests have brought, or what the engine reads. -/
def State.streamData (s : State) (site : Nat) (b : StreamBinding) : Engine Nat :=
  if b.part.1 == b.size then .ok s b.part.2.1
  else readPieces s { site, colour := (s.tile site).colour, slot := 0 } b.src b.part.1 (if b.wide then 32 else 0) b.pieces

/-- The sidecar of a stream's next element. -/
def State.streamScales (s : State) (site : Nat) (b : StreamBinding) : Side :=
  if !b.wide then 0 else if b.part.1 == b.size then BitVec.ofNat 128 b.part.2.2 else streamSide s site b b.index

/-- STREAM_ELEMENT_ARRIVAL: the oldest element asked for lands, or its fetch fails (R230). -/
def execStreamElementArrival (site : Nat) (k : Fin 4) (s : State) : Result :=
  match (s.tile site).streams[k] with
  | none => .next s
  | some b =>
    if b.failed || b.out != 0 || Nat.ble b.asked b.index then .next s
    else
      match s.streamData site b with
      | .waits => .next s
      | .asks s' id => .next (s'.setStream site k { b with out := id })
      | .fails s bits => .next (s.failStream site k b bits)
      | .ok s' v =>
        if streamEcc s site b b.index then .next (s'.failStream site k b 4)
        else .next (s'.setStream site k { b with
          landed := b.landed ++ [(BitVec.ofNat 4096 v, s.streamScales site b)], part := (0, 0, 0) })

end Sys2Proof.Machine
end

