-- ==== Sys2Proof/Machine/LoadStore.lean ====
section
/-! DEFINITION. Loads and stores, full/empty and barrier instructions, majors 0x18 (SUB 6 to 11) and 0x1C to 0x1F
(spec/06_isa_scalar.md R171, R172, R175, R176). -/

namespace Sys2Proof.Machine

/-- The pointer of a form M access: the scaled signed offset on the ADDRESS field (R175). -/
def offsetPtr (p : Word) (size : Nat) (f : BitVec 8) : Word := ptrAdd p (f.toInt * size)

/-- The pointer of a form X access: a + 8 × b (R175). -/
def indexPtr (a b : Word) : Word := ptrAdd a (8 * (b.toNat : Int))

/-- A load at a pointer into a scalar destination. -/
def loadAt (rule : SpaceRule) (ptr : Word) (size : Nat) (signed : Bool) (d : Dst) : M Flow := do
  let pl ← placeOf rule ptr size size
  accessGate false pl
  accessTo (.load size signed) ptr pl d true

/-- A store of a data word at a pointer: captured or judged by the window in the guarded phase (R125). -/
def storeAt (rule : SpaceRule) (ptr : Word) (size : Nat) (op : MemOp) : M Flow := do
  let pl ← placeOf rule ptr size size
  let caught ← guardWrite op ptr pl size size false
  if caught then return .seq
  else do
    accessGate true pl
    accessTo op ptr pl .discard false

/-- The access size of SZ (R131). -/
def sizeOf2 (z : BitVec 2) : Nat := 2 ^ z.toNat

/-- A form M load. -/
def loadM (signed : Bool) (d : Dst) (p : Src) (z : BitVec 2) (f : BitVec 8) : M Flow := do
  checkDst d
  let x ← read1 p
  loadAt anySpace (offsetPtr x (sizeOf2 z) f) (sizeOf2 z) signed d

/-- LD: zero-extended (R175). -/
def execLd (stl : Stl) (d : Dst) (p : Src) (z : BitVec 2) (f : BitVec 8) (s : State) : Result :=
  issue (opM 0x1C stl d.code p.code z f) (loadM false d p z f) s

/-- LDS: sign-extended. -/
def execLds (stl : Stl) (d : Dst) (p : Src) (z : BitVec 2) (f : BitVec 8) (s : State) : Result :=
  issue (opM 0x1D stl d.code p.code z f) (loadM true d p z f) s

/-- ST: BASE is read before the data. -/
def execSt (stl : Stl) (d p : Src) (z : BitVec 2) (f : BitVec 8) (s : State) : Result :=
  issue (opM 0x1E stl d.code p.code z f) (do
    let (x, v) ← read2 p d
    storeAt anySpace (offsetPtr x (sizeOf2 z) f) (sizeOf2 z) (.store (sizeOf2 z) v)) s

/-- LDX. -/
def execLdx (stl : Stl) (d : Dst) (a b : Src) (s : State) : Result :=
  issue (opA 0x1F 0 stl d.code a.code b.code) (do
    checkDst d
    let (x, y) ← read2 a b
    loadAt anySpace (indexPtr x y) 8 false d) s

/-- STX: the data is read after A and B. -/
def execStx (stl : Stl) (d a b : Src) (s : State) : Result :=
  issue (opA 0x1F 1 stl d.code a.code b.code) (do
    let (x, y, v) ← read3 a b d
    storeAt anySpace (indexPtr x y) 8 (.store 8 v)) s

/-- LDT: takes the doubleword of a full line and sets the line empty (R100). In the guarded phase a private LDT must lie in
the window (R125). -/
def execLdt (stl : Stl) (d : Dst) (a b : Src) (s : State) : Result :=
  issue (opA 0x1F 2 stl d.code a.code b.code) (do
    checkDst d
    let (x, y) ← read2 a b
    let ptr := indexPtr x y
    let pl ← placeOf lineSpace ptr 8 8
    let ph ← inPhase
    let t ← getTile
    match pl with
    | .priv off => require (!ph || t.guard.inWindow off 8) (.trap .guardWindow ptr)
    | _ => pure ()
    accessGate false pl
    accessTo .ldt ptr pl d true) s

/-- STF: stores and sets the line full (R100). -/
def execStf (stl : Stl) (d a b : Src) (s : State) : Result :=
  issue (opA 0x1F 3 stl d.code a.code b.code) (do
    let (x, y, v) ← read3 a b d
    storeAt lineSpace (indexPtr x y) 8 (.stf v)) s

/-- C.LD: LD of a doubleword through the private alias into a push, with an unsigned scaled offset (R133). -/
def execCLd (a : Src5) (i : BitVec 6) (s : State) : Result :=
  issue (op16 0x1C 0 (0x6800 + a.code * 64 + i.toNat)) (do
    let x ← read1 a.toSrc
    loadAt privateSpace (ptrAdd x (i.toNat * 8)) 8 false .push) s

/-- C.ST: ST of q0, a doubleword, through the private alias (R133). -/
def execCSt (a : Src5) (i : BitVec 6) (s : State) : Result :=
  issue (op16 0x1E 0 (0x7000 + a.code * 64 + i.toNat)) (do
    let (x, v) ← read2 a.toSrc (.q 0)
    storeAt privateSpace (ptrAdd x (i.toNat * 8)) 8 (.store 8 v)) s

/-! ### Full/empty instructions -/

/-- The action of FEMARK or FEFILL on the line of a byte pointer, performed as a store (R171). -/
def lineStore (a : Src) (op : MemOp) : M Flow := do
  let p ← read1 a
  let pl ← placeOf lineSpace p 1 1
  let caught ← guardWrite op p pl 1 0 false
  if caught then return .seq
  else do
    accessGate true pl
    accessTo op p pl .discard false

/-- WAITF: waits until the line is observed full; only the private alias (R171). -/
def execWaitf (stl : Stl) (a : Src) (s : State) : Result :=
  issue (opA 0x18 6 stl 0 a.code 0) (do
    let p ← read1 a
    let pl ← placeOf privateSpace p 1 1
    accessGate false pl
    match pl with
    | .priv off => do
      awaitVregs
      let t ← getTile
      require (t.linesFull off 1) (.wait .held)
    | _ => pure ()
    return .seq) s

/-- FEMARK: sets the line empty. -/
def execFemark (stl : Stl) (a : Src) (s : State) : Result :=
  issue (opA 0x18 7 stl 0 a.code 0) (lineStore a .femark) s

/-- FEFILL: sets the line full. -/
def execFefill (stl : Stl) (a : Src) (s : State) : Result :=
  issue (opA 0x18 8 stl 0 a.code 0) (lineStore a .fefill) s

/-- FETEST: whether the line is full when the test is performed. -/
def execFetest (stl : Stl) (d : Dst) (a : Src) (s : State) : Result :=
  issue (opA 0x18 9 stl d.code a.code 0) (do
    checkDst d
    let p ← read1 a
    let pl ← placeOf lineSpace p 1 1
    accessGate false pl
    accessTo .fetest p pl d true) s

/-! ### Barriers -/

/-- Whether a scalar result is wanted at all. -/
def Dst.wants : Dst → Bool
  | .discard => false
  | _ => true

/-- BARARR: an implicit release, then the arrival at the word's home; the old word is the result (R172). -/
def execBararr (stl : Stl) (d : Dst) (a : Src) (s : State) : Result :=
  issue (opA 0x18 10 stl d.code a.code 0) (do
    checkDst d
    let p ← read1 a
    let pl ← placeOf atomicSpace p 8 8
    let caught ← guardWrite .barArrive p pl 8 0 (Dst.wants d)
    if caught then return .seq
    else do
      accessGate true pl
      releaseGate
      accessTo .barArrive p pl d (Dst.wants d)) s

/-- Whether a doubleword meets a BARWAIT's wait: bit 63 differs from bit 0 of the phase operand (R120). -/
def phaseEnded (v : Word) (phase : Word) : Bool := v.getLsbD 63 != phase.getLsbD 0

/-- A wait that is that of a BARWAIT. -/
def asBarwait {α : Type} (m : M α) : M α := fun s =>
  match m s with
  | .error (.wait _) => .error (.wait .barwait)
  | r => r

/-- What the probes of the current BARWAIT have found (R172): a private word is read at the own banks, another by requests,
which BARWAIT_PROBE sends. A probe that met a fault makes it precise at the BARWAIT (R31). -/
def probedWord (p : Word) (pl : Place) : M (Option Word) := do
  match pl with
  | .priv off => do
    let r ← asBarwait (privAccess (.load 8 false) p off)
    return some (BitVec.ofNat 64 r.val)
  | _ => do
    let sl ← getSlot
    match sl.probe with
    | none => return none
    | some pr =>
      match pr.error with
      | some e => throw (.trap e.1 e.2)
      | none => return pr.value

/-- The operands of a BARWAIT: pointer, phase and place. -/
def barwaitOperands (a b : Src) : M (Word × Word × Place) := do
  let (p, phase) ← read2 a b
  let pl ← placeOf atomicSpace p 8 8
  accessGate false pl
  return (p, phase, pl)

/-- BARWAIT: held before issue until a probe finds bit 63 of the word different from bit 0 of the phase operand; then an
implicit acquire, and the word is the result (R172). -/
def barwaitBody (d : Dst) (a b : Src) : M Flow := do
  checkDst d
  let (p, phase, pl) ← barwaitOperands a b
  let w ← probedWord p pl
  match w with
  | some v => do
    require (phaseEnded v phase) (.wait .barwait)
    modSlot fun sl => { sl with probe := none }
    acquireHere
    deliver d v
    return .seq
  | none => throw (.wait .barwait)

/-- A probe of the current slot's BARWAIT leaves for its home: a tile-global one waits there until the phase has ended, one of
an HBM word is a TC0 load (R172). -/
def sendProbe (p phase : Word) (pl : Place) : M Unit := do
  let id ← freshId
  let idx ← currentIdx
  match pl with
  | .vtile vt _ => sendRequest (.barProbe (phase.getLsbD 0)) p (.vtile idx vt) id true
  | _ => sendRequest (.load 8 false) p .rim id true
  let s ← get
  modSlot fun sl => { sl with probe := some { id, sent := s.cycle } }

/-- Whether the current slot's BARWAIT sends a probe now: it has none, or 256 cycles after it sent one the word that came back
does not end its wait (R172). -/
def Slot.probeDue (sl : Slot) (now : Nat) (phase : Word) : Bool :=
  match sl.probe with
  | none => true
  | some pr =>
    match pr.value with
    | some v => !phaseEnded v phase && Nat.ble (pr.sent + 256) now
    | none => false

/-- BARWAIT. -/
def execBarwait (stl : Stl) (d : Dst) (a b : Src) (s : State) : Result :=
  issue (opA 0x18 11 stl d.code a.code b.code) (barwaitBody d a b) s

end Sys2Proof.Machine
end

