-- ==== Sys2Proof/Machine/LaunchPacket.lean ====
section
/-! DEFINITION. The launch packet (spec/13_sys_queues.md R314) and its grid checks (spec/01_machine.md R16, spec/13_sys_queues.md
R317, spec/09_isa_fabric.md R247). -/

namespace Sys2Proof.Machine

/-- Bits [hi:lo] of the doubleword at a byte offset of a packet. -/
def packetBits (v off hi lo : Nat) : Nat := bitsOf (v / 2 ^ (8 * off) % 2 ^ 64) hi lo

/-- Whether every bit that R314 does not name is zero. -/
def packetReserved (v : Nat) : Bool :=
  packetBits v 0 31 14 == 0 && packetBits v 0x18 63 51 == 0 && packetBits v 0x20 63 60 == 0 && packetBits v 0x28 63 60 == 0
    && packetBits v 0x58 63 48 == 0 && packetBits v 0x68 63 19 == 0 && packetBits v 0x78 63 0 == 0

/-- The fields of a packet's 128 bytes (R314). -/
def readPacket (v : Nat) : Packet128 :=
  let f := packetBits v
  { kind := f 0 7 0, guarded := f 0 8 8 == 1, det := f 0 9 9 == 1, handlers := f 0 10 10 == 1, child := f 0 11 11 == 1,
    traced := f 0 12 12 == 1, keepalive := f 0 13 13 == 1, tag := f 0 63 32,
    code := BitVec.ofNat 64 (f 8 63 0), arg := BitVec.ofNat 64 (f 0x10 63 0),
    widths := (List.range 6).map fun k => f 0x18 (6 * k + 5) (6 * k),
    ganglog := f 0x18 39 36, slots := f 0x18 43 40, vregs := f 0x18 48 44, prio := f 0x18 50 49,
    extents := (List.range 6).map fun k => f (if Nat.blt k 3 then 0x20 else 0x28) (20 * (k % 3) + 19) (20 * (k % 3)),
    widbase := BitVec.ofNat 64 (f 0x30 63 0), seed := BitVec.ofNat 64 (f 0x38 63 0),
    deps := [f 0x40 31 0, f 0x40 63 32, f 0x48 31 0, f 0x48 63 32],
    winbase := f 0x50 15 0, savebase := f 0x50 31 16, guardbase := f 0x50 47 32, guardsize := f 0x50 63 48,
    surr := f 0x58 15 0, check := f 0x58 31 16, exact := f 0x58 47 32,
    gtol := BitVec.ofNat 32 (f 0x60 31 0), wdog := f 0x60 63 32, route := f 0x68 15 0, absscope := f 0x68 18 16,
    completion := BitVec.ofNat 64 (f 0x70 63 0), reservedZero := packetReserved v }

/-- Whether two ranges of bytes overlap. -/
def overlap (a an b bn : Nat) : Bool := an != 0 && bn != 0 && Nat.blt a (b + bn) && Nat.blt b (a + an)

/-- The reason of the first failing row of R16, with the codes of R247. -/
def Packet128.gridReason (p : Packet128) : Option Nat :=
  if Nat.blt (2 ^ 24) p.vtiles then some 2
  else if Nat.blt 64 (p.widths.foldl (· + ·) 0) then some 3
  else if (List.range 6).any fun k => Nat.blt (2 ^ p.widths.getD k 0) (p.extent k) then some 3
  else if Nat.blt 12 p.ganglog then some 4
  else if p.slots == 0 || Nat.blt 8 p.slots || (p.handlers && Nat.blt 7 p.slots) then some 5
  else if Nat.blt 16 p.vregs then some 6
  else none

end Sys2Proof.Machine
end

