-- ==== Sys2Proof/Machine/Send.lean ====
section
/-! DEFINITION. Sends, LAUNCH and CNTSET, major 0x37, and register capabilities, major 0x38 (spec/09_isa_fabric.md R241 to
R258). -/

namespace Sys2Proof.Machine

/-! ### The network interface (R244, R252) -/

/-- The number a packet of a traffic class takes at its sending vtile (R389), and the tile with the next one. -/
def Tile.nextSeq (t : Tile) (tc : Nat) : Nat × Tile :=
  let k : Fin 8 := Fin.ofNat 8 tc
  (t.sendSeq[k], { t with sendSeq := t.sendSeq.set k (t.sendSeq[k] + 1) })

/-- A send or register write of the current slot stands in the network interface, under the next issue number. -/
def State.enqueue (s : State) (tc : Nat) (dst : Dest) (body : Body) : State :=
  let sl := s.slot s.cur
  let s := s.setSlot s.cur { sl with nextId := sl.nextId + 1 }
  let r := (s.tile s.cur.site).nextSeq tc
  let p : Packet := { s.packet sl.nextId tc dst body with seq := r.1 }
  s.setTile s.cur.site { r.2 with outq := r.2.outq ++ [p] }

/-- The sends and register writes that stand uninjected in a tile's interface: requests stand beside them. -/
def Tile.unsent (t : Tile) : Nat := (t.outq.filter fun p => p.unperformed && !p.isRequest).length

/-- A send that meets 8 uninjected ones is not ready (R244). -/
def interfaceRoom : M Unit := do
  let t ← getTile
  require (Nat.blt t.unsent 8) (.wait .held)

/-! ### Headers (R241, R242) -/

/-- VTILE of a header. -/
def hdrVt (h : Word) : Nat := bitsOf h.toNat 63 40
/-- KIND of a header. -/
def hdrKind (h : Word) : Nat := bitsOf h.toNat 39 38
/-- CLASS or CTR of a header. -/
def hdrClass (h : Word) : Nat := bitsOf h.toNat 37 32
/-- DEC of a header. -/
def hdrDec (h : Word) : Nat := bitsOf h.toNat 31 24
/-- PRIO of a header. -/
def hdrPrio (h : Word) : Nat := bitsOf h.toNat 23 22
/-- TC of a header. -/
def hdrTc (h : Word) : Nat := bitsOf h.toNat 21 19
/-- LEN of a header. -/
def hdrLen (h : Word) : Nat := bitsOf h.toNat 15 9

/-- Check 1 of R242: `addressed` tells SENDA from the other forms. -/
def headerOk (h : Word) (addressed : Bool) (limit : Nat) : Bool :=
  bitsOf h.toNat 18 16 == 0 && bitsOf h.toNat 8 0 == 0 && (!addressed || hdrVt h == 0) && Nat.ble 4 (hdrTc h)
    && (if addressed then hdrKind h == 2 else Nat.ble (hdrKind h) 1)
    && (hdrKind h == 1 || (hdrDec h == 0 && hdrClass h != 63)) && Nat.ble (hdrLen h) limit

/-- Checks 2 and 3 of R242 on a payload pointer; answers the offset. -/
def payloadAt (p : Word) (len : Nat) : M Nat := do
  let a := ptrAddr p
  require (ptrSpace p == 2 && a / 2 ^ 17 == 0 && Nat.ble (a + 8 * len) Config.spadBytes) (.trap .bounds p)
  require (a % 8 == 0) (.trap .alignment p)
  return a

/-- Check 4 of R242. -/
def checkVtile (vt : Nat) : M Unit := do
  let l ← getLaunch
  require (Nat.blt vt l.pkt.vtiles) (.trap .unmapped (BitVec.ofNat 64 vt))

/-- Words of a bit string, lowest first. -/
def wordsOf (v n : Nat) : List Word := (List.range n).map fun i => BitVec.ofNat 64 (elemBits v 64 i)

/-- Reads payload words from the own scratchpad, behind the slot's fences and waiting at empty lines. -/
def readPayload (p : Word) (a len : Nat) : M (List Word) :=
  if len == 0 then pure []
  else do
    fenceGate false true
    let r ← privAccess (.vecLoad [{ pos := 0, len := 64 * len, addr := a, boff := 0 }]) p a
    return wordsOf r.val len

/-- A message with its words leaves, or is captured in the guarded phase (R125, R126, R244). -/
def sendMessage (h : Word) (vt : Nat) (words : List Word) : M Flow := do
  let ph ← inPhase
  let idx ← currentIdx
  let s ← get
  if ph then do
    capture (.packets [s.packet 0 (hdrTc h) (.vtile idx vt) (.message h words)]) (captureBytes (8 * hdrLen h))
    return .seq
  else do
    fenceGate true false
    interfaceRoom
    modify fun s => s.enqueue (hdrTc h) (.vtile idx vt) (.message h words)
    return .seq

/-- SEND: the payload stands in the own scratchpad (R243). -/
def execSend (stl : Stl) (a b : Src) (s : State) : Result :=
  issue (opA 0x37 0 stl 0 a.code b.code) (do
    let (h, p) ← read2 a b
    require (headerOk h false 64) (.word .illegalOperand)
    let off ← payloadAt p (hdrLen h)
    checkVtile (hdrVt h)
    let ws ← readPayload p off (hdrLen h)
    sendMessage h (hdrVt h) ws) s

/-- SENDS: up to two words from scalar sources. -/
def execSends (stl : Stl) (d a b : Src) (s : State) : Result :=
  issue (opA 0x37 1 stl d.code a.code b.code) (do
    let (h, w0, w1) ← read3 a b d
    require (headerOk h false 2) (.word .illegalOperand)
    checkVtile (hdrVt h)
    sendMessage h (hdrVt h) ([w0, w1].take (hdrLen h))) s

/-- SENDV: the first words of a vector source. -/
def execSendv (stl : Stl) (a : Src) (b : VSrc) (s : State) : Result :=
  issue (opA 0x37 2 stl 0 a.code b.code) (do
    checkVSrc false b
    windowVSrc b
    awaitSrc a
    awaitVSrc b
    let h ← readSrc a
    let v ← readVSrc b
    require (headerOk h false 64) (.word .illegalOperand)
    checkVtile (hdrVt h)
    sendMessage h (hdrVt h) (wordsOf v.1.toNat (hdrLen h))) s

/-- SENDA: the destination is that of a tile-global pointer, which is word 0. -/
def execSenda (stl : Stl) (d a b : Src) (s : State) : Result :=
  issue (opA 0x37 3 stl d.code a.code b.code) (do
    let (h, g, p) ← read3 a b d
    require (headerOk h true 63) (.word .illegalOperand)
    require (ptrSpace g == 1) (.trap .bounds g)
    let off ← payloadAt p (hdrLen h)
    checkVtile (bitsOf g.toNat 55 32)
    let ws ← readPayload p off (hdrLen h)
    sendMessage h (bitsOf g.toNat 55 32) (g :: ws)) s

/-- MLEN (R245). -/
def execMlen (stl : Stl) (d : Dst) (s : State) : Result :=
  issue (opA 0x37 4 stl d.code 0 0) (do
    checkDst d
    let sl ← getSlot
    writeDst 1 0 d (BitVec.ofNat 64 ((sl.msg.map fun m => m.words.length).getD 0))
    return .seq) s

/-- The map of MSRC (R245). -/
def Msg.source (m : Msg) : Word :=
  BitVec.ofNat 64 (m.srcVt % 2 ^ 24 + m.srcSlot % 8 * 2 ^ 24 + m.tc % 8 * 2 ^ 27 + m.kind % 4 * 2 ^ 30 + m.ts.toNat * 2 ^ 32)

/-- MSRC (R245). -/
def execMsrc (stl : Stl) (d : Dst) (s : State) : Result :=
  issue (opA 0x37 5 stl d.code 0 0) (do
    checkDst d
    let sl ← getSlot
    writeDst 1 0 d ((sl.msg.map Msg.source).getD 0)
    return .seq) s

/-! ### LAUNCH and CNTSET (R246 to R248) -/

/-- The status word of LAUNCH (R247). -/
def launchStatus (status reason tag : Nat) : Word := BitVec.ofNat 64 (status + reason * 256 + tag % 2 ^ 32 * 2 ^ 32)

/-- The reason for which LAUNCH turns a packet away (R11, R16, R247); a MARKER has no grid to check (R315). -/
def Launch.childReason (l : Launch) (p : Packet128) : Option Nat :=
  if Nat.ble 7 l.depth then some 1
  else
    match (if p.kind == 2 then none else p.gridReason) with
    | some r => some r
    | none => if Nat.ble 256 l.children then some 7 else none

/-- LAUNCH of a packet by a thread of a launch: the status, and the copy with CHILD set on its way (R246). -/
def State.launchChild (s : State) (idx : Nat) (bytes : List Byte) : State × Word :=
  let v := bytesToNat bytes
  let v := v - packetBits v 0 11 11 * 2 ^ 11 + 2 ^ 11
  let p := readPacket v
  let l := s.launch idx
  match l.childReason p with
  | some r => (s, launchStatus 1 r p.tag)
  | none =>
    let s := s.setLaunch idx { l with children := l.children + 1 }
    ({ s with children := s.children ++ [{ bytes := natToBytes 128 v, parent := idx }] }, launchStatus 0 0 p.tag)

/-- LAUNCH: an implicit release at DEVICE scope stands before it. -/
def execLaunch (stl : Stl) (d : Dst) (a : Src) (s : State) : Result :=
  issue (opA 0x37 6 stl d.code a.code 0) (do
    checkDst d
    let p ← read1 a
    let off := ptrAddr p
    require (ptrSpace p == 2 && off / 2 ^ 17 == 0 && Nat.ble (off + 128) Config.spadBytes) (.trap .bounds p)
    require (off % 8 == 0) (.trap .alignment p)
    fenceGate false true
    let r ← privAccess (.vecLoad [{ pos := 0, len := 1024, addr := off, boff := 0 }]) p off
    let ph ← inPhase
    let st ← get
    if ph then do
      capture (.launch st.cur.slotNo (natToBytes 128 r.val)) (captureBytes 128)
      deliver d (launchStatus 2 0 (readPacket r.val).tag)
      return .seq
    else do
      releaseGate
      let idx ← currentIdx
      let st ← get
      let x := st.launchChild idx (natToBytes 128 r.val)
      set x.1
      deliver d x.2
      return .seq) s

/-- The tile with a counter entry written (R248). -/
def Tile.setCounter (t : Tile) (i : Nat) (v : Word) : Tile :=
  let e : Counter := { count := v.setWidth 32, cls := v.extractLsb' 32 6 }
  { t with counters := t.counters.set (Fin.ofNat 64 i : Fin 64) e }

/-- A CNTSET of a slot reaches the interface under an issue number: it stands behind the slot's sends there (R248). -/
def Tile.putCounter (t : Tile) (k : Fin 8) (id i : Nat) (v : Word) : Tile :=
  if t.outq.any fun p => p.src.slot == k then { t with ctrSets := t.ctrSets ++ [(k, id, i, v)] } else t.setCounter i v

/-- The CNTSETs behind which no earlier send of their slot stands any more are performed. -/
def Tile.settleCounters (t : Tile) : Tile :=
  let waits (x : Fin 8 × Nat × Nat × Word) : Bool := t.outq.any fun p => p.src.slot == x.1 && Nat.blt p.id x.2.1
  (t.ctrSets.filter fun x => !waits x).foldl (fun t x => t.setCounter x.2.2.1 x.2.2.2) { t with ctrSets := t.ctrSets.filter waits }

/-- CNTSET: a counted message that the interface accepts in the same cycle is applied after it, since acceptance ends the
cycle (R248). -/
def execCntset (stl : Stl) (a b : Src) (s : State) : Result :=
  issue (opA 0x37 7 stl 0 a.code b.code) (do
    let (i, v) ← read2 a b
    require (Nat.ble i.toNat 63 && bitsOf v.toNat 37 32 != 63) (.word .illegalOperand)
    let ph ← inPhase
    if ph then do
      capture (.cntset i.toNat v) (captureBytes 0)
      return .seq
    else do
      fenceGate true false
      let sl ← getSlot
      let s ← get
      modTile fun t => t.putCounter s.cur.slotNo sl.nextId i.toNat v
      return .seq) s

/-! ### Register capabilities (R249 to R253) -/

/-- The check code of a capability under a key (R250). -/
def checkCode (key c : Word) : BitVec 16 :=
  let x := key ^^^ (c >>> 16)
  let x := (x ^^^ (x >>> 30)) * 0xBF58476D1CE4E5B9#64
  let x := (x ^^^ (x >>> 27)) * 0x94D049BB133111EB#64
  let x := x ^^^ (x >>> 31)
  x.setWidth 16

/-- A capability of fields, with its check code (R249, R250). -/
def mintCap (key : Word) (vt slot reg : Nat) (gen : BitVec 12) (queue : Bool) : Word :=
  let c := BitVec.ofNat 64 (vt % 2 ^ 24 * 2 ^ 40 + slot % 8 * 2 ^ 37 + reg % 64 * 2 ^ 31 + gen.toNat * 2 ^ 19
    + queue.toNat * 2 ^ 18)
  c ||| (checkCode key c).setWidth 64

/-- REG of a capability. -/
def capReg (c : Word) : Nat := bitsOf c.toNat 36 31

/-- The launch whose key a capability's check code matches, from a launch up to its root (R250). -/
def State.capLaunch (s : State) (c : Word) : Nat → Option Nat → Option Nat
  | 0, _ => none
  | _, none => none
  | fuel + 1, some idx =>
    match Table.get? s.launches idx with
    | none => none
    | some l => if checkCode l.key c == c.setWidth 16 then some idx else s.capLaunch c fuel l.parent

/-- Where a register write goes, or nowhere: no key matches, or VTILE lies beyond the target launch's grid, which counts as
BADCAP and faults nothing: spec/14_sys_swap.md R342 gives R253 as the check of a capability's target launch in place of R17. -/
def State.capDest (s : State) (idx : Nat) (c : Word) : Option Dest :=
  match s.capLaunch c 9 (some idx) with
  | none => none
  | some t =>
    let vt := bitsOf c.toNat 63 40
    if Nat.blt vt (s.launch t).pkt.vtiles then some (.vtile t vt) else none

/-- A register write of the current slot leaves; one whose capability is bad is discarded and counted. -/
def State.sendWrite (s : State) (idx : Nat) (cap val : Word) (vec : Vec) (side : Side) (release : Bool) : State :=
  match s.capDest idx cap with
  | some dst => s.enqueue 2 dst (.regWrite cap val vec side release)
  | none =>
    let s := s.setTile s.cur.site ((s.tile s.cur.site).nextSeq 2).2
    s.countAt s.cur.site idx fun g => { g with badcap := g.badcap + 1 }

/-- A register write: captured in the guarded phase, else sent (R252). -/
def putRegister (cap val : Word) (vec : Vec) (side : Side) (bytes : Nat) (release : Bool) : M Flow := do
  let ph ← inPhase
  let idx ← currentIdx
  let s ← get
  if ph then do
    capture (.packets [s.packet 0 2 (.vtile idx (bitsOf cap.toNat 63 40)) (.regWrite cap val vec side release)]) (captureBytes bytes)
    return .seq
  else do
    fenceGate true false
    if release then releaseGate
    interfaceRoom
    modify fun s => s.sendWrite idx cap val vec side release
    return .seq

/-- The fields of a capability at issue: reserved bits zero, and REG of the right kind. -/
def checkCap (c : Word) (vector : Bool) : M Unit :=
  require (bitsOf c.toNat 17 16 == 0
    && (if vector then Nat.ble 32 (capReg c) && Nat.blt (capReg c) 48 else Nat.blt (capReg c) 32)) (.word .illegalOperand)

/-- RPUT. -/
def execRput (stl : Stl) (a b : Src) (s : State) : Result :=
  issue (opA 0x38 1 stl 0 a.code b.code) (do
    let (c, v) ← read2 a b
    checkCap c false
    putRegister c v 0 0 0 false) s

/-- RPUTV. -/
def execRputv (stl : Stl) (a : Src) (b : VSrc) (s : State) : Result :=
  issue (opA 0x38 2 stl 0 a.code b.code) (do
    checkVSrc false b
    windowVSrc b
    awaitSrc a
    awaitVSrc b
    let c ← readSrc a
    let v ← readVSrc b
    checkCap c true
    putRegister c 0 v.1 v.2 512 false) s

/-- RPUTR: an implicit release at LAUNCH scope stands before it. -/
def execRputr (stl : Stl) (a b : Src) (s : State) : Result :=
  issue (opA 0x38 3 stl 0 a.code b.code) (do
    let (c, v) ← read2 a b
    checkCap c false
    putRegister c v 0 0 0 true) s

/-- REG of a literal: 48 and above is illegal, a vector register must exist (R251, R257). -/
def checkReg (r : BitVec 6) : M Unit := do
  require (Nat.blt r.toNat 48) (.word .illegalOperand)
  if Nat.ble 32 r.toNat then checkVreg (Fin.ofNat 16 (r.toNat - 32))

/-- RCAP (R251). -/
def execRcap (stl : Stl) (d : Dst) (a : BitVec 6) (b : BitVec 1) (s : State) : Result :=
  issue (opA 0x38 0 stl d.code a.toNat b.toNat) (do
    checkDst d
    checkReg a
    let l ← getLaunch
    let vt ← currentVt
    let sl ← getSlot
    let st ← get
    writeDst 3 0 d (mintCap l.key vt st.cur.slotNo.val a.toNat sl.gen (b == 1))
    return .seq) s

/-! ### Taking a register (R257) -/

/-- The checks of RTAKE and RWAIT in the order of R139: a destination of the register's kind, both windows, and then that D is
another register. -/
def checkTake (d r : BitVec 6) : M Unit := do
  require (Nat.blt r.toNat 48) (.word .illegalOperand)
  if Nat.blt r.toNat 32 then do
    checkDst (Dst.ofCode d.toNat)
    require (Dst.ofCode d.toNat != .n (Fin.ofNat 32 r.toNat)) (.word .illegalOperand)
  else do
    checkVDst (VDst.ofCode d.toNat)
    checkReg r
    windowVDst (VDst.ofCode d.toNat)
    require (VDst.ofCode d.toNat != .v (Fin.ofNat 16 (r.toNat - 32))) (.word .illegalOperand)

/-- The lines of a vector register in the F/E bits. -/
def vregLines (off : Nat) : BitVec 1024 := 0xF#1024 <<< (off / 128)

/-- Waits until a register is full and not pending and reads it into D; `take` leaves it empty. -/
def takeRegister (d r : BitVec 6) (take : Bool) : M Flow := do
  if Nat.blt r.toNat 32 then do
    let k : Fin 32 := Fin.ofNat 32 r.toNat
    awaitNamed k
    let v ← readNamed k
    if take then modSlot fun sl => { sl with nfull := sl.nfull &&& ~~~(1#32 <<< k.val) }
    deliver (Dst.ofCode d.toNat) v
    return .seq
  else do
    let k : Fin 16 := Fin.ofNat 16 (r.toNat - 32)
    awaitVSrc (.v k)
    let v ← readVSrc (.v k)
    let l ← getLaunch
    let st ← get
    let off := vregOffset l st.cur.slotNo k.val
    if take then modTile fun t => { t with fe := t.fe &&& ~~~(vregLines off) }
    writeVDst 1 0 (VDst.ofCode d.toNat) v.1 v.2
    return .seq

/-- RTAKE. -/
def execRtake (stl : Stl) (d a : BitVec 6) (s : State) : Result :=
  issue (opA 0x38 4 stl d.toNat a.toNat 0) (do
    checkTake d a
    takeRegister d a true) s

/-- RWAIT. -/
def execRwait (stl : Stl) (d a : BitVec 6) (s : State) : Result :=
  issue (opA 0x38 7 stl d.toNat a.toNat 0) (do
    checkTake d a
    takeRegister d a false) s

/-- REMPTY. -/
def execRempty (stl : Stl) (a : BitVec 6) (s : State) : Result :=
  issue (opA 0x38 5 stl 0 a.toNat 0) (do
    checkReg a
    if Nat.blt a.toNat 32 then
      modSlot fun sl => { sl with nfull := sl.nfull &&& ~~~(1#32 <<< a.toNat) }
    else do
      let l ← getLaunch
      let st ← get
      let off := vregOffset l st.cur.slotNo (a.toNat - 32)
      modTile fun t => { t with fe := t.fe &&& ~~~(vregLines off) }
    return .seq) s

/-- RFULL. -/
def execRfull (stl : Stl) (d : Dst) (a : BitVec 6) (s : State) : Result :=
  issue (opA 0x38 6 stl d.code a.toNat 0) (do
    checkDst d
    checkReg a
    let l ← getLaunch
    let st ← get
    let t ← getTile
    let sl ← getSlot
    let full := if Nat.blt a.toNat 32 then sl.nfull.getLsbD a.toNat
      else t.linesFull (vregOffset l st.cur.slotNo (a.toNat - 32)) 512
    writeDst 1 0 d (BitVec.ofNat 64 full.toNat)
    return .seq) s

end Sys2Proof.Machine
end

