-- ==== Sys2Proof/Machine/CtrlRegs.lean ====
section
/-! DEFINITION. Control registers (spec/02_state.md R56 to R61, spec/12_sys_isa.md R276 to R278, spec/19_sys_wafer.md R418)
with CRD and CWR (spec/06_isa_scalar.md R173), and FENCE (R174, spec/04_memory.md R114). -/

namespace Sys2Proof.Machine

/-! ### Registers of a slot -/

/-- A loop level as its register (R60). -/
def LoopLevel.word (l : LoopLevel) : Word := l.stop ++ l.start ++ l.count

/-- The loop level of a register value. -/
def LoopLevel.ofWord (w : Word) : LoopLevel :=
  { count := w.setWidth 32, start := w.extractLsb' 32 16, stop := w.extractLsb' 48 16 }

/-- A slot-scope register of R56 or R276 as it reads, for slot k of a tile. -/
def Slot.ctlGet (sl : Slot) (k : Nat) (i : Nat) : Option Word :=
  match i with
  | 0x000 => some sl.vt
  | 0x001 => some sl.vt2
  | 0x002 => some (sl.rnd.setWidth 64)
  | 0x003 => some (sl.fstat.setWidth 64)
  | 0x004 => some (BitVec.ofNat 64 sl.schk.toNat)
  | 0x005 => some (sl.lr.setWidth 64)
  | 0x006 => some sl.lc0.word
  | 0x007 => some sl.lc1.word
  | 0x022 => some (sl.fxsc.setWidth 64)
  | 0x023 => some sl.srseed
  | 0x024 => some (sl.xfollow.setWidth 64)
  | 0x026 => some (BitVec.ofNat 64 (k + sl.res.toNat * 8))
  | 0x029 => some (sl.msgcls.setWidth 64)
  | 0x200 => some (BitVec.ofNat 64 (sl.sys.toNat + sl.pie.toNat * 4))
  | 0x201 => some (sl.epc.setWidth 64)
  | 0x202 => some (sl.cause.setWidth 64)
  | 0x203 => some sl.tval
  | 0x204 => some (sl.pend.setWidth 64)
  | 0x205 => some sl.ovr.header
  | 0x206 => some sl.ovr.data
  | 0x207 => some (sl.gen.setWidth 64)
  | _ => none

/-- RND with a value written: MODE 5 to 7 leaves MODE unchanged (R59). -/
def rndWrite (old : BitVec 4) (v : Word) : BitVec 4 :=
  let m : BitVec 3 := if Nat.blt 4 (v.extractLsb' 0 3).toNat then old.extractLsb' 0 3 else v.extractLsb' 0 3
  (v.extractLsb' 3 1) ++ m

/-- A slot-scope register of R56 or R276 written; a read-only one ignores the write. -/
def Slot.ctlSet (sl : Slot) (i : Nat) (v : Word) : Option Slot :=
  match i with
  | 0x000 => some { sl with vt := v &&& 0x37FFF }
  | 0x001 => some { sl with vt2 := v &&& 0x3000F }
  | 0x002 => some { sl with rnd := rndWrite sl.rnd v }
  | 0x003 => some { sl with fstat := v.setWidth 6 }
  | 0x004 => some { sl with schk := v.getLsbD 0 }
  | 0x005 => some { sl with lr := v.setWidth 16 }
  | 0x006 => some { sl with lc0 := .ofWord v }
  | 0x007 => some { sl with lc1 := .ofWord v }
  | 0x022 => some { sl with fxsc := v.setWidth 8 }
  | 0x023 => some { sl with srseed := v }
  | 0x024 => some { sl with xfollow := v.setWidth 32 }
  | 0x026 | 0x029 | 0x206 | 0x207 => some sl
  | 0x200 => some { sl with pie := v.getLsbD 2 }
  | 0x201 => some { sl with epc := v.setWidth 16 }
  | 0x202 => some { sl with cause := v.setWidth 14 }
  | 0x203 => some { sl with tval := v }
  | 0x204 => some { sl with pend := sl.pend &&& ~~~(v.setWidth 6) }
  | 0x205 => some (if v.getLsbD 0 then sl else { sl with ovr := { sl.ovr with valid := false } })
  | _ => none

/-! ### Registers of a tile -/

/-- A tile or vtile register as it reads in a tile (R56, R276). -/
def State.tileCtlGet (s : State) (site : Nat) (i : Nat) : Option Word :=
  let t := s.tile site
  let l := s.launch t.name.1
  match i with
  | 0x008 => some (t.mrow.setWidth 64)
  | 0x009 => some t.mcol0
  | 0x00A => some t.mcol1
  | 0x010 => some (t.tcfg[0].setWidth 64)
  | 0x011 => some (t.tcfg[1].setWidth 64)
  | 0x012 => some (t.tcfg[2].setWidth 64)
  | 0x013 => some (t.tcfg[3].setWidth 64)
  | 0x014 => some (t.tcfg[4].setWidth 64)
  | 0x015 => some (t.tcfg[5].setWidth 64)
  | 0x016 => some (t.tcfg[6].setWidth 64)
  | 0x017 => some (t.tcfg[7].setWidth 64)
  | 0x018 => some t.mslot
  | 0x020 => some (l.pkt.gtol.setWidth 64)
  | 0x021 => some (t.gresid.setWidth 64)
  | 0x025 => some (BitVec.ofNat 64 (t.qslice - s.tb.toNat))
  | 0x027 => some (BitVec.ofNat 64 (t.name.2 + l.depth * 2 ^ 40))
  | 0x028 => some s.tb
  | 0x210 => some (BitVec.ofNat 64 (t.stop.toNat + t.nodisp.toNat * 2 + t.faulted.toNat * 4))
  | 0x211 => some (t.xerr.setWidth 64)
  | 0x212 => some (BitVec.ofNat 64 (t.name.1 + l.asid * 65536))
  | 0x213 => some (BitVec.ofNat 64 (min t.svq.length 8))
  | _ => none

/-- A tile or vtile register written (R56, R276): a write of MSLOT sets the engine's pointer to 0 (R35). -/
def Tile.ctlSet (t : Tile) (i : Nat) (v : Word) : Option Tile :=
  match i with
  | 0x008 => some { t with mrow := v.setWidth 32 }
  | 0x009 => some { t with mcol0 := v }
  | 0x00A => some { t with mcol1 := v }
  | 0x010 => some { t with tcfg := t.tcfg.set 0 (v.setWidth 19) }
  | 0x011 => some { t with tcfg := t.tcfg.set 1 (v.setWidth 19) }
  | 0x012 => some { t with tcfg := t.tcfg.set 2 (v.setWidth 19) }
  | 0x013 => some { t with tcfg := t.tcfg.set 3 (v.setWidth 19) }
  | 0x014 => some { t with tcfg := t.tcfg.set 4 (v.setWidth 19) }
  | 0x015 => some { t with tcfg := t.tcfg.set 5 (v.setWidth 19) }
  | 0x016 => some { t with tcfg := t.tcfg.set 6 (v.setWidth 19) }
  | 0x017 => some { t with tcfg := t.tcfg.set 7 (v.setWidth 19) }
  | 0x018 => some { t with mslot := v, mptr := 0 }
  | 0x020 | 0x025 | 0x027 | 0x028 | 0x212 | 0x213 => some t
  | 0x021 => some { t with gresid := v.setWidth 32 }
  | 0x210 => some { t with stop := v.getLsbD 0, nodisp := v.getLsbD 1 }
  | 0x211 => some { t with xerr := v.setWidth 5 }
  | _ => none

/-! ### Registers of a core -/

/-- The registers of R307 that a core shares with a slot: RND, FSTAT, SCHK, LR, LC0, LC1, EPC, CAUSE, TVAL. -/
def coreSlotReg (i : Nat) : Bool := [2, 3, 4, 5, 6, 7, 0x201, 0x202, 0x203].contains i

/-- Messages that wait for a core; those of a command link stand in a buffer beside its supervisor input queue (R333). -/
def State.inbox (s : State) (code : Nat) : List FlueMsg := s.flue.filter fun m => m.dst == code

/-- The DEST code of an agent (R296). -/
def agentCode : Agent → Nat
  | .tile site _ => site
  | .collier => collierCode
  | .stoker r => stokerCode r

/-- A capture-unit register (R407). -/
def CaptureUnit.get (c : CaptureUnit) (i : Nat) : Option Word :=
  match i with
  | 0x3C0 => some (BitVec.ofNat 64 (c.qty + c.filt.toNat * 16 + c.lidx * 65536))
  | 0x3C1 => some (c.min.setWidth 64)
  | 0x3C2 => some (c.max.setWidth 64)
  | 0x3C3 => some (c.count.setWidth 64)
  | _ => if Nat.ble 0x3C4 i && Nat.ble i 0x3D3 then some (c.bins[(Fin.ofNat 16 (i - 0x3C4) : Fin 16)].setWidth 64) else none

/-- WAFER_STAT (R418). -/
def State.waferStat (s : State) : Word :=
  let g := s.goodTiles
  BitVec.ofNat 64 (g % 2 ^ 19 + s.replaceReq.toNat * 2 ^ 19 + s.shipped % 4 * 2 ^ 20 + gradeOf g * 2 ^ 22
    + min s.retirements 65535 * 2 ^ 32 + min s.readmits 65535 * 2 ^ 48)

/-- A device register of the Collier as it reads (R418); RXUINV is write-only. -/
def State.collierDevGet (s : State) (i : Nat) : Option Word :=
  if Nat.ble 0x300 i && Nat.ble i 0x33F then
    let r := s.therm (i - 0x300)
    some (BitVec.ofNat 64 (r.temp.toNat + r.valid.toNat * 4096))
  else if Nat.ble 0x340 i && Nat.ble i 0x37F then
    let r := s.therm (i - 0x340)
    some (BitVec.ofNat 64 (r.duty + r.applied * 256 + r.trip.toNat * 65536 + r.pend.toNat * 131072))
  else if Nat.ble 0x3A0 i && Nat.ble i 0x3AF then
    let p := Table.getD s.peers (i - 0x3A0) {}
    some (BitVec.ofNat 64 (p.up.toNat + p.paired.toNat * 2 + p.part * 4 + p.pasid * 65536))
  else
    match i with
    | 0x380 => some (s.snsWarn.setWidth 64)
    | 0x381 => some (s.snsCrit.setWidth 64)
    | 0x382 => some s.alert
    | 0x388 => some s.waferStat
    | 0x389 => some (s.collier.eccCnt.setWidth 64)
    | 0x38A => some (s.collier.eccThr.setWidth 64)
    | 0x391 => some (BitVec.ofNat 64 s.rxuBusy.toNat)
    | _ => none

/-- A device register of a Stoker as it reads (R418). -/
def State.stokerDevGet (s : State) (r i : Nat) : Option Word :=
  let c := s.stoker r
  match i with
  | 0x300 => some (c.sgate.setWidth 64)
  | 0x301 => some (c.sfuse.setWidth 64)
  | 0x302 => some (c.droop.setWidth 64)
  | 0x303 => some (BitVec.ofNat 64 (s.goodOf r + s.classOf r * 8192))
  | 0x389 => some (c.eccCnt.setWidth 64)
  | 0x38A => some (c.eccThr.setWidth 64)
  | _ => c.cap.get i

/-- A core register as it reads (R276, R307, R418). -/
def State.coreCtlGet (s : State) (a : Agent) (i : Nat) : Option Word :=
  let c := s.core a
  if coreSlotReg i then c.th.ctlGet 0 i
  else
    match i with
    | 0x028 => some s.tb
    | 0x200 => some (BitVec.ofNat 64 (1 + c.ie.toNat * 2 + c.pie.toNat * 4))
    | 0x213 => some (BitVec.ofNat 64 (min ((s.inbox (agentCode a)).filter fun m => !m.onLink).length 8))
    | 0x220 => some ((s.ipend a).setWidth 64)
    | 0x221 => some (c.iena.setWidth 64)
    | 0x222 => some c.timercmp
    | _ =>
      match a with
      | .collier => s.collierDevGet i
      | .stoker r => s.stokerDevGet r i
      | .tile _ _ => none

/-- What reading a core register clears: ECCCNT and DROOPCNT (R418). -/
def State.coreReadClear (s : State) (a : Agent) (i : Nat) : State :=
  let c := s.core a
  if i == 0x389 then s.setCore a { c with eccCnt := 0 }
  else
    match a with
    | .stoker _ => if i == 0x302 then s.setCore a { c with droop := 0 } else s
    | _ => s

/-- A device register of the Collier written (R418 to R420); a read-only one ignores the write. -/
def collierDevSet (i : Nat) (v : Word) : M Unit := do
  let s ← get
  if Nat.ble 0x340 i && Nat.ble i 0x37F then
    match s.writeDuty (i - 0x340) v.toNat with
    | some s' => set s'
    | none => throw (.wait .held)
  else if i == 0x390 then do
    require (!s.rxuBusy) (.wait .held)
    set (s.rxuInvalidate (bitsOf v.toNat 15 0) (if v.getLsbD 62 then none else some (bitsOf v.toNat 51 16)))
  else
    match i with
    | 0x380 => set { s with snsWarn := v.setWidth 12 }
    | 0x381 => set (s.writeCrit (v.setWidth 12))
    | 0x382 => set (s.clearAlerts v)
    | 0x38A => set (s.setEcc .collier s.collier.eccCnt (v.setWidth 32))
    | _ => require ((s.collierDevGet i).isSome) (.word .illegalOperand)

/-- A device register of a Stoker written. -/
def stokerDevSet (r i : Nat) (v : Word) : M Unit := do
  let s ← get
  match i with
  | 0x300 => set (s.writeSgate r (v.setWidth 16))
  | 0x38A => set (s.setEcc (.stoker r) (s.stoker r).eccCnt (v.setWidth 32))
  | 0x3C0 => set (s.captureSelect r v.toNat)
  | _ => require ((s.stokerDevGet r i).isSome) (.word .illegalOperand)

/-- A core register written. -/
def coreCtlSet (i : Nat) (v : Word) : M Unit := do
  let s ← get
  let c := s.core s.cur
  if coreSlotReg i then
    match c.th.ctlSet i v with
    | some sl => putSlot sl
    | none => throw (.word .illegalOperand)
  else
    match i with
    | 0x028 | 0x213 | 0x220 => pure ()
    | 0x200 => set (s.setCore s.cur { c with ie := v.getLsbD 1, pie := v.getLsbD 2 })
    | 0x221 => set (s.setCore s.cur { c with iena := v.setWidth 7 })
    | 0x222 => set (s.writeTimer s.cur v)
    | _ =>
      match s.cur with
      | .collier => collierDevSet i v
      | .stoker r => stokerDevSet r i v
      | .tile _ _ => throw (.word .illegalOperand)

/-! ### CRD and CWR (R173) -/

/-- A privileged index in USER mode faults as privileged (R57). -/
def checkIndex (i : Nat) : M Unit := do
  let s ← get
  require (s.cur.isCore || (s.slot s.cur).sys || Nat.blt i 0x200) (.word .privileged)

/-- Reads a control register; RXUINV is write-only and reads zero (R6). -/
def readCtl (i : Nat) : M Word := do
  let s ← get
  if s.cur.isCore then
    if s.cur == .collier && i == 0x390 then return 0
    else
      match s.coreCtlGet s.cur i with
      | some v => do
        set (s.coreReadClear s.cur i)
        return v
      | none => throw (.word .illegalOperand)
  else
    match (s.slot s.cur).ctlGet s.cur.slotNo.val i with
    | some v => return v
    | none =>
      match s.tileCtlGet s.cur.site i with
      | some v => return v
      | none => throw (.word .illegalOperand)

/-- Whether an index names a control register of a tile. -/
def tileCtlListed (i : Nat) : Bool := (Slot.ctlSet {} i 0).isSome || (Tile.ctlSet {} i 0).isSome

/-- A CWR of LC0 or LC1: its own end check uses the levels as they stand, and the new value is seen from the next instruction on
(R169, R173). -/
def writeLoop (i : Nat) (v : Word) : M Flow := do
  let sl ← getSlot
  let n := sl.next 2
  match n.ctlSet i v with
  | some x => do
    putSlot x
    return .jump n.pc
  | none => throw (.word .illegalOperand)

/-- Writes a control register. A write to a tile or vtile register completes a cycle later, for every slot (R173). -/
def writeCtl (i : Nat) (v : Word) : M Flow := do
  let s ← get
  if i == 6 || i == 7 then writeLoop i v
  else if s.cur.isCore then do
    coreCtlSet i v
    return .seq
  else
    match (s.slot s.cur).ctlSet i v with
    | some sl => do
      putSlot sl
      return .seq
    | none =>
      match (s.tile s.cur.site).ctlSet i v with
      | some t => do
        modTile fun _ => t
        return .seqLate
      | none => throw (.word .illegalOperand)

/-- Whether the current agent has a control register of an index. -/
def ctlListed (i : Nat) : M Bool := do
  let s ← get
  return if s.cur.isCore then (s.coreCtlGet s.cur i).isSome || (s.cur == .collier && i == 0x390) else tileCtlListed i

/-- CRD. -/
def execCrd (stl : Stl) (d : Dst) (i : BitVec 10) (s : State) : Result :=
  issue (opI 0x19 stl d.code 0 i) (do
    checkDst d
    checkIndex i.toNat
    let v ← readCtl i.toNat
    writeDst 1 0 d v
    return .seq) s

/-- CWR. -/
def execCwr (stl : Stl) (a : Src) (i : BitVec 10) (s : State) : Result :=
  issue (opI 0x1A stl 16 a.code i) (do
    checkIndex i.toNat
    let ok ← ctlListed i.toNat
    require ok (.word .illegalOperand)
    let v ← read1 a
    writeCtl i.toNat v) s

/-! ### FENCE (R114, R174) -/

/-- A scope of 5 to 7 faults. -/
def checkScope (g : BitVec 3) : M Unit := require (Nat.ble g.toNat 4) (.word .illegalOperand)

/-- FENCE REL: later stores, sends, register writes, matrix commands and copy issues wait for what was issued before. -/
def execFenceRel (stl : Stl) (g : BitVec 3) (s : State) : Result :=
  issue (opA 0x1B 0 stl 0 0 g.toNat) (do
    checkScope g
    modSlot fun sl => { sl with fenceRel := sl.nextId }
    return .seq) s

/-- FENCE ACQ: later accesses wait for what has to return. -/
def execFenceAcq (stl : Stl) (g : BitVec 3) (s : State) : Result :=
  issue (opA 0x1B 1 stl 0 0 g.toNat) (do
    checkScope g
    modSlot fun sl => { sl with fenceAcq := sl.nextId }
    return .seq) s

/-- FENCE FULL: REL and ACQ, and later loads wait for earlier stores. -/
def execFenceFull (stl : Stl) (g : BitVec 3) (s : State) : Result :=
  issue (opA 0x1B 2 stl 0 0 g.toNat) (do
    checkScope g
    modSlot fun sl => { sl with fenceRel := sl.nextId, fenceAcq := sl.nextId, fenceAll := sl.nextId }
    return .seq) s

/-- FENCE LB: accesses to the own scratchpad wait for earlier ones. -/
def execFenceLb (stl : Stl) (s : State) : Result :=
  issue (opA 0x1B 3 stl 0 0 1) (do
    modSlot fun sl => { sl with fenceLb := sl.nextId }
    return .seq) s

end Sys2Proof.Machine
end

