-- ==== Sys2Proof/Machine/Image.lean ====
section
/-! DEFINITION. The code image of a launch (spec/05_encoding.md R154, R155): reading it through its CODE pointer and checking it. -/

namespace Sys2Proof.Machine

/-- n bytes of rim memory by virtual address; none where one cannot be read. -/
def State.readVirtual (s : State) (asid va n : Nat) : Option Nat :=
  let tr := s.physical asid
  if !Nat.ble (va + n) (2 ^ 48) || !s.translates asid [(va, n)] [] || hbmEccHit s.hbmEcc tr [(va, n)] then none
  else some (readVia tr s.hbm (n / 4096 + 2) va n)

/-- A code image as read. -/
structure Image where
  header : Nat
  code : List Half
  handlers : List Half
  deriving DecidableEq, Repr

/-- Halfwords of a number, the lowest first. -/
def halves (v : Nat) : Nat → List Half
  | 0 => []
  | n + 1 => BitVec.ofNat 16 v :: halves (v / 65536) n

/-- CODELEN. -/
def Image.codelen (i : Image) : Nat := bitsOf i.header 79 64
/-- ENTRY. -/
def Image.entry (i : Image) : Nat := bitsOf i.header 95 80

/-- Reads the image at a CODE pointer. -/
def State.readImageAt (s : State) (asid : Nat) (p : Word) : Option Image := do
  let va := ptrAddr p
  let h ← if ptrSpace p == 0 then s.readVirtual asid va 160 else none
  let n := bitsOf h 79 64
  let c ← s.readVirtual asid (va + 160) (2 * n)
  return { header := h, code := halves c n, handlers := halves (h / 2 ^ 256) 64 }

/-- The checks of a loaded image. -/
def Image.ok (i : Image) (p : Packet128) : Bool :=
  let n := i.codelen
  bitsOf i.header 31 0 == 0x4B595A4E && bitsOf i.header 47 32 == 1 && bitsOf i.header 63 48 == 0
    && Nat.ble 1 n && Nat.ble n 6144 && Nat.blt i.entry n && bitsOf i.header 127 96 == 0 && bitsOf i.header 255 224 == 0
    && i.handlers.all (fun h => h == 0xFFFF || Nat.blt h.toNat n)
    && (!p.guarded || (Nat.blt p.surr n && Nat.blt p.check n && Nat.blt p.exact n))

/-- The image that a Stoker loads for a launch: through the CODE pointer and the ASID of its directory entry (R337, R355). -/
def State.loadImage (s : State) (idx : Nat) : Option Image :=
  let d := s.directory + 32 * idx
  (s.readImageAt (bitsOf (s.hbm64 d) 47 32) (BitVec.ofNat 64 (s.hbm64 (d + 24)))).filter fun i => i.ok (s.launch idx).pkt

end Sys2Proof.Machine
end

