-- ==== Sys2Proof/Machine/Swap.lean ====
section
/-! DEFINITION. Save records (spec/12_sys_isa.md R292 to R294) and swap images (R304, spec/14_sys_swap.md R352 to R355). -/

namespace Sys2Proof.Machine

/-! ### Save records (R292) -/

/-- The number of records of a vtile. -/
def Packet128.records (p : Packet128) : Nat := if p.handlers then 8 else p.slots

/-- The scratchpad offset of the record of a slot. -/
def Packet128.recordAt (p : Packet128) (slot : Nat) : Nat := p.savebase * 128 + 3072 * slot

/-- The scratchpad offset of the tile-register block (R293). -/
def Packet128.blockAt (p : Packet128) : Nat := p.recordAt p.records

/-- Whether an instruction sequence, decoded from its first halfword on, holds a matrix command (R293): major 0x36, or
major 0x39 with SUB 1. -/
def holdsMatrix : List Half → Bool
  | [] => false
  | h :: rest =>
    if h.getLsbD 15 then
      match rest with
      | [] => false
      | g :: more =>
        let major := (h.extractLsb' 9 6).toNat
        major == 0x36 || (major == 0x39 && g.extractLsb' 0 4 == 1) || holdsMatrix more
    else holdsMatrix rest

/-- Whether the save area of a launch holds the tile-register block. -/
def Launch.blockReserved (l : Launch) : Bool := holdsMatrix l.code

/-- Words as one number, the first lowest. -/
def packWords (ws : List Word) : Nat := ws.foldr (fun w acc => w.toNat + acc * 2 ^ 64) 0

/-- Bits as one number, the first lowest. -/
def packBits (bs : List Bool) : Nat := bs.foldr (fun b acc => b.toNat + acc * 2) 0

/-- Fields written from a base on: offset, bytes, value. -/
def writeFields (m : Memory) (base : Nat) (fs : List (Nat × Nat × Nat)) : Memory :=
  fs.foldl (fun m f => Memory.write m (base + f.1) f.2.1 f.2.2) m

/-- STATUS of a record. -/
def Slot.statusWord (sl : Slot) : Nat :=
  1 + sl.res.toNat * 2 + (sl.msgcls.extractLsb' 0 6).toNat * 4 + sl.msg.isSome.toNat * 2 ^ 8 + sl.cursor % 128 * 2 ^ 9
    + sl.gen.toNat * 2 ^ 16 + sl.pend.toNat * 2 ^ 56

/-- MSGREF of a record. -/
def Slot.msgRef (sl : Slot) : Nat :=
  match sl.msg with
  | some m => m.off % 65536 + m.words.length % 128 * 65536
  | none => 0

/-- The control registers of a record: 11 of the slot, and 5 of the tile in slot 0. -/
def recordRegs (t : Tile) (k : Fin 8) : List Word :=
  let sl := t.slots[k]
  [sl.vt, sl.vt2, sl.rnd.setWidth 64, sl.fstat.setWidth 64, BitVec.ofNat 64 sl.schk.toNat, sl.lr.setWidth 64, sl.lc0.word,
    sl.lc1.word, sl.fxsc.setWidth 64, sl.srseed, sl.xfollow.setWidth 64]
  ++ (if k == 0 then [t.mrow.setWidth 64, t.mcol0, t.mcol1, t.mslot, t.gresid.setWidth 64] else [0, 0, 0, 0, 0])

/-- The record of a slot as fields. -/
def recordFields (t : Tile) (k : Fin 8) : List (Nat × Nat × Nat) :=
  let sl := t.slots[k]
  [(0x000, 128, packWords (sl.q.toList.map (·.val))),
   (0x080, 256, packWords sl.n.toList),
   (0x180, 8, sl.nfull.toNat + packBits (sl.q.toList.map fun e => e.pend != 0) * 2 ^ 32
     + packBits (sl.vq.toList.map fun e => e.pend != 0) * 2 ^ 48),
   (0x188, 2112, sl.vq.toList.foldr (fun e acc => e.val.toNat + e.side.toNat * 2 ^ 4096 + acc * 2 ^ 4224) 0),
   (0x9C8, 384, sl.m1.toNat + sl.m2.toNat * 2 ^ 1024 + sl.m3.toNat * 2 ^ 2048),
   (0xB48, 128, packWords (recordRegs t k)),
   (0xBC8, 56, packWords [sl.epc.setWidth 64, sl.cause.setWidth 64, sl.tval, sl.ovr.header, sl.ovr.data,
     BitVec.ofNat 64 sl.statusWord, BitVec.ofNat 64 sl.msgRef])]

/-- The tile with the record of a slot written (R294): no F/E bit changes. -/
def Tile.saveRecord (t : Tile) (base : Nat) (k : Fin 8) : Tile :=
  let t1 := t.setSlot k { t.slots[k] with recorded := true }
  { t1 with spad := writeFields t.spad base (recordFields t k), eccWords := clearEcc t.eccWords base 3072 }

/-- The tile with the tile-register block written (R293). -/
def Tile.saveBlock (t : Tile) (base : Nat) : Tile :=
  { t with
    spad := writeFields t.spad base
      [(0, 8192, t.tregs.toList.foldr (fun w acc => w.toNat + acc * 2 ^ 8192) 0),
       (8192, 64, packWords (t.tcfg.toList.map fun w => w.setWidth 64))]
    eccWords := clearEcc t.eccWords base 8256 }

/-- A doubleword of the record at an offset. -/
def Tile.recWord (t : Tile) (base off : Nat) : Word := BitVec.ofNat 64 (Memory.read t.spad (base + off) 8)

/-- Whether the record of a slot holds a thread. -/
def Tile.recThread (t : Tile) (base : Nat) : Bool := (t.recWord base 0xBF0).getLsbD 0

/-- The overwrite record that OVRH and OVRD describe (R278). -/
def Overwrite.ofWords (h d : Word) : Overwrite :=
  let x := h.toNat
  { valid := bitsOf x 0 0 == 1, vec := bitsOf x 1 1 == 1, reg := bitsOf x 7 2, srcVt := bitsOf x 31 8,
    srcSlot := bitsOf x 34 32, data := d }

/-- The word of the input buffer at an offset: that of the queued or current payload which stands there, else a free value. -/
def Tile.bufferWord (t : Tile) (off ctr : Nat) : Word :=
  match (t.iqs.toList.flatMap (·.msgs) ++ t.slots.toList.filterMap (·.msg)).find? fun m =>
      Nat.ble m.off off && Nat.blt off (m.off + 8 * m.words.length) with
  | some m => m.words.getD ((off - m.off) / 8) 0
  | none => Config.freeWord ctr

/-- The current message that a MSGREF names (R292, R294): that of the slot where it is the same payload, else what stands in the
input buffer there. -/
def Tile.messageAt (t : Tile) (sl : Slot) (off len ctr : Nat) : Msg :=
  let old : Msg := sl.msg.getD { hdr := 0, words := [], srcVt := 0, srcSlot := 0, tc := 0, kind := 0, ts := 0, cls := 0, off, seq := 0,
                                 accepted := 0, transit := 0, parked := false }
  if old.off == off && old.words.length == len then old
  else { old with off, words := (List.range len).map fun i => t.bufferWord (off + 8 * i) (ctr + i) }

/-- The slot that a record loads back (R294). An entry whose pending bit the record holds keeps the place that its reply
fills (log entry 12, DEDUCED); PEND takes the record's bits besides its own; MODE stays. -/
def Tile.loadSlot (t : Tile) (base ctr : Nat) (sl : Slot) : Slot :=
  let w (off : Nat) : Word := t.recWord base off
  let full := (w 0x180).toNat
  let st := (w 0xBF0).toNat
  let reg (i : Nat) : Word := w (0xB48 + 8 * i)
  { sl with
    q := Vector.ofFn fun i => if full / 2 ^ (32 + i.val) % 2 == 1 then sl.q[i] else { val := w (8 * i.val) }
    n := Vector.ofFn fun i => w (0x080 + 8 * i.val)
    nfull := BitVec.ofNat 32 full
    vq := Vector.ofFn fun i =>
      if full / 2 ^ (48 + i.val) % 2 == 1 then sl.vq[i]
      else
        { val := BitVec.ofNat 4096 (Memory.read t.spad (base + 0x188 + 528 * i.val) 512)
          side := BitVec.ofNat 128 (Memory.read t.spad (base + 0x388 + 528 * i.val) 16) }
    m1 := BitVec.ofNat 1024 (Memory.read t.spad (base + 0x9C8) 128)
    m2 := BitVec.ofNat 1024 (Memory.read t.spad (base + 0xA48) 128)
    m3 := BitVec.ofNat 1024 (Memory.read t.spad (base + 0xAC8) 128)
    vt := reg 0 &&& 0x37FFF
    vt2 := reg 1 &&& 0x3000F
    rnd := rndWrite sl.rnd (reg 2)
    fstat := (reg 3).setWidth 6
    schk := (reg 4).getLsbD 0
    lr := (reg 5).setWidth 16
    lc0 := .ofWord (reg 6)
    lc1 := .ofWord (reg 7)
    fxsc := (reg 8).setWidth 8
    srseed := reg 9
    xfollow := (reg 10).setWidth 32
    epc := (w 0xBC8).setWidth 16
    cause := (w 0xBD0).setWidth 14
    tval := w 0xBD8
    ovr := .ofWords (w 0xBE0) (w 0xBE8)
    res := bitsOf st 1 1 == 1
    msgcls := BitVec.ofNat 8 (bitsOf st 7 2 + bitsOf st 8 8 * 128)
    cursor := bitsOf st 15 9
    gen := BitVec.ofNat 12 (bitsOf st 27 16)
    pend := sl.pend ||| BitVec.ofNat 6 (bitsOf st 61 56)
    recorded := false
    msg :=
      let r := (w 0xBF8).toNat
      if bitsOf st 8 8 == 1 then some (t.messageAt sl (bitsOf r 15 0) (bitsOf r 22 16) ctr) else none }

/-- The tile after RESTQ of a slot: its registers loaded and THREAD cleared in the record. -/
def Tile.restoreRecord (t : Tile) (base ctr : Nat) (k : Fin 8) : Tile :=
  let w (i : Nat) : Word := t.recWord base (0xB48 + 8 * i)
  let t1 := t.setSlot k (t.loadSlot base ctr t.slots[k])
  let t2 := if k == 0 then
      { t1 with mrow := (w 11).setWidth 32, mcol0 := w 12, mcol1 := w 13, mslot := w 14, mptr := 0,
                gresid := (w 15).setWidth 32 }
    else t1
  { t2 with spad := Memory.write t2.spad (base + 0xBF0) 8 (t.recWord base 0xBF0 &&& ~~~1#64).toNat }

/-- The tile registers loaded back from the block. -/
def Tile.restoreBlock (t : Tile) (base : Nat) : Tile :=
  { t with
    tregs := Vector.ofFn fun i => BitVec.ofNat 8192 (Memory.read t.spad (base + 1024 * i.val) 1024)
    tcfg := Vector.ofFn fun i => (t.recWord base (8192 + 8 * i.val)).setWidth 19 }

/-! ### The input buffer (R26, R292) -/

/-- A message that a reflection makes current has its payload in the fault-record area. -/
def Msg.inPayload (m : Msg) : Bool := m.kind != faultRecordKind

/-- The payload ranges that queued messages and current ones take: offset and bytes. -/
def payloadRanges (iqs : Vector InQueue 4) (current : List (Option Msg)) : List (Nat × Nat) :=
  (iqs.toList.flatMap fun q => q.msgs.map fun m => (m.off, 8 * m.words.length))
    ++ current.filterMap fun x =>
      match x with
      | some m => if m.inPayload then some (m.off, 8 * m.words.length) else none
      | none => none

/-- The payload ranges of a tile. A held vector takes 528 bytes beside them (R256). -/
def Tile.payloads (t : Tile) : List (Nat × Nat) := payloadRanges t.iqs (t.slots.toList.map (·.msg))

/-- Bytes of the payload space in use. -/
def Tile.payloadUsed (t : Tile) : Nat :=
  (t.payloads.foldl (fun n r => n + r.2) 0) + 528 * (t.hold.filter fun h => Nat.ble 32 h.reg).length

/-- The lowest offset from which n bytes of the payload space lie outside some ranges. -/
def gapIn (rs : List (Nat × Nat)) (n : Nat) : Option Nat :=
  let free (a : Nat) : Bool := rs.all fun r => r.2 == 0 || Nat.ble (a + n) r.1 || Nat.ble (r.1 + r.2) a
  ((0 :: rs.map fun r => r.1 + r.2).filter fun a => free a && Nat.ble (a + n) 6848).foldl
    (fun best a => match best with
      | none => some a
      | some b => some (min a b)) none

/-- Where a payload of n bytes is put: the lowest offset from which n bytes are free, or 0 where no single gap is that
long (log entry 13, DESIGN CHOICE). -/
def Tile.payloadSpot (t : Tile) (n : Nat) : Nat := (gapIn t.payloads n).getD 0

/-- Where the held vectors stand in the payload space: beside some ranges, in order; one that finds no single gap stands at no
one offset (log entry 13, DESIGN CHOICE). -/
def heldSpots : List (Nat × Nat) → List HeldWrite → List (HeldWrite × Option Nat)
  | _, [] => []
  | rs, h :: hs =>
    let o := if Nat.ble 32 h.reg then gapIn rs 528 else none
    (h, o) :: heldSpots (rs ++ (o.map fun a => (a, 528)).toList) hs

/-! ### Swap images (R304, R354, R355) -/

/-- The size of an image. -/
def imageBytes : Nat := 147456

/-- Word 1 of a saved input-queue header. -/
def Msg.queueWord (m : Msg) : Nat :=
  m.srcVt % 2 ^ 24 + m.srcSlot % 8 * 2 ^ 24 + m.tc % 8 * 2 ^ 27 + m.ts.toNat * 2 ^ 32 + m.off / 8 % 1024 * 2 ^ 48

/-- The header slots of the input queues as fields of an image. -/
def queueFields (t : Tile) : List (Nat × Nat × Nat) :=
  (List.finRange 4).flatMap fun i => (t.iqs[i].msgs.zipIdx).map fun x =>
    (0x21000 + 16 * (16 * i.val + x.2), 16, x.1.hdr.toNat + x.1.queueWord * 2 ^ 64)

/-- The payloads of queued and current messages and the held vectors as fields of an image. -/
def bufferFields (t : Tile) : List (Nat × Nat × Nat) :=
  (((t.iqs.toList.flatMap fun q => q.msgs) ++ t.slots.toList.filterMap (·.msg)).map fun m =>
    (0x21400 + m.off, 8 * m.words.length, packWords m.words))
  ++ (heldSpots t.payloads t.hold).filterMap fun x =>
    x.2.map fun a => (0x21400 + a, 528, x.1.vec.toNat + x.1.side.toNat * 2 ^ 4096)

/-- An image written to rim memory: the parts whose inner layout is open hold free bytes. An uncorrectable word goes as its bytes (log
entry 66, DESIGN CHOICE). -/
def Tile.writeImage (t : Tile) (m : Memory) (a ctr : Nat) : Memory :=
  let m := Memory.copyIn m a t.spad 0 131072
  let m := Memory.copyIn m (a + 0x20000) t.shadow 0 4096
  let m := Memory.write m (a + 0x21000) 12288 0
  let m := writeFields m a (queueFields t)
  let m := writeFields m a (bufferFields t)
  writeFields m a
    [(0x23000, 128, t.fe.toNat),
     (0x23080, 512, packWords (t.counters.toList.map fun c => BitVec.ofNat 64 (c.count.toNat + c.cls.toNat * 2 ^ 32))),
     (0x23280, 2048, t.templates.toList.foldr (fun w acc => w.toNat + acc * 2 ^ 256) 0),
     (0x23A80, 896, bytesToNat ((List.range 896).map fun i => Config.freeByte (ctr + i)))]

/-- A stream binding without the elements that were fetched ahead: they are fetched again after swap-in. -/
def StreamBinding.saved (b : StreamBinding) : StreamBinding := { b with landed := [], asked := b.next, out := 0, part := (0, 0, 0) }

/-- What of a tile the image holds in parts whose layout is open. -/
def Tile.rest (t : Tile) : SwapRest :=
  { iqs := t.iqs, hold := t.hold, heldReqs := t.heldReqs, streams := t.streams.map (·.map StreamBinding.saved),
    guard := t.guard, ovrs := t.slots.toList.map (·.ovr),
    gens := t.slots.toList.map fun sl => (sl.gen, sl.thread, sl.res), qs := t.slots.toList.map (·.q),
    vqs := t.slots.toList.map (·.vq), msgs := t.slots.toList.map (·.msg), flights := t.slots.toList.map (·.flights),
    nextIds := t.slots.toList.map (·.nextId), sendSeq := t.sendSeq, xerr := t.xerr, lastTicket := t.lastTicket,
    gresid := t.gresid, owner := t.occ,
    fences := t.slots.toList.map fun sl => (sl.fenceRel, sl.fenceAcq, sl.fenceAll, sl.fenceLb), nacqs := t.slots.toList.map (·.nacq),
    exchanges := t.slots.toList.map (·.exchanges), pendVals := t.slots.toList.map (·.pendVal), quiesce := t.quiesce,
    freeUse := t.freeUse, starteds := t.slots.toList.map (·.started), lates := t.slots.toList.map (·.late) }

/-- Whether a tile is quiescent (R304). -/
def Tile.quiescent (t : Tile) (now : Nat) : Bool :=
  (t.stop || t.slots.toList.all fun sl => !sl.thread || (sl.sys && sl.wait == .idle))
    && t.jobs.isEmpty && t.slots.toList.all (fun sl => sl.mheld.isNone) && Nat.ble t.mfree now && t.outq.isEmpty

/-- Whether rim memory holds an image's place without an uncorrectable word. -/
def State.imageOk (s : State) (a : Nat) : Bool :=
  Nat.ble (a + imageBytes) Config.hbmBytes && !s.hbmEcc.any fun w => Nat.ble a (w * 8) && Nat.blt (w * 8) (a + imageBytes)

/-- SWPOUT of a tile to an address: the state after it and its status (R304, R352, R355). What has completed at the tile has landed. A
tile without its core supply holds no state to write, and the status is 2 (R410; log entry 15, DEDUCED). -/
def State.swapOut (s : State) (site a : Nat) : State × Nat :=
  let s := s.settleAt site 8
  let t := s.tile site
  if !s.powered site then (s, 2)
  else if !t.quiescent s.cycle then (s, 1)
  else if !Nat.ble (a + imageBytes) Config.hbmBytes then (s, 2)
  else
    let key := t.occ.map fun nm => (s.launch nm.1).part
    let s1 := { s.sealedFor key (unitsIn a imageBytes) with
      hbm := t.writeImage s.hbm a s.freeCtr
      hbmEcc := clearEcc s.hbmEcc a imageBytes
      images := Table.put s.images a t.rest
      freeCtr := s.freeCtr + 896 }
    (s1.setTile site { t with ni := if t.occ.isSome then .spill else t.ni }, 0)

/-- The vtile that the Collier has assigned to a site: by migration, or by placement of its gang. -/
def State.assigned (s : State) (site : Nat) : Option (Nat × Nat) :=
  match s.moves.find? fun m => m.new == site with
  | some m => some (m.idx, m.vt)
  | none =>
    s.launches.findSome? fun l => l.2.gangs.findSome? fun g =>
      (g.sites.find? fun x => x.2 == site).map fun x => (l.1, x.1)

/-- Slot k of a tile that an image fills: a thread whose record holds one waits in SYS mode for RESTORE, with the EPC of its record
(R281, R355). Accesses of the slot that are still out keep their places, its fences and exchange count go on, and so do the start of
its activation (R406) and the faults reported to it. -/
def imageSlot (t : Tile) (r : SwapRest) (p : Packet128) (k : Fin 8) : Slot :=
  let base := p.recordAt k.val
  let g := r.gens.getD k.val (0, false, false)
  let fe := r.fences.getD k.val (0, 0, 0, 0)
  let sl : Slot := { t.slots[k] with
    gen := g.1, ovr := r.ovrs.getD k.val {}, nextId := r.nextIds.getD k.val 1, exchanges := r.exchanges.getD k.val 0
    pendVal := r.pendVals.getD k.val t.slots[k].pendVal
    fenceRel := fe.1, fenceAcq := fe.2.1, fenceAll := fe.2.2.1, fenceLb := fe.2.2.2 }
  if Nat.blt k.val p.records && t.recThread base then
    { sl with
      thread := true, res := g.2.2, sys := true, loading := true, recorded := true, pc := 0
      epc := (t.recWord base 0xBC8).setWidth 16
      q := r.qs.getD k.val (Vector.replicate 16 {}), vq := r.vqs.getD k.val (Vector.replicate 4 {})
      msg := r.msgs.getD k.val none, flights := r.flights.getD k.val [], nacq := r.nacqs.getD k.val 0
      started := r.starteds.getD k.val 0, late := r.lates.getD k.val [] }
  else { sl with flights := (r.flights.getD k.val []).filter Flight.inPad }

/-- The payload of a message in an image. One that overlaps another, for want of a single gap, stands in no one place of it (log
entry 13, DESIGN CHOICE). -/
def SwapRest.payload (r : SwapRest) (m : Memory) (a : Nat) (x : Msg) : Msg :=
  let n := 8 * x.words.length
  let clear := ((payloadRanges r.iqs r.msgs).filter fun y => overlap x.off n y.1 y.2).length
  if Nat.blt 1 clear then x
  else { x with words := (List.range x.words.length).map fun i => BitVec.ofNat 64 (Memory.read m (a + 0x21400 + x.off + 8 * i) 8) }

/-- Header slot k of input queue i of an image, in the place of the message that stood there. -/
def SwapRest.queued (r : SwapRest) (m : Memory) (a i k : Nat) (x : Msg) : Msg :=
  let at_ := a + 0x21000 + 16 * (16 * i + k)
  let h : Word := BitVec.ofNat 64 (Memory.read m at_ 8)
  let w := Memory.read m (at_ + 8) 8
  let y := r.payload m a x
  { y with hdr := h, kind := hdrKind h, srcVt := bitsOf w 23 0, srcSlot := bitsOf w 26 24, tc := bitsOf w 29 27,
           ts := BitVec.ofNat 16 (bitsOf w 47 32) }

/-- The input queues of an image (R354). -/
def SwapRest.queues (r : SwapRest) (m : Memory) (a : Nat) : Vector InQueue 4 :=
  Vector.ofFn fun i => { r.iqs[i] with msgs := r.iqs[i].msgs.zipIdx.map fun x => r.queued m a i.val x.2 x.1 }

/-- The held writes of an image, with the vectors that its payload space holds (R354). -/
def SwapRest.held (r : SwapRest) (m : Memory) (a : Nat) : List HeldWrite :=
  (heldSpots (payloadRanges r.iqs r.msgs) r.hold).map fun x =>
    match x.2 with
    | some o =>
      { x.1 with vec := BitVec.ofNat 4096 (Memory.read m (a + 0x21400 + o) 512)
                 side := BitVec.ofNat 128 (Memory.read m (a + 0x21400 + o + 512) 16) }
    | none => x.1

/-- The tile that an image fills, over the wiped one. -/
def Tile.readImage (t : Tile) (m : Memory) (a : Nat) (r : SwapRest) (p : Packet128) : Tile :=
  let t := { t with
    spad := Memory.slice m a 131072
    shadow := Memory.slice m (a + 0x20000) 4096
    fe := BitVec.ofNat 1024 (Memory.read m (a + 0x23000) 128)
    counters := Vector.ofFn fun i =>
      let w := Memory.read m (a + 0x23080 + 8 * i.val) 8
      { count := BitVec.ofNat 32 w, cls := BitVec.ofNat 6 (bitsOf w 37 32) }
    templates := Vector.ofFn fun i => BitVec.ofNat 256 (Memory.read m (a + 0x23280 + 32 * i.val) 32)
    iqs := r.queues m a, hold := r.held m a, heldReqs := r.heldReqs, streams := r.streams, guard := r.guard, sendSeq := r.sendSeq
    xerr := r.xerr, lastTicket := r.lastTicket, gresid := r.gresid, quiesce := r.quiesce, nodisp := r.quiesce, freeUse := r.freeUse }
  let r := { r with msgs := r.msgs.map (·.map (r.payload m a)) }
  { t with slots := Vector.ofFn fun k => imageSlot t r p k }

/-- What an image that no SWPOUT wrote holds in its open parts (log entry 14, DESIGN CHOICE). -/
def SwapRest.blank : SwapRest :=
  { iqs := Vector.replicate 4 {}, hold := [], heldReqs := [], streams := Vector.replicate 4 none, guard := {}, ovrs := [],
    gens := [], qs := [], vqs := [], msgs := [], flights := [], nextIds := [], sendSeq := Vector.replicate 8 0, xerr := 0,
    lastTicket := 0, gresid := 0, owner := none, fences := [], nacqs := [], exchanges := [], pendVals := [],
    quiesce := false, freeUse := 0, starteds := [], lates := [] }

/-- The images of a vtile that is on a tile again hold nothing that stands out. -/
def State.disown (s : State) (nm : Nat × Nat) : State :=
  { s with images := s.images.map fun r => (r.1, if r.2.owner == some nm then { r.2 with owner := none } else r.2) }

/-- A launch whose code image has been loaded (R355). -/
def Launch.loaded (l : Launch) (i : Image) : Launch := { l with code := i.code, handlers := i.handlers, entry := i.entry }

/-- SWPIN of a tile from an address, or fresh at address 0 (R304, R353, R355): the state after it and its status. A code image that
cannot be read or fails a check loads no tile and is reported (R155, R334). A tile without its core supply takes no state, and the
status is 2 (R410; log entry 15, DEDUCED). -/
def State.swapIn (s : State) (site a : Nat) : State × Nat :=
  let t0 := s.tile site
  if !s.powered site then (s, 2)
  else if !t0.quiescent s.cycle then (s, 1)
  else if a != 0 && !s.imageOk a then (s, 2)
  else
    let nm := s.assigned site
    let w := t0.wiped s.sysImage
    let fill (s : State) (w : Tile) (p : Packet128) : Tile :=
      if a == 0 then { w with fresh := true, freeUse := 0, slots := w.slots.map fun sl => { sl with gen := 0, exchanges := 0 } }
      else w.readImage s.hbm a ((Table.get? s.images a).getD .blank) p
    match nm with
    | none => (s.setTile site (fill s { w with ni := .direct, code := [] } {}), 0)
    | some (idx, vt) =>
      match s.loadImage idx with
      | none => (s.toCollier (regionOf site) 0x46 (idx % 2 ^ 16), 2)
      | some i =>
        let l := (s.launch idx).loaded i
        let t := fill s { w with occ := nm, code := i.code, ni := .append } l.pkt
        let s := ((s.setLaunch idx l).setTile site t).disown (idx, vt)
        let g := l.gangOf vt
        (s.storeRing idx g { s.ring idx g with drainpark := true }, 0)

end Sys2Proof.Machine
end

