-- ==== Sys2Proof/Machine/Net.lean ====
section
/-! DEFINITION. The fabric between a sender and its receiver: order of arrival (spec/04_memory.md R112, R113), name
translation (spec/14_sys_swap.md R337 to R342), job colours (R346), parking rings (R348 to R352), and injection
(spec/09_isa_fabric.md R244). -/

namespace Sys2Proof.Machine

/-! ### Order (R112) -/

/-- Whether a walk holds a packet back: an earlier one of its class from its interface has not been performed, be it held at its
home or parked (R341). -/
def State.walkFenced (s : State) (p : Packet) : Bool :=
  p.walked && s.anyOpen p.site fun q => q.site == p.site && q.tc == p.tc && Nat.blt q.cyc p.cyc

/-- Whether a packet of the fabric has its turn. -/
def State.hasTurn (s : State) (k : Nat) (p : Packet) : Bool :=
  !((s.fabric.take k).any fun q => q.precedes p) && !s.walkFenced p

/-! ### Leaving the fabric (R346) -/

/-- The acknowledgement of a packet's ejection, to the router that counts it: of the injecting site, or of the one that has sent it
on. -/
def Packet.ack (p : Packet) : List (Nat × Nat × Nat) := if p.counts then [(p.via.getD p.site, p.colour, p.src.idx)] else []

/-- Packet k leaves the fabric at its destination, which acknowledges its colour. -/
def State.eject (s : State) (k : Nat) : State :=
  match s.fabric[k]? with
  | some p =>
    { s with fabric := s.fabric.eraseIdx k, acks := s.acks ++ p.ack }
  | none => s

/-- COLOUR_ACKNOWLEDGEMENT: the counter of the colour at the injecting site falls by one; a retired vtile whose counter so reaches zero
is reported (R347). -/
def execColourAcknowledgement (k : Nat) (s : State) : Result :=
  match s.acks[k]? with
  | some (site, colour, _) =>
    let t := s.tile site
    let c : Fin 16 := Fin.ofNat 16 colour
    let t' : Tile := { t with colourCtr := t.colourCtr.set c (t.colourCtr[c] - 1) }
    .next (({ s with acks := s.acks.eraseIdx k } : State).setTile site t').reportRetired
  | none => .next s

/-! ### Parking rings (R348 to R351) -/

/-- The data bytes of a parked packet. -/
def Packet.dataBytes (p : Packet) : Nat :=
  match p.body with
  | .message _ ws => 8 * ws.length
  | .regWrite c _ _ _ _ => if Nat.ble 32 (capReg c) then 528 else 8
  | .request op _ _ => (op.writes 0).foldl (fun n r => n + r.2) 0
  | .reply _ _ _ => 528
  | .errorReply _ _ _ => 16
  | .trace _ => 32

/-- The units of an entry: its header and its data, at most 33 units of data (R349). -/
def Packet.units (p : Packet) : Nat := 1 + min 33 ((p.dataBytes + 15) / 16)

/-- TYPE of an entry. -/
def Packet.entryType (p : Packet) : Nat :=
  match p.body with
  | .message _ _ => 0
  | .regWrite .. => 1
  | .request _ _ _ => 2
  | .reply _ _ _ | .errorReply _ _ _ | .trace _ => 3

/-- Word 0 of an entry; that of a request or reply is internal to the fabric, a free value. -/
def Packet.word0 (p : Packet) (ctr : Nat) : Nat :=
  match p.body with
  | .message h _ => h.toNat
  | .regWrite c _ _ _ _ => c.toNat
  | _ => (Config.freeWord ctr).toNat

/-- Word 1 of an entry (R349). -/
def Packet.word1 (p : Packet) : Nat :=
  p.src.vt % 2 ^ 24 + p.src.slot.val * 2 ^ 24 + p.tc % 8 * 2 ^ 27 + p.entryType * 2 ^ 30 + p.ts.toNat * 2 ^ 32
    + (p.units - 1) * 2 ^ 48

/-- The data of an entry; that of a request or reply is internal to the fabric. -/
def Packet.dataBits (p : Packet) (ctr : Nat) : Nat :=
  match p.body with
  | .message _ ws => packWords ws
  | .regWrite c v vec side _ => if Nat.ble 32 (capReg c) then vec.toNat + side.toNat * 2 ^ 4096 else v.toNat
  | _ => bytesToNat ((List.range (16 * (p.units - 1))).map fun i => Config.freeByte (ctr + i))

/-- The unit at which an entry of n units starts, where it fits: an entry never wraps. -/
def Ring.spot (r : Ring) (cap n : Nat) : Option Nat :=
  if r.entries.isEmpty then (if Nat.ble n cap then some (if Nat.ble (r.tail + n) cap then r.tail else 0) else none)
  else if Nat.blt r.head r.tail then
    if Nat.ble (r.tail + n) cap then some r.tail else if Nat.ble n r.head then some 0 else none
  else if Nat.ble (r.tail + n) r.head then some r.tail
  else none

/-- The park agent writes a packet as the newest entry of a gang's ring: nothing where it does not fit. A non-appended
one raises a summon unless one is out, and counts when it is a message or register write (R351, R329). `append` names the site whose
interface appends the packet (R353, R407). -/
def State.park (s : State) (idx gang : Nat) (p : Packet) (append : Option Nat) : Option State :=
  let l := s.launch idx
  let r := s.ring idx gang
  match r.spot l.ringUnits p.units with
  | none => none
  | some at_ =>
    let summon := append.isNone && !r.summoned
    let head := if r.entries.isEmpty then at_ else r.head
    let r' : Ring := { r with entries := r.entries ++ [(p, at_)], head, tail := at_ + p.units,
                              summoned := r.summoned || summon }
    let a := l.ringBase gang + 64 + 16 * at_
    let hbm := writeFields s.hbm a
      [(0, 8, p.word0 s.freeCtr), (8, 8, p.word1), (16, 16 * (p.units - 1), p.dataBits (s.freeCtr + 1))]
    let s := { s.sealedFor (some l.part) (unitsIn a (16 * p.units)) with
      hbm, freeCtr := s.freeCtr + 1 + 16 * (p.units - 1) }.storeRing idx gang r'
    let s := if append.isSome || p.isRequest || p.entryType == 3 then s
      else s.count p.src.idx fun g => { g with parked := g.parked + 1 }
    let s := match append with
      | some site => s.capture site 7 idx r'.entries.length
      | none => s
    some (if summon then
        (s.flueSend rimCode collierCode 0x60 0 (BitVec.ofNat 64 (idx + gang * 2 ^ 16))).count idx
          fun g => { g with summons := g.summons + 1 }
      else s)

/-- Whether a launch is live and not killed: the traffic of any other is discarded and counted nowhere (R327). -/
def State.isLive (s : State) (idx : Nat) : Bool :=
  match Table.get? s.launches idx with
  | some l => l.killed.isNone
  | none => false

/-- Whether a packet's vtile has retired (R31). -/
def State.toRetired (s : State) (p : Packet) : Bool :=
  match p.dst with
  | .vtile i v => s.vtRetired i v
  | .rim => false

/-- PARK_ENTRY_WRITE: a packet whose target is absent enters the gang's ring (R342, R350, R351). -/
def execParkEntryWrite (k : Nat) (s : State) : Result :=
  match s.fabric[k]? with
  | none => .next s
  | some p =>
    match p.hop with
    | .ring idx gang =>
      if !s.hasTurn k p then .next s
      else if !s.isLive idx || !s.isLive p.src.idx then .next (s.eject k)
      else if s.toRetired p then .next { s with fabric := s.fabric.set k { p with hop := .gone } }
      else
        match s.park idx gang p none with
        | some s' => .next (s'.eject k)
        | none => .next s
    | _ => .next s

/-! ### Name translation (R337 to R341) -/

/-- What the directory and the placement table say of a vtile (R337, R338, R342): an index that is not live leads
nowhere. -/
def State.lookup (s : State) (idx vt : Nat) : Hop :=
  let d := s.directory + 32 * idx
  if bitsOf (s.hbm64 d) 63 63 == 0 then .gone
  else
    let e := s.hbm64 (bitsOf (s.hbm64 (d + 8)) 47 0 + 8 * vt)
    match bitsOf e 19 18 with
    | 1 => .site (bitsOf e 17 0)
    | 0 => .ring idx (vt / 2 ^ bitsOf (s.hbm64 d) 27 24)
    | _ => .gone

/-- A name cache after a fill: the least recently used of 64 entries leaves, and RETIRED is never kept (R339). -/
def Tile.fill (t : Tile) (idx vt : Nat) (h : Hop) : Tile :=
  let keep := t.names.filter fun e => !(e.idx == idx && e.vt == vt)
  let keep := if Nat.ble 64 keep.length then keep.drop 1 else keep
  match h with
  | .site site => { t with names := keep ++ [{ idx, vt, site, state := .present }] }
  | .ring _ _ => { t with names := keep ++ [{ idx, vt, site := 0, state := .absent }] }
  | _ => t

/-- Whether a walk of a vtile runs at a site: 2 run at once, and further misses queue behind them in arrival order (R340). -/
def State.mayWalk (s : State) (site idx vt : Nat) : Bool :=
  let waiting := ((s.tile site).outq ++ s.fabric).filter fun p => p.site == site && p.hop == .unresolved && p.dst != .rim
  match (waiting.filter fun p => p.dst == .vtile idx vt).map (·.cyc) with
  | [] => false
  | c :: rest =>
    let first := rest.foldl min c
    Nat.blt ((waiting.filter fun p => p.dst != .vtile idx vt && Nat.blt p.cyc first).map (·.dst)).eraseDups.length 2

/-- Whether a packet of a site waits for the walk of a vtile. -/
def Packet.waitsFor (p : Packet) (site idx vt : Nat) : Bool :=
  p.site == site && p.hop == .unresolved && p.dst == .vtile idx vt

/-- A packet whose translation a walk found. -/
def Packet.resolve (h : Hop) (p : Packet) : Packet := { p with hop := h, walked := true }

/-- NAME_CACHE_WALK: a miss of a site reads the directory and the placement table and fills the cache. -/
def execNameCacheWalk (site idx vtile : Nat) (s : State) : Result :=
  let t := s.tile site
  let waits (p : Packet) : Bool := p.waitsFor site idx vtile
  match (t.outq ++ s.fabric).find? waits with
  | none => .next s
  | some p =>
    if !s.mayWalk site idx vtile then .next s
    else
    let h := s.lookup idx vtile
    let fix (p : Packet) : Packet := if waits p then p.resolve h else p
    let t := t.fill idx vtile h
    let s := { s with fabric := s.fabric.map fix }.setTile site { t with outq := t.outq.map fix }
    .next (s.capture site 5 p.src.idx (s.cycle - p.cyc))

/-! ### Injection (R244, R341, R346) -/

/-- Whether a packet of the network interface may be injected: it is translated, no earlier one that precedes it and no CNTSET of
its slot that stands before it still waits (R248), and after a walk every earlier packet of its class has been performed. -/
def State.mayInject (s : State) (t : Tile) (k : Nat) (p : Packet) : Bool :=
  p.hop != .unresolved && !(t.outq.take k).any (fun q => q.precedes p) && !s.walkFenced p
    && !t.ctrSets.any (fun x => x.1 == p.src.slot && Nat.ble x.2.1 p.id)
    && t.colourCtr[(Fin.ofNat 16 p.colour : Fin 16)] != 65535

/-- SEND_INJECTION: the first packet of the interface that may go enters the fabric. -/
def execSendInjection (site : Nat) (s : State) : Result :=
  let t := s.tile site
  match t.outq.zipIdx.find? fun x => s.mayInject t x.2 x.1 with
  | none => .next s
  | some (p, k) => .next ((s.setTile site { t with outq := t.outq.eraseIdx k }.settleCounters).inject p)

end Sys2Proof.Machine
end

