-- ==== Sys2Proof/Machine/Arrival.lean ====
section
/-! DEFINITION. What happens at the receiver of a packet: input queues, counters and the dispatcher (spec/01_machine.md R20 to
R31), register writes (spec/09_isa_fabric.md R254 to R258), requests at their home (spec/04_memory.md R101, R104, R105), replies
(spec/05_encoding.md R143, spec/12_sys_isa.md R284, R286), sealed, spilling and appending interfaces (spec/14_sys_swap.md R352,
R353), and the orders that a replay forces (spec/18_sys_determinism_debug.md R390 to R392). -/

namespace Sys2Proof.Machine

/-! ### Replies -/

/-- The answer of a tile to a request travels to the requester in TC1 (R113). -/
def State.answer (s : State) (site : Nat) (p : Packet) (body : Body) : State :=
  let t := s.tile site
  let hop := t.hopTo site p.src.idx p.src.vt (s.launch p.src.idx).pkt.ganglog
  s.inject { p with site, tc := 1, colour := t.colour, dst := .vtile p.src.idx p.src.vt, hop, body, cyc := s.cycle,
                    seq := 0, walked := false, counts := true }

/-- The answer of the rim goes straight to the requesting site and is counted by no router (R346). `load` marks that of
an HBM load. -/
def State.answerRim (s : State) (p : Packet) (body : Body) (load : Bool) : State :=
  s.inject { p with tc := 1, dst := .vtile p.src.idx p.src.vt, hop := .site p.site, body, seq := load.toNat, walked := false,
                    counts := false }

/-- A queue position whose value a fault keeps away holds a free value. -/
def Slot.spoil (sl : Slot) (f : Flight) (ctr : Nat) : Slot :=
  match f.dst with
  | .queue =>
    if f.sys then { sl with sq := fillQueue sl.sq f.id (Config.freeWord ctr) }
    else { sl with q := fillQueue sl.q f.id (Config.freeWord ctr) }
  | .vqueue => { sl with vq := fillVQueue sl.vq f.id (Config.freeVec ctr) (Config.freeSide ctr) }
  | _ => sl

/-- The probe of a slot's BARWAIT that a packet answers (R172). -/
def Slot.probeOf (sl : Slot) (p : Packet) : Option Probe := sl.probe.filter fun x => x.id == p.id

/-- A reply reaches its requester's tile (R143): the value of an access in several parts is complete with the last, that of a vector
register lands behind the slot's earlier ones (R46, R111), and the word of a probe waits for the BARWAIT. -/
def State.landReply (s : State) (site : Nat) (p : Packet) (val : Vec) (side : Side) (flags : BitVec 6) : State :=
  if p.byEngine then s.engineReply site p.id val.toNat side.toNat
  else
  let t := s.tile site
  let k := p.src.slot
  let sl := t.slots[k]
  match sl.probeOf p with
  | some x => s.setSlot (.tile site k) { sl with probe := some { x with value := some (val.setWidth 64) } }
  | none =>
  match sl.flights.find? fun f => f.id == p.id && f.due.isNone with
  | none => s
  | some f =>
    let s := if f.inPad then s.bankTurn site 8 else s
    let t := s.tile site
    let sl := t.slots[k]
    let f' : Flight := { f with vec := f.vec ||| val, side := f.side ||| side, flags := f.flags ||| flags, parts := f.parts - 1 }
    let f' : Flight := { f' with val := f'.vec.setWidth 64, due := if Nat.ble f.parts 1 then some s.cycle else none }
    let fs := sl.flights.map fun x => if x.id == f.id then f' else x
    let s :=
      if Flight.lands fs s.cycle f' then
        s.setTile site (landOne (s.launch t.name.1) k (t.setSlot k { sl with flights := sl.flights.filter fun x => x.id != f.id }) f')
      else s.setSlot (.tile site k) { sl with flights := fs }
    if !p.counts && p.seq == 1 then s.capture site 8 p.src.idx ((s.cycle - p.cyc) * 5 / 12) else s

/-- An error reply reaches its requester's tile: the fault is taken at the slot's next instruction boundary, and the
destination is not written (R31, R286); that of a probe is taken at the BARWAIT. -/
def State.landError (s : State) (site : Nat) (p : Packet) (c : Cause) (tv : Word) (pc : Half) : State :=
  if p.byEngine then s.engineError site p.id c
  else
  let a : Agent := .tile site p.src.slot
  let sl := s.slot a
  match sl.probeOf p with
  | some x => s.setSlot a { sl with probe := some { x with error := some (c, tv) } }
  | none =>
  let sl := match sl.flights.find? fun f => f.id == p.id && f.due.isNone with
    | some f => { sl.spoil f (s.freeAt a) with flights := sl.flights.filter fun x => x.id != f.id }
    | none => sl
  State.spend (s.setSlot a (if sl.thread then { sl with late := sl.late ++ [{ cause := c, tval := tv, pc, sys := p.sys }] } else sl)) a 1

/-! ### The orders a replay forces (R391) -/

/-- The take entries of a vtile that wait in an input queue, oldest first. -/
def State.takesOf (s : State) (l : Launch) (vt iq : Nat) : List (Nat × Nat × Nat) :=
  (s.entriesOf l vt).filter fun e =>
    bitsOf e.2.1 31 30 == 0 && bitsOf e.2.1 39 38 == iq && !l.replayDone.contains (vt, e.1)

/-- Whether an entry's first word names the sender and the number of a packet. -/
def namesPacket (w : Nat) (srcVt seq : Nat) : Bool := bitsOf w 23 0 == srcVt % 2 ^ 24 && bitsOf w 63 40 == seq % 2 ^ 24

/-- Whether an entry names a message of a traffic class too. -/
def namesMessage (w : Nat) (srcVt tc seq : Nat) : Bool := namesPacket w srcVt seq && bitsOf w 26 24 == (tc - 4) % 8

/-- The turn of an arrival under replay: now, later, or nowhere in the log. -/
inductive Turn where
  | now
  | later
  | unnamed (entry : Nat)
  deriving DecidableEq, Repr

/-- The turn of a message at an input queue: queues fill in the order of their take entries (log entry 16, DEDUCED). One
that no entry names is an action that the log does not name (R392). -/
def State.takeTurn (s : State) (l : Launch) (vt iq held : Nat) (p : Packet) : Turn :=
  if !l.replaying then .now
  else
    let named (e : Nat × Nat × Nat) : Bool := namesMessage e.2.1 p.src.vt p.tc p.seq
    match (s.takesOf l vt iq).drop held with
    | e :: rest => if named e then .now else if rest.any named then .later else .unnamed e.1
    | [] => .unnamed (s.entriesOf l vt).length

/-- The turn of a counted message: one that the log names as the firer waits until COUNT equals its DEC, another that
would bring COUNT to zero waits for the firer. -/
def State.fireTurn (s : State) (l : Launch) (vt ctr : Nat) (equal : Bool) (p : Packet) : Turn :=
  if !l.replaying then .now
  else
    match s.nextEntry l vt fun w _ => bitsOf w 31 30 == 1 && bitsOf w 37 32 == ctr with
    | some e =>
      if namesMessage e.2.1 p.src.vt p.tc p.seq then (if equal then .now else .later)
      else if equal then .later else .now
    | none => if equal then .unnamed (s.entriesOf l vt).length else .now

/-- Whether the first word of an entry is that of a write to a register. -/
def isWriteEntry (slot reg w : Nat) : Bool := bitsOf w 31 30 == 2 && bitsOf w 29 27 == slot && bitsOf w 37 32 == reg

/-- The next write entry of a register. -/
def State.nextWrite (s : State) (l : Launch) (vt slot reg : Nat) : Option (Nat × Nat × Nat) :=
  s.nextEntry l vt fun w _ => isWriteEntry slot reg w

/-- The turn of a register write. -/
def State.writeTurn (s : State) (l : Launch) (vt slot reg : Nat) (p : Packet) : Turn :=
  if !l.replaying then .now
  else
    match s.nextWrite l vt slot reg with
    | some e =>
      if namesPacket e.2.1 p.src.vt p.seq then .now
      else if (s.entriesOf l vt).any fun x =>
          isWriteEntry slot reg x.2.1 && namesPacket x.2.1 p.src.vt p.seq && !l.replayDone.contains (vt, x.1) then .later
      else .unnamed e.1
    | none => .unnamed (s.entriesOf l vt).length

/-- The state in which an action may go on: it has its turn, or it ends the forcing of its launch (R392). -/
def State.takesTurn (s : State) (idx vt : Nat) : Turn → Option State
  | .now => some s
  | .later => none
  | .unnamed e => some (s.diverge idx vt e)

/-- An action is written down in record mode, and its entry is done in replay. -/
def State.noteOrder (s : State) (idx vt word : Nat) (entry : Option (Nat × Nat × Nat)) : State :=
  let l := s.launch idx
  if l.replaying then
    match entry with
    | some e => s.consumeEntry idx vt e.1
    | none => s
  else s.logEntry idx vt word none

/-! ### Messages (R26, R27, R29) -/

/-- The input queue with one more message. -/
def InQueue.add (q : InQueue) (m : Msg) (now : Nat) : InQueue :=
  { q with msgs := q.msgs ++ [m], since := if q.msgs.isEmpty then now else q.since }

/-- The message that a packet brings (R245, R406). -/
def Packet.toMsg (p : Packet) (h : Word) (ws : List Word) (cls off tb : Nat) (parked : Bool) : Msg :=
  { hdr := h, words := ws, srcVt := p.src.vt, srcSlot := p.src.slot.val, tc := p.tc, kind := hdrKind h, ts := p.ts, cls, off,
    seq := p.seq, accepted := tb, transit := (tb + 65536 - p.ts.toNat) % 65536, parked }

/-- Rows 3 to 5 of R26 for a message of a class: none where the interface does not accept it. -/
def State.acceptDirect (s : State) (site : Nat) (p : Packet) (h : Word) (ws : List Word) (cls : Nat) (parked : Bool) :
    Option State :=
  let t := s.tile site
  let idx := t.name.1
  let l := s.launch idx
  let drop := s.countAt site idx fun g => { g with noHandler := g.noHandler + 1 }
  if !l.pkt.handlers then some drop
  else if l.handler cls == 0xFFFF then some drop
  else
    let i : Fin 4 := Fin.ofNat 4 (hdrPrio h)
    let q := t.iqs[i]
    let n := 8 * ws.length
    if Nat.ble 16 q.msgs.length || Nat.blt 6848 (t.payloadUsed + n) then none
    else
      match s.takesTurn idx t.name.2 (s.takeTurn l t.name.2 i.val q.msgs.length p) with
      | none => none
      | some s =>
        let m := p.toMsg h ws cls (t.payloadSpot n) s.tb.toNat parked
        let s := s.setTile site { t with iqs := t.iqs.set i (q.add m s.cycle) }
        some ((s.capture site 1 idx m.transit).capture site 6 idx (q.msgs.length + 1))

/-- A counter fault at a vtile (R29, R282). -/
def State.counterFault (s : State) (site : Nat) (ctr dec count srcVt : Nat) : State :=
  let t := s.tile site
  let sl := t.slots[(0 : Fin 8)]
  if sl.pend.getLsbD 4 then s.countAt site t.name.1 fun g => { g with ctrdrop := g.ctrdrop + 1 }
  else
    let v := BitVec.ofNat 64 (ctr + dec % 256 * 2 ^ 8 + count % 256 * 2 ^ 16 + srcVt % 2 ^ 24 * 2 ^ 24)
    s.setTile site (t.setSlot 0 { sl with pend := sl.pend ||| 0x10#6, pendVal := sl.pendVal.set 4 v })

/-- A counted message at a vtile (R29). -/
def State.acceptCounted (s : State) (site : Nat) (p : Packet) (h : Word) (ws : List Word) (parked : Bool) : Option State :=
  let t := s.tile site
  let idx := t.name.1
  let vt := t.name.2
  let l := s.launch idx
  let i : Fin 64 := Fin.ofNat 64 (hdrClass h)
  let e := t.counters[i]
  let dec := hdrDec h
  let n := e.count.toNat
  if dec == 0 then some s
  else
    match s.takesTurn idx vt (s.fireTurn l vt i.val (dec == n) p) with
    | none => none
    | some s =>
      if Nat.blt dec n then
        some (s.setTile site { t with counters := t.counters.set i { e with count := e.count - BitVec.ofNat 32 dec } })
      else if dec == n then
        match s.acceptDirect site p h ws e.cls.toNat parked with
        | none => none
        | some s =>
          let entry := s.nextEntry l vt fun w _ => bitsOf w 31 30 == 1 && bitsOf w 37 32 == i.val
          let s := s.noteOrder idx vt (entryWord 1 p.src.vt (p.tc - 4) i.val p.seq) entry
          let t := s.tile site
          some (s.setTile site { t with counters := t.counters.set i { e with count := 0 } })
      else some (s.counterFault site i.val dec n p.src.vt)

/-! ### Register writes (R254 to R256) -/

/-- Whether a register of a slot is occupied. -/
def Tile.occupied (t : Tile) (l : Launch) (slot : Fin 8) (reg : Nat) : Bool :=
  let sl := t.slots[slot]
  let pending (d : Landing) : Bool := sl.flights.any fun f => !f.sys && f.dst == d
  if Nat.ble 32 reg then
    t.fe &&& vregLines (vregOffset l slot (reg - 32)) != 0 || pending (.vreg (Fin.ofNat 16 (reg - 32)))
  else sl.nfull.getLsbD reg || pending (.named (Fin.ofNat 32 reg))

/-- A register write that the register takes; a scalar register marks the value that an RPUTR brought (R117). -/
def Tile.putReg (t : Tile) (l : Launch) (slot : Fin 8) (reg : Nat) (val : Word) (vec : Vec) (side : Side) (release : Bool) : Tile :=
  if Nat.ble 32 reg then t.landVreg (vregOffset l slot (reg - 32)) vec side
  else
    let sl := t.slots[slot]
    let bit := 1#32 <<< reg
    t.setSlot slot { sl with
      n := sl.n.set (Fin.ofNat 32 reg) val, nfull := sl.nfull ||| bit
      nacq := if release then sl.nacq ||| bit else sl.nacq &&& ~~~bit }

/-- A strict write that meets an occupied register (R255). -/
def State.overwrite (s : State) (site : Nat) (slot : Fin 8) (reg : Nat) (p : Packet) (val : Word) : State :=
  let t := s.tile site
  let sl := t.slots[slot]
  if sl.ovr.valid then s.countAt site p.src.idx fun g => { g with overdrop := g.overdrop + 1 }
  else
    let vec := Nat.ble 32 reg
    let o : Overwrite := { valid := true, vec, reg, srcVt := p.src.vt, srcSlot := p.src.slot.val, data := if vec then 0 else val }
    s.setTile site (t.setSlot slot { sl with ovr := o, pend := sl.pend ||| 1#6 })

/-- A register write at its target tile; none where it is not accepted. A queue-mode write behind one that is held for
its register is held too, so that they are delivered in order (R256). A write for a slot whose state stands in its save
record is not accepted: what it wrote into the register would be lost when the record is loaded back (log entry 27, DEDUCED). -/
def State.acceptWrite (s : State) (site : Nat) (p : Packet) (cap val : Word) (vec : Vec) (side : Side) (release : Bool) :
    Option State :=
  let t := s.tile site
  let idx := t.name.1
  let vt := t.name.2
  let l := s.launch idx
  let slot : Fin 8 := Fin.ofNat 8 (bitsOf cap.toNat 39 37)
  let reg := capReg cap
  let gen : BitVec 12 := cap.extractLsb' 19 12
  let sl := t.slots[slot]
  let behind : Bool := cap.getLsbD 18 && t.hold.any fun h => h.slot == slot && h.reg == reg
  let room : Bool := Nat.blt t.hold.length 4 && (Nat.blt reg 32 || Nat.ble (t.payloadUsed + 528) 6848)
  if !sl.thread || gen != sl.gen then some (s.countAt site p.src.idx fun g => { g with stalecap := g.stalecap + 1 })
  else if sl.recorded then none
  else if (t.occupied l slot reg || behind) && cap.getLsbD 18 && !room then none
  else
    match s.takesTurn idx vt (s.writeTurn l vt slot.val reg p) with
    | none => none
    | some s =>
      let s := s.noteOrder idx vt (entryWord 2 p.src.vt (slot.val * 8) reg p.seq) (s.nextWrite l vt slot.val reg)
      if !t.occupied l slot reg && !behind then some (s.setTile site (t.putReg l slot reg val vec side release))
      else if cap.getLsbD 18 then
        some (s.setTile site { t with hold := t.hold ++ [{ slot, reg, gen, val, vec, side, src := p.src, release }] })
      else some (s.overwrite site slot reg p val)

/-! ### Requests at a tile (R97, R101, R104, R105) -/

/-- Whether a packet is a probe whose BARWAIT its slot has abandoned (R172): it withdraws without an answer. -/
def State.abandoned (s : State) (p : Packet) (op : MemOp) : Bool :=
  match op with
  | .barProbe _ => !(s.tiles.any fun r => r.2.occ == some (p.src.idx, p.src.vt) && (r.2.slots[p.src.slot].probeOf p).isSome)
  | _ => false

/-- A request performed at its bank, answered where an answer is wanted; none where it waits at an empty line, for its turn or
for room under the tile's colour. An uncorrectable word is reported whether an answer is wanted or not (log entry 17, DEDUCED). -/
def State.performAt (s : State) (site : Nat) (p : Packet) (op : MemOp) (ptr : Word) (wants : Bool) : Option State :=
  let s := s.bankTurn site 8
  let t := s.tile site
  let off := ptrAddr ptr % 2 ^ 17
  if s.abandoned p op then some s
  else if wants && !t.mayColour t.colour then none
  else
    match t.perform op off with
    | .waits => none
    | .ecc _ => if t.mayColour t.colour then some (s.answer site p (.errorReply .ecc ptr p.pc)) else none
    | .ok t' r =>
      let s := if op.isExchange then s.exchangeTurn t.name.1 t.name.2 off p.src.vt p.src.slot.val p.seq else some s
      s.map fun s =>
        let s := s.setTile site t'
        if wants then s.answer site p (.reply (BitVec.ofNat 4096 r.val) (BitVec.ofNat 128 r.side) r.flags) else s

/-- Whether two requests are exchanges at one location of a tile. -/
def Packet.sameExchange (p q : Packet) : Bool :=
  match p.body, q.body with
  | .request o x _, .request o' y _ => o.isExchange && o'.isExchange && ptrAddr x % 2 ^ 17 == ptrAddr y % 2 ^ 17
  | _, _ => false

/-- Whether a held request stands behind another that is held: one of its slot (R112), and where the forcing of a replay has
ended, an exchange at its location that arrived before it (R392). -/
def State.heldBehind (s : State) (site : Nat) (before : List Packet) (p : Packet) : Bool :=
  let l := s.launch (s.tile site).name.1
  before.any fun h => (h.src == p.src && !h.byEngine && !p.byEngine) || (l.pkt.det && !l.replaying && h.sameExchange p)

/-- A request at its home tile: performed, or held among at most 16; none where it is not accepted. A request behind a
held one of its slot is not accepted (R112). -/
def State.acceptRequest (s : State) (site : Nat) (p : Packet) (op : MemOp) (ptr : Word) (wants : Bool) : Option State :=
  let t := s.tile site
  if s.heldBehind site t.heldReqs p || Nat.ble 16 t.heldReqs.length then none
  else
    match s.performAt site p op ptr wants with
    | some s => some s
    | none => some (s.setTile site { t with heldReqs := t.heldReqs ++ [p] })

/-! ### A packet at an interface -/

/-- What the interface of the vtile's tile makes of a packet; none where it does not accept it. What a register write or counted
message does comes after every local action of its cycle (R42, R248, R258), so that later ones stand in the next. -/
def State.accept (s : State) (site : Nat) (p : Packet) (parked : Bool) : Option State :=
  match p.body with
  | .message h ws =>
    if hdrKind h == 1 then (s.acceptCounted site p h ws parked).map State.tick
    else s.acceptDirect site p h ws (hdrClass h) parked
  | .regWrite c v vec sd rel => (s.acceptWrite site p c v vec sd rel).map State.tick
  | .request op ptr wants => s.acceptRequest site p op ptr wants
  | .reply v sd fl => some (s.landReply site p v sd fl)
  | .errorReply c tv pc => some (s.landError site p c tv pc)
  | .trace _ => some s

/-- Whether a request would return a value to its slot: its packet says so. -/
def Body.wanted : Body → Bool
  | .request _ _ w => w
  | _ => false

/-- A packet whose vtile has retired (R31): late, and counted; a request that would return a value gets an error reply. The tile whose
vtile it was sends that one, where the router has room for it (R346); at the sender's own interface and at the rim no router counts
it. -/
def State.late (s : State) (k : Nat) (p : Packet) (vt : Nat) (home : Option Nat) : State :=
  let err : Body := .errorReply .unmapped (BitVec.ofNat 64 vt) p.pc
  let counted (s : State) : State := s.countAt p.site p.src.idx fun g => { g with late := g.late + 1 }
  if p.entryType == 3 then s.eject k
  else if !p.body.wanted then counted (s.eject k)
  else
    match home with
    | some site =>
      if (s.tile site).mayColour (s.tile site).colour then (counted (s.eject k)).answer site p err else s
    | none => (counted (s.eject k)).answerRim p err false

/-- Packet k appended by the interface of a site to its gang's ring under colour 15 (R352, R353). -/
def State.append (s : State) (k : Nat) (p : Packet) (site idx vt : Nat) : State :=
  match s.park idx ((s.launch idx).gangOf vt) p (some site) with
  | some s => s.eject k
  | none => s

/-- Packet k sent on to another site under colour 15 (R305, R342), where that has room (R346): it keeps its place among the packets
of its sender. -/
def State.forward (s : State) (k : Nat) (p : Packet) (at_ new : Nat) : State :=
  let t := s.tile at_
  let c : Fin 16 := 15
  if !t.mayColour 15 then s
  else
    { s.setTile at_ { t with colourCtr := t.colourCtr.set c (t.colourCtr[c] + 1) } with
      fabric := s.fabric.set k { p with via := some at_, colour := 15, hop := .site new, walked := false, counts := true }
      acks := s.acks ++ p.ack }

/-- Whether a packet is a message or a register write that a replay orders. -/
def State.forcedArrival (s : State) (site : Nat) (p : Packet) : Bool :=
  (s.launch (s.tile site).name.1).replaying && Nat.ble p.entryType 1

/-- Packet k at the site of its vtile. What a replay holds and the interface cannot keep stands in the ring, from which it is
delivered (R391); the interface goes on as it would after PDELIV. -/
def State.arriveAt (s : State) (k : Nat) (p : Packet) (site idx vt : Nat) : State :=
  let t := s.tile site
  match t.fwd with
  | some new => s.forward k p site new
  | none =>
    match t.ni with
    | .direct =>
      match s.accept site p false with
      | some s => s.eject k
      | none =>
        if s.forcedArrival site p then (s.setTile site { t with ni := .delivering, pdone := true }).append k p site idx vt else s
    | .sealed =>
      match s.accept site p false with
      | some s => s.eject k
      | none => (s.setTile site { t with ni := .spill }).append k { p with spilled := true } site idx vt
    | .spill => s.append k { p with spilled := true } site idx vt
    | .append | .delivering => s.append k p site idx vt

/-- Whether a packet is discarded as it arrives (R327): a message or register write of a killed launch, and anything of a launch
that is gone. -/
def State.discards (s : State) (p : Packet) (idx : Nat) : Bool :=
  (Nat.ble p.entryType 1 && (!s.isLive idx || !s.isLive p.src.idx)) || (Table.get? s.launches idx).isNone

/-- Packet k of the fabric arrives where its translation leads (R342). What a killed launch has requested is performed at a tile
that still holds its vtile (R381). -/
def State.arrive (s : State) (k : Nat) (p : Packet) : State :=
  match p.dst with
  | .rim => s
  | .vtile idx vt =>
    if s.discards p idx then s.eject k
    else
      match p.hop with
      | .unresolved | .ring _ _ => s
      | .gone => if s.isLive idx then s.late k p vt none else s.eject k
      | .site site =>
        if (s.tile site).occ == some (idx, vt) then s.arriveAt k p site idx vt
        else if !s.isLive idx then s.eject k
        else if s.vtRetired idx vt then s.late k p vt (some site)
        else { s with fabric := s.fabric.set k { p with hop := .unresolved } }

/-- Packet k arrives when it is of a kind and has its turn. -/
def State.arriveIf (s : State) (k : Nat) (is : Packet → Bool) : State :=
  match s.fabric[k]? with
  | some p => if is p && s.hasTurn k p then s.arrive k p else s
  | none => s

/-- VAR_RESULT_ARRIVAL. -/
def execVarResultArrival (k : Nat) (s : State) : Result := .next (s.arriveIf k fun p => p.entryType == 3)

/-- Whether a packet is a message of a kind that R29 counts, or one that it does not. -/
def Packet.isMessage (counted : Bool) (p : Packet) : Bool :=
  match p.body with
  | .message h _ => (hdrKind h == 1) == counted
  | _ => false

/-- MESSAGE_ARRIVAL. -/
def execMessageArrival (k : Nat) (s : State) : Result := .next (s.arriveIf k (Packet.isMessage false))

/-- COUNTED_MESSAGE_ARRIVAL. -/
def execCountedMessageArrival (k : Nat) (s : State) : Result := .next (s.arriveIf k (Packet.isMessage true))

/-- REGISTER_WRITE_ARRIVAL. -/
def execRegisterWriteArrival (k : Nat) (s : State) : Result := .next (s.arriveIf k fun p => p.entryType == 1)

/-- REMOTE_REQUEST_ARRIVAL. -/
def execRemoteRequestArrival (k : Nat) (s : State) : Result := .next (s.arriveIf k fun p => p.isRequest)

/-- HELD_WRITE_DELIVERY: the oldest write held for a register that has become unoccupied is written (R256). -/
def execHeldWriteDelivery (site k : Nat) (s : State) : Result :=
  let t := s.tile site
  match t.hold[k]? with
  | none => .next s
  | some h =>
    let l := s.launch t.name.1
    if !t.slots[h.slot].thread || t.slots[h.slot].recorded || t.occupied l h.slot h.reg
        || (t.hold.take k).any (fun x => x.slot == h.slot && x.reg == h.reg) then .next s
    else .next (s.setTile site (({ t with hold := t.hold.eraseIdx k } : Tile).putReg l h.slot h.reg h.val h.vec h.side h.release)).tick

/-- HELD_REQUEST_RELEASE: a held request whose lines are full is performed, after the earlier ones of its slot (R101). -/
def execHeldRequestRelease (site k : Nat) (s : State) : Result :=
  let t := s.tile site
  match t.heldReqs[k]? with
  | none => .next s
  | some p =>
    if s.heldBehind site (t.heldReqs.take k) p then .next s
    else
      match p.body with
      | .request op ptr wants =>
        match s.performAt site p op ptr wants with
        | some s => .next (s.setTile site { s.tile site with heldReqs := t.heldReqs.eraseIdx k })
        | none => .next s
      | _ => .next s

/-! ### Requests at the rim (R105, R106, R362 to R366) -/

/-- Whether a request reads rim memory and nothing else. -/
def MemOp.isLoad : MemOp → Bool
  | .load _ _ | .vecLoad _ | .fetch .. | .vecConvert _ | .xtdef _ => true
  | _ => false

/-- What a request makes of rim or host memory; none for an exchange whose turn has not come. -/
def State.performRim (s : State) (p : Packet) (op : MemOp) (ptr : Word) : Option (State × Except Cause HomeResult) :=
  let l := s.launch p.src.idx
  let a := ptrAddr ptr
  if ptrSpace ptr == 0 then
    let r := s.performHbm l.asid op a
    if op.isExchange then
      match r.2 with
      | .ok _ =>
        (s.exchangeTurn p.src.idx (l.pkt.vtiles + p.stack) a p.src.vt p.src.slot.val p.seq).map fun s => s.performHbm l.asid op a
      | .error _ => some r
    else some r
  else some (s.performHost l.part op (a % 2 ^ 48))

/-- HBM_REQUEST_ARRIVAL: a request reaches its memory controller or the host port, which performs it or reports why not; a trace record
reaches its ring. -/
def execHbmRequestArrival (k : Nat) (s : State) : Result :=
  match s.fabric[k]? with
  | none => .next s
  | some p =>
    match p.dst, p.body with
    | .rim, .request op ptr wants =>
      if !s.hasTurn k p then .next s
      else if (Table.get? s.launches p.src.idx).isNone then .next (s.eject k)
      else
        match s.performRim p op ptr with
        | none => .next s
        | some (s, .error c) => .next ((s.eject k).answerRim p (.errorReply c ptr p.pc) false)
        | some (s, .ok r) =>
          let s := s.eject k
          .next (if wants then
              s.answerRim p (.reply (BitVec.ofNat 4096 r.val) (BitVec.ofNat 128 r.side) r.flags)
                (op.isLoad && ptrSpace ptr == 0)
            else s)
    | .rim, .trace v => if s.hasTurn k p then .next ((s.eject k).landTrace p.site v) else .next s
    | _, _ => .next s

/-! ### Delivery from a ring (R353) -/

/-- The interface of a site tells its Stoker that delivery has stopped or ended, once. -/
def State.sendPdone (s : State) (site : Nat) (empty : Bool) : State :=
  let t := s.tile site
  if t.pdone then s
  else (s.setTile site { t with pdone := true }).flueSend site (stokerCode (regionOf site)) 0x71 0 (BitVec.ofNat 64 empty.toNat)

/-- The entries of a ring that an interface may take now: the oldest of its own, and where a replay orders them every one that no
entry of its sender and class stands before (R112, R391). -/
def State.deliverable (s : State) (site : Nat) (r : Ring) : List (Packet × Nat) :=
  let t := s.tile site
  let own := (r.entries.zipIdx.filter fun e => some e.1.1.dst == t.occ.map fun nm => .vtile nm.1 nm.2).map fun e => (e.1.1, e.2)
  if (s.launch t.name.1).replaying then
    (own.zipIdx.filter fun x => !(own.take x.2).any fun y => y.1.src.vt == x.1.1.src.vt && y.1.tc == x.1.1.tc).map (·.1)
  else own.take 1

/-- PARKED_DELIVERY: the interface takes its oldest entry of its gang's ring. With the ring empty it leaves append, into the seal that
a PREEMPT has asked for or to direct arrivals (R352). While the ring holds entries of other tiles alone, it has nothing to deliver
and says so with EMPTY 0 (log entry 53, DEDUCED). -/
def execParkedDelivery (site : Nat) (s : State) : Result :=
  let t := s.tile site
  match t.occ, t.ni with
  | some (idx, vt), .delivering =>
    let g := (s.launch idx).gangOf vt
    let r := s.ring idx g
    if r.entries.isEmpty then
      let s := s.setTile site { t with ni := if t.sealing then .sealed else .direct }
      .next ((s.storeRing idx g { r with drainpark := false }).sendPdone site true)
    else
      match (s.deliverable site r).findSome? fun e => (s.accept site e.1 true).map fun s => (s, e.2) with
      | some (s, i) => .next (s.storeRing idx g (r.remove i))
      | none => .next (s.sendPdone site false)
  | _, _ => .next s

/-! ### The dispatcher (R27) -/

/-- The cycle at which the head of a queue became aged. -/
def InQueue.agedAt (q : InQueue) (now : Nat) : Option Nat :=
  if !q.msgs.isEmpty && Nat.ble (q.since + 4096) now then some (q.since + 4096) else none

/-- HEAD_AGED. -/
def execHeadAged (site : Nat) (iq : Fin 4) (s : State) : Result :=
  let t := s.tile site
  let q := t.iqs[iq]
  if q.aged.isSome then .next s
  else .next (s.setTile site { t with iqs := t.iqs.set iq { q with aged := q.agedAt s.cycle } })

/-- The queue whose head is taken: the aged head that became aged first, else the first queue that is not empty. -/
def Tile.pick (t : Tile) (now : Nat) : Option (Fin 4) :=
  let aged := (List.finRange 4).filterMap fun i => (t.iqs[i].agedAt now).map fun c => (i, c)
  match aged with
  | x :: rest => some (rest.foldl (fun b y => if Nat.blt y.2 b.2 then y else b) x).1
  | [] => (List.finRange 4).find? fun i => !t.iqs[i].msgs.isEmpty

/-- Whether the dispatcher of a site may start an activation: a resident vtile whose resident threads have started, with
HANDLERS, that nothing stops, halts or holds in the guarded phase (R27, R259, R278, R399), and that no swap-in still fills (R295). -/
def State.mayDispatch (s : State) (site : Nat) : Bool :=
  let t := s.tile site
  t.occ.isSome && (s.launch t.name.1).pkt.handlers && !t.fresh && t.ni != .append && !t.stop && !t.nodisp && !s.halted && !t.outOfService
    && !t.guarded && s.powered site

/-- A slot for an activation: activation slots, and resident slots other than slot 0 whose thread has ended (R22). -/
def Tile.activationFree (t : Tile) (k : Fin 8) : Bool := k != 0 && !t.slots[k].thread

/-- The head of a queue is taken into a slot: its activation starts at the class's handler. -/
def State.startActivation (s : State) (site : Nat) (i : Fin 4) (k : Fin 8) : State :=
  let t := s.tile site
  let q := t.iqs[i]
  match q.msgs with
  | [] => s
  | m :: rest =>
    let idx := t.name.1
    let vt := t.name.2
    let l := s.launch idx
    let entry := s.nextEntry l vt fun w _ => bitsOf w 31 30 == 0
    let s := s.noteOrder idx vt (entryWord 0 m.srcVt (m.tc - 4 + k.val * 8) (m.cls + i.val * 64) m.seq) entry
    let h := l.handler m.cls
    let t := { t with iqs := t.iqs.set i { msgs := rest, since := s.cycle, aged := none } }
    let s := (s.setTile site t).startThread site k false h
    let a : Agent := .tile site k
    let s := s.setSlot a { s.slot a with msg := some m, cursor := 0, msgcls := BitVec.ofNat 8 (128 + m.cls % 64) }
    let wait := s.tb.toNat - m.accepted
    let s := s.emit site 0x01 k.val false (traceThread idx vt h.toNat m.cls)
      (m.srcVt % 2 ^ 24 + m.srcSlot % 8 * 2 ^ 24 + m.tc % 8 * 2 ^ 27 + m.kind % 4 * 2 ^ 30 + m.transit % 2 ^ 32 * 2 ^ 32)
      (wait % 2 ^ 32 + m.words.length % 128 * 2 ^ 32 + m.parked.toNat * 2 ^ 39)
    s.capture site 2 idx wait

/-- What the dispatcher of a vtile takes, and where: in replay what the next take entry names. -/
inductive Taking where
  | nothing
  | take (i : Fin 4) (k : Fin 8)
  | unnamed (entry : Nat)
  deriving DecidableEq, Repr

/-- The choice of the dispatcher of a site. -/
def State.taking (s : State) (site : Nat) : Taking :=
  let t := s.tile site
  let l := s.launch t.name.1
  if l.replaying then
    match s.nextEntry l t.name.2 fun w _ => bitsOf w 31 30 == 0 with
    | none => if t.iqs.toList.any fun q => !q.msgs.isEmpty then .unnamed (s.entriesOf l t.name.2).length else .nothing
    | some e =>
      let k : Fin 8 := Fin.ofNat 8 (bitsOf e.2.1 29 27)
      let named (i : Fin 4) : Bool :=
        match t.iqs[i].msgs.head? with
        | some m => namesMessage e.2.1 m.srcVt m.tc m.seq
        | none => false
      match (List.finRange 4).find? named with
      | some i => if t.activationFree k then .take i k else .nothing
      | none => .nothing
  else
    match t.pick s.cycle, (List.finRange 8).find? t.activationFree with
    | some i, some k => .take i k
    | _, _ => .nothing

/-- The dispatcher of a site has started an activation; the next comes a cycle later at the earliest (R27). -/
def State.dispatched (s : State) (site : Nat) : State :=
  s.setTile site { s.tile site with dispFree := s.cycle + 1 }

/-- DISPATCH. -/
def execDispatch (site : Nat) (s : State) : Result :=
  if !s.mayDispatch site then .next s
  else
    match s.taking site with
    | .nothing => .next s
    | .take i k =>
      let s : State := { s with cycle := max s.cycle (s.tile site).dispFree }
      .next ((s.startActivation site i k).dispatched site)
    | .unnamed e => .next (s.diverge (s.tile site).name.1 (s.tile site).name.2 e)

/-! ### Starts and ends at a tile -/

/-- One resident thread starts, at the launch entry, or at SURR in a guarded launch (R20, R259). -/
def State.startResident (s : State) (site : Nat) (k : Fin 8) : State :=
  let nm := (s.tile site).name
  let l := s.launch nm.1
  if Nat.ble l.pkt.slots k.val then s
  else
    let pc := if l.pkt.guarded then l.pkt.surr else l.entry
    (s.startThread site k true (BitVec.ofNat 16 pc)).emit site 0x03 k.val false (traceThread nm.1 nm.2 pc 0) 0 0

/-- RESIDENT_THREAD_START: every resident thread of a fresh vtile starts after its first PDONE (R20, R355). -/
def execResidentThreadStart (site : Nat) (s : State) : Result :=
  let t := s.tile site
  if t.fresh && t.pdone && t.occ.isSome then
    let g : GuardState := if (s.launch t.name.1).pkt.guarded then { t.guard with stage := .surrogate, window := none } else t.guard
    .next ((List.finRange 8).foldl (fun s k => s.startResident site k)
      (s.setTile site { t with fresh := false, pdone := false, guard := g }))
  else .next s

/-- TRAP_ENTRY: a slot takes its pending cause. -/
def execTrapEntry (site : Nat) (slot : Fin 8) (s : State) : Result :=
  if s.pendingAt (.tile site slot) then .next (s.takePending site slot) else .next s

/-- VTILE_RETIRE: the conditions of R24 hold for a slot 0 that waits in DONEF. -/
def execVtileRetire (site : Nat) (s : State) : Result :=
  let t := s.tile site
  let sl := t.slots[(0 : Fin 8)]
  if sl.thread && !sl.sys && sl.wait == .donef && !t.stop && !s.halted && s.retireReady site 0 then
    .next ((s.advance (.tile site 0) sl.lastDue).retireVtile site)
  else .next s

/-- YIELD_TIMEOUT: 8 cycles after a YIELD its slot is ready again (R170). -/
def execYieldTimeout (site : Nat) (slot : Fin 8) (s : State) : Result :=
  let a : Agent := .tile site slot
  let sl := s.slot a
  match sl.yieldAt with
  | some (c, _) => if Nat.ble (c + 8) s.cycle then .next (s.setSlot a { sl with yieldAt := none }) else .next s
  | none => .next s

/-- FIXED_LATENCY_COMPLETION: time goes on to the earliest completion among an agent's issued results, which lands. -/
def execFixedLatencyCompletion (who : Agent) (s : State) : Result :=
  match (s.slot who).flights.filterMap (·.due) with
  | [] => .next s
  | d :: rest => .next (s.advance who (rest.foldl min d))

/-- The instruction at a slot's program counter when it is of major 0x18. -/
def State.barwaitAt (s : State) (a : Agent) : Option (Stl × Dst × Src × Src) :=
  let pc := (s.slot a).pc.toNat
  let code (i : Nat) : Half :=
    match a with
    | .tile site _ => (s.tile site).code.getD i 0x7800
    | _ => 0
  let w := (code pc).toNat * 65536 + (code (pc + 1)).toNat
  if bitsOf w 31 25 == 0x58 then
    match decodeMajor18 w with
    | .ok (.barwait stl d a b) => some (stl, d, a, b)
    | _ => none
  else none

/-- BARWAIT_PROBE: a slot that waits in a BARWAIT issues it when what its probe found lets it, and otherwise sends the next probe
when one is due (R172). -/
def execBarwaitProbe (site : Nat) (slot : Fin 8) (s : State) : Result :=
  let a : Agent := .tile site slot
  let s1 : State := { s with cur := a }
  let sl := s.slot a
  if s1.mayIssue && !sl.sys && sl.wait == .barwait && !s.pendingAt a then
    match s.barwaitAt a with
    | some (stl, d, x, y) =>
      let now := s1.advance a s1.readyCycle
      match barwaitBody d x y now with
      | .error (.wait _) =>
        match barwaitOperands x y now with
        | .ok ((_, _, .priv _), _) | .error _ => .next s
        | .ok ((p, phase, pl), _) =>
          if sl.probeDue s.cycle phase then
            match sendProbe p phase pl s1 with
            | .ok (_, s2) => .next { s2 with cur := s.cur }
            | .error _ => .next s
          else .next s
      | _ =>
        match execBarwait stl d x y s1 with
        | .next s' => .next { s' with cur := s.cur }
        | r => r
    | none => .next s
  else .next s

end Sys2Proof.Machine
end

