-- ==== Sys2Proof/Machine/System.lean ====
section
/-! DEFINITION. System instructions, majors 0x3C and 0x3D (spec/12_sys_isa.md R287, R288, R294, R297 to R306). -/

namespace Sys2Proof.Machine

/-! ### ERET (R287, R288) -/

/-- The fault record of a slot of a tile: 5 words for an overwrite fault, 4 for every other cause. -/
def Slot.faultRecord (sl : Slot) (k : Fin 8) : List Word :=
  [sl.cause.setWidth 64, sl.tval, sl.epc.setWidth 64,
    BitVec.ofNat 64 (sl.gen.toNat + k.val * 2 ^ 12 + sl.res.toNat * 2 ^ 15 + (sl.msgcls.extractLsb' 0 6).toNat * 2 ^ 16
      + (sl.msgcls.getLsbD 7).toNat * 2 ^ 23)]
  ++ (if sl.cause.extractLsb' 0 8 == 16 then [sl.ovr.data] else [])

/-- The current message of a reflected thread, in the slot's fault-record area (R292). -/
def faultMsg (k : Fin 8) (ws : List Word) : Msg :=
  { hdr := 0, words := ws, srcVt := 0, srcSlot := 0, tc := 0, kind := faultRecordKind, ts := 0, cls := 63,
    off := 6848 + 40 * k.val, seq := 0, accepted := 0, transit := 0, parked := false }

/-- ERET MODE 1: a thread start of the same kind at the class-63 handler, in USER mode. -/
def State.reflect (s : State) (site : Nat) (k : Fin 8) (h : Half) : State :=
  let sl := s.slot (.tile site k)
  let ws := sl.faultRecord k
  let s := s.startThread site k sl.res h
  s.setSlot (.tile site k) { s.slot (.tile site k) with msg := some (faultMsg k ws), cursor := 0, msgcls := 0xBF }

/-- ERET. -/
def execEret (stl : Stl) (b : BitVec 6) (s : State) : Result :=
  issue (opA 0x3C 0 stl 0 0 b.toNat) (do
    let s ← get
    require (b == 0 || (b == 1 && !s.cur.isCore)) (.word .illegalOperand)
    if b == 0 then do
      set (s.returnTrap s.cur)
      return .jump (s.slot s.cur).epc
    else
      match s.cur with
      | .tile site k => do
        let l ← getLaunch
        let h := l.handler 63
        require (h != 0xFFFF) (.word .illegalOperand)
        set (s.reflect site k h)
        return .jump h
      | _ => throw (.word .illegalOperand)) s

/-! ### SAVEQ and RESTQ (R294) -/

/-- With TREG the block must be reserved. -/
def checkTreg (treg : Bool) : M Unit := do
  let l ← getLaunch
  require (!treg || l.blockReserved) (.word .illegalOperand)

/-- Whether the matrix engine holds a granted or a held command. -/
def Tile.matrixBusy (t : Tile) (now : Nat) : Bool :=
  Nat.blt now t.mfree || t.slots.toList.any (fun sl => sl.mheld.isSome) || t.jobs.any fun j => j.follow == .ready

/-- What SAVEQ writes: the record, and with TREG the block. -/
def saveqBody (treg : Bool) : M Unit := do
  checkTreg treg
  let s ← get
  let l ← getLaunch
  modTile fun t => t.saveRecord (l.pkt.recordAt s.cur.slotNo.val) s.cur.slotNo
  if treg then do
    let t ← getTile
    require (!t.matrixBusy s.cycle) (.wait .held)
    modTile fun t => t.saveBlock l.pkt.blockAt

/-- SAVEQ. -/
def execSaveq (stl : Stl) (b : BitVec 1) (s : State) : Result :=
  issue (opA 0x3C 1 stl 0 0 b.toNat) (do
    saveqBody (b == 1)
    return .seq) s

/-- The private reads of RESTQ: an uncorrectable word among n bytes faults, with the private alias of the first as TVAL (R98). -/
def recordRead (off n : Nat) : M Unit := do
  let t ← getTile
  match (List.range (n / 8)).find? fun i => t.eccWords.contains (off / 8 + i) with
  | some i => throw (.trap .ecc (BitVec.ofNat 64 (2 * 2 ^ 56 + off + 8 * i)))
  | none => pure ()

/-- What RESTQ loads: the record, and with TREG the block. -/
def restqBody (treg : Bool) : M Unit := do
  checkTreg treg
  let s ← get
  let l ← getLaunch
  let t ← getTile
  let base := l.pkt.recordAt s.cur.slotNo.val
  recordRead base 3072
  require (t.recThread base) (.word .illegalOperand)
  modTile fun t => t.restoreRecord base (s.freeAt s.cur) s.cur.slotNo
  modify fun s => s.spend s.cur 128
  if treg then do
    recordRead l.pkt.blockAt 8256
    modTile fun t => t.restoreBlock l.pkt.blockAt

/-- RESTQ. -/
def execRestq (stl : Stl) (b : BitVec 1) (s : State) : Result :=
  issue (opA 0x3C 2 stl 0 0 b.toNat) (do
    restqBody (b == 1)
    return .seq) s

/-! ### Sites and maps of a Stoker (R297) -/

/-- A site operand: 18 bits, in the Stoker's region. -/
def siteArg (v : Word) : M Nat := do
  let s ← get
  match s.cur with
  | .stoker r => do
    require (Nat.blt v.toNat Config.sites && regionOf v.toNat == r) (.word .illegalOperand)
    return v.toNat
  | _ => throw (.word .illegalOperand)

/-- The bit of a site in a map of its region. -/
def mapBit (site : Nat) : Nat := 64 * (site / 512 % 64) + site % 64

/-- Reads a map operand. -/
def mapArg (p : Word) : M Nat := do
  let s ← get
  let pl ← placeOf privateSpace p 512 8
  match pl with
  | .coreLocal off => return Memory.read (s.core s.cur).mem off 512
  | _ => throw (.trap .bounds p)

/-- The rows of the tile table that a map of the Stoker's region selects: a site in no row is a fresh tile. -/
def State.selected (s : State) (map : Nat) : List (Nat × Tile) :=
  match s.cur with
  | .stoker r => (s.rowsOf r).filter fun x => map / 2 ^ mapBit x.1 % 2 == 1
  | _ => []

/-- The counter of a colour at a router (R346). -/
def Tile.inFlight (t : Tile) (c : Nat) : Nat := (t.colourCtr[(Fin.ofNat 16 c : Fin 16)]).toNat

/-- DRAIN (R298). -/
def execDrain (stl : Stl) (d : Dst) (a b : Src) (s : State) : Result :=
  issue (opA 0x3C 3 stl d.code a.code b.code) (do
    checkDst d
    let (c, p) ← read2 a b
    require (Nat.ble c.toNat 15) (.word .illegalOperand)
    let map ← mapArg p
    let s ← get
    require ((s.selected map).all fun r => r.2.inFlight c.toNat == 0) (.wait .held)
    deliver d 0
    return .seq) s

/-- COLR (R298). -/
def execColr (stl : Stl) (d : Dst) (a b : Src) (s : State) : Result :=
  issue (opA 0x3C 4 stl d.code a.code b.code) (do
    checkDst d
    let (x, c) ← read2 a b
    let site ← siteArg x
    require (Nat.ble c.toNat 15) (.word .illegalOperand)
    let s ← get
    deliver d (BitVec.ofNat 64 ((s.tile site).inFlight c.toNat))
    return .seq) s

/-! ### NCINV (R299, R357 step 4) -/

/-- Whether a vtile of a launch lies under a key: the launch, the first vtile and the log of how many. -/
def underKey (idx first k : Nat) (i vt : Nat) : Bool := i == idx && Nat.ble first vt && Nat.blt vt (first + 2 ^ k)

/-- Whether a packet that a site has sent to a vtile under a key has not been performed. -/
def State.sentUnder (s : State) (sites : List Nat) (idx first k : Nat) : Bool :=
  s.fabric.any fun p => sites.contains p.site &&
    match p.dst, p.hop with
    | .vtile i vt, .site _ | .vtile i vt, .ring _ _ => underKey idx first k i vt
    | _, _ => false

/-- A packet of the interface whose translation is under a key is translated again. -/
def Packet.forget (idx first k : Nat) (p : Packet) : Packet :=
  match p.dst with
  | .vtile i vt => if underKey idx first k i vt then { p with hop := .unresolved } else p
  | .rim => p

/-- A name cache without the entries under a key. -/
def Tile.forget (t : Tile) (idx first k : Nat) : Tile :=
  { t with names := t.names.filter fun e => !underKey idx first k e.idx e.vt, outq := t.outq.map (Packet.forget idx first k) }

/-- The entries of a name cache under a key. -/
def Tile.known (t : Tile) (idx first k : Nat) : Nat := (t.names.filter fun e => underKey idx first k e.idx e.vt).length

/-- The name caches of some sites lose the entries under a key. -/
def State.forgetAt (s : State) (sites : List Nat) (idx first k : Nat) : State :=
  { s with tiles := s.tiles.map fun r => if sites.contains r.1 then (r.1, r.2.forget idx first k) else r }

/-- NCINV: it completes when every packet that the sites sent under the key before has been performed. -/
def execNcinv (stl : Stl) (d : Dst) (a b : Src) (s : State) : Result :=
  issue (opA 0x3C 5 stl d.code a.code b.code) (do
    checkDst d
    let (key, p) ← read2 a b
    let first := bitsOf key.toNat 23 0
    let k := bitsOf key.toNat 28 24
    let idx := bitsOf key.toNat 47 32
    require (first % 2 ^ k == 0) (.word .illegalOperand)
    let map ← mapArg p
    let s ← get
    let rows := s.selected map
    let sites := rows.map (·.1)
    require (!s.sentUnder sites idx first k) (.wait .held)
    set (s.forgetAt sites idx first k)
    deliver d (BitVec.ofNat 64 (rows.foldl (fun n r => n + r.2.known idx first k) 0))
    return .seq) s

/-! ### WDSET and HALTT (R300, R398) -/

/-- The watchdog of a hardware queue slot set: 0 disables it. -/
def State.setWatchdog (s : State) (hw us : Nat) : State :=
  let w : Watchdog := { (Table.getD s.watchdogs hw {}) with
    deadline := if us == 0 then none else some (s.clock + 1000 * us) }
  { s with watchdogs := Table.put s.watchdogs hw w }

/-- WDSET. -/
def execWdset (stl : Stl) (a b : Src) (s : State) : Result :=
  issue (opA 0x3C 6 stl 0 a.code b.code) (do
    let (q, x) ← read2 a b
    require (Nat.ble q.toNat 511) (.word .illegalOperand)
    modify fun s => s.setWatchdog q.toNat (x.toNat % 2 ^ 32)
    return .seq) s

/-- The time of watchdogs, residency slices and token buckets resumes after a halt of some ticks (R399). -/
def State.resumeClocks (s : State) (d : Nat) : State :=
  { s with
    watchdogs := s.watchdogs.map fun r => (r.1, { r.2 with deadline := r.2.deadline.map (· + d) })
    tiles := s.tiles.map fun r => (r.1, { r.2 with qslice := if r.2.occ.isSome then r.2.qslice + d else r.2.qslice })
    refills := s.tb.toNat / 1000 }

/-- The halt tree is driven: with 0 every tile stops issuing, with 1 it is released, but not after a lockstep mismatch
(R424); an acknowledgement follows. -/
def State.driveHalt (s : State) (halt : Bool) : State :=
  let s := { s with haltDriven := true }
  if halt then (if s.halted then s else { s with halted := true, haltAt := s.tb.toNat })
  else if s.halted && !s.lockerr then { s.resumeClocks (s.tb.toNat - s.haltAt) with halted := false }
  else s

/-- HALTT: the tick of the last acknowledgement goes to D when it arrives. -/
def execHaltt (stl : Stl) (d : Dst) (b : BitVec 6) (s : State) : Result :=
  issue (opA 0x3C 7 stl d.code 0 b.toNat) (do
    checkDst d
    require (Nat.ble b.toNat 1) (.word .illegalOperand)
    let id ← reserve (landingOf d) 1
    modify fun s => { s.driveHalt (b == 0) with haltIds := s.haltIds ++ [id] }
    return .seq) s

/-! ### IDLE (R301) -/

/-- Whether an IDLE of the current agent ends. -/
def State.idleEnds (s : State) : Bool :=
  match s.cur with
  | .tile site k => !(s.tile site).svq.isEmpty || (s.tile site).slots[k].pend != 0
  | a => s.ipend a &&& (s.core a).iena != 0

/-- IDLE. -/
def execIdle (stl : Stl) (s : State) : Result :=
  issue (opA 0x3C 8 stl 0 0 0) (do
    let s ← get
    require s.idleEnds (.wait .idle)
    return .seq) s

/-! ### SVSEND, SVRECV, INTACK (R296, R302, R333) -/

/-- Whether a DEST exists and the sender may use it. -/
def destOk (a : Agent) (d : Nat) : Bool :=
  match a with
  | .tile site _ => d == stokerCode (regionOf site)
  | _ => Nat.blt d Config.sites || (Nat.ble 0x40000 d && Nat.ble d collierCode)

/-- The release of SVSEND: everything earlier of the slot is performed but what is held or parked. Before KILLED (type 9) it is
every store, atomic, send and register write of the killed vtile, of whichever thread (R381). -/
def svsendGate (ty : Nat) : M Unit := do
  let s ← get
  let o := s.origin s.cur
  let q (p : Packet) : Bool := (p.src == o && !p.byEngine && p.unperformed) || (ty == 9 && p.ofVtile o.idx o.vt)
  require (s.cur.isCore || !(s.padBefore s.cur (s.slot s.cur).nextId || s.fabric.any q || (s.tile s.cur.site).outq.any q)) (.wait .held)

/-- Whether message k of the Flue still stands at its sender, because the supervisor queue of its receiver holds 8 messages
(R302). A command link has its permits in place of this (R333). -/
def State.unsent (s : State) (k : Nat) (m : FlueMsg) : Bool :=
  if Nat.blt m.dst 0x40000 then (m.type == 5 || queuedType m.type) && Nat.ble 8 (s.tile m.dst).svq.length
  else !m.onLink && Nat.ble 8 ((s.flue.take k).filter fun x => x.dst == m.dst && !x.onLink).length

/-- A sender holds at most 4 unsent messages (R302). -/
def State.maySend (s : State) (src : Nat) : Bool :=
  Nat.blt (s.flue.zipIdx.filter fun x => x.1.src == src && s.unsent x.2 x.1).length 4

/-- A supervisor message of the current agent: on a command link it spends a permit, and waits for one (R333). -/
def State.sendFlue (s : State) (a : Agent) (h val : Word) : Option State :=
  let d := bitsOf h.toNat 19 0
  let ty := bitsOf h.toNat 27 20
  let m : FlueMsg := { src := agentCode a, dst := d, type := ty, tag := bitsOf h.toNat 63 48, payload := val }
  let sent := s.flueSend m.src m.dst m.type m.tag m.payload
  if !m.onLink || ty == 0x40 then some sent
  else
    match a with
    | .stoker r =>
      let p := s.link r
      if p.toCollier == 0 || s.linkHeld m.src m.dst then none else some (sent.setLink r { p with toCollier := p.toCollier - 1 })
    | _ =>
      let r := d - 0x40000
      let p := s.link r
      if p.toStoker == 0 || s.linkHeld m.src m.dst then none else some (sent.setLink r { p with toStoker := p.toStoker - 1 })

/-- Behind a FAULTSTOP the tile adds TVAL and EPC as two further messages, and its vtile has FAULTED (R278, R296). -/
def State.faultWords (s : State) (a : Agent) (type : Nat) : State :=
  match a with
  | .tile site _ =>
    if type == 0x03 then
      let sl := s.slot a
      let dst := stokerCode (regionOf site)
      ((s.setTile site { s.tile site with faulted := true }).flueSend site dst 0x03 0 sl.tval).flueSend site dst 0x03 0
        (sl.epc.setWidth 64)
    else s
  | _ => s

/-- What SVSEND does with its header and payload: an implicit release at DEVICE scope stands before it. -/
def svsendBody (h v : Word) : M Unit := do
  let s ← get
  require (bitsOf h.toNat 47 28 == 0 && destOk s.cur (bitsOf h.toNat 19 0)) (.word .illegalOperand)
  svsendGate (bitsOf h.toNat 27 20)
  require (s.maySend (agentCode s.cur)) (.wait .held)
  match s.sendFlue s.cur h v with
  | some s' => set (s'.faultWords s.cur (bitsOf h.toNat 27 20))
  | none => throw (.wait .held)

/-- SVSEND. -/
def execSvsend (stl : Stl) (a b : Src) (s : State) : Result :=
  issue (opA 0x3C 9 stl 0 a.code b.code) (do
    let (h, v) ← read2 a b
    svsendBody h v
    return .seq) s

/-- The header of a message as its receiver reads it. -/
def FlueMsg.header (m : FlueMsg) : Word :=
  BitVec.ofNat 64 (m.dst % 2 ^ 20 + m.type % 2 ^ 8 * 2 ^ 20 + m.src % 2 ^ 20 * 2 ^ 28 + m.tag % 2 ^ 16 * 2 ^ 48)

/-- The region of a command link, by its Stoker's code. -/
def FlueMsg.linkRegion (m : FlueMsg) : Nat := (if m.dst == collierCode then m.src else m.dst) - 0x40000

/-- What a receiver owes on a link after taking a message: 4 owed permits return at once in a PERMIT message, and a
PERMIT message returns what it says (R333). -/
def State.owePermit (s : State) (m : FlueMsg) : State :=
  if !m.onLink then s
  else
    let r := m.linkRegion
    let p := s.link r
    let back (n : Nat) : Word := BitVec.ofNat 64 (n * 2 ^ 16)
    if m.type == 0x40 then
      let n := bitsOf m.payload.toNat 19 16
      (s.setLink r (if m.dst == collierCode then { p with toStoker := p.toStoker + n }
        else { p with toCollier := p.toCollier + n })).releaseLink r s.linkWait.length
    else if m.dst == collierCode then
      if p.owedByCollier + 1 == 4 then
        (s.setLink r { p with owedByCollier := 0 }).flueSend collierCode (stokerCode r) 0x40 0 (back 4)
      else
        s.setLink r { p with
          owedByCollier := p.owedByCollier + 1
          owedSinceCollier := if p.owedByCollier == 0 then s.tb.toNat else p.owedSinceCollier }
    else
      if p.owedByStoker + 1 == 4 then
        (s.setLink r { p with owedByStoker := 0 }).flueSend (stokerCode r) collierCode 0x40 0 (back 4)
      else
        s.setLink r { p with
          owedByStoker := p.owedByStoker + 1
          owedSinceStoker := if p.owedByStoker == 0 then s.tb.toNat else p.owedSinceStoker }

/-- The oldest message that waits for the current agent, and the state without it. -/
def State.takeMessage (s : State) : Option (FlueMsg × State) :=
  match s.cur with
  | .tile site _ =>
    match (s.tile site).svq with
    | m :: rest => some (m, (s.setTile site { s.tile site with svq := rest }).admitQueued site s.flue.length)
    | [] => none
  | a =>
    match s.flue.find? fun m => m.dst == agentCode a with
    | some m => some (m, ({ s with flue := s.flue.erase m }).owePermit m)
    | none => none

/-- SVRECV. -/
def execSvrecv (stl : Stl) (d : Dst) (a : Src) (s : State) : Result :=
  issue (opA 0x3C 10 stl d.code a.code 0) (do
    checkDst d
    let p ← read1 a
    let pl ← placeOf privateSpace p 16 8
    let s ← get
    match s.takeMessage with
    | none => deliver d 0
    | some (m, s') => do
      set s'
      match pl with
      | .priv off => do
        let _ ← privAccess (.vecStore [{ len := 128, addr := off, boff := 0, data := m.header.toNat + m.payload.toNat * 2 ^ 64 }] []) p off
      | .coreLocal off => do
        let _ ← localAccess (.vecStore [{ len := 128, addr := off, boff := 0, data := m.header.toNat + m.payload.toNat * 2 ^ 64 }] []) off
      | _ => pure ()
      deliver d m.header
    return .seq) s

/-- A core's source after INTACK: an edge-type one is cleared (R302, R309, R427). -/
def State.acknowledge (s : State) (a : Agent) (k : Fin 7) : State :=
  let c := s.core a
  s.setCore a { c with
    iedge := if Nat.ble 2 k.val then c.iedge &&& ~~~(1#7 <<< k.val) else c.iedge
    timerArmed := c.timerArmed && !(k == 4 && s.timerDue a) }

/-- INTACK: the lowest source in both IPEND and IENA, cleared when it is edge-type; 0xFF with none. -/
def execIntack (stl : Stl) (d : Dst) (s : State) : Result :=
  issue (opA 0x3C 11 stl d.code 0 0) (do
    checkDst d
    let s ← get
    let c := s.core s.cur
    match lowestBit (s.ipend s.cur &&& c.iena) with
    | none => writeDst 1 0 d 0xFF
    | some k => do
      set (s.acknowledge s.cur k)
      writeDst 1 0 d (BitVec.ofNat 64 k.val)
    return .seq) s

/-! ### PRCR and PCWR (R303) -/

/-- The slot and index of a selector: a slot-scope register, of a slot in SYS mode or without a thread. -/
def selectorArg (v : Word) : M (Fin 8 × Nat) := do
  let t ← getTile
  let k : Fin 8 := Fin.ofNat 8 (bitsOf v.toNat 2 0)
  let i := bitsOf v.toNat 25 16
  let sl := t.slots[k]
  require ((Slot.ctlGet {} 0 i).isSome && (sl.sys || !sl.thread)) (.word .illegalOperand)
  return (k, i)

/-- PRCR. -/
def execPrcr (stl : Stl) (d : Dst) (a : Src) (s : State) : Result :=
  issue (opA 0x3C 12 stl d.code a.code 0) (do
    checkDst d
    let v ← read1 a
    let x ← selectorArg v
    let t ← getTile
    writeDst 1 0 d ((t.slots[x.1].ctlGet x.1.val x.2).getD 0)
    return .seq) s

/-- PCWR. -/
def execPcwr (stl : Stl) (a b : Src) (s : State) : Result :=
  issue (opA 0x3C 13 stl 0 a.code b.code) (do
    let (v, w) ← read2 a b
    let x ← selectorArg v
    modTile fun t => t.setSlot x.1 ((t.slots[x.1].ctlSet x.2 w).getD t.slots[x.1])
    return .seq) s

/-! ### SWPOUT, SWPIN, FWDSET, RESETT (R304, R305) -/

/-- The site and image address of SWPOUT and SWPIN. -/
def swapArgs (a b : Src) : M (Nat × Nat) := do
  let (x, y) ← read2 a b
  let site ← siteArg x
  require (y.toNat % 4096 == 0) (.trap .alignment y)
  return (site, y.toNat)

/-- SWPOUT. -/
def execSwpout (stl : Stl) (d : Dst) (a b : Src) (s : State) : Result :=
  issue (opA 0x3C 14 stl d.code a.code b.code) (do
    checkDst d
    let x ← swapArgs a b
    let s ← get
    let r := s.swapOut x.1 x.2
    set r.1
    deliver d (BitVec.ofNat 64 r.2)
    return .seq) s

/-- SWPIN. -/
def execSwpin (stl : Stl) (d : Dst) (a b : Src) (s : State) : Result :=
  issue (opA 0x3C 15 stl d.code a.code b.code) (do
    checkDst d
    let x ← swapArgs a b
    let s ← get
    let r := s.swapIn x.1 x.2
    set r.1
    deliver d (BitVec.ofNat 64 r.2)
    return .seq) s

/-- A forwarding entry of a site's interface: all ones removes it. -/
def State.setForward (s : State) (site : Nat) (new : Option Nat) : State :=
  s.setTile site { s.tile site with fwd := new }

/-- FWDSET. -/
def execFwdset (stl : Stl) (a b : Src) (s : State) : Result :=
  issue (opA 0x3D 0 stl 0 a.code b.code) (do
    let (x, y) ← read2 a b
    let site ← siteArg x
    if y == BitVec.allOnes 64 then modify fun s => s.setForward site none
    else do
      let new ← siteArg y
      modify fun s => s.setForward site (some new)
    return .seq) s

/-- Whether the system segment of a site cannot be reloaded: its core supply is fused off (log entry 15, DEDUCED). -/
def Tile.reloadFails (t : Tile) : Bool := t.fused

/-- RESETT. -/
def execResett (stl : Stl) (d : Dst) (a : Src) (s : State) : Result :=
  issue (opA 0x3D 1 stl d.code a.code 0) (do
    checkDst d
    let x ← read1 a
    let site ← siteArg x
    let s ← get
    set (s.resetTile site)
    deliver d (if (s.tile site).reloadFails then 2 else 0)
    return .seq) s

/-! ### THRSET and SLOTKILL (R306) -/

/-- The issue duty of the sub-regions that a mask selects. -/
def State.setDuty (s : State) (region mask d : Nat) : State :=
  let c := s.stoker region
  let ds : Vector Nat 16 := Vector.ofFn fun k => if mask / 2 ^ k.val % 2 == 1 then d else c.duties[k]
  { s with stokers := Table.put s.stokers region { c with duties := ds } }

/-- THRSET. -/
def execThrset (stl : Stl) (a b : Src) (s : State) : Result :=
  issue (opA 0x3D 2 stl 0 a.code b.code) (do
    let (m, d) ← read2 a b
    require (Nat.ble 1 d.toNat && Nat.ble d.toNat 16) (.word .illegalOperand)
    let s ← get
    match s.cur with
    | .stoker r => do
      set (s.setDuty r m.toNat d.toNat)
      return .seq
    | _ => throw (.word .illegalInstruction)) s

/-- SLOTKILL: the thread ends at once; a slot that kills itself is free afterwards. -/
def execSlotkill (stl : Stl) (a : Src) (s : State) : Result :=
  issue (opA 0x3D 3 stl 0 a.code 0) (do
    let v ← read1 a
    let s ← get
    match s.cur with
    | .tile site k => do
      let j : Fin 8 := Fin.ofNat 8 v.toNat
      let t := s.tile site
      let sl := t.slots[j]
      require (!(j == 0 && sl.thread && sl.res) || t.stop) (.word .illegalOperand)
      let s1 := s.advance (.tile site j) sl.lastDue
      set (s1.setSlot (.tile site j) (s1.slot (.tile site j)).free)
      return if j == k then .ended else .seq
    | _ => throw (.word .illegalInstruction)) s

end Sys2Proof.Machine
end

