-- ==== Sys2Proof/Machine/Queue.lean ====
section
/-! DEFINITION. Queues, launches, completion records and events (spec/01_machine.md R30 to R33, spec/13_sys_queues.md R311 to
R334, spec/05_encoding.md R154, R155, spec/12_sys_isa.md R292, R293, spec/14_sys_swap.md R337, R338, R344,
spec/18_sys_determinism_debug.md R388, R391, R393, R394). -/

namespace Sys2Proof.Machine

/-! ### Taking entries (R312, R313) -/

/-- The unread entries of a queue. -/
def Queue.unread (q : Queue) : Nat := (q.tail + 2 ^ 17 - q.head) % 2 ^ 17

/-- The host address of the entry at an index. -/
def Queue.entryAt (q : Queue) (k : Nat) : Nat := q.base + 128 * (k % 2 ^ q.log)

/-- The state with a queue replaced. -/
def State.setQueue (s : State) (n : Nat) (q : Queue) : State := { s with queues := Table.put s.queues n q }

/-- DOORBELL: the host writes a tail index through a function: one that a function may not ring, that names no queue, or
that is out of range is ignored and counted (R312, R424). -/
def execDoorbell (fn q tail : Nat) (s : State) : Result :=
  let bad : State := { s with dbbad := satInc s.dbbad }
  match Table.get? s.queues q with
  | none => .next bad
  | some x =>
    let new := (tail % 2 ^ 17 + 2 ^ 17 - x.head) % 2 ^ 17
    if (fn != 0 && x.fn != fn) || Nat.blt new x.unread || Nat.blt (2 ^ x.log) new then .next bad
    else .next ((s.setQueue q { x with tail := tail % 2 ^ 17 }).raise .collier 2)

/-- Whether the Collier takes an entry from a queue now: it is mapped and ACTIVE and has one, and a launch index is free. -/
def State.mayTake (s : State) (x : Queue) : Bool :=
  x.slot.isSome && x.state == .active && x.unread != 0 && Nat.blt s.launches.length 65536

/-- The packet at the head of a queue that may be taken. -/
def State.headPacket (s : State) (n : Nat) : Option (Queue × Nat) :=
  match Table.get? s.queues n with
  | some x => if s.mayTake x then some (x, Memory.read s.host (x.entryAt x.head) 128) else none
  | none => none

/-- The head entry is taken: the head index moves on and is written to HEADPTR. -/
def State.takeEntry (s : State) (n : Nat) (x : Queue) : State :=
  let h := (x.head + 1) % 2 ^ 17
  { s with host := Memory.write s.host x.headptr 4 h }.setQueue n { x with head := h }

/-! ### Completion records and events (R329 to R331) -/

/-- A count in a field of some bits. -/
def clip (bits n : Nat) : Nat := min n (2 ^ bits - 1)

/-- The completion record as a 64-byte number. -/
def recordBits (status reason tag start end_ : Nat) (g : ErrorLog) : Nat :=
  let w (k v : Nat) : Nat := v % 2 ^ 64 * 2 ^ (64 * k)
  w 0 (status + reason * 2 ^ 8 + tag % 2 ^ 32 * 2 ^ 32) + w 1 start + w 2 end_
    + w 3 (clip 32 g.gacc + clip 32 g.grej * 2 ^ 32)
    + w 4 (clip 16 g.noHandler + clip 16 g.late * 2 ^ 16 + clip 16 g.badcap * 2 ^ 32 + clip 16 g.stalecap * 2 ^ 48)
    + w 5 (clip 16 g.overdrop + clip 16 g.launchRej * 2 ^ 16 + clip 16 g.ctrdrop * 2 ^ 32 + clip 16 g.stops * 2 ^ 48)
    + w 6 (clip 32 g.parked + clip 32 g.summons * 2 ^ 32)
    + w 7 (g.fcause % 2 ^ 8 + g.fvtile % 2 ^ 24 * 2 ^ 8 + g.fepc % 2 ^ 32 * 2 ^ 32)

/-- Whether a COMPLETION pointer passes check 1 of R317. -/
def completionOk (p : Word) : Bool := ptrAddr p % 64 == 0 && (ptrSpace p == 0 || ptrSpace p == 3)

/-- The record written where COMPLETION points, or not at all (R330, R366). -/
def State.writeRecord (s : State) (asid part : Nat) (pf : Bool) (p : Word) (rec_ : Nat) : Option State :=
  let a := ptrAddr p
  if !completionOk p || a / 2 ^ 48 != 0 then none
  else if ptrSpace p == 0 then
    match s.page? asid (a / 4096) with
    | some pg =>
      if pg.writable then
        some { s.sealedFor (s.partOf asid) (unitsIn (pg.frame + a % 4096) 64) with
          hbm := Memory.write s.hbm (pg.frame + a % 4096) 64 rec_ }
      else none
    | none => none
  else if pf then some { s with host := Memory.write s.host a 64 rec_ }
  else (s.hostWindow part a 64).map fun h => { s with host := Memory.write s.host h 64 rec_ }

/-- The event type of a status. -/
def eventType (status : Nat) : Nat := status

/-- A packet of a queue completes: its record, and after it its event. -/
def State.report (s : State) (queue asid part : Nat) (p : Word) (type status reason tag start info : Nat) (g : ErrorLog) : State :=
  match s.writeRecord asid part (queue == 0) p (recordBits status reason tag start s.tb.toNat g) with
  | some s => s.postEvent type status reason queue tag info
  | none => s.postEvent type status reason queue tag (info + 1)

/-! ### Acceptance (R317) -/

/-- Check 1. -/
def Packet128.formatOk (p : Packet128) (child : Bool) : Bool :=
  p.kind == 1 && p.reservedZero && p.child == child && (List.range 4).all (fun i => Nat.ble (p.route / 16 ^ i % 16) 3)
    && Nat.ble p.absscope 5 && completionOk p.completion

/-- Check 4, given whether the code holds a matrix command. -/
def Packet128.layoutOk (p : Packet128) (block : Bool) : Bool :=
  let w := p.winbase * 128
  let wn := 8 * p.vregs * 512
  let sv := p.savebase * 128
  let sn := 3072 * p.records + (if block then 8256 else 0)
  let g := p.guardbase * 128
  let gn := p.guardsize * 128
  p.winbase % 4 == 0 && Nat.ble (w + wn) 131072 && Nat.ble (sv + sn) 131072 && !overlap w wn sv sn
    && (!p.guarded || (Nat.ble 1 p.guardsize && Nat.ble (g + gn) 131072 && !overlap g gn w wn && !overlap g gn sv sn))

/-- The good tiles of a partition (R335). -/
def State.partitionGood (s : State) (part : Nat) : Nat :=
  let m := (Table.getD s.partitions part {}).regions
  (List.range 64).foldl (fun n r => n + if m.getLsbD r then s.goodOf r else 0) 0

/-- Check 6: the gang fits, and the tables and rings stand in rim memory where Amizhabo has allocated them. -/
def State.placementOk (s : State) (part : Nat) (p : Packet128) (ptbase parkbase : Nat) : Bool :=
  let gangs := (p.vtiles + 2 ^ p.ganglog - 1) / 2 ^ p.ganglog
  let ring := if Nat.ble gangs 16384 then 65536 else 4096
  Nat.ble (2 ^ p.ganglog) (s.partitionGood part) && ptbase != 0 && ptbase % 8 == 0 && parkbase != 0 && parkbase % 16 == 0
    && Nat.ble (ptbase + 8 * p.vtiles) Config.hbmBytes && Nat.ble (parkbase + ring * gangs) Config.hbmBytes

/-- The bytes of a segment (R388). -/
def segmentBytes (vtiles logv : Nat) : Nat := 64 + (vtiles + 48) * 2 ^ logv

/-- Check 7. -/
def Queue.logRoom (q : Queue) (p : Packet128) : Bool :=
  !(p.det && q.olog.mode == 1)
    || Nat.ble (q.olog.append + q.olog.aside + segmentBytes p.vtiles q.olog.logv) (q.olog.base + q.olog.len)

/-- The reason for which the Collier rejects a KERNEL packet of a queue, in the order of R317. -/
def State.kernelReason (s : State) (n : Nat) (q : Queue) (p : Packet128) (child : Bool) (ptbase parkbase : Nat) : Option Nat :=
  let image := s.readImageAt q.asid p.code
  if n == 0 || !p.formatOk child then some 10
  else
    match p.gridReason with
    | some r => some r
    | none =>
      if p.guarded && p.slots != 1 then some 5
      else if !p.layoutOk ((image.map fun i => holdsMatrix i.code).getD false) then some 8
      else if !((image.map fun i => i.ok p).getD false) then some 9
      else if !s.placementOk q.part p ptbase parkbase then some 11
      else if !q.logRoom p then some 14
      else none

/-! ### Creation (R318, R319, R337, R338) -/

/-- The tag-table entry that a DEP field names: the most recent launch of the partition with that tag. -/
def State.named (s : State) (part tag : Nat) : Option TagEntry :=
  if tag == 0 then none
  else (s.tags.filter fun e => e.part == part && e.tag == tag).foldl (fun b e =>
    match b with
    | some x => if Nat.blt x.order e.order then some e else some x
    | none => some e) none

/-- The directory entry of a launch, written under the device key (R337, R367). -/
def State.writeDirectory (s : State) (idx : Nat) (l : Launch) (ptbase parkbase : Nat) : State :=
  let w0 := l.pkt.vtiles % 2 ^ 24 + l.pkt.ganglog * 2 ^ 24 + l.ringLog * 2 ^ 28 + l.asid % 2 ^ 16 * 2 ^ 32
    + l.part % 2 ^ 6 * 2 ^ 48 + 2 ^ 63
  let fs := [(0, 8, w0), (8, 8, ptbase % 2 ^ 48), (16, 8, parkbase % 2 ^ 48), (24, 8, l.pkt.code.toNat)]
  { s.sealedFor none (unitsIn (s.directory + 32 * idx) 32) with hbm := writeFields s.hbm (s.directory + 32 * idx) fs }

/-- A launch of a queue, created: its index, tag-table entry, directory entry, placement table and rings. -/
def State.create (s : State) (idx n : Nat) (q : Queue) (p : Packet128) (key : Word) (parent : Option Nat)
    (image : Image) (ptbase parkbase : Nat) : State :=
  let found := p.deps.filterMap fun t => (s.named q.part t).map fun e => (t, e)
  let failed := found.find? fun e => e.2.idx.isNone && e.2.status != 1
  let depth := match parent with
    | some i => (s.launch i).depth + 1
    | none => 0
  let l0 : Launch := { Launch.blank with
    pkt := p, key, asid := q.asid, part := q.part, queue := n, parent, depth, order := s.created, entry := image.entry,
    handlers := image.handlers, code := image.code, ptbase, parkbase,
    deps := found.filterMap fun e => if e.2.idx.isSome then some (e.1, e.2.order) else none,
    killed := failed.map fun _ => (3, 16), log := { fepc := (failed.map fun e => e.1).getD 0 } }
  let l : Launch := { l0 with gangs := if p.kind == 1 then List.replicate l0.gangCount {} else [] }
  let tag : TagEntry := { part := q.part, tag := p.tag, order := s.created, idx := some idx, status := 0 }
  let s := { s with created := s.created + 1, tags := s.tags ++ [tag] }.setLaunch idx l
  if p.kind != 1 then s
  else
    let s := s.writeDirectory idx l ptbase parkbase
    let s := { s.sealedFor none (unitsIn ptbase (8 * p.vtiles)) with hbm := Memory.write s.hbm ptbase (8 * p.vtiles) 0 }
    let s := { s with rings := s.rings.filter fun r => r.1.1 != idx }
    let s := (List.range l.gangCount).foldl (fun s j =>
      { s.sealedFor (some l.part) (unitsIn (l.ringBase j) 64) with hbm := Memory.write s.hbm (l.ringBase j) 64 0 }) s
    if p.det && q.olog.mode == 1 then
      s.setQueue n { q with olog := { q.olog with aside := q.olog.aside + segmentBytes p.vtiles q.olog.logv } }
    else s

/-- A packet is rejected: its record, where COMPLETION allows one, and its event. -/
def State.reject (s : State) (n : Nat) (q : Queue) (p : Packet128) (reason : Nat) : State :=
  s.report n q.asid q.part p.completion 2 2 reason p.tag 0 0 {}

/-- OP of an ADMIN packet. -/
def adminOp (v : Nat) : Nat := packetBits v 0 15 8

/-- Whether an ADMIN packet of queue 0 fails check 1 (R336). -/
def adminBad (v : Nat) : Bool :=
  packetBits v 0 31 16 != 0 || v / 2 ^ 320 % 2 ^ 576 != 0 || packetBits v 0x78 63 0 != 0 || adminOp v == 0
    || Nat.blt 15 (adminOp v)

/-- An admin command completes: with status COMPLETED a COMPLETE event, else an ADMIN event (R336). -/
def State.adminDone (s : State) (v : Nat) (reason : Option Nat) : State :=
  let comp := BitVec.ofNat 64 (packetBits v 0x70 63 0)
  let tag := packetBits v 0 63 32
  match reason with
  | none => s.report 0 0 0 comp 1 1 0 tag 0 0 {}
  | some r => s.report 0 0 0 comp 6 2 r tag 0 0 {}

/-- KERNEL: the Collier takes a packet that is neither a MARKER nor a well-formed admin command of queue 0, and creates
its launch at a free index or rejects it. -/
def execKernel (q idx : Nat) (key : Word) (ptbase parkbase : Nat) (s : State) : Result :=
  match s.headPacket q with
  | none => .next s
  | some (x, v) =>
    let p := readPacket v
    if p.kind == 2 || Nat.ble 65536 idx || (Table.get? s.launches idx).isSome then .next s
    else if q == 0 && p.kind == 0x10 then
      if adminBad v then .next ((s.takeEntry q x).adminDone v (some 10)) else .next s
    else
      match s.kernelReason q x p false ptbase parkbase with
      | some r => .next ((s.takeEntry q x).reject q x p r)
      | none =>
        let s := s.takeEntry q x
        match Table.get? s.queues q, s.readImageAt x.asid p.code with
        | some x, some i => .next (s.create idx q x p key none i ptbase parkbase)
        | _, _ => .next s

/-- The fields that a MARKER reads (R315). -/
def Packet128.marker (p : Packet128) : Packet128 :=
  { kind := 2, guarded := p.guarded, det := p.det, handlers := p.handlers, child := p.child, traced := p.traced,
    keepalive := p.keepalive, tag := p.tag, deps := p.deps, prio := p.prio, completion := p.completion }

/-- MARKER: the Collier takes a MARKER packet; it waits for its dependencies as a launch without vtiles. -/
def execMarker (q idx : Nat) (s : State) : Result :=
  match s.headPacket q with
  | none => .next s
  | some (x, v) =>
    let p := readPacket v
    if p.kind != 2 || Nat.ble 65536 idx || (Table.get? s.launches idx).isSome then .next s
    else
      let s := s.takeEntry q x
      match Table.get? s.queues q with
      | some x => .next (s.create idx q x p.marker 0 none { header := 0, code := [], handlers := [] } 0 0)
      | none => .next s

/-- CHILD_LAUNCH_PACKET: the Collier takes the oldest child copy of a parent and makes the checks of R317; a MARKER is created as it
stands (R315). -/
def execChildLaunchPacket (k idx : Nat) (key : Word) (ptbase parkbase : Nat) (s : State) : Result :=
  match s.children[k]? with
  | none => .next s
  | some c =>
    if (s.children.take k).any (fun x => x.parent == c.parent) || Nat.ble 65536 idx
        || (Table.get? s.launches idx).isSome then .next s
    else
      let s1 := { s with children := s.children.eraseIdx k }
      match Table.get? s.launches c.parent with
      | none => .next s1
      | some l =>
        if l.killed.isSome then .next s1
        else
          match Table.get? s.queues l.queue with
          | none => .next s
          | some q =>
            let p := readPacket (bytesToNat c.bytes)
            if p.kind == 2 then
              .next (s1.create idx l.queue q p.marker key (some c.parent) { header := 0, code := [], handlers := [] } 0 0)
            else match s1.kernelReason l.queue q p true ptbase parkbase, s1.readImageAt q.asid p.code with
            | none, some i => .next (s1.create idx l.queue q p key (some c.parent) i ptbase parkbase)
            | some r, _ => .next ((s1.setLaunch c.parent { l with children := l.children - 1 }).reject l.queue q p r)
            | none, none => .next s

/-! ### Starting (R33, R321, R388, R391, R394) -/

/-- Whether a launch is created and has not started; one that completes without starting counts as started at its completion alone
(R33). -/
def Launch.waiting (l : Launch) : Bool := l.started.isNone

/-- Whether a launch may start: its DEPs are satisfied, its queue is mapped and ACTIVE (R313), and what stands before it has started;
in a paired queue the kernels before it have completed and matched (R394). -/
def State.mayStart (s : State) (idx : Nat) : Bool :=
  let l := s.launch idx
  let q := Table.get? s.queues l.queue
  l.waiting && l.killed.isNone && (Table.get? s.launches idx).isSome && l.deps.isEmpty
    && ((q.map fun x => x.state == .active && x.slot.isSome) == some true)
    && (match l.parent with
      | some i =>
        (s.launch i).started.isSome
          && !s.launches.any fun r => r.2.parent == some i && Nat.blt r.2.order l.order && r.2.waiting
      | none =>
        !s.launches.any (fun r => r.2.parent.isNone && r.2.queue == l.queue && Nat.blt r.2.order l.order && r.2.waiting)
          && !((q.map fun x => l.pkt.kind == 1 && x.pair.enabled && (x.pair.waiting
            || s.launches.any fun r =>
              r.2.pkt.kind == 1 && r.2.parent.isNone && r.2.queue == l.queue && Nat.blt r.2.order l.order)).getD false))

/-- The segment of a DET launch that starts in record mode: written at the append point, with what its vtiles have logged so far
(R388). -/
def State.openSegment (s : State) (idx : Nat) (l : Launch) (q : Queue) : State :=
  let seg := q.olog.append
  let n := segmentBytes l.pkt.vtiles q.olog.logv
  let s := s.setQueue l.queue { q with olog := { q.olog with append := seg + n, aside := q.olog.aside - n } }
  let s := s.putVirt64 l.asid seg (l.pkt.tag % 2 ^ 32 + l.pkt.vtiles % 2 ^ 24 * 2 ^ 32 + q.olog.logv * 2 ^ 56)
  let s := (List.range 7).foldl (fun s i => s.putVirt64 l.asid (seg + 8 + 8 * i) 0) s
  let s := (List.range (l.pkt.vtiles + 48)).foldl (fun s i =>
    (s.putVirt64 l.asid (seg + 64 + i * 2 ^ q.olog.logv) 0).putVirt64 l.asid (seg + 72 + i * 2 ^ q.olog.logv) 0) s
  let s := s.setLaunch idx { s.launch idx with logSeg := some seg, early := [] }
  l.early.foldl (fun s e => s.logEntry idx e.1 e.2.1 e.2.2) s

/-- The segment that is to force a DET launch in replay mode: the next unread one, when it is the launch's own and complete (R391). -/
def State.forceSegment (s : State) (idx : Nat) (l : Launch) (q : Queue) : State :=
  let seg := q.olog.read
  let w := s.virt64 l.asid seg
  if bitsOf w 31 0 == l.pkt.tag % 2 ^ 32 && bitsOf w 55 32 == l.pkt.vtiles % 2 ^ 24
      && bitsOf (s.virt64 l.asid (seg + 8)) 1 0 == 0 then
    s.setLaunch idx { s.launch idx with logSeg := some seg, forced := true }
  else s

/-- A DET launch starts in replay mode: the next unread segment is read, and one that does not force the launch is reported (R391). -/
def State.readSegment (s : State) (l : Launch) (q : Queue) : State :=
  let w := s.virt64 l.asid q.olog.read
  let s := s.setQueue l.queue
    { q with olog := { q.olog with read := q.olog.read + segmentBytes (bitsOf w 55 32) (bitsOf w 60 56) } }
  if l.logSeg.isNone then s.postEvent 8 0 0 l.queue l.pkt.tag (2 ^ 24 - 1) else s

/-- The order log of a launch that starts (R388, R391). -/
def State.startLog (s : State) (idx : Nat) : State :=
  let l := s.launch idx
  match Table.get? s.queues l.queue with
  | some q =>
    if l.pkt.det && q.olog.mode == 1 then s.openSegment idx l q
    else if l.pkt.det && q.olog.mode == 2 then s.readSegment l q
    else s
  | none => s

/-- The log that forces a launch (R391): it stands before the first gang's delivery opens, since a fresh tile starts its threads
before the launch has started (R355, R359; log entry 55, DEDUCED). -/
def State.startReplay (s : State) (idx : Nat) : State :=
  let l := s.launch idx
  match Table.get? s.queues l.queue with
  | some q => if l.pkt.det && q.olog.mode == 2 && l.started.isNone then s.forceSegment idx l q else s
  | none => s

/-- The watchdog of a queue's slot armed for its oldest incomplete launch, when that has started (R326). -/
def State.armWatchdog (s : State) (n : Nat) : State :=
  match Table.get? s.queues n with
  | some q =>
    match q.slot with
    | some hw =>
      let host := s.launches.filter fun r => r.2.queue == n && r.2.parent.isNone
      let oldest := host.foldl (fun b r =>
        match b with
        | some x => if Nat.blt r.2.order x.2.order then some r else some x
        | none => some r) (none : Option (Nat × Launch))
      match oldest with
      | some (i, l) =>
        if l.started.isNone then { s with watchdogs := Table.put s.watchdogs hw {} }
        else if (Table.getD s.watchdogs hw {}).covers == some i then s
        else
          let s := s.setWatchdog hw l.pkt.wdog
          { s with watchdogs := Table.put s.watchdogs hw { Table.getD s.watchdogs hw {} with covers := some i } }
      | none => { s with watchdogs := Table.put s.watchdogs hw {} }
    | none => s
  | none => s

/-- A launch starts, with its first gang resident (R33, R326, R388). -/
def State.startLaunch (s : State) (idx : Nat) : State :=
  let l := s.launch idx
  if l.started.isSome then s
  else ((s.setLaunch idx { l with started := some s.tb.toNat }).startLog idx).armWatchdog l.queue

/-! ### Completion (R30, R320, R327, R329, R393) -/

/-- Whether a launch's traffic and reports are done: no packet of it travels, no acknowledgement is out, its tiles have reported what
they counted, and every RETIRE and STATS message due to it has been taken (R30, R334). -/
def State.trafficDone (s : State) (idx : Nat) : Bool :=
  !(s.fabric.any fun p => p.src.idx == idx)
    && !(s.acks.any fun a => a.2.2 == idx) && !(s.tiles.any fun r => r.2.outq.any fun p => p.src.idx == idx)
    && !(s.tally.any fun x => x.1.2 == idx) && !(s.retiring.any fun x => x.1 == idx)
    && !((s.flue ++ s.linkWait).any fun m => [0x42, 0x43, 0x45].contains m.type && bitsOf m.payload.toNat 15 0 == idx)

/-- The conditions of R30. -/
def State.completeReady (s : State) (idx : Nat) : Bool :=
  let l := s.launch idx
  l.started.isSome && l.gangs.all (fun g => g.state == .retired) && l.children == 0
    && !(s.children.any fun c => c.parent == idx) && s.trafficDone idx

/-- The conditions under which a killed or cancelled launch completes: its tiles are reset, its children have completed, and what it
has issued is performed or discarded (R30, R32, R327). -/
def State.killReady (s : State) (idx : Nat) : Bool :=
  (s.launch idx).killAwait.isEmpty && !(s.launches.any fun r => r.2.parent == some idx) && s.trafficDone idx

/-- A tag table keeps the launches that have not completed and the 4,096 most recently completed of a partition. -/
def trimTags (part : Nat) (ts : List TagEntry) : List TagEntry :=
  let done := ts.filter fun e => e.part == part && e.idx.isNone
  if Nat.ble done.length 4096 then ts
  else
    match done.head? with
    | some x => ts.filter fun e => !(e.part == part && e.order == x.order)
    | none => ts

/-- The tags after a launch has completed with a status: its entry stands last, as the most recently completed. -/
def State.closeTag (s : State) (l : Launch) (status : Nat) : State :=
  let mine (e : TagEntry) : Bool := e.part == l.part && e.order == l.order
  let ended := (s.tags.filter mine).map fun e => { e with idx := none, status }
  { s with tags := trimTags l.part (s.tags.filter (fun e => !mine e) ++ ended) }

/-- What the completion of a launch means to the launches that depend on it: satisfied, or an error token (R320). -/
def Launch.learn (l : Launch) (tag order status : Nat) : Launch :=
  if !l.deps.contains (tag, order) then l
  else if status == 1 then { l with deps := l.deps.filter fun d => d != (tag, order) }
  else if l.killed.isNone then { l with killed := some (3, 16), log := { l.log with fepc := tag } }
  else l

/-- Digests of a paired launch read, and its frame sent: the peer's is awaited (R393). -/
def State.sendDigests (s : State) (n : Nat) (q : Queue) (l : Launch) : State :=
  let ds := (List.range q.pair.count).map fun i =>
    BitVec.ofNat 256 ((s.readVirtual l.asid (q.pair.digests + 32 * i) 32).getD 0)
  s.setQueue n { q with pair := { q.pair with
    mine := some (q.pair.next, l.pkt.tag, ds, s.tb.toNat + 1000 * q.pair.timeout), next := q.pair.next + 1, waiting := true } }

/-- The place of the first difference of two lists of digests. -/
def firstDiff : List (BitVec 256) → List (BitVec 256) → Nat → Option Nat
  | [], [], _ => none
  | a :: as, b :: bs, i => if a == b then firstDiff as bs (i + 1) else some i
  | _, _, i => some i

/-- The comparison of both frames of a launch of a paired queue (R394). -/
def State.compareDigests (s : State) (n : Nat) (q : Queue) : State :=
  match q.pair.mine, q.pair.theirs with
  | some (k, tag, ds, _), some (k', tag', ds') =>
    if k != k' then s
    else
      let clear : Pairing := { q.pair with mine := none, theirs := none, waiting := false }
      if tag == tag' && ds == ds' then s.setQueue n { q with pair := clear }
      else
        let at_ := if tag == tag' then (firstDiff ds ds' 0).getD 0 else 0xFF
        (s.setQueue n { q with pair := clear, state := .frozen }).postEvent 7 0 0 n tag (k % 2 ^ 32 + at_ % 256 * 2 ^ 32)
  | _, _ => s

/-- A DRY queue without a started launch lets go of its slot, whose watchdog is disarmed (R313, R326). -/
def State.releaseDry (s : State) (n : Nat) : State :=
  match Table.get? s.queues n with
  | some q =>
    match q.slot with
    | some hw =>
      if q.state == .dry && !s.launches.any fun r => r.2.queue == n && r.2.started.isSome then
        { s.setQueue n { q with slot := none } with watchdogs := Table.put s.watchdogs hw {} }
      else s
    | none => s
  | none => s

/-- What a completion means to the launch's queue: it freezes or lets go of its slot, space that the log has set aside for a launch
that has not started returns (R388), and a paired queue sends the digests of a kernel that has completed, or waits where one has
not (R393, R394). -/
def State.queueAfter (s : State) (l : Launch) (status : Nat) : State :=
  match Table.get? s.queues l.queue with
  | none => s
  | some q =>
    let q := if status == 4 || status == 5 then { q with state := .frozen } else q
    let q := if l.started.isNone && l.pkt.kind == 1 && l.pkt.det && q.olog.mode == 1 then
        { q with olog := { q.olog with aside := q.olog.aside - segmentBytes l.pkt.vtiles q.olog.logv } } else q
    let paired := q.pair.enabled && l.parent.isNone && l.pkt.kind == 1
    let q := if paired && status != 1 then { q with pair := { q.pair with waiting := true } } else q
    let s := s.setQueue l.queue q
    let s := if paired && status == 1 then s.sendDigests l.queue q l else s
    let s := match Table.get? s.queues l.queue with
      | some q => s.compareDigests l.queue q
      | none => s
    (s.releaseDry l.queue).armWatchdog l.queue

/-- The swap images of a launch are dropped: what stands out in them belongs to no vtile any more (R327). -/
def State.dropImages (s : State) (idx : Nat) : State :=
  { s with images := s.images.map fun r => (r.1, if (r.2.owner.map (·.1)) == some idx then { r.2 with owner := none } else r.2) }

/-- A launch completes: its record, its event, then its error tokens; its index is free (R30, R318, R382). -/
def State.completeLaunch (s : State) (idx status reason : Nat) : State :=
  let l := s.launch idx
  let info := if status == 3 && reason == 16 then l.log.fepc % 2 ^ 32 * 2 ^ 32 else 0
  let s := s.report l.queue l.asid l.part l.pkt.completion (eventType status) status reason l.pkt.tag (l.started.getD 0) info l.log
  let rest : Table Launch := (Table.del s.launches idx).map fun r => (r.1, r.2.learn l.pkt.tag l.order status)
  let hbm := if l.pkt.kind == 1 then Memory.write s.hbm (s.directory + 32 * idx) 32 0 else s.hbm
  let s := { s.dropImages idx with hbm, rings := s.rings.filter (fun r => r.1.1 != idx), launches := rest }
  let s := s.closeTag l status
  let s := match l.parent with
    | some i =>
      match Table.get? s.launches i with
      | some pl => s.setLaunch i { pl with children := pl.children - 1 }
      | none => s
    | none => s
  s.queueAfter l status

/-- LAUNCH_COMPLETION. -/
def execLaunchCompletion (idx : Nat) (s : State) : Result :=
  match Table.get? s.launches idx with
  | none => .next s
  | some l =>
    match l.killed with
    | some (status, reason) => if s.killReady idx then .next (s.completeLaunch idx status reason) else .next s
    | none =>
      if l.pkt.kind == 2 then (if s.mayStart idx then .next (s.completeLaunch idx 1 0) else .next s)
      else if s.completeReady idx then .next (s.completeLaunch idx 1 0)
      else .next s

/-! ### Killing (R327, R328) -/

/-- Whether a launch is another or descends from it. -/
def State.descends (s : State) (root : Nat) : Nat → Nat → Bool
  | 0, _ => false
  | fuel + 1, i => i == root ||
    match Table.get? s.launches i with
    | some l => (l.parent.map fun p => s.descends root fuel p).getD false
    | none => false

/-- One launch is killed: its regions get KILL, its images, rings and child packets are dropped. -/
def State.killOne (s : State) (idx status reason : Nat) : State :=
  let l := s.launch idx
  if l.killed.isSome then s
  else
    let regions := (l.gangs.flatMap fun g => g.sites.map fun x => regionOf x.2).eraseDups
    let s := s.setLaunch idx { l with killed := some (status, reason), killAwait := regions }
    let s := { s.dropImages idx with
      rings := s.rings.filter fun r => r.1.1 != idx
      children := s.children.filter fun c => c.parent != idx
      flue := s.flue.filter fun m => !(m.dst == collierCode && m.type == 0x60 && bitsOf m.payload.toNat 15 0 == idx)
      partitions := s.partitions.map fun r => (r.1, { r.2 with summons := r.2.summons.filter fun x => x.1 != idx })
      moves := s.moves.filter fun m => m.idx != idx }
    regions.foldl (fun s r => s.toStoker r 0x41 idx) s

/-- A launch and all its descendants are killed. -/
def State.killLaunch (s : State) (idx status reason : Nat) : State :=
  let kin := (s.launches.map (·.1)).filter fun i => i != idx && s.descends idx 9 i
  kin.foldl (fun s i => s.killOne i 3 18) (s.killOne idx status reason)

/-- Whether a hardware slot's watchdog covers a launch: it is live, not killed, and its queue holds the slot. -/
def State.covered (s : State) (hw idx : Nat) : Bool :=
  s.isLive idx && ((Table.get? s.queues (s.launch idx).queue).bind (·.slot)) == some hw

/-- WATCHDOG_EXPIRY: a covered launch that meets R30 completes; another is killed with status WATCHDOG. -/
def execWatchdogExpiry (hw : Nat) (s : State) : Result :=
  let w := Table.getD s.watchdogs hw {}
  match w.deadline with
  | none => .next s
  | some d =>
    if s.halted || Nat.blt s.tb.toNat d then .next s
    else
      let s := { s with watchdogs := Table.put s.watchdogs hw { w with deadline := none } }
      match w.covers with
      | none => .next s
      | some idx => if !s.covered hw idx || s.completeReady idx then .next s else .next (s.killLaunch idx 4 0)

/-! ### Buckets and mapping (R324, R325) -/

/-- The tiles charged to the launches of a bucket. -/
def State.charged (s : State) (bucket : Nat) : Nat :=
  s.launches.foldl (fun n r =>
    if ((Table.get? s.queues r.2.queue).map (·.bucket)) == some bucket && r.2.queue != 0 then
      n + r.2.gangs.foldl (fun n g =>
        n + match g.state with
          | .loading | .resident | .saving | .flushing => g.sites.length
          | _ => 0) 0
    else n) 0

/-- BUCKET_REFILL: one microsecond of the timebase. -/
def execBucketRefill (s : State) : Result :=
  if s.halted || Nat.blt s.tb.toNat (1000 * (s.refills + 1)) then .next s
  else
    let one (k : Nat) (b : Bucket) : Bucket :=
      { b with level := max (-(b.cap : Int)) (min b.cap (b.level + b.rate - s.charged k)) }
    .next { s with refills := s.refills + 1, buckets := s.buckets.map fun r => (r.1, one r.1 r.2) }

/-- Whether a bucket is dry. -/
def State.dry (s : State) (b : Nat) : Bool := decide ((Table.getD s.buckets b {}).level ≤ 0)

/-- Whether a queue has a launch that has not completed. -/
def State.hasLaunch (s : State) (n : Nat) : Bool := s.launches.any fun r => r.2.queue == n

/-- Whether a queue has a started launch that has not completed. -/
def State.hasStarted (s : State) (n : Nat) : Bool := s.launches.any fun r => r.2.queue == n && r.2.started.isSome

/-- Whether a queue is eligible to be mapped. -/
def State.eligible (s : State) (n : Nat) (q : Queue) : Bool :=
  n != 0 && q.slot.isNone && (q.unread != 0 || s.hasLaunch n) && !s.dry q.bucket

/-- Steps 1 to 3 of a mapping pass for one queue, and the release for others that wait. -/
def State.passQueue (s : State) (crowded : Bool) (n : Nat) (q : Queue) : Queue :=
  if n == 0 then q
  else
    let q := if q.state == .active && s.dry q.bucket then { q with state := .dry }
      else if q.state == .dry && !s.dry q.bucket && q.slot.isSome then { q with state := .active } else q
    if q.slot.isSome && q.state == .active && q.unread == 0 && !s.hasLaunch n then { q with slot := none }
    else if q.slot.isSome && crowded && q.state != .frozen && Nat.ble (q.mappedAt + 4000000) s.tb.toNat && !s.hasStarted n then
      { q with slot := none }
    else q

/-- The lowest free hardware queue slot. Slot 0 is queue 0's from bring-up on (R311, R313). -/
def State.freeSlot (s : State) : Option Nat :=
  (List.range 512).find? fun k => k != 0 && !s.queues.any fun r => r.2.slot == some k

/-- An eligible queue is mapped to a free slot. -/
def State.mapQueue (s : State) (n : Nat) : State :=
  match Table.get? s.queues n, s.freeSlot with
  | some q, some k =>
    let st : QueueState := if q.state == .frozen then .frozen else .active
    State.armWatchdog { s.setQueue n { q with slot := some k, state := st, mappedAt := s.tb.toNat } with lastMapped := n } n
  | _, _ => s

/-- MAPPING_PASS. -/
def execMappingPass (s : State) : Result :=
  if Nat.blt s.boot 7 || Nat.blt s.tb.toNat (1000000 * (s.passes + 1)) then .next s
  else
    let wait := (s.queues.filter fun r => s.eligible r.1 r.2).length
    let qs : Table Queue := s.queues.map fun r => (r.1, s.passQueue (Nat.blt 511 wait) r.1 r.2)
    let s : State := { s with passes := s.passes + 1, queues := qs }
    let es := (s.queues.filter fun r => s.eligible r.1 r.2).map (·.1)
    let order := es.filter (fun n => Nat.blt s.lastMapped n) ++ es.filter fun n => Nat.ble n s.lastMapped
    .next (order.foldl State.mapQueue s)

/-! ### Events and permits (R332, R333) -/

/-- PENDING_ERROR_WRITE: the pending-error record of the first error goes into the ring. -/
def execPendingErrorWrite (s : State) : Result := .next (s.writePendings 1)

/-- PERMIT_TIMER: 2 µs after a permit came to be owed, what is owed is returned. -/
def execPermitTimer (region : Nat) (atCollier : Bool) (s : State) : Result :=
  let p := s.link region
  let now := s.tb.toNat
  if atCollier then
    if p.owedByCollier != 0 && Nat.ble (p.owedSinceCollier + 2000) now then
      .next ((s.setLink region { p with owedByCollier := 0 }).flueSend collierCode (stokerCode region) 0x40 0
        (BitVec.ofNat 64 (p.owedByCollier * 2 ^ 16)))
    else .next s
  else if p.owedByStoker != 0 && Nat.ble (p.owedSinceStoker + 2000) now then
    .next ((s.setLink region { p with owedByStoker := 0 }).flueSend (stokerCode region) collierCode 0x40 0
      (BitVec.ofNat 64 (p.owedByStoker * 2 ^ 16)))
  else .next s

end Sys2Proof.Machine
end

