-- ==== Sys2Proof/Machine/Admin.lean ====
section
/-! DEFINITION. Admin commands of queue 0 (spec/13_sys_queues.md R324, R335, R336, spec/18_sys_determinism_debug.md R395,
spec/19_sys_wafer.md R422, R425, R426). -/

namespace Sys2Proof.Machine

/-- The ADMIN packet at the head of queue 0 when it is well formed and has an OP, taken. -/
def State.adminTake (s : State) (op : Nat) : Option (State × Nat) :=
  match s.headPacket 0 with
  | some (x, v) =>
    if packetBits v 0 7 0 == 0x10 && !adminBad v && adminOp v == op then some (s.takeEntry 0 x, v) else none
  | none => none

/-- ARGn of an ADMIN packet. -/
def adminArg (v n : Nat) : Nat := packetBits v (8 + 8 * n) 63 0

/-- An admin command: `reason` says why it is rejected, `effect` what it does. -/
def admin (op : Nat) (reason : State → Nat → Option Nat) (effect : State → Nat → State) (s : State) : Result :=
  match s.adminTake op with
  | none => .next s
  | some (s, v) =>
    match reason s v with
    | some r => .next (s.adminDone v (some r))
    | none => .next ((effect s v).adminDone v none)

/-- ADMIN_ARG and ADMIN_BUSY as reasons, the first that holds. -/
def argBusy (arg busy : Bool) : Option Nat := if arg then some 12 else if busy then some 13 else none

/-- Whether a partition holds no region. -/
def State.partEmpty (s : State) (p : Nat) : Bool := (Table.getD s.partitions p {}).regions == 0

/-- Whether a partition has a live launch. -/
def State.partLive (s : State) (p : Nat) : Bool := s.launches.any fun r => r.2.part == p

/-- The state with a partition replaced. -/
def State.setPart (s : State) (n : Nat) (p : Partition) : State := { s with partitions := Table.put s.partitions n p }

/-- CREATE_QUEUE. -/
def execCreateQueue (s : State) : Result :=
  admin 1
    (fun s v =>
      let a := adminArg v 2
      let q := bitsOf a 15 0
      let log := bitsOf a 20 16
      let part := bitsOf a 44 39
      let other := match Table.get? s.asidPart (bitsOf a 63 48) with
        | some p => p != part
        | none => false
      argBusy (q == 0 || (Table.get? s.queues q).isSome || Nat.blt log 4 || Nat.blt 16 log || other || s.partEmpty part) false)
    (fun s v =>
      let a := adminArg v 2
      let q : Queue :=
        { base := adminArg v 0, log := bitsOf a 20 16, headptr := adminArg v 1, fn := bitsOf a 26 21, bucket := bitsOf a 38 27,
          part := bitsOf a 44 39, asid := bitsOf a 63 48, head := 0, tail := 0, state := .active, slot := none, mappedAt := 0,
          olog := {}, pair := {} }
      { s.setQueue (bitsOf a 15 0) q with asidPart := Table.put s.asidPart q.asid q.part }) s

/-- The queue that ARG2 names. -/
def adminQueue (v : Nat) : Nat := bitsOf (adminArg v 2) 15 0

/-- DESTROY_QUEUE: an ASID that no queue names any more is unbound. A pending-error record of the queue stays until it is written
(R332). -/
def execDestroyQueue (s : State) : Result :=
  admin 2
    (fun s v => argBusy (adminQueue v == 0 || (Table.get? s.queues (adminQueue v)).isNone) (s.hasLaunch (adminQueue v)))
    (fun s v =>
      let asid := ((Table.get? s.queues (adminQueue v)).map (·.asid)).getD 0
      let qs := Table.del s.queues (adminQueue v)
      { s with queues := qs, asidPart := if qs.any (fun r => r.2.asid == asid) then s.asidPart else Table.del s.asidPart asid }) s

/-- Whether a queue's pending-error record has not been written. -/
def State.pendingOf (s : State) (n : Nat) : Bool := (Table.get? s.pendings n).isSome

/-- The state with a queue made ACTIVE; a paired queue waits for no other comparison than one that is under way (R394). -/
def State.activate (s : State) (n : Nat) : State :=
  match Table.get? s.queues n with
  | some q => s.setQueue n { q with state := .active, pair := { q.pair with waiting := q.pair.mine.isSome } }
  | none => s

/-- UNFREEZE. -/
def execUnfreeze (s : State) : Result :=
  admin 3
    (fun s v => argBusy (((Table.get? s.queues (adminQueue v)).map (·.state)) != some .frozen) (s.pendingOf (adminQueue v)))
    (fun s v => s.activate (adminQueue v)) s

/-- Unread entries of a queue complete as CANCELLED with REASON 17, in ring order. -/
def State.flushEntries (s : State) (n : Nat) : Nat → State
  | 0 => s
  | fuel + 1 =>
    match Table.get? s.queues n with
    | some q =>
      if q.unread == 0 then s
      else
        let p := readPacket (Memory.read s.host (q.entryAt q.head) 128)
        State.flushEntries ((s.takeEntry n q).report n q.asid q.part p.completion 3 3 17 p.tag 0 0 {}) n fuel
    | none => s

/-- The launches of a queue that have not started. -/
def State.unstarted (s : State) (n : Nat) : List (Nat × Launch) := s.launches.filter fun r => r.2.queue == n && r.2.started.isNone

/-- Every launch of a queue that has not started completes as CANCELLED with REASON 17, or as what has already cancelled it; then
every unread entry; and the queue is ACTIVE (R336). What the completion of one means to another of them comes too late for it. -/
def State.flushQueue (s : State) (n : Nat) : State :=
  let s := (s.unstarted n).foldl (fun s r =>
    let k := r.2.killed.getD (3, 17)
    (s.setLaunch r.1 { s.launch r.1 with log := r.2.log }).completeLaunch r.1 k.1 k.2) s
  ((s.flushEntries n 65536).activate n).armWatchdog n

/-- FLUSH. A launch whose first gang is being loaded is killed, and its tiles are reset, before the command completes. -/
def execFlush (s : State) : Result :=
  match s.adminTake 4 with
  | none => .next s
  | some (s1, v) =>
    let n := adminQueue v
    match argBusy (Table.get? s1.queues n).isNone (s1.pendingOf n) with
    | some r => .next (s1.adminDone v (some r))
    | none =>
      let loading := (s.unstarted n).filter fun r => r.2.gangs.any fun g => !g.sites.isEmpty
      if loading.isEmpty && (s.unstarted n).all fun r => r.2.killed.isNone || s.killReady r.1 then
        .next ((s1.flushQueue n).adminDone v none)
      else .next (loading.foldl (fun s r => s.killLaunch r.1 3 17) s)

/-- SET_BUCKET. -/
def execSetBucket (s : State) : Result :=
  admin 5 (fun _ _ => none)
    (fun s v =>
      let cap := bitsOf (adminArg v 3) 63 32
      let b : Bucket := { level := cap, rate := bitsOf (adminArg v 3) 17 0, cap }
      { s with buckets := Table.put s.buckets (bitsOf (adminArg v 2) 11 0) b }) s

/-- SET_PARTITION, with the key that the Collier draws: what the old key encrypted is lost (R367, R368). -/
def execSetPartition (key : BitVec 512) (s : State) : Result :=
  admin 6
    (fun s v =>
      let m : Word := BitVec.ofNat 64 (adminArg v 0)
      let p := bitsOf (adminArg v 2) 5 0
      argBusy ((s.partitions.any fun r => r.1 != p && r.2.regions &&& m != 0)
        || (List.range 64).any fun r => m.getLsbD r && s.classOf r == 0) (s.partLive p))
    (fun s v =>
      let p := bitsOf (adminArg v 2) 5 0
      (s.rekey p).setPart p { Table.getD s.partitions p {} with regions := BitVec.ofNat 64 (adminArg v 0), key }) s

/-- SET_EVENT_RING. -/
def execSetEventRing (s : State) : Result :=
  admin 7
    (fun s v =>
      let log := bitsOf (adminArg v 2) 4 0
      argBusy (Nat.blt log 6 || Nat.blt 20 log) (s.evring.on && s.ringHead != s.evring.tail))
    (fun s v => { s with evring := { on := true, base := adminArg v 0, headaddr := adminArg v 1, log := bitsOf (adminArg v 2) 4 0, tail := 0 } }) s

/-- GET_COUNTERS: EVDROP and EVCOAL are cleared, DBBAD goes on (R332). -/
def execGetCounters (s : State) : Result :=
  admin 8 (fun _ _ => none)
    (fun s v => { s with
      host := Memory.write s.host (adminArg v 0) 16 (s.evdrop.toNat + s.evcoal.toNat * 2 ^ 32 + s.dbbad.toNat * 2 ^ 64)
      evdrop := 0, evcoal := 0 }) s

/-- SET_LOG. -/
def execSetLog (s : State) : Result :=
  admin 9
    (fun s v =>
      let a := adminArg v 2
      let logv := bitsOf a 22 18
      argBusy ((Table.get? s.queues (adminQueue v)).isNone || bitsOf a 17 16 == 3 || Nat.blt logv 12 || Nat.blt 20 logv
        || adminArg v 0 % 4096 != 0) (s.hasLaunch (adminQueue v)))
    (fun s v =>
      match Table.get? s.queues (adminQueue v) with
      | some q =>
        let a := adminArg v 2
        s.setQueue (adminQueue v) { q with
          olog := { mode := bitsOf a 17 16, base := adminArg v 0, len := adminArg v 1, logv := bitsOf a 22 18,
                    append := adminArg v 0, aside := 0, read := adminArg v 0 } }
      | none => s) s

/-- SET_PAIR. -/
def execSetPair (s : State) : Result :=
  admin 10
    (fun s v =>
      let a := adminArg v 2
      argBusy ((Table.get? s.queues (adminQueue v)).isNone
        || (bitsOf a 40 40 == 1 && !(Table.getD s.peers (bitsOf a 19 16) {}).paired)) (s.hasLaunch (adminQueue v)))
    (fun s v =>
      match Table.get? s.queues (adminQueue v) with
      | some q =>
        let a := adminArg v 2
        s.setQueue (adminQueue v) { q with
          pair := { enabled := bitsOf a 40 40 == 1, digests := adminArg v 0, link := bitsOf a 19 16, peerQueue := bitsOf a 35 20,
                    count := bitsOf a 39 36 + 1, timeout := bitsOf (adminArg v 3) 31 0 } }
      | none => s) s

/-- The attestation report without its signature (R426); its image digest is that of the image that BRING_UP has verified. -/
def State.reportBits (s : State) (nonce : Nat) : Nat :=
  let classes := (List.range 64).foldl (fun n r => n + s.classOf r * 16 ^ r) 0
  let image := bytesToNat (sha256 s.image)
  0x41545354 + 2 ^ 32 + s.waferStat.toNat * 2 ^ 64 + classes * 2 ^ 128 + image * 2 ^ 384 + nonce % 2 ^ 256 * 2 ^ 640
    + s.tb.toNat * 2 ^ 896 + s.serial.toNat * 2 ^ 960

/-- ATTEST: the report with its signature, or with CERT the certificate behind its length. -/
def execAttest (sig : BitVec 512) (cert : List Byte) (s : State) : Result :=
  admin 11 (fun _ _ => none)
    (fun s v =>
      let a := adminArg v 0
      if bitsOf (adminArg v 2) 0 0 == 1 then
        let c := cert.take 1016
        { s with host := Memory.write s.host a (8 + c.length) (c.length + bytesToNat c * 2 ^ 64) }
      else
        let nonce := Memory.read s.host (adminArg v 1) 32
        { s with host := Memory.write s.host a 224 (s.reportBits nonce + sig.toNat * 2 ^ 1280) }) s

/-- GOOD, CURRENT and REPLACE_REQ recomputed (R414, R421). -/
def State.regrade (s : State) : State := { s with replaceReq := Nat.blt s.goodTiles (gradeFloor s.shipped) }

/-- READMIT: a retired tile that Amizhabo found to pass its self-test twice in a row returns at its site. The blob begins
with the site (log entry 19, DESIGN CHOICE). -/
def execReadmit (sigOk tested busy : Bool) (s : State) : Result :=
  admin 12
    (fun s v =>
      let t := s.tile (Memory.read s.host (adminArg v 0) 8 % Config.sites)
      argBusy (!sigOk || !tested || t.fused) busy)
    (fun s v =>
      let site := Memory.read s.host (adminArg v 0) 8 % Config.sites
      let t := s.tile site
      if t.retired then
        (({ s with readmits := s.readmits + 1 }.setTile site { t with retired := false, good := true }).markGood site true).regrade
      else s) s

/-- SET_OWNER: the first key needs no signature. -/
def execSetOwner (sigOk : Bool) (s : State) : Result :=
  admin 13 (fun s _ => argBusy (s.owner && !sigOk) false)
    (fun s v => { s with owner := true, ownerKey := BitVec.ofNat 512 (Memory.read s.host (adminArg v 0) 64) }) s

/-- BIND_HOST. -/
def execBindHost (s : State) : Result :=
  admin 14
    (fun s v => let p := bitsOf (adminArg v 2) 5 0; argBusy (s.partEmpty p) (s.partLive p))
    (fun s v =>
      let p := bitsOf (adminArg v 2) 5 0
      s.setPart p { Table.getD s.partitions p {} with hostBase := adminArg v 0, hostLen := adminArg v 1, hostBound := true }) s

/-- Whether a paired queue uses a peer link. -/
def State.linkUsed (s : State) (link : Nat) : Bool := s.queues.any fun r => r.2.pair.enabled && r.2.pair.link == link

/-- BIND_PEER. -/
def execBindPeer (s : State) : Result :=
  admin 15
    (fun s v => let k := bitsOf (adminArg v 2) 3 0; argBusy (!(Table.getD s.peers k {}).up) (s.linkUsed k))
    (fun s v =>
      let a := adminArg v 2
      let l : PeerLink := { up := true, paired := true, part := bitsOf a 9 4, pasid := bitsOf a 31 16 }
      { s with peers := Table.put s.peers (bitsOf a 3 0) l }) s

end Sys2Proof.Machine
end

