-- ==== Sys2Proof/Machine/Gangs.lean ====
section
/-! DEFINITION. Placement of gangs (spec/14_sys_swap.md R343, R344, R360, R434, spec/16_prog_preempt.md R375,
spec/13_sys_queues.md R322, R323) and the messages of eviction, swap-in, migration and killing, each with what its receiver does
(spec/12_sys_isa.md R282, R290 to R296, spec/14_sys_swap.md R351 to R361, spec/13_sys_queues.md R327, R328, R334,
spec/18_sys_determinism_debug.md R400, R401). -/

namespace Sys2Proof.Machine

/-! ### Taking a message -/

/-- Whether a type goes to a tile: it acts on arrival there or waits for SVRECV (R296, R356). -/
def toTile (type : Nat) : Bool := [1, 4, 5, 6, 7, 0xA, 0x70].contains type

/-- Message k of the Flue when it is of a type, at a receiver of that type, and the first of its sender and receiver, taken: a link
message leaves a permit owed (R333), and what stood behind one that acts on arrival at a tile may join the tile's supervisor queue
(R296). What stands behind a RESUME joins after it. -/
def State.flueAt (s : State) (k type : Nat) : Option (FlueMsg × State) :=
  match s.flue[k]? with
  | some m =>
    if m.type == type && Nat.blt m.dst 0x40000 == toTile type && !(s.flue.take k).any (fun x => x.src == m.src && x.dst == m.dst) then
      let s' := ({ s with flue := s.flue.eraseIdx k } : State).owePermit m
      some (m, if toTile type && type != 5 then s'.admitQueued m.dst s.flue.length else s')
    else none
  | none => none

/-- The launch index of a payload. -/
def FlueMsg.idx (m : FlueMsg) : Nat := bitsOf m.payload.toNat 15 0

/-- The gang or vtile of a payload. -/
def FlueMsg.gang (m : FlueMsg) : Nat := bitsOf m.payload.toNat 39 16

/-- The region of a Stoker's DEST code. -/
def regionOfCode (c : Nat) : Nat := c - 0x40000

/-- A payload of a launch index, a gang or vtile, and higher bits. -/
def gangPayload (idx gang hi : Nat) : Nat := idx % 2 ^ 16 + gang % 2 ^ 24 * 2 ^ 16 + hi * 2 ^ 40

/-! ### Regions of a gang -/

/-- The vtiles of a gang on tiles of a region, with their sites. -/
def Gang.inRegion (g : Gang) (r : Nat) : List (Nat × Nat) := g.sites.filter fun x => regionOf x.2 == r

/-- The regions that hold tiles of a gang. -/
def Gang.regions (g : Gang) : List Nat := (g.sites.map fun x => regionOf x.2).eraseDups

/-- The regions of a partition. -/
def State.partRegions (s : State) (part : Nat) : List Nat :=
  (List.range 64).filter fun r => (Table.getD s.partitions part {}).regions.getLsbD r

/-- Waits for an answer of some regions to a step of a gang, and sends each region's Stoker a message. -/
def State.askRegions (s : State) (idx gang phase type payload : Nat) (regions : List Nat) : State :=
  let s := s.modGang idx gang fun g => { g with phase, awaiting := regions }
  regions.foldl (fun s r => s.toStoker r type payload) s

/-- A region has answered. -/
def State.answered (s : State) (idx gang region : Nat) : State :=
  s.modGang idx gang fun g => { g with awaiting := g.awaiting.erase region }

/-- Whether a gang still takes part in a step: its launch is live and it has not retired. -/
def State.gangIn (s : State) (idx gang phase : Nat) : Bool :=
  s.isLive idx && ((s.launch idx).gang gang).phase == phase && ((s.launch idx).gang gang).state != .retired

/-- The threads of a tile as a mask. -/
def Tile.threadMask (t : Tile) : BitVec 8 :=
  BitVec.ofNat 8 ((List.finRange 8).foldl (fun n k => n + t.slots[k].thread.toNat * 2 ^ k.val) 0)

/-- Whether every slot that a mask expects has reported. -/
def Tile.reported (t : Tile) : Bool :=
  match t.packMask with
  | some m => m &&& ~~~t.savedMask == 0
  | none => false

/-! ### Messages at a tile (R282, R296, R352, R353, R400) -/

/-- A PEND bit set in every slot that runs a thread, with the value its cause writes to TVAL. -/
def Tile.pendAll (t : Tile) (b : Fin 6) (v : Word) : Tile :=
  { t with slots := t.slots.map fun sl =>
      if sl.thread then { sl with pend := sl.pend ||| (1#6 <<< b.val), pendVal := sl.pendVal.set b v } else sl }

/-- PREEMPT: the interface is sealed, the dispatcher stops, every thread gets cause 17, the sender sums are written out
(R406) and PACK names the threads. An interface that still delivers its parked entries is sealed once it has (R352). A tile that no longer holds the vtile answers that nothing ran. -/
def execPreempt (k : Nat) (s : State) : Result :=
  match s.flueAt k 0x01 with
  | none => .next s
  | some (m, s) =>
    let site := m.dst
    let t := s.tile site
    if (t.occ.map (·.1)) != some m.idx then
      .next (s.flueSend site (stokerCode (regionOf site)) 0x72 0 0)
    else
      let s := s.flushSums site
      let t := s.tile site
      let t' := { t.pendAll 1 m.payload with
        ni := if t.ni == .direct then .sealed else t.ni, sealing := t.ni != .direct, nodisp := true, savedMask := 0 }
      .next ((s.setTile site t').flueSend site (stokerCode (regionOf site)) 0x72 0 (t.threadMask.setWidth 64))

/-- DEBUGSTOP: every thread gets cause 19. -/
def execDebugstop (k : Nat) (s : State) : Result :=
  match s.flueAt k 0x04 with
  | none => .next s
  | some (m, s) => .next (s.setTile m.dst ((s.tile m.dst).pendAll 3 m.payload))

/-- RESUME: it waits for SVRECV; the dispatcher starts again, and an interface that is sealed and has not spilled accepts
directly (R295, R352). A QUIESCE that has not landed still lands (R400). -/
def execResume (k : Nat) (s : State) : Result :=
  match s.flueAt k 0x05 with
  | none => .next s
  | some (m, s') =>
    let t := s'.tile m.dst
    if Nat.ble 8 t.svq.length then .next s
    else .next ((s'.setTile m.dst
      { t with svq := t.svq ++ [m], nodisp := false, sealing := false,
               ni := if t.ni == .sealed then .direct else t.ni }).admitQueued m.dst s.flue.length)

/-- WDKILL: the dispatcher stops and every thread gets cause 18; for a slot that a double fault has stopped the interface
answers at once (R285). -/
def execWdkill (k : Nat) (s : State) : Result :=
  match s.flueAt k 0x06 with
  | none => .next s
  | some (m, s) =>
    let site := m.dst
    let t := s.tile site
    let s := s.setTile site { t.pendAll 2 m.payload with nodisp := true }
    .next ((List.finRange 8).foldl (fun s j =>
      if t.slots[j].thread && t.slots[j].wait == .dead then
        s.flueSend site (stokerCode (regionOf site)) 0x09 0 (BitVec.ofNat 64 j.val)
      else s) s)

/-- RESTORE: the dispatcher stops and every slot whose record holds THREAD = 1 gets cause 20 (R295, R296, R355). -/
def execRestore (k : Nat) (s : State) : Result :=
  match s.flueAt k 0x07 with
  | none => .next s
  | some (m, s) =>
    let t := s.tile m.dst
    let p := (s.launch t.name.1).pkt
    let held (k : Fin 8) : Bool := Nat.blt k.val p.records && t.recThread (p.recordAt k.val)
    let mark (k : Fin 8) : Slot :=
      let sl := t.slots[k]
      if sl.loading || held k then { sl with pend := sl.pend ||| 0x20#6, pendVal := sl.pendVal.set 5 m.payload } else sl
    .next (s.setTile m.dst { t with nodisp := true, slots := Vector.ofFn mark })

/-- QUIESCE: the dispatcher stops; the stop lands once no activation runs. -/
def execQuiesce (k : Nat) (s : State) : Result :=
  match s.flueAt k 0x0A with
  | none => .next s
  | some (m, s) =>
    let t := s.tile m.dst
    let note (sl : Slot) : Slot := { sl with pendVal := sl.pendVal.set 3 m.payload }
    .next (s.setTile m.dst { t with nodisp := true, quiesce := true, slots := t.slots.map note })

/-- QUIESCE_LANDING: no activation runs, and every resident thread gets cause 19 (R400), those of a fresh tile once they have started. -/
def execQuiesceLanding (site : Nat) (s : State) : Result :=
  let t := s.tile site
  if t.quiesce && !t.fresh && (t.guarded || t.slots.toList.all fun sl => !sl.thread || sl.res) then
    let mark (sl : Slot) : Slot := if sl.thread then { sl with pend := sl.pend ||| 0x08#6 } else sl
    .next (s.setTile site { t with quiesce := false, slots := t.slots.map mark })
  else .next s

/-- PDELIV: delivery of the parked entries starts (R353). -/
def execPdeliv (k : Nat) (s : State) : Result :=
  match s.flueAt k 0x70 with
  | none => .next s
  | some (m, s) =>
    let t := s.tile m.dst
    .next (s.setTile m.dst { t with
      ni := if t.ni == .append || t.ni == .spill then .delivering else t.ni, pdone := false })

/-! ### Eviction (R357) -/

/-- The address of the image of a vtile of a gang. -/
def Launch.imageAt (l : Launch) (gang vt : Nat) : Nat :=
  (l.gang gang).image + (vt - gang * 2 ^ l.pkt.ganglog) * imageBytes

/-- Images allocated for a gang at its first eviction: IMG of every placement entry (R338, R344). -/
def State.allocImages (s : State) (idx gang base : Nat) : State :=
  let l := s.launch idx
  if (l.gang gang).image != 0 then s
  else
    let s := s.modGang idx gang fun g => { g with image := base }
    let l := s.launch idx
    (l.gangVts gang).foldl (fun s vt => s.setPt l vt 59 24 (l.imageAt gang vt / 4096)) s

/-- Whether images of a gang can stand at an address, or stand already. -/
def State.imageRoom (s : State) (idx gang base : Nat) : Bool :=
  let l := s.launch idx
  (l.gang gang).image != 0
    || (base != 0 && base % 4096 == 0 && Nat.ble (base + l.gangSize gang * imageBytes) Config.hbmBytes)

/-- Step 1: an eviction of a resident gang begins. -/
def State.evictGang (s : State) (idx gang base : Nat) (preempted : Bool) : State :=
  let s := s.allocImages idx gang base
  let now := s.tb.toNat
  let s := s.modGang idx gang fun g => { g with state := .saving, preempted := if preempted then some now else none }
  let s := s.setLaunch idx { s.launch idx with evictions := (s.launch idx).evictions + 1 }
  s.askRegions idx gang 1 0x61 (gangPayload idx gang 0) ((s.launch idx).gang gang).regions

/-- Steps 2 and 3 in a region: with every slot of every tile saved, the entries read ABSENT and SAVEDP goes. -/
def State.checkSaved (s : State) (idx gang region : Nat) : State :=
  let l := s.launch idx
  let g := l.gang gang
  let xs := g.inRegion region
  if s.gangIn idx gang 1 && g.state == .saving && g.awaiting.contains region && xs.all fun x => (s.tile x.2).reported then
    let s := xs.foldl (fun s x => s.setPtState l x.1 0) s
    s.toCollier region 0x62 (gangPayload idx gang 0)
  else s

/-- EVICT: the Stoker sends PREEMPT to each tile of the gang in its region. -/
def execEvict (k : Nat) (s : State) : Result :=
  match s.flueAt k 0x61 with
  | none => .next s
  | some (m, s) =>
    let r := regionOfCode m.dst
    let xs := ((s.launch m.idx).gang m.gang).inRegion r
    let s := xs.foldl (fun s x =>
      (s.setTile x.2 { s.tile x.2 with packMask := none, savedMask := 0 }).flueSend m.dst x.2 0x01 0 (BitVec.ofNat 64 m.idx)) s
    .next (s.checkSaved m.idx m.gang r)

/-- The launch and gang that a site belongs to in the Collier's books. -/
def State.gangAt (s : State) (site : Nat) : Option (Nat × Nat) :=
  (s.assigned site).map fun nm => (nm.1, (s.launch nm.1).gangOf nm.2)

/-- PACK: the Stoker learns which slots of a tile will save themselves. -/
def execPack (k : Nat) (s : State) : Result :=
  match s.flueAt k 0x72 with
  | none => .next s
  | some (m, s) =>
    let site := m.src
    let t := s.tile site
    let s := if t.occ.isSome then s.setTile site { t with packMask := some (m.payload.setWidth 8) } else s
    let r := regionOf site
    .next (s.launches.foldl (fun s l => (List.range l.2.gangs.length).foldl (fun s j => s.checkSaved l.1 j r) s) s)

/-- Whether a site is the old one of a migration. -/
def State.moving (s : State) (site : Nat) : Bool := s.moves.any fun m => m.old == site

/-- The vtiles of a launch that have neither retired nor stand on a tile. -/
def State.absentVts (s : State) (idx : Nat) : List Nat :=
  let l := s.launch idx
  (List.range l.gangs.length).flatMap fun j => (l.gangVts j).filter fun vt =>
    !(l.gang j).retiredVts.contains vt && !(l.gang j).sites.any fun x => x.1 == vt && (s.tile x.2).occ == some (idx, vt)

/-- A break of a launch with STOPALL: the vtiles that stand on tiles get QUIESCE, the absent ones are to be stopped when they are next
placed (R401). -/
def State.stopEvery (s : State) (idx : Nat) : State :=
  let l := s.launch idx
  let away := s.absentVts idx
  let s := s.setLaunch idx { l with toStop := l.toStop.filter (fun vt => !away.contains vt) ++ away }
  l.gangs.foldl (fun s g => g.sites.foldl (fun s x =>
    if (s.tile x.2).occ == some (idx, x.1) then
      s.flueSend (stokerCode (regionOf x.2)) x.2 0x0A 0 (BitVec.ofNat 64 idx)
    else s) s) s

/-- SAVED: a slot has saved itself. Outside an eviction and a migration it is a BREAK of a held launch, which the Stoker
relays to the session; with STOPALL the whole launch is stopped (R401). -/
def execSaved (k : Nat) (s : State) : Result :=
  match s.flueAt k 0x02 with
  | none => .next s
  | some (m, s) =>
    let site := m.src
    let t := s.tile site
    let b := m.payload.toNat % 8
    let s := s.setTile site { t with savedMask := t.savedMask ||| (1#8 <<< b) }
    match t.occ with
    | none => .next s
    | some (idx, vt) =>
      let l := s.launch idx
      let g := l.gangOf vt
      if (l.gang g).state == .saving then .next (s.checkSaved idx g (regionOf site))
      else if s.moving site || !l.held || t.slots[(Fin.ofNat 8 b : Fin 8)].cause.extractLsb' 0 8 != 14 then .next s
      else
        let s := { s with speig := { s.speig with breaks := s.speig.breaks ++ [(idx, vt, b)] } }
        .next (if l.stopAll then s.stopEvery idx else s)

/-- SAVEDP: with the last one the name caches of the partition are purged of the gang (step 4). A failure kills the launch (R328, R357;
log entry 22, DEDUCED). -/
def execSavedp (k : Nat) (s : State) : Result :=
  match s.flueAt k 0x62 with
  | none => .next s
  | some (m, s) =>
    if !s.gangIn m.idx m.gang 1 then .next s
    else if m.payload.getLsbD 40 then .next (s.killLaunch m.idx 5 0)
    else
      let s := s.answered m.idx m.gang (regionOfCode m.src)
      let l := s.launch m.idx
      if (l.gang m.gang).awaiting.isEmpty then
        .next (s.askRegions m.idx m.gang 2 0x63 (gangPayload m.idx (m.gang * 2 ^ l.pkt.ganglog) l.pkt.ganglog) (s.partRegions l.part))
      else .next s

/-- NCREQ: the Stoker executes NCINV over its region; it answers once every packet that a site of it sent under the key
has been performed. -/
def execNcreq (k : Nat) (s : State) : Result :=
  match s.flueAt k 0x63 with
  | none => .next s
  | some (m, s') =>
    let r := regionOfCode m.dst
    let sites := (s.rowsOf r).map (·.1)
    let key := bitsOf m.payload.toNat 44 40
    if s.sentUnder sites m.idx m.gang key then .next s
    else .next ((s'.forgetAt sites m.idx m.gang key).toCollier r 0x64 m.payload.toNat)

/-- The tiles of some sites are free again; one that was to go leaves service (R421). -/
def State.vacate (s : State) (sites : List Nat) : State :=
  sites.foldl (fun s x => (s.setTile x (s.tile x).vacated).reportLeft x) s

/-- Step 6: an eviction is done; R351 is applied to the ring, and a summon that was kept is served. -/
def State.evicted (s : State) (idx gang : Nat) : State :=
  let l := s.launch idx
  let g := l.gang gang
  let r := s.ring idx gang
  let pending := g.summoned || !r.entries.isEmpty
  let s := s.modGang idx gang fun g => { g with state := .absent, phase := 0, summoned := false, awaiting := [] }
  let s := s.storeRing idx gang { r with summoned := !r.entries.isEmpty && r.summoned }
  let p := Table.getD s.partitions l.part {}
  if pending && !p.summons.contains (idx, gang) then
    { s with partitions := Table.put s.partitions l.part { p with summons := p.summons ++ [(idx, gang)] } }
  else s

/-- NCDONE: with the last one of a step the Collier goes on with SWAPOUT, with OPEN, or with OPEN of a migrated vtile. -/
def execNcdone (k : Nat) (s : State) : Result :=
  match s.flueAt k 0x64 with
  | none => .next s
  | some (m, s) =>
    let l := s.launch m.idx
    let j := l.gangOf m.gang
    if !s.isLive m.idx then .next s
    else
      let s := s.answered m.idx j (regionOfCode m.src)
      let g := (s.launch m.idx).gang j
      if !g.awaiting.isEmpty then .next s
      else if g.phase == 2 && g.state == .saving then
        let s := s.modGang m.idx j fun g => { g with state := .flushing }
        if g.regions.isEmpty then .next (s.evicted m.idx j)
        else .next (s.askRegions m.idx j 3 0x65 (gangPayload m.idx j 0) g.regions)
      else if g.phase == 5 && g.state == .loading then
        let s := if j == 0 then s.startReplay m.idx else s
        .next (s.askRegions m.idx j 6 0x69 (gangPayload m.idx j 0) g.regions)
      else if g.phase == 7 then
        match s.moves.find? fun x => x.idx == m.idx && x.vt == m.gang with
        | some x =>
          let s := s.modGang m.idx j fun g => { g with phase := 0 }
          .next (s.toStoker (regionOf x.new) 0x69 (gangPayload m.idx m.gang 1))
        | none => .next s
      else .next s

/-- Whether the colour that a tile injects under has drained there (R298). -/
def Tile.drained (t : Tile) : Bool := t.inFlight t.colour == 0

/-- SWAPOUT: the Stoker drains the gang's colour, writes each image, and reports once every tile was quiescent; an image that could not
be written is a failure (R347, R356, R357). -/
def execSwapout (k : Nat) (s : State) : Result :=
  match s.flueAt k 0x65 with
  | none => .next s
  | some (m, s') =>
    let r := regionOfCode m.dst
    let l := s.launch m.idx
    let xs := (l.gang m.gang).inRegion r
    if !s.gangIn m.idx m.gang 3 then .next s'
    else if xs.all fun x => (s.tile x.2).drained && (s.tile x.2).quiescent s.cycle then
      let out (acc : State × Bool) (x : Nat × Nat) : State × Bool :=
        let y := acc.1.swapOut x.2 (l.imageAt m.gang x.1)
        (y.1, acc.2 || y.2 != 0)
      let y := xs.foldl out (s', false)
      .next (y.1.toCollier r 0x66 (gangPayload m.idx m.gang y.2.toNat))
    else .next s

/-- EVICTED: the region's tiles are free; with the last one the gang is ABSENT. A failure kills the launch (log entry 22, DEDUCED). -/
def execEvicted (k : Nat) (s : State) : Result :=
  match s.flueAt k 0x66 with
  | none => .next s
  | some (m, s) =>
    let r := regionOfCode m.src
    if !s.gangIn m.idx m.gang 3 then .next s
    else if m.payload.getLsbD 40 then .next (s.killLaunch m.idx 5 0)
    else
      let xs := ((s.launch m.idx).gang m.gang).inRegion r
      let s := s.vacate (xs.map (·.2))
      let s := s.modGang m.idx m.gang fun g => { g with sites := g.sites.filter fun x => regionOf x.2 != r }
      let s := s.answered m.idx m.gang r
      if ((s.launch m.idx).gang m.gang).awaiting.isEmpty then .next (s.evicted m.idx m.gang) else .next s

/-! ### Placement (R343, R359, R434) -/

/-- The site at a position of the order of R343. -/
def siteAtKey (key : Nat) : Nat :=
  let r := key / 4096
  let sub := key / 256 % 16
  let p := key % 256
  (r / 8 * 64 + sub / 4 * 16 + p / 16) * 512 + r % 8 * 64 + sub % 4 * 16 + p % 16

/-- Whether a tile is free: good, without a vtile, and in no gang's and no migration's books. -/
def State.isFree (s : State) (site : Nat) : Bool :=
  let t := s.tile site
  t.isGood && t.occ.isNone && !s.moves.any (fun m => m.old == site || m.new == site)
    && !s.launches.any fun l => l.2.gangs.any fun g => g.sites.any fun x => x.2 == site

/-- The free tiles of a partition in the order of R343. -/
def State.freeTiles (s : State) (part : Nat) : List Nat :=
  (s.partRegions part).flatMap fun r => ((List.range 4096).map fun i => siteAtKey (r * 4096 + i)).filter s.isFree

/-- Where gang j of a launch starts in a list of F free tiles. -/
def placeStart (seed : Word) (j f : Nat) : Nat :=
  let v := seed + 0x9E3779B97F4A7C15#64 * BitVec.ofNat 64 (1 + j)
  let v := (v ^^^ (v >>> 30)) * 0xBF58476D1CE4E5B9#64
  let v := (v ^^^ (v >>> 27)) * 0x94D049BB133111EB#64
  let v := v ^^^ (v >>> 31)
  (v >>> 32).toNat * f / 2 ^ 32

/-- The sites of the live vtiles of a gang, where the free tiles suffice. -/
def State.placementOf (s : State) (idx gang : Nat) : Option (List (Nat × Nat)) :=
  let l := s.launch idx
  let free := s.freeTiles l.part
  let n := l.gangSize gang
  if n == 0 || Nat.blt free.length n then none
  else
    let start := placeStart l.pkt.seed gang free.length
    let at_ (o : Nat) : Nat := free.getD ((start + o) % free.length) 0
    some (((List.range n).map fun o => (gang * 2 ^ l.pkt.ganglog + o, at_ o)).filter fun x =>
      !(l.gang gang).retiredVts.contains x.1)

/-- Step 1 of R359: a gang is placed on sites. A gang that has never been resident is loaded fresh. -/
def State.placeGang (s : State) (idx gang : Nat) (sites : List (Nat × Nat)) : State :=
  let fresh := ((s.launch idx).gang gang).state == .unplaced
  let s := s.modGang idx gang fun g => { g with state := .loading, sites }
  let l := s.launch idx
  let s := sites.foldl (fun s x => s.setPt l x.1 17 0 x.2) s
  let p := Table.getD s.partitions l.part {}
  let s := { s with partitions := Table.put s.partitions l.part { p with summons := p.summons.filter (· != (idx, gang)) } }
  s.askRegions idx gang 4 0x67 (gangPayload idx gang fresh.toNat) ((s.launch idx).gang gang).regions

/-- The launches of a partition that may start and have vtiles (R322): one stays among them until it has started. -/
def State.heads (s : State) (part : Nat) : List (Nat × Launch) :=
  s.launches.filter fun r => r.2.part == part && r.2.pkt.kind == 1 && s.mayStart r.1

/-- Whether the first gang of a launch waits for tiles. -/
def Launch.wantsTiles (l : Launch) : Bool := (l.gang 0).state == .unplaced

/-- The hardware queue slot of a launch. -/
def State.slotOf (s : State) (l : Launch) : Nat := (((Table.get? s.queues l.queue).bind (·.slot)).getD 0)

/-- The head launch of a partition: the lowest PRIO value, then one that is being placed, then slots in round-robin order after the
one last served, then creation. -/
def State.head (s : State) (part : Nat) : Option (Nat × Launch) :=
  let last := (Table.getD s.partitions part {}).lastSlot
  let key (l : Launch) : Nat := ((l.pkt.prio * 2 + l.wantsTiles.toNat) * 512 + (s.slotOf l + 511 - last) % 512) * 2 ^ 64 + l.order
  (s.heads part).foldl (fun b r =>
    match b with
    | some x => if Nat.blt (key r.2) (key x.2) then some r else some x
    | none => some r) none

/-- The pre-empted gangs of a partition that wait to return, with no summon pending (R375): PRIO, time of eviction,
launch, gang. -/
def State.returning (s : State) (part : Nat) : List (Nat × Nat × Nat × Nat) :=
  (s.launches.filter fun r => r.2.part == part && r.2.killed.isNone).flatMap fun r =>
    (List.range r.2.gangs.length).filterMap fun j =>
      let g := r.2.gang j
      match g.state, g.preempted with
      | .absent, some e =>
        if (Table.getD s.partitions part {}).summons.contains (r.1, j) then none else some (r.2.pkt.prio, e, r.1, j)
      | _, _ => none

/-- Whether an eviction runs in a partition. -/
def State.evicting (s : State) (part : Nat) : Bool :=
  s.launches.any fun r => r.2.part == part && r.2.gangs.any fun g => g.state == .saving || g.state == .flushing

/-- Whether the head launch goes before the gangs that return: rows 2 and 3 of R434. -/
def State.headFirst (s : State) (part : Nat) (l : Launch) : Bool :=
  (s.returning part).all fun x => Nat.blt l.pkt.prio x.1

/-- Whether the summons of a partition are served. -/
def State.noSummons (s : State) (part : Nat) : Bool := (Table.getD s.partitions part {}).summons.isEmpty

/-- Whether the head launch of a partition may be placed now (R434): row 2, and row 4 once no pre-empted gang of row 3 waits, which is
when every one that waits has a larger PRIO value. -/
def State.headTurn (s : State) (part : Nat) (l : Launch) : Bool := s.noSummons part && s.headFirst part l

/-- Whether a launch that a replay may force has its turn: no other such launch of its queue is being placed, so that the next unread
segment is its own (R391; log entry 55, DEDUCED). -/
def State.replayTurn (s : State) (idx : Nat) : Bool :=
  let l := s.launch idx
  let replays (l : Launch) : Bool :=
    l.pkt.det && ((Table.get? s.queues l.queue).map fun q => q.olog.mode == 2) == some true
  !replays l || !s.launches.any fun r =>
    r.1 != idx && r.2.queue == l.queue && replays r.2 && r.2.waiting && r.2.killed.isNone && !r.2.wantsTiles

/-- LAUNCH_START: the first gang of the head launch is placed. -/
def execLaunchStart (idx : Nat) (s : State) : Result :=
  let l := s.launch idx
  match s.head l.part with
  | some (i, _) =>
    if i != idx || !l.wantsTiles || s.halted || !s.headTurn l.part l || !s.replayTurn idx then .next s
    else
      match s.placementOf idx 0 with
      | some sites =>
        let p := Table.getD s.partitions l.part {}
        .next (({ s with partitions := Table.put s.partitions l.part { p with lastSlot := s.slotOf l } } : State).placeGang idx 0 sites)
      | none => .next s
  | none => .next s

/-- Whether a gang waits for row 5: of a started launch, on no tiles, neither summoned nor waiting to return (R434; log
entry 21, DEDUCED). -/
def State.row5 (s : State) (idx gang : Nat) : Bool :=
  let l := s.launch idx
  let g := l.gang gang
  l.started.isSome && l.killed.isNone && Nat.blt gang l.gangs.length
    && (g.state == .unplaced || (g.state == .absent && g.preempted.isNone))

/-- Whether a gang of row 5 is the first of its row in its partition. -/
def State.first5 (s : State) (idx gang : Nat) : Bool :=
  let l := s.launch idx
  let key (i j : Nat) : Nat :=
    let x := s.launch i
    ((x.pkt.prio * 2 ^ 64 + x.started.getD 0) * 2 ^ 64 + x.order) * 2 ^ 25 + j
  (s.launches.filter fun r => r.2.part == l.part).all fun r =>
    (List.range r.2.gangs.length).all fun j => !s.row5 r.1 j || Nat.ble (key idx gang) (key r.1 j)

/-- GANG_PLACEMENT: row 5 of R434, while no earlier row waits. -/
def execGangPlacement (idx gang : Nat) (s : State) : Result :=
  let l := s.launch idx
  if s.halted || !s.row5 idx gang || !s.first5 idx gang || !s.noSummons l.part
      || ((s.head l.part).any fun h => h.2.wantsTiles) || !(s.returning l.part).isEmpty then .next s
  else
    match s.placementOf idx gang with
    | some sites => .next (s.placeGang idx gang sites)
    | none => .next s

/-- Whether a pre-empted gang that waits meets both conditions of R375: free tiles suffice, and no launch of a smaller PRIO value that
may start waits for tiles. -/
def State.mayReturn (s : State) (part : Nat) (x : Nat × Nat × Nat × Nat) : Bool :=
  (s.placementOf x.2.2.1 x.2.2.2).isSome && !(s.heads part).any fun r => r.2.wantsTiles && Nat.blt r.2.pkt.prio x.1

/-- PRE_EMPTED_GANG_RETURN: of the gangs that meet the conditions, the one evicted earliest (R375). -/
def execPreEmptedGangReturn (idx gang : Nat) (s : State) : Result :=
  let part := (s.launch idx).part
  let rs := (s.returning part).filter (s.mayReturn part)
  match rs.find? fun x => x.2.2 == (idx, gang), s.placementOf idx gang with
  | some x, some sites =>
    if s.halted || !(rs.all fun y => Nat.ble x.2.1 y.2.1) || !s.noSummons part then .next s
    else .next (s.placeGang idx gang sites)
  | _, _ => .next s

/-- Whether the residency slices of a gang have run out. -/
def State.sliceOver (s : State) (g : Gang) : Bool := g.sites.all fun x => Nat.ble (s.tile x.2).qslice s.clock

/-- The gang to evict: the largest PRIO value, and among equals the earliest residency, of those that a test admits and whose images
can be allocated (R344). -/
def State.victim (s : State) (part imgbase : Nat) (admits : Launch → Gang → Bool) : Option (Nat × Nat) :=
  let cs := (s.launches.filter fun r => r.2.part == part && r.2.killed.isNone).flatMap fun r =>
    (List.range r.2.gangs.length).filterMap fun j =>
      let g := r.2.gang j
      if g.state == .resident && g.phase == 0 && !(s.moves.any fun m => m.idx == r.1 && r.2.gangOf m.vt == j) && s.imageRoom r.1 j imgbase && admits r.2 g then
        some (r.2.pkt.prio, g.since, r.1, j)
      else none
  (cs.foldl (fun b x =>
    match b with
    | some y => if Nat.blt y.1 x.1 || (x.1 == y.1 && Nat.blt x.2.1 y.2.1) then some x else some y
    | none => some x) none).map fun x => x.2.2

/-- PRE_EMPTION: the Collier evicts one gang of a launch of worse PRIO to make room for the head launch, while its first
gang does not fit and nothing is being evicted (R322). -/
def execPreEmption (part imgbase : Nat) (s : State) : Result :=
  match s.head part with
  | none => .next s
  | some (idx, l) =>
    if s.halted || !l.wantsTiles || s.evicting part || (s.placementOf idx 0).isSome then .next s
    else
      match s.victim part imgbase fun x _ => Nat.blt l.pkt.prio x.pkt.prio with
      | some (i, j) => .next (s.evictGang i j imgbase true)
      | none => .next s

/-- SUMMON_SERVICE: the oldest summon of a partition takes free tiles; where they do not suffice one gang of worse PRIO,
or of equal PRIO with its slice over and without KEEPALIVE, is evicted (R360). -/
def execSummonService (part imgbase : Nat) (s : State) : Result :=
  let p := Table.getD s.partitions part {}
  match p.summons with
  | [] => .next s
  | (idx, gang) :: rest =>
    let l := s.launch idx
    let g := l.gang gang
    if s.halted then .next s
    else if !s.isLive idx || !(g.state == .unplaced || g.state == .absent) then
      .next { s with partitions := Table.put s.partitions part { p with summons := rest } }
    else
      match s.placementOf idx gang with
      | some sites => .next (s.placeGang idx gang sites)
      | none =>
        if s.evicting part then .next s
        else
          match s.victim part imgbase fun x g => Nat.blt l.pkt.prio x.pkt.prio
              || (x.pkt.prio == l.pkt.prio && !x.pkt.keepalive && s.sliceOver g) with
          | some (i, j) => .next (s.evictGang i j imgbase false)
          | none => .next s

/-- SUMMON: a gang without tiles waits to be served; in an eviction the summon is kept (R345). -/
def execSummon (k : Nat) (s : State) : Result :=
  match s.flueAt k 0x60 with
  | none => .next s
  | some (m, s) =>
    if !s.isLive m.idx then .next s
    else
      let l := s.launch m.idx
      let p := Table.getD s.partitions l.part {}
      match (l.gang m.gang).state with
      | .unplaced | .absent =>
        if p.summons.contains (m.idx, m.gang) then .next s
        else .next { s with partitions := Table.put s.partitions l.part { p with summons := p.summons ++ [(m.idx, m.gang)] } }
      | .saving | .flushing => .next (s.modGang m.idx m.gang fun g => { g with summoned := true })
      | .loading | .resident | .retired => .next s

/-- QSLICE_EXPIRY: the slice of a resident gang has run out, and its tiles read 0 (R359). -/
def execQsliceExpiry (idx gang : Nat) (s : State) : Result :=
  let g := (s.launch idx).gang gang
  if s.halted || g.state != .resident || !s.sliceOver g then .next s
  else .next (g.sites.foldl (fun s x => s.setTile x.2 { s.tile x.2 with qslice := 0 }) s)

/-! ### Swap-in (R295, R347, R359) -/

/-- The lowest colour of a residency that reads zero at some sites. -/
def State.freeColour (s : State) (sites : List Nat) : Nat :=
  ((List.range 15).find? fun c => sites.all fun x => (s.tile x).inFlight c == 0).getD 0

/-- Some vtiles of a launch on their sites take a colour, and their entries read PRESENT. -/
def State.present (s : State) (l : Launch) (xs : List (Nat × Nat)) : State :=
  let c := s.freeColour (xs.map (·.2))
  xs.foldl (fun s x =>
    ((s.setTile x.2 { s.tile x.2 with colour := c }).setPt l x.1 23 20 c).setPtState l x.1 1) s

/-- Step 2 in a region: with every restored slot reported, the tiles are PRESENT and LOADEDP goes. -/
def State.checkLoaded (s : State) (idx gang region : Nat) : State :=
  let l := s.launch idx
  let g := l.gang gang
  let xs := g.inRegion region
  let done (t : Tile) : Bool := t.packMask.isNone || t.reported
  if s.gangIn idx gang 4 && g.state == .loading && g.awaiting.contains region
      && xs.all fun x => (s.tile x.2).occ == some (idx, x.1) && done (s.tile x.2) then
    (s.present l xs).toCollier region 0x68 (gangPayload idx gang 0)
  else s

/-- A tile filled from an image: the slots to restore are awaited, and RESTORE is sent. -/
def State.restoreAt (s : State) (idx site : Nat) : State :=
  let t := s.tile site
  (s.setTile site { t with packMask := some t.threadMask, savedMask := 0 }).flueSend (stokerCode (regionOf site)) site 0x07 0
    (BitVec.ofNat 64 idx)

/-- Whether the core supply of a site's sub-region is gated. -/
def State.gatedAt (s : State) (site : Nat) : Bool := (s.stoker (regionOf site)).sgate.getLsbD (subRegionOf site)

/-- PLACE: the Stoker loads each tile of the gang in its region, fresh or from its image. It waits for gated sub-regions
to be ungated; a load that fails is reported. -/
def execPlace (k : Nat) (s : State) : Result :=
  match s.flueAt k 0x67 with
  | none => .next s
  | some (m, s') =>
    let r := regionOfCode m.dst
    let l := s.launch m.idx
    let xs := (l.gang m.gang).inRegion r
    let fresh := m.payload.getLsbD 40
    if !s.gangIn m.idx m.gang 4 then .next s'
    else if xs.any fun x => s.gatedAt x.2 then .next s
    else
      let load (acc : State × Bool) (x : Nat × Nat) : State × Bool :=
        let y := acc.1.swapIn x.2 (if fresh then 0 else l.imageAt m.gang x.1)
        (if y.2 == 0 && !fresh then y.1.restoreAt m.idx x.2 else y.1, acc.2 && y.2 == 0)
      let y := xs.foldl load (s', true)
      if y.2 then .next (y.1.checkLoaded m.idx m.gang r)
      else .next (y.1.toCollier r 0x68 (gangPayload m.idx m.gang 1))

/-- RESTORED: a slot has restored itself. -/
def execRestored (k : Nat) (s : State) : Result :=
  match s.flueAt k 0x08 with
  | none => .next s
  | some (m, s) =>
    let t := s.tile m.src
    let s := s.setTile m.src { t with savedMask := t.savedMask ||| (1#8 <<< (m.payload.toNat % 8)) }
    match s.gangAt m.src with
    | some (idx, g) => .next (s.checkLoaded idx g (regionOf m.src))
    | none => .next s

/-- LOADEDP: with the last one the name caches of the partition are purged of the gang; a failure kills the launch (log
entry 22, DEDUCED). -/
def execLoadedp (k : Nat) (s : State) : Result :=
  match s.flueAt k 0x68 with
  | none => .next s
  | some (m, s) =>
    if !s.gangIn m.idx m.gang 4 then .next s
    else if m.payload.getLsbD 40 then .next (s.killLaunch m.idx 5 0)
    else
      let s := s.answered m.idx m.gang (regionOfCode m.src)
      let l := s.launch m.idx
      if (l.gang m.gang).awaiting.isEmpty then
        .next (s.askRegions m.idx m.gang 5 0x63 (gangPayload m.idx (m.gang * 2 ^ l.pkt.ganglog) l.pkt.ganglog) (s.partRegions l.part))
      else .next s

/-- OPEN: the Stoker starts delivery at each tile of the gang in its region, or at the new tile of a migrated vtile, whose
old tile loses its forwarding entry and is free. -/
def execOpenGang (k : Nat) (s : State) : Result :=
  match s.flueAt k 0x69 with
  | none => .next s
  | some (m, s) =>
    let r := regionOfCode m.dst
    let start (s : State) (site : Nat) : State :=
      (s.setTile site { s.tile site with opening := true }).flueSend m.dst site 0x70 0 0
    if m.payload.getLsbD 40 then
      match s.moves.find? fun x => x.idx == m.idx && x.vt == m.gang with
      | some x => .next (start (s.vacate [x.old]) x.new)
      | none => .next s
    else if !s.gangIn m.idx m.gang 6 then .next s
    else .next ((((s.launch m.idx).gang m.gang).inRegion r).foldl (fun s x => start s x.2) s)

/-- A vtile that has been placed: one that a break found absent is stopped (R401), and a tile that held threads gets RESUME behind
that. -/
def State.resumeAt (s : State) (idx site : Nat) : State :=
  let from_ := stokerCode (regionOf site)
  let t := s.tile site
  let l := s.launch idx
  let s := if l.toStop.contains t.name.2 then
      (s.setLaunch idx { l with toStop := l.toStop.filter (· != t.name.2) }).flueSend from_ site 0x0A 0 (BitVec.ofNat 64 idx)
    else s
  if t.packMask.isNone then s
  else (s.setTile site { s.tile site with packMask := none, savedMask := 0 }).flueSend from_ site 0x05 0 (BitVec.ofNat 64 idx)

/-- PDONE: with the last one of the gang in its region, or of a migrated vtile, the Stoker resumes the tiles and reports
PLACED. -/
def execPdone (k : Nat) (s : State) : Result :=
  match s.flueAt k 0x71 with
  | none => .next s
  | some (m, s) =>
    let site := m.src
    let r := regionOf site
    let t := s.tile site
    if !t.opening then .next s
    else
      let s := s.setTile site { t with opening := false }
      match s.moves.find? fun x => x.new == site with
      | some x =>
        let s := { s.resumeAt x.idx site with moves := s.moves.filter fun y => y.new != site }
        .next (s.toCollier r 0x6A (gangPayload x.idx x.vt 1))
      | none =>
        match s.gangAt site with
        | none => .next s
        | some (idx, j) =>
          let xs := ((s.launch idx).gang j).inRegion r
          if xs.any fun x => (s.tile x.2).opening then .next s
          else .next ((xs.foldl (fun s x => s.resumeAt idx x.2) s).toCollier r 0x6A (gangPayload idx j 0))

/-- PLACED: with the last one the gang is RESIDENT, its slices begin, and with its first gang the launch starts. -/
def execPlaced (k : Nat) (s : State) : Result :=
  match s.flueAt k 0x6A with
  | none => .next s
  | some (m, s) =>
    if m.payload.getLsbD 40 || !s.gangIn m.idx m.gang 6 then .next s
    else
      let s := s.answered m.idx m.gang (regionOfCode m.src)
      let g := (s.launch m.idx).gang m.gang
      if !g.awaiting.isEmpty then .next s
      else
        let now := s.tb.toNat
        let gone := g.retiredVts.length == (s.launch m.idx).gangSize m.gang
        let s := s.modGang m.idx m.gang fun g =>
          { g with state := if gone then .retired else .resident, phase := 0, since := now, preempted := none }
        let s := g.sites.foldl (fun s x => s.setTile x.2 { s.tile x.2 with qslice := s.clock + 100000 }) s
        .next (s.startLaunch m.idx)

/-! ### Migration (R361) -/

/-- The address of the image of a vtile that migrates. -/
def Launch.moveImage (l : Launch) (idx vt : Nat) : Nat :=
  if (l.gang (l.gangOf vt)).image != 0 then l.imageAt (l.gangOf vt) vt else 4096 * Config.migrationPage idx vt

/-- Step 2 and the beginning of step 3: the old tile has saved itself and drained; its image goes to the new one. With it, whether both
have succeeded: an image that cannot be written is not loaded, and a code image that fails its checks has been reported (R155). -/
def State.carryOver (s : State) (x : Move) : State × Bool :=
  let a := (s.launch x.idx).moveImage x.idx x.vt
  let out := s.swapOut x.old a
  if out.2 != 0 then (out.1, false)
  else
    let in_ := out.1.swapIn x.new a
    if in_.2 != 0 then (in_.1, false)
    else ((in_.1.setTile x.new { in_.1.tile x.new with qslice := (s.tile x.old).qslice }).restoreAt x.idx x.new, true)

/-- Step 4: the new tile is PRESENT, and the old one forwards. -/
def State.installMove (s : State) (x : Move) : State :=
  let l := s.launch x.idx
  let s := s.setPt l x.vt 17 0 x.new
  let s := s.present l [(x.vt, x.new)]
  let s := s.setForward x.old (some x.new)
  s.modGang x.idx (l.gangOf x.vt) fun g => { g with sites := g.sites.map fun y => if y.1 == x.vt then (x.vt, x.new) else y }

/-- MIGRATE: the Stoker moves a vtile to a free tile of its region, whose core supply it first brings back where that is gated (R411),
stage by stage. It ends where the vtile retires before the old tile has saved itself, and an image that cannot be written or loaded is
reported as a failure. -/
def execMigrate (k : Nat) (s : State) : Result :=
  match s.flueAt k 0x6B with
  | none => .next s
  | some (m, s') =>
    let idx := m.idx
    let vt := m.gang
    let r := regionOfCode m.dst
    let new := bitsOf m.payload.toNat 57 40
    let l := s.launch idx
    let g := l.gang (l.gangOf vt)
    match s.moves.find? fun x => x.idx == idx && x.vt == vt with
    | none =>
      match g.sites.find? fun x => x.1 == vt with
      | some (_, old) =>
        if g.state != .resident || g.phase != 0 || regionOf old != r || regionOf new != r || !s.isFree new then .next s'
        else
          let mv : Move := { idx, vt, old, new, phase := 0 }
          let s : State := { s.supply new with moves := s.moves ++ [mv] }
          let s := s.setTile old { s.tile old with packMask := none, savedMask := 0 }
          .next (s.flueSend m.dst old 0x01 0 (BitVec.ofNat 64 idx))
      | none => .next s'
    | some x =>
      let next (s : State) (p : Nat) : State :=
        { s with moves := s.moves.map fun y => if y.idx == idx && y.vt == vt then { y with phase := p } else y }
      let t := s.tile x.old
      if x.phase == 0 then
        if t.occ != some (idx, vt) then .next { s' with moves := s'.moves.filter fun y => !(y.idx == idx && y.vt == vt) }
        else if t.reported && t.drained && t.quiescent s.cycle then
          match s.carryOver x with
          | (s, true) => .next (next s 1)
          | (_, false) => .next ((next (s'.carryOver x).1 2).toCollier r 0x6C (gangPayload idx vt 1))
        else .next s
      else if x.phase == 1 then
        if (s.tile x.new).reported then
          .next (((next (s'.installMove x) 2)).toCollier r 0x6C (gangPayload idx vt 0))
        else .next s
      else .next s'

/-- MOVED: the name caches of the partition are purged of the vtile (step 5). A failure kills the launch (R328, R421; log entry 22,
DEDUCED). -/
def execMoved (k : Nat) (s : State) : Result :=
  match s.flueAt k 0x6C with
  | none => .next s
  | some (m, s) =>
    if !s.isLive m.idx then .next s
    else if m.payload.getLsbD 40 then .next (s.killLaunch m.idx 5 0)
    else
      let l := s.launch m.idx
      .next (s.askRegions m.idx (l.gangOf m.gang) 7 0x63 (gangPayload m.idx m.gang 0) (s.partRegions l.part))

/-! ### Stops and kills (R291, R327, R328, R334, R421) -/

/-- FAULTSTOP: the Stoker takes CAUSE and the two messages behind it, and reports the stop; that of an eviction under way ends as a
failure (R357). A third stop with cause 11 within 24 hours marks the tile (R421). -/
def execFaultstop (k : Nat) (s : State) : Result :=
  match s.flueAt k 0x03 with
  | none => .next s
  | some (m, s') =>
    let mine (x : FlueMsg) : Bool := x.type == 0x03 && x.src == m.src && x.dst == m.dst
    match s'.flue.filter mine with
    | tv :: pc :: _ =>
      let t := s'.tile m.src
      let code := m.payload.toNat % 256
      let s := { s' with flue := (s'.flue.erase tv).erase pc }
      let s := if code == 11 then s.setTile m.src { t with eccStops := t.eccStops ++ [s.tb.toNat] } else s
      match t.occ with
      | some (idx, vt) =>
        let cause := if m.tag == 31 then 31 else code
        let s := s.toCollier (regionOf m.src) 0x44 (gangPayload idx vt (cause % 256 + pc.payload.toNat % 65536 * 256))
        let j := (s.launch idx).gangOf vt
        .next (if ((s.launch idx).gang j).state == .saving then s.toCollier (regionOf m.src) 0x62 (gangPayload idx j 1) else s)
      | none => .next s
    | _ => .next s

/-- FAULT: the first stop is recorded, and the launch is killed. -/
def execFaultReport (k : Nat) (s : State) : Result :=
  match s.flueAt k 0x44 with
  | none => .next s
  | some (m, s) =>
    if (Table.get? s.launches m.idx).isNone then .next s
    else
      let cause := bitsOf m.payload.toNat 47 40
      let pc := bitsOf m.payload.toNat 63 48
      let s := s.count m.idx fun g =>
        if g.stops == 0 then { g with stops := 1, fcause := cause, fvtile := m.gang, fepc := pc } else { g with stops := g.stops + 1 }
      .next (if s.isLive m.idx then s.killLaunch m.idx 5 0 else s)

/-- KILLED: a slot has taken its kill. -/
def execKilled (k : Nat) (s : State) : Result :=
  match s.flueAt k 0x09 with
  | none => .next s
  | some (m, s) =>
    let t := s.tile m.src
    .next (s.setTile m.src { t with savedMask := t.savedMask ||| (1#8 <<< (m.payload.toNat % 8)) })

/-- Whether every thread of a tile has taken its kill; a slot that an image load holds runs nothing. -/
def Tile.killed (t : Tile) : Bool :=
  (List.finRange 8).all fun k => !t.slots[k].thread || t.slots[k].loading || t.savedMask.getLsbD k.val

/-- Whether a tile is to be retired after a reset: the reset fails, or the third stop with cause 11 within 24 hours. -/
def Tile.toRetire (t : Tile) (now : Nat) : Bool :=
  t.reloadFails || Nat.ble 3 (t.eccStops.filter fun x => Nat.blt now (x + 86400000000000)).length

/-- A tile is reset after a kill; one that is to be retired leaves service. -/
def State.clearTile (s : State) (site : Nat) : State :=
  let t := s.tile site
  let s := s.resetTile site
  if t.toRetire s.tb.toNat || t.condemned then s.reportBad site else s

/-- KILL: the Stoker sends WDKILL to the launch's tiles of its region, waits for KILLED, resets the tiles, purges the name caches of the
launch and reports what the tiles have counted before KILLDONE (R327, R334). -/
def execKill (k : Nat) (s : State) : Result :=
  match s.flueAt k 0x41 with
  | none => .next s
  | some (m, s') =>
    let r := regionOfCode m.dst
    let rows := (s.rowsOf r).filter fun x => (x.2.occ.map (·.1)) == some m.idx
    let sites := (s.rowsOf r).map (·.1)
    if rows.any fun x => !x.2.killSent then
      .next (rows.foldl (fun s x =>
        (s.setTile x.1 { s.tile x.1 with killSent := true, savedMask := 0 }).flueSend m.dst x.1 0x06 0 (BitVec.ofNat 64 m.idx)) s)
    else if rows.all (fun x => x.2.killed) && !s.sentUnder sites m.idx 0 24 then
      let s := (rows.map (·.1)).foldl State.clearTile s'
      .next (((s.forgetAt sites m.idx 0 24).sendStats r m.idx).toCollier r 0x42 (gangPayload m.idx rows.length 0))
    else .next s

/-- KILLDONE: the region's tiles are free. -/
def execKilldone (k : Nat) (s : State) : Result :=
  match s.flueAt k 0x42 with
  | none => .next s
  | some (m, s) =>
    match Table.get? s.launches m.idx with
    | none => .next s
    | some l =>
      let r := regionOfCode m.src
      let out (g : Gang) : Gang := { g with sites := g.sites.filter fun x => regionOf x.2 != r }
      .next (s.setLaunch m.idx { l with killAwait := l.killAwait.erase r, gangs := l.gangs.map out })

/-- RETIRE: the Collier learns of retired vtiles; their tiles joined the free list as they retired. -/
def execRetireReport (k : Nat) (s : State) : Result :=
  match s.flueAt k 0x43 with
  | none => .next s
  | some (_, s) => .next s

/-- STATS: a counter of a launch's error log grows. -/
def execStats (k : Nat) (s : State) : Result :=
  match s.flueAt k 0x45 with
  | none => .next s
  | some (m, s) => .next (s.count m.idx fun g => g.bump (bitsOf m.payload.toNat 31 16) (bitsOf m.payload.toNat 63 32))

/-- IMAGEBAD: the launch is rejected with IMAGE_FORMAT. -/
def execImagebad (k : Nat) (s : State) : Result :=
  match s.flueAt k 0x46 with
  | none => .next s
  | some (m, s) => .next (if s.isLive m.idx then s.killLaunch m.idx 2 9 else s)

/-- PERMIT: permits return to their sender. -/
def execPermitReturn (k : Nat) (s : State) : Result :=
  match s.flueAt k 0x40 with
  | none => .next s
  | some (_, s) => .next s

end Sys2Proof.Machine
end

