-- ==== Sys2Proof/Machine/Wafer.lean ====
section
/-! DEFINITION. Bring-up, retirement, power gating, supply droop, thermal alerts, timers, interrupts, links and the writes of
device registers as steps of their own (spec/19_sys_wafer.md R409 to R424, spec/20_prog_thermal.md R427, spec/12_sys_isa.md
R278, R309, R310, spec/18_sys_determinism_debug.md R398, R407). -/

namespace Sys2Proof.Machine

/-! ### Bring-up (R416) -/

/-- The sites of a sub-region, numbered 16 x region + k (R409). -/
def subSites (n : Nat) : List Nat :=
  (List.range 256).map fun p => siteIn (n / 16) ((n % 16 / 4 * 16 + p / 16) * 64 + n % 4 * 16 + p % 16)

/-- Changes a Stoker's core. -/
def State.modStoker (s : State) (region : Nat) (f : Core → Core) : State :=
  { s with stokers := Table.put s.stokers region (f (s.stoker region)) }

/-- Step 3: the Stokers start with the image of Amizhabo; one whose image does not verify does not run. -/
def State.bootStoker (unverified : List Nat) (image : List Byte) (s : State) (region : Nat) : State :=
  s.modStoker region fun c =>
    if unverified.contains region then { c with noBoot := true }
    else { c with running := true, mem := Memory.write c.mem 0 image.length (bytesToNat image) }

/-- Step 4: the good map of a region. -/
def State.mapRegion (s : State) (region : Nat) : State :=
  s.modStoker region fun c => { c with mem := Memory.write c.mem goodMapBase 512 (2 ^ 4096 - 1) }

/-- A tile that the scan test or the fuse map finds bad. -/
def State.condemn (s : State) (site : Nat) : State :=
  (s.setTile site { s.tile site with good := false }).markGood site false

/-- A sub-region whose supply test shows a short is fused off (R412). -/
def State.fuseOff (s : State) (n : Nat) : State :=
  let s := s.modStoker (n / 16) fun c => { c with sfuse := c.sfuse ||| (1#16 <<< (n % 16)) }
  (subSites n).foldl (fun s x => (s.setTile x { s.tile x with good := false, fused := true }).markGood x false) s

/-- A tile taken out of service in the field (R421). -/
def State.retireSite (s : State) (site : Nat) : State :=
  let t := s.tile site
  if t.retired then s
  else
    let s := { s with retirements := s.retirements + 1 }.setTile site { t with retired := true, good := false }
    (s.markGood site false).regrade

/-- Step 6: the system segment is in every tile, and idle sub-regions are gated. -/
def State.loadSystem (s : State) (sys : List Half) : State :=
  let seg := sys.take Config.sysHalfwords
  { s with sysImage := seg, tiles := s.tiles.map fun r => (r.1, { r.2 with sysSeg := seg }) }

/-- Gates the sub-regions of a region that are idle and not fused off. -/
def State.gateIdle (s : State) (region : Nat) : State := s.writeSgate region (~~~(s.stoker region).sfuse)

/-- The partition number of queue 0, which belongs to none (R311). -/
def noPartition : Nat := 64

/-- Queue 0 as it exists from bring-up on, in hardware slot 0 (R311; log entry 18, DESIGN CHOICE). -/
def Queue.admin : Queue :=
  { base := Config.adminBase, log := Config.adminLog.val + 4, headptr := Config.adminHead, fn := 0, bucket := 0, part := noPartition,
    asid := 0, head := 0, tail := 0, state := .active, slot := some 0, mappedAt := 0, olog := {}, pair := {} }

/-- Steps 2 and 3 at the Collier: a verified image of Amizhabo stands in its local memory and runs there from its first halfword on
(log entry 61, DEDUCED); with one that does not verify nothing of it runs, and Speig alone reaches the module. -/
def State.bootCollier (s : State) (romOk : Bool) (image : List Byte) : State :=
  if romOk then
    { s with
      image
      collier := { s.collier with
        th := { thread := true, sys := true }, mem := Memory.write s.collier.mem 0 image.length (bytesToNat image) } }
  else { s with boot := 1, bootFailed := true, collier := { s.collier with running := false } }

/-- BRING_UP: the sequence of R416 for a module that finds the given state of itself: whether the boot image verifies, the
regions whose Stoker's image does not, the bad sites, the shorted sub-regions, the sites that fail to load, the memory
stacks that fail to train, and the image of Amizhabo and its system segment. The mapping passes begin at the first multiple of
1,000,000 ticks behind it (R325). -/
def execBringUp (romOk : Bool) (unverified bad shorted unloaded untrained : List Nat) (image : List Byte) (sys : List Half)
    (s : State) : Result :=
  if s.boot != 0 || s.bootFailed then .next s
  else if !romOk then .next (s.bootCollier false image)
  else
    let regions := List.range 64
    let s := regions.foldl (State.bootStoker unverified image) (s.bootCollier true image)
    let s := regions.foldl State.mapRegion s
    let s := (bad.filter fun x => Nat.blt x Config.sites).foldl State.condemn s
    let s := (shorted.filter fun n => Nat.blt n 1024).foldl State.fuseOff s
    let s := { s with untrained, directory := Config.directory, asidTable := Config.asidTable }
    let s := s.loadSystem sys
    let s := (unloaded.filter fun x => Nat.blt x Config.sites).foldl State.retireSite s
    let s := regions.foldl State.gateIdle s
    .next { s.setQueue 0 Queue.admin with boot := 7, passes := s.tb.toNat / 1000000, refills := s.tb.toNat / 1000 }

/-! ### Retirement (R421) -/

/-- RETIRE_TILE: the Collier takes a tile out of service and recomputes GOOD, CURRENT and REPLACE_REQ, in one action. -/
def execRetireTile (k : Nat) (s : State) : Result :=
  match s.flueAt k 0x82 with
  | none => .next s
  | some (m, s) => .next (s.retireSite (m.payload.toNat % Config.sites))

/-- A tile fails its self-test (R421). It is to leave service: at once where it is free, and else when its vtile has left. A vtile of
a resident gang is migrated to a free tile of the region; where that is not possible the launch is killed, but for a vtile that
is leaving already (log entry 62, DEDUCED). -/
def State.selfTestFails (s : State) (site : Nat) : State :=
  let t := s.tile site
  if t.retired || t.condemned || !t.isGood || Nat.ble Config.sites site then s
  else
    let s := s.setTile site { t with condemned := true }
    match s.assigned site with
    | none => if t.occ.isNone then s.reportBad site else s
    | some (idx, vt) =>
      let l := s.launch idx
      let g := l.gang (l.gangOf vt)
      if g.state == .saving || g.state == .flushing || s.moves.any (fun m => m.old == site) || !s.isLive idx then s
      else
        match ((List.range 4096).map (siteIn (regionOf site))).find? s.isFree with
        | some new =>
          if g.state == .resident && g.phase == 0 && !s.moves.any (fun m => m.idx == idx && m.vt == vt) then
            s.toStoker (regionOf site) 0x6B (gangPayload idx vt new)
          else s.killLaunch idx 5 0
        | none => s.killLaunch idx 5 0

/-! ### Power (R410, R411, R423) -/

/-- Whether a gang that is being placed has a site in a sub-region. -/
def State.placingIn (s : State) (region sub : Nat) : Bool :=
  s.launches.any fun l => l.2.gangs.any fun g => g.state == .loading &&
    g.sites.any fun x => regionOf x.2 == region && subRegionOf x.2 == sub

/-- SUBREGION_UNGATE: a placement brings back the core supply of a gated sub-region: its tiles are reset. -/
def execSubregionUngate (region : Nat) (sub : Fin 16) (s : State) : Result :=
  let c := s.stoker region
  if c.sgate.getLsbD sub.val && s.placingIn region sub.val then
    .next ((s.modStoker region fun c => { c with sgate := c.sgate &&& ~~~(1#16 <<< sub.val) }).ungate region sub.val)
  else .next s

/-- SGATE_WRITE. -/
def execSgateWrite (region : Nat) (val : BitVec 16) (s : State) : Result := .next (s.writeSgate region val)

/-- DROOP_STRETCH: the supply of a sub-region falls below 0.66 V; the stretch is counted. -/
def execDroopStretch (region : Nat) (sub : Fin 16) (s : State) : Result :=
  .next (s.modStoker region fun c =>
    if c.stretch.getLsbD sub.val then c
    else { c with stretch := c.stretch ||| (1#16 <<< sub.val), droop := satInc c.droop })

/-- DROOP_RECOVERY: the clock is nominal again. -/
def execDroopRecovery (region : Nat) (sub : Fin 16) (s : State) : Result :=
  .next (s.modStoker region fun c => { c with stretch := c.stretch &&& ~~~(1#16 <<< sub.val) })

/-! ### Thermal (R418, R419) -/

/-- THR_DUTY_WRITE: not taken while the region's link has no permit. -/
def execThrDutyWrite (region : Nat) (val : Word) (s : State) : Result :=
  match s.writeDuty region val.toNat with
  | some s' => .next s'
  | none => .next s

/-- THROTTLE: the Stoker sets the duty of every sub-region of its region and answers with the same payload. -/
def execThrottle (k : Nat) (s : State) : Result :=
  match s.flueAt k 0x80 with
  | none => .next s
  | some (m, s) =>
    let r := regionOfCode m.dst
    .next ((s.setDuty r 0xFFFF (bitsOf m.payload.toNat 20 16)).toCollier r 0x81 m.payload.toNat)

/-- THROTTLED: the duty is confirmed. -/
def execThrottled (k : Nat) (s : State) : Result :=
  match s.flueAt k 0x81 with
  | none => .next s
  | some (m, s) =>
    let r := regionOfCode m.src
    .next (s.setTherm r { s.therm r with applied := bitsOf m.payload.toNat 20 16, pend := false })

/-- A sensor's reading: VALID is set, and the trip follows it. -/
def RegionThermal.sample (x : RegionThermal) (crit temp : BitVec 12) : RegionThermal := { x with temp, valid := true }.judged crit

/-- SENSOR_SAMPLE: a reading that crosses upward to WARN sets the region's ALERT bit, and source 3 becomes pending when the
bit was clear. -/
def execSensorSample (region : Nat) (temp : BitVec 12) (s : State) : Result :=
  let x := s.therm region
  let s := s.setTherm region (x.sample s.snsCrit temp)
  if Nat.blt x.temp.toNat s.snsWarn.toNat && Nat.ble s.snsWarn.toNat temp.toNat && Nat.blt region 64 then .next (s.crossing region)
  else .next s

/-! ### Timers and interrupts (R309, R310, R427) -/

/-- TIMERCMP_WRITE. -/
def execTimercmpWrite (who : Agent) (val : Word) (s : State) : Result := .next (s.writeTimer who val)

/-- TIMER_MATCH. -/
def execTimerMatch (who : Agent) (s : State) : Result := .next (s.timerTick who)

/-- INTERRUPT_ENTRY. -/
def execInterruptEntry (who : Agent) (s : State) : Result :=
  if s.interrupted who then .next (s.takeInterrupt who) else .next s

/-! ### Other registers (R278, R407, R420) -/

/-- OVRH_WRITE: VALID 0 empties the overwrite record, VALID 1 is ignored. -/
def execOvrhWrite (site : Nat) (slot : Fin 8) (val : Word) (s : State) : Result :=
  let t := s.tile site
  .next (s.setTile site (t.setSlot slot ((t.slots[slot].ctlSet 0x205 val).getD t.slots[slot])))

/-- RXU_INVALIDATE_PAGE: not taken while an invalidation runs. -/
def execRxuInvalidatePage (asid page : Nat) (s : State) : Result :=
  if s.rxuBusy then .next s else .next (s.rxuInvalidate asid (some page))

/-- RXU_INVALIDATE_ALL: not taken while an invalidation runs. -/
def execRxuInvalidateAll (asid : Nat) (s : State) : Result :=
  if s.rxuBusy then .next s else .next (s.rxuInvalidate asid none)

/-- RXU_INVALIDATE_DONE. -/
def execRxuInvalidateDone (s : State) : Result := .next { s with rxuBusy := false }

/-- CAPTURE_SELECT. -/
def execCaptureSelect (region : Nat) (val : Word) (s : State) : Result := .next (s.captureSelect region val.toNat)

/-- CAPTURE_CLEAR. -/
def execCaptureClear (region : Nat) (s : State) : Result :=
  .next (s.modStoker region fun c => { c with cap := c.cap.clear })

/-! ### The halt tree (R398) -/

/-- HALT_ACKNOWLEDGE: the last acknowledgement arrives: HALTT gets its tick and source 5 becomes pending. -/
def execHaltAcknowledge (s : State) : Result :=
  if s.haltDriven then
    let th := s.collier.th
    let tick (f : Flight) : Flight :=
      if s.haltIds.contains f.id then { f with due := some s.cycle, val := s.tb } else f
    let s := s.setCore .collier { s.collier with th := { th with flights := th.flights.map tick } }
    .next ({ s with haltDriven := false, haltIds := [] }.raise .collier 5)
  else .next s

/-! ### Links and lockstep (R424) -/

/-- Whether a job moves over a peer link. -/
def CopyJob.onPeer (j : CopyJob) (link : Nat) : Bool :=
  let crosses (p : Word) : Bool := ptrSpace p == 3 && (regionAt 0 p 0 0).index == link + 1
  crosses j.src || crosses j.dst

/-- PEER_LINK_DOWN: the copy jobs on the link meet a failed transaction, and its pairing stops (log entry 23, DEDUCED). -/
def execPeerLinkDown (link : Fin 16) (s : State) : Result :=
  let l := Table.getD s.peers link.val {}
  let fail (j : CopyJob) : CopyJob := if j.onPeer link.val && !j.written then j.fail 8 else j
  .next { s with
    peers := Table.put s.peers link.val { l with up := false, paired := false }
    tiles := s.tiles.map fun r => (r.1, { r.2 with jobs := r.2.jobs.map fail }) }

/-- LOCKSTEP_MISMATCH: both Collier cores stop, the wafer halts, LOCKERR is set and AER signalled. -/
def execLockstepMismatch (s : State) : Result :=
  .next { s.driveHalt true with
    collier := { (s.driveHalt true).collier with running := false }
    lockerr := true, aer := true }

end Sys2Proof.Machine
end

