-- ==== Sys2Proof/Machine/Debug.lean ====
section
/-! DEFINITION. The Speig port, trace and capture configuration, and replica pairing
(spec/18_sys_determinism_debug.md R393, R394, R397, R398, R400 to R407). -/

namespace Sys2Proof.Machine

/-! ### Sessions (R402) -/

/-- The reply to a Speig command: its data, or a refusal. -/
def State.reply (s : State) (op : Nat) (data : List Byte) : State :=
  { s with speig := { s.speig with op, reply := data, refused := false } }

/-- A command is refused. -/
def State.refuse (s : State) (op : Nat) : State := { s with speig := { s.speig with op, reply := [], refused := true } }

/-- The header of the reply frame: [7:0] OP, [15:8] status, [31:16] length of the data, [63:32] tag of the command (R402). The status
is 0, or 1 for a refusal (log entry 56, DESIGN CHOICE). -/
def State.replyHeader (s : State) : Word :=
  BitVec.ofNat 64 (s.speig.op % 2 ^ 8 + s.speig.refused.toNat * 2 ^ 8 + s.speig.reply.length % 2 ^ 16 * 2 ^ 16) ||| s.speigTag.setWidth 64 <<< 32

/-- A command of an open session, by its OP: refused without one, or where its condition does not hold. -/
def speig (op : Nat) (ok : State → Nat → Bool) (effect : State → State) (s : State) : Result :=
  match s.speig.session with
  | some part => if ok s part then .next ((effect s).reply op []) else .next (s.refuse op)
  | none => .next (s.refuse op)

/-- Whether a launch index is live in a partition. -/
def State.inPart (s : State) (part idx : Nat) : Bool := s.isLive idx && (s.launch idx).part == part

/-- The site that a vtile of a launch occupies. -/
def State.occupied (s : State) (idx vt : Nat) : Option Nat :=
  (s.tiles.find? fun r => r.2.occ == some (idx, vt)).map (·.1)

/-- Whether a tile's vtile is stopped: every thread of it idles in SYS mode. -/
def Tile.isStopped (t : Tile) : Bool :=
  t.occ.isSome && t.slots.toList.all (fun sl => !sl.thread || (sl.sys && sl.wait == .idle))
    && t.slots.toList.any fun sl => sl.thread

/-- Whether a vtile of the session's partition stands on a tile. -/
def State.reachable (s : State) (part idx vt : Nat) : Bool := s.inPart part idx && (s.occupied idx vt).isSome

/-- A Stoker's message to the tile of a vtile. -/
def State.tellTile (s : State) (idx vt type : Nat) : State :=
  match s.occupied idx vt with
  | some site => s.flueSend (stokerCode (regionOf site)) site type 0 (BitVec.ofNat 64 idx)
  | none => s

/-- Whether a vtile stands on a tile and is stopped. -/
def State.stoppedVt (s : State) (idx vt : Nat) : Bool :=
  match s.occupied idx vt with
  | some site => (s.tile site).isStopped
  | none => false

/-- SPEIG_OPEN: a signed command opens the one session. -/
def execSpeigOpen (part : Nat) (sigOk : Bool) (s : State) : Result :=
  if sigOk && s.speig.session.isNone then .next { s with speig := { session := some part, op := 1 } } else .next (s.refuse 1)

/-- Whether the stop of a vtile on a tile is made or under way: a QUIESCE or DEBUGSTOP on its way or not landed, cause 19 pending, or a
thread in SYS mode by a debug stop or a break (R282, R290, R400). -/
def State.stopping (s : State) (idx vt : Nat) : Bool :=
  match s.occupied idx vt with
  | some site =>
    let t := s.tile site
    t.isStopped || t.quiesce || (s.flue.any fun m => m.dst == site && (m.type == 0x0A || m.type == 0x04))
      || t.slots.toList.any fun sl => sl.thread && (sl.pend.getLsbD 3
        || (sl.sys && [14, 19].contains (sl.cause.extractLsb' 0 8).toNat))
  | none => false

/-- The image of a vtile that is away, without the stop it holds: no QUIESCE that has not landed, and no PEND bit of cause 19 in a save
record. -/
def State.unstopImage (s : State) (l : Launch) (a : Nat) (r : SwapRest) : State :=
  let clear (m : Memory) (k : Nat) : Memory :=
    let at_ := a + l.pkt.recordAt k + 0xBF0
    let v := Memory.read m at_ 8
    Memory.write m at_ 8 (v - bitsOf v 59 59 * 2 ^ 59)
  { s with hbm := (List.range l.pkt.records).foldl clear s.hbm, images := Table.put s.images a { r with quiesce := false } }

/-- A held launch is released and resumed: each vtile whose stop is made or under way gets RESUME, and one that is away stops no more
(R402). -/
def State.letGo (s : State) (idx : Nat) : State :=
  let l := s.launch idx
  let s := s.setLaunch idx { l with held := false, stopAll := false, toStop := [] }
  let s := (s.images.filter fun r => (r.2.owner.map (·.1)) == some idx).foldl (fun s r => s.unstopImage l r.1 r.2) s
  l.gangs.foldl (fun s g => g.sites.foldl (fun s x => if s.stopping idx x.1 then s.tellTile idx x.1 0x05 else s) s) s

/-- SPEIG_CLOSE: every held launch is released and resumed, and the session ends. -/
def execSpeigClose (s : State) : Result :=
  match s.speig.session with
  | some _ =>
    let held := (s.launches.filter fun r => r.2.held).map (·.1)
    .next { held.foldl State.letGo s with speig := { op := 2 } }
  | none => .next (s.refuse 2)

/-- SPEIG_HALT. -/
def execSpeigHalt (s : State) : Result := speig 3 (fun _ _ => true) (fun s => s.driveHalt true) s

/-- SPEIG_RESUME. -/
def execSpeigResume (s : State) : Result := speig 4 (fun _ _ => true) (fun s => s.driveHalt false) s

/-- ATTACH: with BREAK the launch is held (R401). -/
def execAttach (idx : Nat) (brk stopAll : Bool) (s : State) : Result :=
  speig 5 (fun s p => s.inPart p idx) (fun s => s.setLaunch idx { s.launch idx with held := brk, stopAll }) s

/-- DETACH: the launch is released. -/
def execDetach (idx : Nat) (s : State) : Result :=
  speig 6 (fun s p => s.inPart p idx) (fun s =>
    s.setLaunch idx { s.launch idx with held := false, stopAll := false, toStop := [] }) s

/-- PSTOP: QUIESCE to one vtile. -/
def execPstop (idx vtile : Nat) (s : State) : Result :=
  speig 7 (fun s p => s.reachable p idx vtile) (fun s => s.tellTile idx vtile 0x0A) s

/-- DSTOP: DEBUGSTOP to one vtile. -/
def execDstop (idx vtile : Nat) (s : State) : Result :=
  speig 8 (fun s p => s.reachable p idx vtile) (fun s => s.tellTile idx vtile 0x04) s

/-- CONT: RESUME to one stopped vtile. -/
def execCont (idx vtile : Nat) (s : State) : Result :=
  speig 9 (fun s p => s.reachable p idx vtile && s.stoppedVt idx vtile) (fun s => s.tellTile idx vtile 0x05) s

/-! ### Reading and writing (R402) -/

/-- Bytes read through a session: up to 4 KiB of a stopped vtile's scratchpad, or of rim memory in an ASID of the
partition. -/
def State.peek (s : State) (part : Nat) (tgt : SpeigTarget) (addr len : Nat) : Option Nat :=
  if Nat.blt 4096 len then none
  else
    match tgt with
    | .spad idx vt =>
      match s.occupied idx vt with
      | some site =>
        if s.inPart part idx && (s.tile site).isStopped && Nat.ble (addr + len) Config.spadBytes then
          some (Memory.read (s.tile site).spad addr len)
        else none
      | none => none
    | .hbm asid => if s.partOf asid == some part then s.readVirtual asid addr len else none

/-- SPEIG_READ. -/
def execSpeigRead (tgt : SpeigTarget) (addr len : Nat) (s : State) : Result :=
  match s.speig.session.bind fun p => s.peek p tgt addr len with
  | some v => .next (s.reply 10 (natToBytes len v))
  | none => .next (s.refuse 10)

/-- Bytes written through a session. -/
def State.poke (s : State) (part : Nat) (tgt : SpeigTarget) (addr : Nat) (data : List Byte) : Option State :=
  if Nat.blt 4096 data.length then none
  else
    match tgt with
    | .spad idx vt =>
      match s.occupied idx vt with
      | some site =>
        let t := s.tile site
        if s.inPart part idx && t.isStopped && Nat.ble (addr + data.length) Config.spadBytes then
          some (s.setTile site { t with spad := Memory.write t.spad addr data.length (bytesToNat data) })
        else none
      | none => none
    | .hbm asid =>
      if s.partOf asid == some part && Nat.ble (addr + data.length) (2 ^ 48) then
        match s.performHbm asid (putOp data.length (bytesToNat data) [] addr) addr with
        | (s', .ok _) => some s'
        | (_, .error _) => none
      else none

/-- SPEIG_WRITE. -/
def execSpeigWrite (tgt : SpeigTarget) (addr : Nat) (data : List Byte) (s : State) : Result :=
  match s.speig.session.bind fun p => s.poke p tgt addr data with
  | some s' => .next (s'.reply 11 [])
  | none => .next (s.refuse 11)

/-! ### Trace and capture (R404, R405, R407) -/

/-- Whether a region is one of a partition's. -/
def State.regionIn (s : State) (part region : Nat) : Bool := (s.partRegions part).contains region

/-- TRACECFG: a region's trace ring; the first record of each site behind it is a REBASE. -/
def execTracecfg (region base size : Nat) (s : State) : Result :=
  speig 12 (fun s p => s.regionIn p region) (fun s =>
    { s with
      trace := Table.put s.trace region { base, size, used := 0 }
      tiles := s.tiles.map fun r => (r.1, { r.2 with trRebase := r.2.trRebase || regionOf r.1 == region }) }) s

/-- CAPCFG: CSEL of a region's capture unit. -/
def execCapcfg (region : Nat) (val : Word) (s : State) : Result :=
  speig 13 (fun s p => s.regionIn p region) (fun s => s.captureSelect region val.toNat) s

/-- The registers of a capture unit, in the order of their indices, as bytes. -/
def CaptureUnit.bytes (c : CaptureUnit) : List Byte :=
  (List.range 20).flatMap fun i => natToBytes 8 ((c.get (0x3C0 + i)).getD 0).toNat

/-- CAPREAD: the registers of a region's capture unit. -/
def execCapread (region : Nat) (s : State) : Result :=
  match s.speig.session with
  | some p => if s.regionIn p region then .next (s.reply 14 (s.stoker region).cap.bytes) else .next (s.refuse 14)
  | none => .next (s.refuse 14)

/-! ### Replica pairing (R393, R394) -/

/-- DIGEST_FRAME: the peer's digests for its launch `num` come over a link, and are compared with the queue's own when both
frames are there. -/
def execDigestFrame (link : Fin 16) (q num : Nat) (tag : BitVec 32) (digests : List (BitVec 256)) (s : State) : Result :=
  match Table.get? s.queues q with
  | none => .next s
  | some x =>
    let l := Table.getD s.peers link.val {}
    if x.pair.enabled && x.pair.link == link.val && l.up && l.paired then
      let x := { x with pair := { x.pair with theirs := some (num, tag.toNat, digests) } }
      .next ((s.setQueue q x).compareDigests q x)
    else .next s

/-- PAIR_TIMEOUT: no frame of the peer within the pair timeout: the queue is frozen. -/
def execPairTimeout (q : Nat) (s : State) : Result :=
  match Table.get? s.queues q with
  | none => .next s
  | some x =>
    match x.pair.mine with
    | none => .next s
    | some (k, tag, _, limit) =>
      if Nat.blt s.tb.toNat limit then .next s
      else
        let p : Pairing := { x.pair with mine := none, theirs := none, waiting := false }
        .next ((s.setQueue q { x with state := .frozen, pair := p }).postEvent 9 0 0 q tag (k % 2 ^ 32))

end Sys2Proof.Machine
end

