-- ==== Sys2Proof/Machine/Background.lean ====
section
/-! DEFINITION. What moves beside the current agent when no schedule says otherwise (log entry 2, DESIGN CHOICE): after each instruction at
most one step of the hardware, then the turn of the next slot of the tile. Steps that the firmware or the world outside
decides come by the schedule alone. -/

namespace Sys2Proof.Machine

/-- The steps a packet of the fabric may take. -/
def Packet.steps (p : Packet) (k : Nat) : List (State → Result) :=
  match p.hop, p.dst, p.body with
  | .ring _ _, _, _ => [execParkEntryWrite k]
  | .unresolved, .vtile idx vt, _ => [execNameCacheWalk p.site idx vt]
  | _, .rim, _ => [execHbmRequestArrival k]
  | _, _, .message _ _ => [execMessageArrival k, execCountedMessageArrival k]
  | _, _, .regWrite .. => [execRegisterWriteArrival k]
  | _, _, .request _ _ _ => [execRemoteRequestArrival k]
  | _, _, .reply _ _ _ => [execVarResultArrival k]
  | _, _, .errorReply _ _ _ => [execVarResultArrival k]
  | _, _, .trace _ => []

/-- The step a message to a tile's interface takes. -/
def FlueMsg.steps (m : FlueMsg) (k : Nat) : List (State → Result) :=
  if Nat.ble Config.sites m.dst then []
  else
    match m.type with
    | 0x01 => [execPreempt k]
    | 0x04 => [execDebugstop k]
    | 0x05 => [execResume k]
    | 0x06 => [execWdkill k]
    | 0x07 => [execRestore k]
    | 0x0A => [execQuiesce k]
    | 0x70 => [execPdeliv k]
    | _ => []

/-- The steps of a copy job. -/
def CopyJob.steps (j : CopyJob) (site : Nat) : List (State → Result) :=
  let k := j.ticket.toNat
  [execCopyLineLanding site k, execCopyJobError site k 0, execFollowOnCommand site k, execCopyJobCompletion site k]

/-- The translation that the oldest untranslated packet of an interface waits for. -/
def Tile.walks (t : Tile) (site : Nat) : List (State → Result) :=
  match t.outq.find? fun p => p.hop == .unresolved with
  | some p =>
    match p.dst with
    | .vtile idx vt => [execNameCacheWalk site idx vt]
    | .rim => []
  | none => []

/-- The steps of a tile's engines, interface and dispatcher. -/
def Tile.steps (t : Tile) (site : Nat) : List (State → Result) :=
  t.walks site
  ++ (if t.outq.isEmpty then [] else [execSendInjection site])
  ++ (if t.slots.toList.any (fun sl => sl.mheld.isSome) || !t.jobs.isEmpty then [execMatrixGrant site] else [])
  ++ t.jobs.flatMap (fun j => j.steps site)
  ++ ((List.finRange 4).filter fun k => t.streams[k].isSome).flatMap
      (fun k => [execStreamElementArrival site k, execStreamFetch site k])
  ++ (List.range t.hold.length).map (fun k => execHeldWriteDelivery site k)
  ++ (List.range t.heldReqs.length).map (fun k => execHeldRequestRelease site k)
  ++ (if t.ni == .delivering then [execParkedDelivery site] else [])
  ++ (if t.iqs.toList.all fun q => q.msgs.isEmpty then [] else [execDispatch site])
  ++ (if t.fresh then [execResidentThreadStart site] else [])
  ++ (if t.slots[(0 : Fin 8)].wait == .donef then [execVtileRetire site] else [])
  ++ (if t.quiesce then [execQuiesceLanding site] else [])
  ++ ((List.finRange 8).filter fun k => t.slots[k].wait == .barwait).map (fun k => execBarwaitProbe site k)

/-- The steps that the hardware may take of itself, the fabric's first. -/
def State.steps (s : State) : List (State → Result) :=
  (if s.acks.isEmpty then [] else [execColourAcknowledgement 0])
  ++ s.fabric.zipIdx.flatMap (fun x => x.1.steps x.2)
  ++ s.flue.zipIdx.flatMap (fun x => x.1.steps x.2)
  ++ (if s.rxuBusy then [execRxuInvalidateDone] else [])
  ++ s.tiles.flatMap (fun r => r.2.steps r.1)
  ++ (if s.collier.timerArmed then [execTimerMatch .collier] else [])

/-- The first of some steps that changes the state. -/
def State.firstStep (s : State) : List (State → Result) → State
  | [] => s
  | e :: rest =>
    match e s with
    | .next s' => if s' = s then s.firstStep rest else s'
    | _ => s.firstStep rest

/-- The turn goes to the next slot of the tile that can move. -/
def State.rotate (s : State) : State :=
  match s.cur with
  | .tile site k =>
    match ((List.range 8).map fun i => Fin.ofNat 8 (k.val + 1 + i)).find? fun j =>
        State.mayIssue { s with cur := .tile site j } || s.pendingAt (.tile site j) with
    | some j => { s with cur := .tile site j }
    | none => s
  | _ => s

/-- What the rest of the module does between two instructions. -/
def State.background (s : State) : State := (s.firstStep s.steps).rotate

/-! ### A stopped Collier (R424) -/

/-- The steps that Amizhabo's native work on the Collier takes. -/
def byCollier : Instr → Bool
  | .kernel .. | .marker .. | .childLaunchPacket .. | .launchStart .. | .launchCompletion .. => true
  | .gangPlacement .. | .preEmption .. | .summonService .. | .preEmptedGangReturn .. => true
  | .mappingPass .. | .bucketRefill .. | .watchdogExpiry .. | .pendingErrorWrite .. => true
  | .createQueue .. | .destroyQueue .. | .unfreeze .. | .flush .. | .setBucket .. | .setPartition .. => true
  | .setEventRing .. | .getCounters .. | .setLog .. | .setPair .. | .attest .. | .readmit .. => true
  | .setOwner .. | .bindHost .. | .bindPeer .. | .digestFrame .. | .pairTimeout .. => true
  | .retireTile .. | .killdone .. | .retireReport .. | .faultReport .. | .stats .. | .imagebad .. | .summon .. => true
  | .savedp .. | .ncdone .. | .evicted .. | .loadedp .. | .placed .. | .moved .. => true
  | .thrDutyWrite .. | .rxuInvalidatePage .. | .rxuInvalidateAll .. | .timercmpWrite .collier _ => true
  | _ => false

/-- Whether a step does not come because a lockstep mismatch has stopped both Collier cores (R424), or because the boot image has not
verified (R416). -/
def State.standsStill (s : State) (i : Instr) : Bool := (s.lockerr || s.bootFailed) && byCollier i

end Sys2Proof.Machine
end

