-- ==== Sys2Proof/Machine/Routine.lean ====
section
/-! DEFINITION. The Amizhabo system routine of a tile as R290 and R291 of spec/12_sys_isa.md describe it, for a system segment whose code
no image gives. A slot executes the code of its system segment; where the schedule names the routine instead, the slot does the next
thing that the routine does on its cause (log entry 71, DEDUCED). -/

namespace Sys2Proof.Machine

/-- One thing that the routine does: one of its system instructions, the STOP of R291, the emptying of the overwrite record, or the
IDLE that lasts until RESUME. -/
inductive RoutineAct where
  | saveq
  | restq
  | eret
  | reflect
  | idle
  | send (type : Nat) (payload : Word)
  | stop
  | emptyOverwrite
  | resume
  deriving DecidableEq, Repr

/-- What the routine does on a WDKILL that it finds in an IDLE, and on cause 18 (R290). -/
def killedActs (k : Fin 8) : List RoutineAct := [.send 9 (BitVec.ofNat 64 k.val), .idle]

/-- What the routine of slot k does on the cause of the slot, in order (R290, R291). -/
def routineActs (l : Launch) (sl : Slot) (k : Fin 8) : List RoutineAct :=
  let code := sl.cause.toNat % 256
  let saved := [.saveq, .send 2 (BitVec.ofNat 64 k.val), .resume]
  if code == 17 then saved ++ [.eret]
  else if code == 18 then killedActs k
  else if code == 19 || (code == 14 && l.held) then saved ++ [.restq, .eret]
  else if code == 20 then [.restq, .send 8 (BitVec.ofNat 64 k.val), .resume, .eret]
  else if code == 11 || l.handler 63 == 0xFFFF then [.stop, .send 3 (sl.cause.setWidth 64), .idle]
  else if code == 16 then [.emptyOverwrite, .reflect]
  else [.reflect]

/-- The index of the system segment at which the routine goes on when an IDLE of it finds WDKILL. -/
def killedPc : Half := 16

/-- What the routine does next: it counts what it has done by the index that it stands at. -/
def nextAct (l : Launch) (sl : Slot) (k : Fin 8) : Option RoutineAct :=
  if Nat.ble killedPc.toNat sl.pc.toNat then (killedActs k)[(sl.pc.toNat - killedPc.toNat) / 2]?
  else (routineActs l sl k)[sl.pc.toNat / 2]?

/-- An IDLE of the routine (R290, R301), and where the routine goes on. PEND comes first: on WDKILL the routine clears the bit and goes to
SVSEND KILLED; other bits wait. Then a message is taken, and RESUME ends the IDLE where it is waited for. -/
def routineIdle (here : Half) (resumes : Bool) : M Half := do
  let sl ← getSlot
  if sl.pend.getLsbD 2 then do
    modSlot fun sl => { sl with pend := sl.pend &&& ~~~(1#6 <<< 2) }
    return killedPc
  else do
    let s ← get
    match s.takeMessage with
    | some (m, s') => do
      set s'
      return if resumes && m.type == 5 then here + 2 else here
    | none => throw (.wait .idle)

/-- An act of the routine at an index, by the effect of the instruction that does it, and where the routine goes on. The end check of R169
is no part of it, since the loops of the thread stay as they are (R290). -/
def State.routineAct (s : State) (k : Fin 8) (r : RoutineAct) : Result :=
  let treg := k == 0 && (s.launch (s.tile s.cur.site).name.1).blockReserved
  let here := (s.slot s.cur).pc
  let act (o : Op) (body : M Unit) : Result :=
    issue o (do
      body
      return .jump (here + 2)) s
  let idle (resumes : Bool) : Result :=
    issue (opA 0x3C 8 0 0 0 0) (do
      let pc ← routineIdle here resumes
      return .jump pc) s
  match r with
  | .saveq => act (opA 0x3C 1 0 0 0 treg.toNat) (saveqBody treg)
  | .restq => act (opA 0x3C 2 0 0 0 treg.toNat) (restqBody treg)
  | .eret => execEret 0 0 s
  | .reflect => execEret 0 1 s
  | .idle => idle false
  | .resume => idle true
  | .send type v =>
    act (opA 0x3C 9 0 0 0 0) (svsendBody (BitVec.ofNat 64 (stokerCode (regionOf s.cur.site) + type * 2 ^ 20)) v)
  | .stop => act (opI 0x1A 0 16 0 0x210) (modTile fun t => { t with stop := true })
  | .emptyOverwrite => act (opI 0x1A 0 16 0 0x205) (modSlot fun sl => { sl with ovr := { sl.ovr with valid := false } })

/-- The next act of the routine of a slot in SYS mode that may issue. -/
def State.routineStep (s : State) (site : Nat) (k : Fin 8) : Result :=
  let s := { s with cur := .tile site k }
  let sl := s.slot s.cur
  if sl.sys && s.mayIssue then
    match nextAct (s.launch (s.tile site).name.1) sl k with
    | some r => s.routineAct k r
    | none => .next s
  else .next s

end Sys2Proof.Machine
end

