-- ==== Sys2Proof/Machine/Atomics.lean ====
section
/-! DEFINITION. Scalar atomics, major 0x20 (spec/09_isa_fabric.md R233 to R238). -/

namespace Sys2Proof.Machine

/-- The spaces of an atomic: a SYS-mode slot of a tile reaches private words only (R234, R275). -/
def atomicRule : M SpaceRule := do
  let s ← get
  return if !s.cur.isCore && (s.slot s.cur).sys then privateSpace else atomicSpace

/-- An atomic at a pointer, of a width, with its result to D unless D is discard (R238); in the guarded phase R125
decides. -/
def atomicAt (op : MemOp) (p : Word) (w : Nat) (d : Dst) : M Flow := do
  let rule ← atomicRule
  let pl ← placeOf rule p w w
  let caught ← guardWrite op p pl w w (Dst.wants d)
  if caught then return .seq
  else do
    accessGate true pl
    accessTo op p pl d (Dst.wants d)

/-- The width of SUB 0 to 9: 4 bytes for a pointer of FMT 2, else 8 (R234). -/
def atomWidth (p : Word) : Nat := if ptrFmt p == 2 then 4 else 8

/-- SUB 0 to 8. -/
def atomicOp (k : AtomKind) (d : Dst) (a b : Src) : M Flow := do
  checkDst d
  let (p, v) ← read2 a b
  atomicAt (.atomic k (atomWidth p) v 0) p (atomWidth p) d

/-- AADD (R235). -/
def execAadd (stl : Stl) (d : Dst) (a b : Src) (s : State) : Result :=
  issue (opA 0x20 0 stl d.code a.code b.code) (atomicOp .add d a b) s
/-- AMAX, signed. -/
def execAmax (stl : Stl) (d : Dst) (a b : Src) (s : State) : Result :=
  issue (opA 0x20 1 stl d.code a.code b.code) (atomicOp .smax d a b) s
/-- AMIN, signed. -/
def execAmin (stl : Stl) (d : Dst) (a b : Src) (s : State) : Result :=
  issue (opA 0x20 2 stl d.code a.code b.code) (atomicOp .smin d a b) s
/-- AMAXU. -/
def execAmaxu (stl : Stl) (d : Dst) (a b : Src) (s : State) : Result :=
  issue (opA 0x20 3 stl d.code a.code b.code) (atomicOp .umax d a b) s
/-- AMINU. -/
def execAminu (stl : Stl) (d : Dst) (a b : Src) (s : State) : Result :=
  issue (opA 0x20 4 stl d.code a.code b.code) (atomicOp .umin d a b) s
/-- AAND. -/
def execAand (stl : Stl) (d : Dst) (a b : Src) (s : State) : Result :=
  issue (opA 0x20 5 stl d.code a.code b.code) (atomicOp .band d a b) s
/-- AOR. -/
def execAor (stl : Stl) (d : Dst) (a b : Src) (s : State) : Result :=
  issue (opA 0x20 6 stl d.code a.code b.code) (atomicOp .bor d a b) s
/-- AXOR. -/
def execAxor (stl : Stl) (d : Dst) (a b : Src) (s : State) : Result :=
  issue (opA 0x20 7 stl d.code a.code b.code) (atomicOp .bxor d a b) s
/-- ASWAP. -/
def execAswap (stl : Stl) (d : Dst) (a b : Src) (s : State) : Result :=
  issue (opA 0x20 8 stl d.code a.code b.code) (atomicOp .swap d a b) s

/-- ACAS: D must name a register, which holds the expected value and takes the old one (R235). -/
def execAcas (stl : Stl) (d : Dst) (a b : Src) (s : State) : Result :=
  issue (opA 0x20 9 stl d.code a.code b.code) (match d with
    | .n k => do
      let (p, v, e) ← read3 a b (.n k)
      atomicAt (.atomic .cas (atomWidth p) v e) p (atomWidth p) d
    | _ => throw (.word .illegalOperand)) s

/-- AFXADD: adds an FP32 value into a cell; the result is STICKY (R236). -/
def execAfxadd (stl : Stl) (d : Dst) (a b : Src) (s : State) : Result :=
  issue (opA 0x20 10 stl d.code a.code b.code) (do
    checkDst d
    let (p, v) ← read2 a b
    atomicAt (.fxAdd (v.setWidth 32)) p 16 d) s

/-- AFXRD: the FP32 value of a cell with STICKY in bit 32; it counts as a load (R236). -/
def execAfxrd (stl : Stl) (d : Dst) (a : Src) (s : State) : Result :=
  issue (opA 0x20 11 stl d.code a.code 0) (do
    checkDst d
    let p ← read1 a
    let rule ← atomicRule
    let pl ← placeOf rule p 16 16
    accessGate false pl
    accessTo .fxRead p pl d true) s

/-- AFXSET: sets a cell under a scale of the operand, or FXSC (R236). -/
def execAfxset (stl : Stl) (d : Dst) (a b : Src) (s : State) : Result :=
  issue (opA 0x20 12 stl d.code a.code b.code) (do
    checkDst d
    let (p, v) ← read2 a b
    let sl ← getSlot
    let sc := if v.getLsbD 40 then (v >>> 32).setWidth 8 else sl.fxsc
    atomicAt (.fxSet (v.setWidth 32) sc) p 16 d) s

/-- AAMAX: the absmax word takes the unsigned maximum; the old word is the result (R237). -/
def execAamax (stl : Stl) (d : Dst) (a b : Src) (s : State) : Result :=
  issue (opA 0x20 13 stl d.code a.code b.code) (do
    checkDst d
    let (p, v) ← read2 a b
    atomicAt (.absmax (v.setWidth 32)) p 4 d) s

end Sys2Proof.Machine
end

