-- ==== Sys2Proof/Machine/Fetch.lean ====
section
/-! DEFINITION. Fetching an instruction from the segment or local memory the agent runs from (spec/05_encoding.md R128,
R129, R139 steps 1 to 4, spec/12_sys_isa.md R273, R281, R307), and placing one there. -/

noncomputable section

namespace Sys2Proof.Machine

/-- The halfword that fills a user segment beyond its image (R129). -/
def fillHalf : Half := 0x7800

/-- A halfword of the user segment (R129). -/
def Tile.userHalf (t : Tile) (i : Nat) : Half := t.code.getD i fillHalf

/-- A halfword of the system segment (R273). -/
def Tile.sysHalf (t : Tile) (i : Nat) : Half := t.sysSeg.getD i 0

/-- The number of halfwords an agent's code can occupy in its present mode (R129, R273, R307). -/
def State.codeSize (s : State) (a : Agent) : Nat :=
  match a with
  | .tile _ _ => if (s.slot a).sys then Config.sysHalfwords else Config.userHalfwords
  | _ => Config.coreHalfwords

/-- The halfword at an index of the code an agent runs from. -/
def State.codeHalf (s : State) (a : Agent) (i : Nat) : Half :=
  match a with
  | .tile site _ => if (s.slot a).sys then (s.tile site).sysHalf i else (s.tile site).userHalf i
  | a => BitVec.ofNat 16 (Memory.read (s.core a).mem (2 * i) 2)

/-- What a fetch finds: an instruction, or a cause with its TVAL (R281). -/
inductive Fetched where
  | instr (i : Instr)
  | cause (c : Cause) (tval : Word)
  deriving DecidableEq, Repr

/-- Fetches and decodes at the pc of an agent (R128, R129, R139 steps 1 to 4 and the fixed fields of step 6). -/
def State.fetch (s : State) (a : Agent) : Fetched :=
  let pc := (s.slot a).pc.toNat
  let size := s.codeSize a
  if Nat.ble size pc then .cause .illegalInstruction 0
  else
    let h := s.codeHalf a pc
    if h.getLsbD 15 && Nat.ble size (pc + 1) then .cause .illegalInstruction (h.setWidth 64 <<< 16)
    else
      let hs := if h.getLsbD 15 then [h, s.codeHalf a (pc + 1)] else [h]
      let word : Word := if h.getLsbD 15 then (h ++ s.codeHalf a (pc + 1)).setWidth 64 else h.setWidth 64
      match decode hs with
      | .ok (i, _) => .instr i
      | .error .illegalInstruction => .cause .illegalInstruction word
      | .error .illegalOperand => .cause .illegalOperand word

/-- A list of halfwords with one at an index replaced; the list grows with the filling halfword. -/
def placeHalf (hs : List Half) (i : Nat) (h : Half) : List Half :=
  (hs ++ List.replicate (i + 1 - hs.length) fillHalf).set i h

/-- Halfwords placed at an index of a list of halfwords. -/
def placeHalves (hs : List Half) (i : Nat) : List Half → List Half
  | [] => hs
  | h :: rest => placeHalves (placeHalf hs i h) (i + 1) rest

/-- The tile with halfwords placed at an index of the segment its slot runs from. -/
def Tile.place (t : Tile) (sys : Bool) (i : Nat) (hs : List Half) : Tile :=
  if sys then { t with sysSeg := placeHalves t.sysSeg i hs } else { t with code := placeHalves t.code i hs }

/-- The launch that stands for one loaded from outside (log entry 8, DESIGN CHOICE): one vtile, one resident slot, 16 vector registers,
guard buffer and handlers absent. -/
def Launch.standIn : Launch :=
  { Launch.blank with
    pkt := { kind := 1, slots := 1, vregs := 16, extents := [0, 0, 0, 0, 0, 0], widths := [0, 0, 0, 0, 0, 0] }
    handlers := List.replicate 64 0xFFFF
    started := some 0
    gangs := [{ state := .resident, sites := [(0, 0)] }] }

/-- The state with the stand-in launch resident on site 0, its resident thread about to run from index 0. -/
def State.standIn (s : State) : State :=
  let t : Tile := { occ := some (0, 0), slots := (Vector.replicate 8 ({} : Slot)).set 0 (Slot.start {} true 0 0) }
  { s with
    tiles := Table.put s.tiles 0 t
    launches := Table.put s.launches 0 Launch.standIn
    cur := .tile 0 0
    sched := [] }

/-- Whether the current agent is a tile's slot that will fetch next. -/
def State.fetching (s : State) : Bool := !s.cur.isCore && s.mayIssue

/-- The state about to run the halfwords: they stand at the pc of the current slot, or, where no tile slot can fetch,
at the entry of the stand-in launch. -/
def State.placeCode (s : State) (hs : List Half) : State :=
  let s := if s.fetching then { s with sched := [] } else s.standIn
  let sl := s.slot s.cur
  (s.setTile s.cur.site ((s.tile s.cur.site).place sl.sys sl.pc.toNat hs)).setSlot s.cur { sl with pend := 0, late := [] }

end Sys2Proof.Machine

end
end

