-- ==== Sys2Proof/Machine/ScalarInt.lean ====
section
/-! DEFINITION. Scalar integer, immediate and pointer instructions, majors 0x00 to 0x0E (spec/06_isa_scalar.md R158 to
R162). -/

namespace Sys2Proof.Machine

/-- A shift count: the low 6 bits of b (R158). -/
def shiftCount (b : Word) : Nat := b.toNat % 64

/-- The integer 1 or 0. -/
def boolWord (b : Bool) : Word := if b then 1 else 0

/-- The high word of a 128-bit product. -/
def mulHigh (x y : BitVec 128) : Word := (x * y).extractLsb' 64 64

/-- Signed quotient with the corners of R66. -/
def sdivWord (x y : Word) : Word := if y = 0 then BitVec.allOnes 64 else x.sdiv y
/-- Unsigned quotient with the corner of R66. -/
def udivWord (x y : Word) : Word := if y = 0 then BitVec.allOnes 64 else x / y
/-- Signed remainder, with the sign of the dividend, and the corners of R66. -/
def sremWord (x y : Word) : Word := if y = 0 then x else x.srem y
/-- Unsigned remainder with the corner of R66. -/
def uremWord (x y : Word) : Word := if y = 0 then x else x % y

/-- The number of one bits. -/
def popWord (x : Word) : Word :=
  BitVec.ofNat 64 ((List.range 64).foldl (fun n i => n + (x.getLsbD i).toNat) 0)

/-- The number of leading zero bits (R158). -/
def clzWord (x : Word) : Word := if x = 0 then 64 else BitVec.ofNat 64 (63 - x.toNat.log2)

/-- The number of trailing zero bits (R158): the bits below the lowest one. -/
def ctzWord (x : Word) : Word := if x = 0 then 64 else popWord ((x &&& (0 - x)) - 1)

/-- Bit i moved to bit 63 - i. -/
def reverseBits (x : Word) : Word :=
  BitVec.ofNat 64 ((List.range 64).foldl (fun n i => n * 2 + (x.getLsbD i).toNat) 0)

/-- Byte i moved to byte 7 - i. -/
def reverseBytes (x : Word) : Word := BitVec.ofNat 64 (bytesToNat (natToBytes 8 x.toNat).reverse)

/-- The position of a bit field (R159). -/
def fieldPos (b : Word) : Nat := b.toNat % 64
/-- The width of a bit field (R159). -/
def fieldWidth (b : Word) : Nat := min (b.toNat / 256 % 128) (64 - fieldPos b)

/-- EXTZ (R159). -/
def extractZero (a b : Word) : Word := (a >>> fieldPos b) &&& BitVec.ofNat 64 (2 ^ fieldWidth b - 1)

/-- EXTS (R159). -/
def extractSigned (a b : Word) : Word :=
  if fieldWidth b = 0 then 0
  else (a <<< (64 - fieldWidth b - fieldPos b)).sshiftRight (64 - fieldWidth b)

/-- INS (R159). -/
def insertField (old a b : Word) : Word :=
  let m : Word := BitVec.ofNat 64 (2 ^ fieldWidth b - 1)
  (old &&& ~~~(m <<< fieldPos b)) ||| ((a &&& m) <<< fieldPos b)

/-- A scalar operation on two sources. -/
def intOp2 (lam : Nat) (d : Dst) (a b : Src) (f : Word → Word → Word) : M Flow := do
  checkDst d
  let (x, y) ← read2 a b
  writeDst (slat lam [a, b]) 0 d (f x y)
  return .seq

/-- A scalar operation on one source. -/
def intOp1 (lam : Nat) (d : Dst) (a : Src) (f : Word → Word) : M Flow := do
  checkDst d
  let x ← read1 a
  writeDst (slat lam [a]) 0 d (f x)
  return .seq

/-- A scalar operation on two sources and the old value of its destination (R156), which is read whatever the sources are (log entry 69,
DEDUCED). -/
def intOpOld (d : Dst) (a b : Src) (f : Word → Word → Word → Word) : M Flow := do
  checkDst d
  awaitOld d
  let (x, y) ← read2 a b
  let o ← readOld d
  writeDst 1 0 d (f x y o)
  return .seq

/-- ADD: the sum modulo 2^64. -/
def execAdd (stl : Stl) (d : Dst) (a b : Src) (s : State) : Result :=
  issue (opA 0x00 0 stl d.code a.code b.code) (intOp2 1 d a b fun x y => x + y) s

/-- SUB. -/
def execSub (stl : Stl) (d : Dst) (a b : Src) (s : State) : Result :=
  issue (opA 0x00 1 stl d.code a.code b.code) (intOp2 1 d a b fun x y => x - y) s

/-- AND. -/
def execAnd (stl : Stl) (d : Dst) (a b : Src) (s : State) : Result :=
  issue (opA 0x00 2 stl d.code a.code b.code) (intOp2 1 d a b fun x y => x &&& y) s

/-- OR. -/
def execOr (stl : Stl) (d : Dst) (a b : Src) (s : State) : Result :=
  issue (opA 0x00 3 stl d.code a.code b.code) (intOp2 1 d a b fun x y => x ||| y) s

/-- XOR. -/
def execXor (stl : Stl) (d : Dst) (a b : Src) (s : State) : Result :=
  issue (opA 0x00 4 stl d.code a.code b.code) (intOp2 1 d a b fun x y => x ^^^ y) s

/-- ANDN. -/
def execAndn (stl : Stl) (d : Dst) (a b : Src) (s : State) : Result :=
  issue (opA 0x00 5 stl d.code a.code b.code) (intOp2 1 d a b fun x y => x &&& ~~~y) s

/-- ORN. -/
def execOrn (stl : Stl) (d : Dst) (a b : Src) (s : State) : Result :=
  issue (opA 0x00 6 stl d.code a.code b.code) (intOp2 1 d a b fun x y => x ||| ~~~y) s

/-- SHL. -/
def execShl (stl : Stl) (d : Dst) (a b : Src) (s : State) : Result :=
  issue (opA 0x00 7 stl d.code a.code b.code) (intOp2 1 d a b fun x y => x <<< shiftCount y) s

/-- SHR, logical. -/
def execShr (stl : Stl) (d : Dst) (a b : Src) (s : State) : Result :=
  issue (opA 0x00 8 stl d.code a.code b.code) (intOp2 1 d a b fun x y => x >>> shiftCount y) s

/-- SHRA, arithmetic. -/
def execShra (stl : Stl) (d : Dst) (a b : Src) (s : State) : Result :=
  issue (opA 0x00 9 stl d.code a.code b.code) (intOp2 1 d a b fun x y => x.sshiftRight (shiftCount y)) s

/-- ROT, to the right. -/
def execRot (stl : Stl) (d : Dst) (a b : Src) (s : State) : Result :=
  issue (opA 0x00 10 stl d.code a.code b.code) (intOp2 1 d a b fun x y => x.rotateRight (shiftCount y)) s

/-- MIN, signed. -/
def execMin (stl : Stl) (d : Dst) (a b : Src) (s : State) : Result :=
  issue (opA 0x00 11 stl d.code a.code b.code) (intOp2 1 d a b fun x y => if x.slt y then x else y) s

/-- MAX, signed. -/
def execMax (stl : Stl) (d : Dst) (a b : Src) (s : State) : Result :=
  issue (opA 0x00 12 stl d.code a.code b.code) (intOp2 1 d a b fun x y => if x.slt y then y else x) s

/-- MINU. -/
def execMinu (stl : Stl) (d : Dst) (a b : Src) (s : State) : Result :=
  issue (opA 0x00 13 stl d.code a.code b.code) (intOp2 1 d a b fun x y => if x.ult y then x else y) s

/-- MAXU. -/
def execMaxu (stl : Stl) (d : Dst) (a b : Src) (s : State) : Result :=
  issue (opA 0x00 14 stl d.code a.code b.code) (intOp2 1 d a b fun x y => if x.ult y then y else x) s

/-- MUL. -/
def execMul (stl : Stl) (d : Dst) (a b : Src) (s : State) : Result :=
  issue (opA 0x00 15 stl d.code a.code b.code) (intOp2 3 d a b fun x y => x * y) s

/-- MULH. -/
def execMulh (stl : Stl) (d : Dst) (a b : Src) (s : State) : Result :=
  issue (opA 0x01 0 stl d.code a.code b.code) (intOp2 3 d a b fun x y => mulHigh (x.signExtend 128) (y.signExtend 128)) s

/-- MULHU. -/
def execMulhu (stl : Stl) (d : Dst) (a b : Src) (s : State) : Result :=
  issue (opA 0x01 1 stl d.code a.code b.code) (intOp2 3 d a b fun x y => mulHigh (x.setWidth 128) (y.setWidth 128)) s

/-- DIV (R66). -/
def execDiv (stl : Stl) (d : Dst) (a b : Src) (s : State) : Result :=
  issue (opA 0x01 2 stl d.code a.code b.code) (intOp2 20 d a b fun x y => sdivWord x y) s

/-- DIVU (R66). -/
def execDivu (stl : Stl) (d : Dst) (a b : Src) (s : State) : Result :=
  issue (opA 0x01 3 stl d.code a.code b.code) (intOp2 20 d a b fun x y => udivWord x y) s

/-- REM (R66). -/
def execRem (stl : Stl) (d : Dst) (a b : Src) (s : State) : Result :=
  issue (opA 0x01 4 stl d.code a.code b.code) (intOp2 20 d a b fun x y => sremWord x y) s

/-- REMU (R66). -/
def execRemu (stl : Stl) (d : Dst) (a b : Src) (s : State) : Result :=
  issue (opA 0x01 5 stl d.code a.code b.code) (intOp2 20 d a b fun x y => uremWord x y) s

/-- CMPEQ. -/
def execCmpeq (stl : Stl) (d : Dst) (a b : Src) (s : State) : Result :=
  issue (opA 0x01 6 stl d.code a.code b.code) (intOp2 1 d a b fun x y => boolWord (x == y)) s

/-- CMPNE. -/
def execCmpne (stl : Stl) (d : Dst) (a b : Src) (s : State) : Result :=
  issue (opA 0x01 7 stl d.code a.code b.code) (intOp2 1 d a b fun x y => boolWord (x != y)) s

/-- CMPLT, signed. -/
def execCmplt (stl : Stl) (d : Dst) (a b : Src) (s : State) : Result :=
  issue (opA 0x01 8 stl d.code a.code b.code) (intOp2 1 d a b fun x y => boolWord (x.slt y)) s

/-- CMPLTU. -/
def execCmpltu (stl : Stl) (d : Dst) (a b : Src) (s : State) : Result :=
  issue (opA 0x01 9 stl d.code a.code b.code) (intOp2 1 d a b fun x y => boolWord (x.ult y)) s

/-- CMPLE, signed. -/
def execCmple (stl : Stl) (d : Dst) (a b : Src) (s : State) : Result :=
  issue (opA 0x01 10 stl d.code a.code b.code) (intOp2 1 d a b fun x y => boolWord (x.sle y)) s

/-- CMPLEU. -/
def execCmpleu (stl : Stl) (d : Dst) (a b : Src) (s : State) : Result :=
  issue (opA 0x01 11 stl d.code a.code b.code) (intOp2 1 d a b fun x y => boolWord (x.ule y)) s

/-- CMOV: a if b is not zero, else the old value of the destination; a named register is written either way. -/
def execCmov (stl : Stl) (d : Dst) (a b : Src) (s : State) : Result :=
  issue (opA 0x01 12 stl d.code a.code b.code) (intOpOld d a b fun x y o => if y = 0 then o else x) s

/-- CLZ. -/
def execClz (stl : Stl) (d : Dst) (a : Src) (s : State) : Result :=
  issue (opA 0x01 13 stl d.code a.code 0) (intOp1 1 d a fun x => clzWord x) s

/-- CTZ. -/
def execCtz (stl : Stl) (d : Dst) (a : Src) (s : State) : Result :=
  issue (opA 0x01 14 stl d.code a.code 0) (intOp1 1 d a fun x => ctzWord x) s

/-- POPC. -/
def execPopc (stl : Stl) (d : Dst) (a : Src) (s : State) : Result :=
  issue (opA 0x01 15 stl d.code a.code 0) (intOp1 1 d a fun x => popWord x) s

/-- ADDW. -/
def execAddw (stl : Stl) (d : Dst) (a b : Src) (s : State) : Result :=
  issue (opA 0x02 0 stl d.code a.code b.code) (intOp2 1 d a b fun x y => ((x + y).setWidth 32).signExtend 64) s

/-- SUBW. -/
def execSubw (stl : Stl) (d : Dst) (a b : Src) (s : State) : Result :=
  issue (opA 0x02 1 stl d.code a.code b.code) (intOp2 1 d a b fun x y => ((x - y).setWidth 32).signExtend 64) s

/-- MULW. -/
def execMulw (stl : Stl) (d : Dst) (a b : Src) (s : State) : Result :=
  issue (opA 0x02 2 stl d.code a.code b.code) (intOp2 3 d a b fun x y => ((x * y).setWidth 32).signExtend 64) s

/-- BREV. -/
def execBrev (stl : Stl) (d : Dst) (a : Src) (s : State) : Result :=
  issue (opA 0x02 3 stl d.code a.code 0) (intOp1 1 d a fun x => reverseBits x) s

/-- BSWAP. -/
def execBswap (stl : Stl) (d : Dst) (a : Src) (s : State) : Result :=
  issue (opA 0x02 4 stl d.code a.code 0) (intOp1 1 d a fun x => reverseBytes x) s

/-- EXTS. -/
def execExts (stl : Stl) (d : Dst) (a b : Src) (s : State) : Result :=
  issue (opA 0x02 5 stl d.code a.code b.code) (intOp2 1 d a b fun x y => extractSigned x y) s

/-- EXTZ. -/
def execExtz (stl : Stl) (d : Dst) (a b : Src) (s : State) : Result :=
  issue (opA 0x02 6 stl d.code a.code b.code) (intOp2 1 d a b fun x y => extractZero x y) s

/-- INS: the field of the old value of the destination is replaced by the low bits of a. -/
def execIns (stl : Stl) (d : Dst) (a b : Src) (s : State) : Result :=
  issue (opA 0x02 7 stl d.code a.code b.code) (intOpOld d a b fun x y o => insertField o x y) s

/-- A scalar operation on a source and a signed 10-bit literal (R160). -/
def intOpImm (d : Dst) (a : Src) (i : BitVec 10) (f : Word → Word → Word) : M Flow := do
  checkDst d
  let x ← read1 a
  writeDst 1 0 d (f x (i.signExtend 64))
  return .seq

/-- A shift by a 10-bit literal, which must be 0 to 63 (R160). -/
def shiftImm (d : Dst) (a : Src) (i : BitVec 10) (f : Word → Nat → Word) : M Flow := do
  checkDst d
  require (Nat.blt i.toNat 64) (.word .illegalOperand)
  let x ← read1 a
  writeDst 1 0 d (f x i.toNat)
  return .seq

/-- ADDI (R160). -/
def execAddi (stl : Stl) (d : Dst) (a : Src) (i : BitVec 10) (s : State) : Result :=
  issue (opI 0x03 stl d.code a.code i) (intOpImm d a i fun x y => x + y) s

/-- ANDI (R160). -/
def execAndi (stl : Stl) (d : Dst) (a : Src) (i : BitVec 10) (s : State) : Result :=
  issue (opI 0x04 stl d.code a.code i) (intOpImm d a i fun x y => x &&& y) s

/-- ORI (R160). -/
def execOri (stl : Stl) (d : Dst) (a : Src) (i : BitVec 10) (s : State) : Result :=
  issue (opI 0x05 stl d.code a.code i) (intOpImm d a i fun x y => x ||| y) s

/-- XORI (R160). -/
def execXori (stl : Stl) (d : Dst) (a : Src) (i : BitVec 10) (s : State) : Result :=
  issue (opI 0x06 stl d.code a.code i) (intOpImm d a i fun x y => x ^^^ y) s

/-- SHLI (R160). -/
def execShli (stl : Stl) (d : Dst) (a : Src) (i : BitVec 10) (s : State) : Result :=
  issue (opI 0x07 stl d.code a.code i) (shiftImm d a i fun x k => x <<< k) s

/-- SHRI (R160). -/
def execShri (stl : Stl) (d : Dst) (a : Src) (i : BitVec 10) (s : State) : Result :=
  issue (opI 0x08 stl d.code a.code i) (shiftImm d a i fun x k => x >>> k) s

/-- SHRAI (R160). -/
def execShrai (stl : Stl) (d : Dst) (a : Src) (i : BitVec 10) (s : State) : Result :=
  issue (opI 0x09 stl d.code a.code i) (shiftImm d a i fun x k => x.sshiftRight k) s

/-- CMPEQI (R160). -/
def execCmpeqi (stl : Stl) (d : Dst) (a : Src) (i : BitVec 10) (s : State) : Result :=
  issue (opI 0x0A stl d.code a.code i) (intOpImm d a i fun x y => boolWord (x == y)) s

/-- CMPLTI (R160). -/
def execCmplti (stl : Stl) (d : Dst) (a : Src) (i : BitVec 10) (s : State) : Result :=
  issue (opI 0x0B stl d.code a.code i) (intOpImm d a i fun x y => boolWord (x.slt y)) s

/-- LIMM: the sign-extended literal (R161). -/
def execLimm (stl : Stl) (d : Dst) (k : BitVec 16) (s : State) : Result :=
  issue (opL 0x0C stl d.code k) (do
    checkDst d
    writeDst 1 0 d (k.signExtend 64)
    return .seq) s

/-- LIMH: a named register shifted up by 16 with the literal below; only a named register is a legal destination (R144,
R161). -/
def execLimh (stl : Stl) (d : Dst) (k : BitVec 16) (s : State) : Result :=
  issue (opL 0x0D stl d.code k) (match d with
    | .n r => do
      awaitNamed r
      let x ← readNamed r
      writeDst 1 0 d ((x <<< 16) ||| k.setWidth 64)
      return .seq
    | _ => throw (.word .illegalOperand)) s

/-- A pointer with its address field replaced: the tag byte of one word and the low 56 bits of another (R162). -/
def withTag (tag addr : Word) : Word := (tag &&& 0xFF00000000000000) ||| (addr &&& 0x00FFFFFFFFFFFFFF)

/-- ADDP (R162). -/
def execAddp (stl : Stl) (d : Dst) (a b : Src) (s : State) : Result :=
  issue (opA 0x0E 0 stl d.code a.code b.code) (intOp2 1 d a b fun x y => withTag x (x + y)) s

/-- SUBP (R162). -/
def execSubp (stl : Stl) (d : Dst) (a b : Src) (s : State) : Result :=
  issue (opA 0x0E 1 stl d.code a.code b.code) (intOp2 1 d a b fun x y => withTag x (x - y)) s

/-- PTAG: FMT, BLK and SPACE from the low byte of b (R162). -/
def execPtag (stl : Stl) (d : Dst) (a b : Src) (s : State) : Result :=
  issue (opA 0x0E 2 stl d.code a.code b.code) (intOp2 1 d a b fun x y => withTag (y <<< 56) x) s

/-- PTAGX (R162). -/
def execPtagx (stl : Stl) (d : Dst) (a : Src) (s : State) : Result :=
  issue (opA 0x0E 3 stl d.code a.code 0) (intOp1 1 d a fun x => x >>> 56) s

/-- PMKT: a tile-global pointer to offset a[16:0] of vtile b (R162). -/
def execPmkt (stl : Stl) (d : Dst) (a b : Src) (s : State) : Result :=
  issue (opA 0x0E 4 stl d.code a.code b.code) (intOp2 1 d a b fun x y => (x &&& 0xFC00000000000000) ||| 0x0100000000000000 ||| ((y &&& 0xFFFFFF) <<< 32) ||| (x &&& 0x1FFFF)) s

/-- PSPACE (R162). -/
def execPspace (stl : Stl) (d : Dst) (a b : Src) (s : State) : Result :=
  issue (opA 0x0E 5 stl d.code a.code b.code) (intOp2 1 d a b fun x y => (x &&& 0xFCFFFFFFFFFFFFFF) ||| ((y &&& 3) <<< 56)) s

end Sys2Proof.Machine
end

