-- ==== Sys2Proof/Machine/Control.lean ====
section
/-! DEFINITION. Control flow and thread control, majors 0x11 to 0x18 (spec/06_isa_scalar.md R166 to R170), and the 16-bit
instructions that have no access (spec/05_encoding.md R133, spec/06_isa_scalar.md R177). -/

noncomputable section

namespace Sys2Proof.Machine

/-! ### Branches -/

/-- A branch of form B on a condition: its target is pc + OFF16 modulo 2^16 (R166). -/
def branchIf (c : Src) (o : Half) (taken : Word → Bool) : M Flow := do
  let x ← read1 c
  let sl ← getSlot
  return if taken x then .jump (sl.pc + o) else .seq

/-- BZ. -/
def execBz (stl : Stl) (c : Src) (o : BitVec 16) (s : State) : Result :=
  issue (opL 0x11 stl c.code o) (branchIf c o fun x => x == 0) s
/-- BNZ. -/
def execBnz (stl : Stl) (c : Src) (o : BitVec 16) (s : State) : Result :=
  issue (opL 0x12 stl c.code o) (branchIf c o fun x => x != 0) s
/-- BLTZ. -/
def execBltz (stl : Stl) (c : Src) (o : BitVec 16) (s : State) : Result :=
  issue (opL 0x13 stl c.code o) (branchIf c o fun x => x.getLsbD 63) s
/-- BGEZ. -/
def execBgez (stl : Stl) (c : Src) (o : BitVec 16) (s : State) : Result :=
  issue (opL 0x14 stl c.code o) (branchIf c o fun x => !x.getLsbD 63) s

/-- BR: C is z. -/
def execBr (stl : Stl) (o : BitVec 16) (s : State) : Result :=
  issue (opL 0x15 stl 16 o) (branchIf .z o fun _ => true) s

/-- CALL: LR takes the index after the instruction. -/
def execCall (stl : Stl) (o : BitVec 16) (s : State) : Result :=
  issue (opL 0x16 stl 16 o) (do
    modSlot fun sl => { sl with lr := sl.pc + 2 }
    branchIf .z o fun _ => true) s

/-- Length in halfwords of the instruction that stands at an index: an index beyond the code has none, and its length is
a free value. -/
def lengthAt (i : Half) : M Nat := do
  let s ← get
  if Nat.ble (s.codeSize s.cur) i.toNat then do
    let w ← freeWord
    return if w.getLsbD 0 then 2 else 1
  else return if (s.codeHalf s.cur i.toNat).getLsbD 15 then 2 else 1

/-- LOOP: sets up the first inactive level; a count of 0 skips the body (R168). OFF16 is signed (R131). -/
def execLoop (stl : Stl) (c : Src) (o : BitVec 16) (s : State) : Result :=
  issue (opL 0x17 stl c.code o) (do
    let x ← read1 c
    let sl ← getSlot
    let cnt : BitVec 32 := x.setWidth 32
    require (decide (2 ≤ o.toInt)) (.word .illegalOperand)
    require (!((sl.lc0.count != 0 && sl.pc == sl.lc0.stop) || (sl.lc1.count != 0 && sl.pc == sl.lc1.stop)))
      (.word .illegalOperand)
    require (sl.lc0.count == 0 || sl.lc1.count == 0) (.word .illegalOperand)
    let stop := sl.pc + o
    if cnt == 0 then do
      let n ← lengthAt stop
      return .jump (stop + BitVec.ofNat 16 n)
    else do
      let lvl : LoopLevel := { count := cnt, start := sl.pc + 2, stop }
      putSlot (if sl.lc0.count == 0 then { sl with lc0 := lvl } else { sl with lc1 := lvl })
      return .seq) s

/-- JR (R167). -/
def execJr (stl : Stl) (a : Src) (s : State) : Result :=
  issue (opA 0x18 0 stl 0 a.code 0) (do
    let x ← read1 a
    return .jump (x.setWidth 16)) s

/-- The effect of RET. -/
def retBody : M Flow := do
  let sl ← getSlot
  return .jump sl.lr

/-- RET (R167). -/
def execRet (stl : Stl) (s : State) : Result := issue (opA 0x18 1 stl 0 0 0) retBody s

/-! ### Thread control (R170, R22, R24) -/

/-- The other slots of a tile that are ready: a thread runs there, its stall count has elapsed, it stands in no YIELD of its own, and it
waits on nothing (R36), as `State.beforeIssue` has noted (log entry 51, DEDUCED). -/
def readyMask (t : Tile) (k : Fin 8) (now : Nat) : BitVec 8 :=
  BitVec.ofNat 8 ((List.finRange 8).foldl (fun n j =>
    n + (j != k && t.slots[j].thread && t.slots[j].ready && Nat.ble (t.readyFrom t.slots[j]) now).toNat * 2 ^ j.val) 0)

/-- YIELD: the slot gives way to the slots that are ready now, for at most 8 cycles. -/
def yieldBody : M Flow := do
  let s ← get
  match s.cur with
  | .tile site k => do
    modSlot fun sl => { sl with yieldAt := some (s.cycle, readyMask (s.tile site) k s.cycle) }
    return .seq
  | _ => return .seq

/-- YIELD. -/
def execYield (stl : Stl) (s : State) : Result := issue (opA 0x18 2 stl 0 0 0) yieldBody s

/-- DONE: illegal in the resident thread of slot 0; elsewhere it ends the thread. -/
def doneBody : M Flow := do
  let s ← get
  match s.cur with
  | .tile site k => do
    require (!(k == 0 && (s.slot s.cur).res)) (.word .illegalInstruction)
    set (s.endThread site k)
    return .ended
  | _ => throw (.word .illegalInstruction)

/-- DONE. -/
def execDone (stl : Stl) (s : State) : Result := issue (opA 0x18 3 stl 0 0 0) doneBody s

/-- DONEF: illegal except in the resident thread of slot 0; it waits for the conditions of R24 and retires the vtile. -/
def donefBody : M Flow := do
  let s ← get
  match s.cur with
  | .tile site k => do
    require (k == 0 && (s.slot s.cur).res) (.word .illegalInstruction)
    require (s.retireReady site k) (.wait .donef)
    set ((s.advance s.cur (s.slot s.cur).lastDue).retireVtile site)
    return .ended
  | _ => throw (.word .illegalInstruction)

/-- DONEF. -/
def execDonef (stl : Stl) (s : State) : Result := issue (opA 0x18 4 stl 0 0 0) donefBody s

/-- NOP: no effect. -/
def execNop (stl : Stl) (s : State) : Result := issue (opA 0x18 5 stl 0 0 0) (pure .seq) s

/-! ### 16-bit forms (R133) -/

/-- NOP. -/
def execNop16 (s : State) : Result := issue (op16 0x18 5 0) (pure .seq) s
/-- DONE. -/
def execDone16 (s : State) : Result := issue (op16 0x18 3 1) doneBody s
/-- DONEF. -/
def execDonef16 (s : State) : Result := issue (op16 0x18 4 2) donefBody s
/-- YIELD. -/
def execYield16 (s : State) : Result := issue (op16 0x18 2 3) yieldBody s
/-- RET. -/
def execRet16 (s : State) : Result := issue (op16 0x18 1 4) retBody s

/-- The word of a form C2 instruction. -/
def wordC2 (major : Nat) (a b : Src5) (sub : Nat) : Nat := major * 2048 + a.code * 64 + b.code * 2 + sub
/-- The word of a form CI instruction. -/
def wordCI (major : Nat) (a : Src5) (i : BitVec 6) : Nat := major * 2048 + a.code * 64 + i.toNat

/-- C.ADD. -/
def execCAdd (a b : Src5) (s : State) : Result :=
  issue (op16 0x00 0 (wordC2 1 a b 0)) (intOp2 1 .push a.toSrc b.toSrc fun x y => x + y) s
/-- C.SUB. -/
def execCSub (a b : Src5) (s : State) : Result :=
  issue (op16 0x00 1 (wordC2 2 a b 0)) (intOp2 1 .push a.toSrc b.toSrc fun x y => x - y) s
/-- C.AND. -/
def execCAnd (a b : Src5) (s : State) : Result :=
  issue (op16 0x00 2 (wordC2 3 a b 0)) (intOp2 1 .push a.toSrc b.toSrc fun x y => x &&& y) s
/-- C.OR. -/
def execCOr (a b : Src5) (s : State) : Result :=
  issue (op16 0x00 3 (wordC2 4 a b 0)) (intOp2 1 .push a.toSrc b.toSrc fun x y => x ||| y) s
/-- C.XOR. -/
def execCXor (a b : Src5) (s : State) : Result :=
  issue (op16 0x00 4 (wordC2 4 a b 1)) (intOp2 1 .push a.toSrc b.toSrc fun x y => x ^^^ y) s
/-- C.MOV: OR with z. -/
def execCMov (a : Src5) (s : State) : Result :=
  issue (op16 0x00 3 (wordC2 5 a (.q 0) 0)) (intOp2 1 .push a.toSrc .z fun x y => x ||| y) s
/-- C.ADDI. -/
def execCAddi (a : Src5) (i : BitVec 6) (s : State) : Result :=
  issue (op16 0x03 0 (wordCI 6 a i)) (intOpImm .push a.toSrc (i.signExtend 10) fun x y => x + y) s
/-- C.LIMM. -/
def execCLimm (i : BitVec 11) (s : State) : Result :=
  issue (op16 0x0C 0 (7 * 2048 + i.toNat)) (do
    writeDst 1 0 .push (i.signExtend 64)
    return .seq) s
/-- C.SHLI. -/
def execCShli (a : Src5) (i : BitVec 6) (s : State) : Result :=
  issue (op16 0x07 0 (wordCI 8 a i)) (shiftImm .push a.toSrc (i.setWidth 10) fun x k => x <<< k) s
/-- C.SHRI. -/
def execCShri (a : Src5) (i : BitVec 6) (s : State) : Result :=
  issue (op16 0x08 0 (wordCI 9 a i)) (shiftImm .push a.toSrc (i.setWidth 10) fun x k => x >>> k) s
/-- C.BR. -/
def execCBr (o : BitVec 11) (s : State) : Result :=
  issue (op16 0x15 0 (10 * 2048 + o.toNat)) (branchIf .z (o.signExtend 16) fun _ => true) s
/-- C.BZ. -/
def execCBz (a : Src5) (o : BitVec 6) (s : State) : Result :=
  issue (op16 0x11 0 (wordCI 11 a o)) (branchIf a.toSrc (o.signExtend 16) fun x => x == 0) s
/-- C.BNZ. -/
def execCBnz (a : Src5) (o : BitVec 6) (s : State) : Result :=
  issue (op16 0x12 0 (wordCI 12 a o)) (branchIf a.toSrc (o.signExtend 16) fun x => x != 0) s

end Sys2Proof.Machine

end
end

