-- ==== Sys2Proof/Machine/Guard.lean ====
section
/-! DEFINITION. The guarded phase, major 0x3A (spec/09_isa_fabric.md R259 to R264, spec/04_memory.md R127), and traps,
breakpoints, the timebase and trace marks, major 0x3B (R265, R266). -/

namespace Sys2Proof.Machine

/-! ### Issuing captured accesses (R127, R261) -/

/-- Counts an exchange of the current slot (R390). -/
def State.exchanged (s : State) (op : MemOp) : State :=
  if op.isExchange then s.setSlot s.cur { s.slot s.cur with exchanges := (s.slot s.cur).exchanges + 1 } else s

/-- Packets of one captured access leave under one issue number; none where the interface or a colour counter has no
room. -/
def State.releasePackets (s : State) (id : Nat) : List Packet → Option State
  | [] => some s
  | p :: rest =>
    match p.body with
    | .message .. =>
      if Nat.ble 8 (s.tile s.cur.site).unsent then none else (s.enqueue p.tc p.dst p.body).releasePackets id rest
    | .regWrite cap val vec side release =>
      if Nat.ble 8 (s.tile s.cur.site).unsent then none
      else (s.sendWrite (s.origin s.cur).idx cap val vec side release).releasePackets id rest
    | .request op ptr w =>
      match s.sendOff (s.packet id p.tc p.dst (.request op ptr w)) with
      | some s' => (s'.exchanged op).releasePackets id rest
      | none => none
    | _ => State.releasePackets s id rest

/-- Whether a captured access has an implicit release before it (R117, R120). -/
def Packet.releases (p : Packet) : Bool :=
  match p.body with
  | .regWrite _ _ _ _ r => r
  | .request .barArrive _ _ => true
  | _ => false

/-- A captured access is issued as if by the vtile now, behind the slot's fences; none where it has to wait. A copy job whose
late checks fail is dropped (log entry 24, DEDUCED). -/
def State.releaseCaptured (s : State) (c : Captured) : Option State :=
  let o := s.origin s.cur
  let t := s.tile s.cur.site
  let sl := s.slot s.cur
  match c with
  | .packets ps =>
    if !s.fencesOpen true (ps.any fun p => p.isRequest && p.dst == .vtile o.idx o.vt) || (ps.any Packet.releases && !s.released) then none
    else (s.setSlot s.cur { sl with nextId := sl.nextId + 1 }).releasePackets sl.nextId ps
  | .copy slot digest tmpl offs follow =>
    let g := geometry tmpl offs
    match checkJobLate g s with
    | .ok _ =>
      if Nat.blt t.jobs.length 16 && s.fencesOpen true true then some (s.beginJob s.cur.site slot g digest follow) else none
    | .error _ => some s
  | .launch _ bytes =>
    if !s.fencesOpen true false || !s.released then none
    else
      let r := s.launchChild o.idx bytes
      some (if r.2.toNat % 256 == 1 then
          r.1.countAt s.cur.site o.idx fun g => { g with launchRej := g.launchRej + 1 } else r.1)
  | .cntset i v =>
    if !s.fencesOpen true false then none
    else some (s.setTile s.cur.site (t.putCounter s.cur.slotNo sl.nextId i v))

/-! ### GRES, GEND, GQRY, GWIN -/

/-- GRES: the surrogate ends and the check begins (R260). -/
def execGres (stl : Stl) (s : State) : Result :=
  issue (opA 0x3A 0 stl 0 0 0) (do
    let t ← getTile
    let l ← getLaunch
    require (t.guard.stage == .surrogate) (.word .illegalInstruction)
    modTile fun t => { t with guard := { t.guard with stage := .check } }
    return .jump (BitVec.ofNat 16 l.pkt.check)) s

/-- The verdict on a residual: none for acceptance, else the reason (R261). -/
def residualReason (gresid gtol : BitVec 32) : Option Nat :=
  match floatVal 4 gresid.toNat with
  | .nan _ => some 2
  | _ =>
    match cmpVal (floatVal 4 (gresid.toNat % 2 ^ 31)) (floatVal 4 gtol.toNat) with
    | some .lt => none
    | some .eq => none
    | _ => some 1

/-- The stage that GEND needs, and its verdict. -/
def gendVerdict : M (Option Nat) := do
  let t ← getTile
  let l ← getLaunch
  require (t.guard.stage == .check) (.word .illegalInstruction)
  return residualReason t.gresid l.pkt.gtol

/-- The buffer of an accepted phase: its bytes are free values before the captured accesses are issued (R262). -/
def State.openBuffer (s : State) (site : Nat) : State :=
  let t := s.tile site
  let l := s.launch t.name.1
  let off := l.pkt.guardbase * 128
  let len := l.pkt.guardsize * 128
  if t.guard.releasing then s
  else
    (s.setTile site
      { t with guard := { t.guard with used := 1 }, spad := scrambleBuffer off len (s.freeAt (.tile site 0)) t.spad }).spend (.tile site 0) len

/-- The end of an accepted phase, every captured access issued. -/
def State.acceptPhase (s : State) (site : Nat) : State :=
  let s := s.openBuffer site
  let t := s.tile site
  (s.setTile site
    { t with guard := { t.guard with stage := .none, window := none, caught := [], used := 0 } }).countAt site t.name.1
      fun g => { g with gacc := g.gacc + 1 }

/-- What GEND does when no captured access is left to issue. -/
def gendBody : M Flow := do
  let v ← gendVerdict
  let s ← get
  match v with
  | some r => do
    set (s.rejectPhase s.cur.site r 0)
    return .ended
  | none => do
    set (s.acceptPhase s.cur.site)
    return .seq

/-- GEND: on acceptance the captured accesses issue first, one in a cycle (R261). -/
def execGend (stl : Stl) (s : State) : Result :=
  let o := opA 0x3A 1 stl 0 0 0
  match (do openIssue o; gendVerdict : M (Option Nat)) s with
  | .ok (none, s0) =>
    let s1 := s0.openBuffer s0.cur.site
    let t := s1.tile s1.cur.site
    match t.guard.caught with
    | c :: rest =>
      match s1.releaseCaptured c with
      | some s2 =>
        let t2 := s2.tile s1.cur.site
        .next ((s2.setTile s1.cur.site { t2 with guard := { t2.guard with caught := rest } }).hold .held)
      | none => .next (s1.hold .held)
    | [] => issue o gendBody s
  | _ => issue o gendBody s

/-- STAGE codes (R263). -/
def Stage.code : Stage → Nat
  | .none => 0
  | .surrogate => 1
  | .check => 2
  | .exact => 3

/-- GQRY: zero outside a guarded launch (R263). -/
def execGqry (stl : Stl) (d : Dst) (s : State) : Result :=
  issue (opA 0x3A 2 stl d.code 0 0) (do
    checkDst d
    let t ← getTile
    let l ← getLaunch
    let g := t.guard
    writeDst 1 0 d (if l.pkt.guarded then
      BitVec.ofNat 64 (g.stage.code + g.reason % 256 * 2 ^ 8 + g.cause % 256 * 2 ^ 16 + g.used / 16 % 65536 * 2 ^ 32
        + g.caught.length % 65536 * 2 ^ 48) else 0)
    return .seq) s

/-- GWIN (R264). -/
def execGwin (stl : Stl) (a b : Src) (s : State) : Result :=
  issue (opA 0x3A 3 stl 0 a.code b.code) (do
    let (x, y) ← read2 a b
    let t ← getTile
    let l ← getLaunch
    if t.guarded then do
      let lo := x.toNat
      let n := y.toNat
      let bufLo := l.pkt.guardbase * 128
      let bufHi := bufLo + l.pkt.guardsize * 128
      require (lo % 128 == 0 && n % 128 == 0 && n != 0 && Nat.ble (lo + n) Config.spadBytes
        && (Nat.ble (lo + n) bufLo || Nat.ble bufHi lo)) (.word .illegalOperand)
      modTile fun t => { t with guard := { t.guard with window := some (lo, n) } }
      return .seq
    else return .seq) s

/-! ### TRAP, BRK, RDTB, TRMARK -/

/-- TRAP (R265). -/
def execTrap (stl : Stl) (b : BitVec 6) (s : State) : Result :=
  issue (opA 0x3B 0 stl 0 0 b.toNat) (return .trapNext .trap (b.setWidth 64)) s

/-- BRK (R265). -/
def execBrk (stl : Stl) (b : BitVec 6) (s : State) : Result :=
  issue (opA 0x3B 1 stl 0 0 b.toNat) (return .trapNext .brk (b.setWidth 64)) s

/-- BRK with code 0 (R133, R265). -/
def execBrk16 (s : State) : Result := issue (op16 0x3B 1 5) (return .trapNext .brk 0) s

/-- RDTB: every earlier instruction has completed and every earlier load has returned (R266). -/
def execRdtb (stl : Stl) (d : Dst) (s : State) : Result :=
  issue (opA 0x3B 2 stl d.code 0 0) (do
    checkDst d
    let s ← get
    let sl := s.slot s.cur
    require (sl.flights.all fun f => f.due.isSome) (.wait .held)
    set (s.advance s.cur sl.lastDue)
    let s ← get
    deliver d s.tb
    return .seq) s

/-- TRMARK: a MARK record when the launch has TRACE (R266, R403). -/
def execTrmark (stl : Stl) (a : Src) (b : BitVec 6) (s : State) : Result :=
  issue (opA 0x3B 3 stl 0 a.code b.toNat) (do
    let v ← read1 a
    let s ← get
    match s.cur with
    | .tile site k => do
      let t := s.tile site
      set (s.emit site 0x05 k.val (s.slot s.cur).sys
        (traceThread t.name.1 t.name.2 (s.launch t.name.1).entry 0) v.toNat (b.toNat + t.guard.stage.code * 256))
      return .seq
    | _ => return .seq) s

end Sys2Proof.Machine
end

