-- ==== Sys2Proof/Machine/ScalarFp.lean ====
section
/-! DEFINITION. Scalar floating point, majors 0x0F and 0x10 (spec/06_isa_scalar.md R163 to R165): FP32 operands in bits
[31:0], results with bits [63:32] zero, SR acting as RNE, no flushing. -/

namespace Sys2Proof.Machine

/-- The rounding of a scalar instruction: RND MODE with SR acting as RNE, and FTZ not applying (R72, R74, R163). -/
def Slot.scalarRounding (sl : Slot) : Rounding :=
  { mode := if sl.mode == 4 then 0 else sl.mode, rnd := 0, ftz := false }

/-- The FP32 pattern of a word. -/
def fp32Of (x : Word) : Nat := x.toNat % 2 ^ 32

/-- A scalar floating-point operation on two sources. -/
def fpOp2 (lam : Nat) (d : Dst) (a b : Src) (f : Rounding → Nat → Nat → Nat × BitVec 6) : M Flow := do
  checkDst d
  let (x, y) ← read2 a b
  let sl ← getSlot
  let r := f sl.scalarRounding (fp32Of x) (fp32Of y)
  writeDst (slat lam [a, b]) r.2 d (BitVec.ofNat 64 r.1)
  return .seq

/-- A scalar floating-point operation on one source word. -/
def fpOp1 (lam : Nat) (d : Dst) (a : Src) (f : Rounding → Word → Word × BitVec 6) : M Flow := do
  checkDst d
  let x ← read1 a
  let sl ← getSlot
  let r := f sl.scalarRounding x
  writeDst (slat lam [a]) r.2 d r.1
  return .seq

/-- A fused operation: A, B, then C, which names q0 to q3 (R165). -/
def fpOp3 (d : Dst) (a b : Src) (c : BitVec 2) (np na : Bool) : M Flow := do
  checkDst d
  let (x, y, z) ← read3 a b (.q (Fin.ofNat 16 c.toNat))
  let sl ← getSlot
  let r := floatFma 4 sl.scalarRounding np na (fp32Of x) (fp32Of y) (fp32Of z)
  writeDst (slat 4 [a, b]) r.2 d (BitVec.ofNat 64 r.1)
  return .seq

/-- A comparison as an integer result. -/
def fpCompare (k : FCmp) (_ : Rounding) (x y : Nat) : Nat × BitVec 6 :=
  let r := floatCmp 4 false k x y
  (r.1.toNat, r.2)

/-- FADD (R163). -/
def execFadd (stl : Stl) (d : Dst) (a b : Src) (s : State) : Result :=
  issue (opA 0x0F 0 stl d.code a.code b.code) (fpOp2 4 d a b fun R x y => floatAdd 4 R x y) s

/-- FSUB. -/
def execFsub (stl : Stl) (d : Dst) (a b : Src) (s : State) : Result :=
  issue (opA 0x0F 1 stl d.code a.code b.code) (fpOp2 4 d a b fun R x y => floatSub 4 R x y) s

/-- FMUL. -/
def execFmul (stl : Stl) (d : Dst) (a b : Src) (s : State) : Result :=
  issue (opA 0x0F 2 stl d.code a.code b.code) (fpOp2 4 d a b fun R x y => floatMul 4 R x y) s

/-- FDIV. -/
def execFdiv (stl : Stl) (d : Dst) (a b : Src) (s : State) : Result :=
  issue (opA 0x0F 3 stl d.code a.code b.code) (fpOp2 12 d a b fun R x y => floatDiv 4 R x y) s

/-- FSQRT. -/
def execFsqrt (stl : Stl) (d : Dst) (a : Src) (s : State) : Result :=
  issue (opA 0x0F 4 stl d.code a.code 0) (fpOp1 12 d a fun R x =>
    let r := floatSqrt 4 R (fp32Of x)
    (BitVec.ofNat 64 r.1, r.2)) s

/-- FMIN. -/
def execFmin (stl : Stl) (d : Dst) (a b : Src) (s : State) : Result :=
  issue (opA 0x0F 5 stl d.code a.code b.code) (fpOp2 4 d a b fun R x y => floatMinMax 4 R false x y) s

/-- FMAX. -/
def execFmax (stl : Stl) (d : Dst) (a b : Src) (s : State) : Result :=
  issue (opA 0x0F 6 stl d.code a.code b.code) (fpOp2 4 d a b fun R x y => floatMinMax 4 R true x y) s

/-- FCMPEQ. -/
def execFcmpeq (stl : Stl) (d : Dst) (a b : Src) (s : State) : Result :=
  issue (opA 0x0F 7 stl d.code a.code b.code) (fpOp2 4 d a b (fpCompare .eq)) s

/-- FCMPLT. -/
def execFcmplt (stl : Stl) (d : Dst) (a b : Src) (s : State) : Result :=
  issue (opA 0x0F 8 stl d.code a.code b.code) (fpOp2 4 d a b (fpCompare .lt)) s

/-- FCMPLE. -/
def execFcmple (stl : Stl) (d : Dst) (a b : Src) (s : State) : Result :=
  issue (opA 0x0F 9 stl d.code a.code b.code) (fpOp2 4 d a b (fpCompare .le)) s

/-- FCVTIF: a signed 64-bit integer to FP32. -/
def execFcvtif (stl : Stl) (d : Dst) (a : Src) (s : State) : Result :=
  issue (opA 0x0F 10 stl d.code a.code 0) (fpOp1 6 d a fun R x =>
    let r := roundFloat 4 R (intVal x.toInt)
    (BitVec.ofNat 64 r.1, r.2)) s

/-- FCVTFI: FP32 to a signed 64-bit integer with the bounds of R163 (R76). -/
def execFcvtfi (stl : Stl) (d : Dst) (a : Src) (s : State) : Result :=
  issue (opA 0x0F 11 stl d.code a.code 0) (fpOp1 6 d a fun R x =>
    let r := valToInt (-2 ^ 63) (2 ^ 63 - 1) R (floatVal 4 (fp32Of x))
    (BitVec.ofInt 64 r.1, r.2)) s

/-- FCLASS (R164). -/
def execFclass (stl : Stl) (d : Dst) (a : Src) (s : State) : Result :=
  issue (opA 0x0F 12 stl d.code a.code 0) (fpOp1 4 d a fun _ x => (BitVec.ofNat 64 (floatClass 4 (fp32Of x)), 0)) s

/-- FABS: bit 31 cleared, on the pattern alone. -/
def execFabs (stl : Stl) (d : Dst) (a : Src) (s : State) : Result :=
  issue (opA 0x0F 13 stl d.code a.code 0) (fpOp1 4 d a fun _ x => (x &&& 0x7FFFFFFF, 0)) s

/-- FNEG: bit 31 inverted, on the pattern alone. -/
def execFneg (stl : Stl) (d : Dst) (a : Src) (s : State) : Result :=
  issue (opA 0x0F 14 stl d.code a.code 0) (fpOp1 4 d a fun _ x => ((x &&& 0xFFFFFFFF) ^^^ 0x80000000, 0)) s

/-- FSGNJ: the sign of b on the magnitude of a. -/
def execFsgnj (stl : Stl) (d : Dst) (a b : Src) (s : State) : Result :=
  issue (opA 0x0F 15 stl d.code a.code b.code) (fpOp2 4 d a b fun _ x y =>
    (x % 2 ^ 31 + y / 2 ^ 31 * 2 ^ 31, 0)) s

/-- FMA: a × b + c, rounded once (R165). -/
def execFma (stl : Stl) (d : Dst) (a b : Src) (c : BitVec 2) (s : State) : Result :=
  issue (opF 0x10 0 stl d.code a.code b.code c) (fpOp3 d a b c false false) s

/-- FMS: a × b − c. -/
def execFms (stl : Stl) (d : Dst) (a b : Src) (c : BitVec 2) (s : State) : Result :=
  issue (opF 0x10 1 stl d.code a.code b.code c) (fpOp3 d a b c false true) s

/-- FNMA: −(a × b) − c. -/
def execFnma (stl : Stl) (d : Dst) (a b : Src) (c : BitVec 2) (s : State) : Result :=
  issue (opF 0x10 2 stl d.code a.code b.code c) (fpOp3 d a b c true true) s

/-- FNMS: −(a × b) + c. -/
def execFnms (stl : Stl) (d : Dst) (a b : Src) (c : BitVec 2) (s : State) : Result :=
  issue (opF 0x10 3 stl d.code a.code b.code c) (fpOp3 d a b c true false) s

end Sys2Proof.Machine
end

