-- ==== Sys2Proof/Machine/Trans.lean ====
section
/-! DEFINITION. Transcendental functions (spec/03_numbers.md R81 to R89, R433) and their vector instructions, majors 0x2F and
0x30 (spec/07_isa_vector.md R195). For the formats of 16 bits or fewer the exact function value is rounded once: it is
formed in 768 fraction bits, below every rounding position of these formats, and no such value of a nonzero argument is a
rounding boundary. For FP32 the algorithms of R83 to R89 run step by step on patterns. -/

namespace Sys2Proof.Machine

/-! ### Fixed point -/

/-- Fraction bits of the fixed-point values below. -/
def fixBits : Nat := 768

/-- ln 2 in fixed point. -/
def fixLn2 : Nat :=
  0xb17217f7d1cf79abc9e3b39803f2f6af40f343267298b62d8a0d175b8baafa2be7b876206debac98559552fb4afa1b10ed2eae35c138214427573b291169b8253e96ca16224ae8c51acbda11317c387eb9ea9bc3b136603b256fa0ec7657f74b

/-- π/2 in fixed point. -/
def fixHalfPi : Nat :=
  0x1921fb54442d18469898cc51701b839a252049c1114cf98e804177d4c76273644a29410f31c6809bbdf2a33679a748636605614dbe4be286e9fc26adadaa3848bc90b6aecc4bcfd8de89885d34c6fdad617feb96de80d6fdbdc70d7f6b5133f4b

/-- m · 2^e with a sign, in fixed point. -/
def toFix (neg : Bool) (m : Nat) (e : Int) : Int :=
  let u : Int := e + fixBits
  let k : Int := if 0 ≤ u then m * 2 ^ u.toNat else m / 2 ^ (-u).toNat
  if neg then -k else k

/-- A fixed-point value that stands for one that is no multiple of its unit: the last bit says so. -/
def fixVal (M : Int) : Val := .num (decide (M < 0)) (2 * M.natAbs + 1) (-(fixBits : Int) - 1)

/-- Σ r^n / n! from a term on. -/
def expSeries : Nat → Nat → Nat → Nat → Nat
  | 0, _, _, _ => 0
  | fuel + 1, n, term, r => term + expSeries fuel (n + 1) (term * r / 2 ^ fixBits / n) r

/-- e^x for a fixed-point x of magnitude at most 600. -/
def expFix (x : Int) : Nat :=
  let k := x / (fixLn2 : Int)
  let r := (x - k * fixLn2).toNat
  let v := expSeries 150 1 (2 ^ fixBits) r
  if 0 ≤ k then v * 2 ^ k.toNat else v / 2 ^ (-k).toNat

/-- Σ z^(2i+1) / (2i+1) from a power on. -/
def atanhSeries : Nat → Nat → Nat → Nat → Nat
  | 0, _, _, _ => 0
  | fuel + 1, n, power, zz => power / n + atanhSeries fuel (n + 2) (power * zz / 2 ^ fixBits) zz

/-- ln(m · 2^e) for m > 0. -/
def logFix (m : Nat) (e : Int) : Int :=
  let L := m.log2
  let z := (m - 2 ^ L) * 2 ^ fixBits / (m + 2 ^ L)
  (2 * atanhSeries 250 1 z (z * z / 2 ^ fixBits) : Nat) + ((L : Int) + e) * fixLn2

/-- Σ of the alternating series of sine (first n = 1) or cosine (first n = 0) from a term on. -/
def trigSeries : Nat → Nat → Int → Int → Int
  | 0, _, _, _ => 0
  | fuel + 1, n, term, rr =>
    term + trigSeries fuel (n + 2) (-(term * rr / 2 ^ fixBits / ((n + 1) * (n + 2) : Nat))) rr

/-- The multiple of π/2 nearest to a fixed-point value, and what is left. -/
def trigReduce (x : Int) : Int × Int :=
  let n := (2 * x + fixHalfPi) / (2 * fixHalfPi : Nat)
  (n, x - n * fixHalfPi)

/-- The sine of a quarter turn count and a rest. -/
def sinFix (n r : Int) : Int :=
  let rr := r * r / 2 ^ fixBits
  let sn := trigSeries 80 1 r rr
  let cs := trigSeries 80 0 (2 ^ fixBits) rr
  if n % 4 == 0 then sn else if n % 4 == 1 then cs else if n % 4 == 2 then -sn else -cs

/-! ### Special cases (R82) -/

/-- The functions of R81. -/
inductive TransFn where
  | exp
  | log
  | recip
  | rsqrt
  | tanh
  | sigm
  | sin
  | cos
  deriving DecidableEq, Repr

/-- 1.0. -/
def oneVal : Val := .num false 1 0

/-- The table of R82 for an infinity. -/
def transInf (f : TransFn) (neg : Bool) : Val × BitVec 6 :=
  match f with
  | .exp => (if neg then .num false 0 0 else .inf false, 0)
  | .log => if neg then nanResult true else (.inf false, 0)
  | .recip => (.num neg 0 0, 0)
  | .rsqrt => if neg then nanResult true else (.num false 0 0, 0)
  | .tanh => (.num neg 1 0, 0)
  | .sigm => (if neg then .num false 0 0 else oneVal, 0)
  | .sin => nanResult true
  | .cos => nanResult true

/-- The table of R82 for a zero. -/
def transZero (f : TransFn) (neg : Bool) : Val × BitVec 6 :=
  match f with
  | .exp => (oneVal, 0)
  | .log => (.inf true, fDZ)
  | .recip => (.inf neg, fDZ)
  | .rsqrt => (.inf neg, fDZ)
  | .tanh => (.num neg 0 0, 0)
  | .sigm => (.num false 1 (-1), 0)
  | .sin => (.num neg 0 0, 0)
  | .cos => (oneVal, 0)

/-- The special cases of R82 with NaN inputs by R68, or none. -/
def transSpecial (f : TransFn) (x : Val) : Option (Val × BitVec 6) :=
  match x with
  | .nan s => some (nanResult s)
  | .inf n => some (transInf f n)
  | .num n m e =>
    if m == 0 then some (transZero f n)
    else if n && (f == .log || f == .rsqrt) then some (nanResult true)
    else if f == .log && m == 2 ^ m.log2 && (m.log2 : Int) + e == 0 then some (.num false 0 0, 0)
    else none

/-! ### Exact values for the narrow formats -/

/-- 1/√(m · 2^e). The last bit stands for a nonzero remainder. -/
def rsqrtVal (m : Nat) (e : Int) : Val :=
  let p := (e % 2).toNat
  let m := m * 2 ^ p
  let k := 64 + m.log2
  let a := 2 ^ (2 * k)
  let r := isqrt (a / m)
  .num false (2 * r + (if r * r * m == a then 0 else 1)) (-((e - p) / 2) - k - 1)

/-- The function value of a number that is no special case. Far arguments stand at a bound beyond which no narrow format
tells results apart. -/
def transExact (f : TransFn) (n : Bool) (m : Nat) (e : Int) : Val :=
  let one : Int := 2 ^ fixBits
  let x := toFix n m e
  match f with
  | .exp => fixVal (expFix (clampInt (-300 * one) (300 * one) x))
  | .log => fixVal (logFix m e)
  | .recip => (divVal oneVal (.num n m e)).1
  | .rsqrt => rsqrtVal m e
  | .tanh =>
    let t : Int := expFix (2 * clampInt (-150 * one) (150 * one) (if n then -x else x))
    let v := (t - one) * one / (t + one)
    fixVal (if n then -v else v)
  | .sigm => fixVal (one * one / (one + (expFix (-(clampInt (-300 * one) (300 * one) x)) : Int)))
  | .sin =>
    let r := trigReduce x
    fixVal (sinFix r.1 r.2)
  | .cos =>
    let r := trigReduce x
    fixVal (sinFix (r.1 + 1) r.2)

/-! ### FP32 (R83 to R89) -/

/-- fma in FP32 and RNE. -/
def fma32 (a b c : Nat) : Nat := (floatFma 4 rne false false a b c).1
/-- fmul in FP32 and RNE. -/
def mul32 (a b : Nat) : Nat := (floatMul 4 rne a b).1
/-- fadd in FP32 and RNE. -/
def add32 (a b : Nat) : Nat := (floatAdd 4 rne a b).1
/-- fdiv in FP32 and RNE. -/
def div32 (a b : Nat) : Nat := (floatDiv 4 rne a b).1
/-- The pattern with its sign inverted. -/
def neg32 (a : Nat) : Nat := (a + 2 ^ 31) % 2 ^ 32
/-- A value rounded to FP32 in RNE. -/
def to32 (v : Val) : Nat := (roundFloat 4 rne v).1
/-- A fraction rounded to FP32 in RNE. -/
def const32 (n : Int) (d : Nat) : Nat := to32 (divVal (intVal n) (intVal d)).1
/-- 1.0. -/
def one32 : Nat := 0x3F800000
/-- −1.0. -/
def minusOne32 : Nat := 0xBF800000
/-- 0.5. -/
def half32 : Nat := 0x3F000000
/-- −0.5. -/
def minusHalf32 : Nat := 0xBF000000

/-- INV64LN2. -/
def inv64Ln2 : Nat := to32 (fixVal (64 * 2 ^ (2 * fixBits) / (fixLn2 : Int)))
/-- L_HI. -/
def lHi : Nat := const32 710 65536
/-- L_LO. -/
def lLo : Nat := to32 (fixVal ((fixLn2 : Int) / 64 - 710 * 2 ^ (fixBits - 16)))
/-- LN2_HI. -/
def ln2Hi : Nat := const32 45426 65536
/-- LN2_LO. -/
def ln2Lo : Nat := to32 (fixVal ((fixLn2 : Int) - 45426 * 2 ^ (fixBits - 16)))
/-- TEXP. -/
def texp (j : Nat) : Nat := if j == 0 then one32 else to32 (fixVal (expFix ((fixLn2 : Int) * j / 64)))
/-- RLOG. -/
def rlog (j : Nat) : Nat := const32 64 (64 + j)
/-- TLOG: the logarithm of the FP32 value of RLOG with its sign inverted. -/
def tlog (j : Nat) : Nat :=
  if j == 0 then 0
  else
    match floatVal 4 (rlog j) with
    | .num _ m e => to32 (fixVal (-(logFix m e)))
    | _ => 0
/-- RREC. -/
def rrec (j : Nat) : Nat := const32 256 (256 + 2 * j + 1)
/-- RRSQ. -/
def rrsq (p j : Nat) : Nat := to32 (rsqrtVal ((1 + p) * (128 + 2 * j + 1)) (-7))

/-- The final step of VFEXP, before its rounding (R84). -/
def exp32 (x : Nat) : Val :=
  let v := floatVal 4 x
  let x := if cmpVal v (intVal 128) == some .gt then 0x43000000
    else if cmpVal v (intVal (-150)) == some .lt then 0xC3160000 else x
  let n := (valToInt (-(2 ^ 31)) (2 ^ 31) rne (floatVal 4 (mul32 x inv64Ln2))).1
  let j := (n % 64).toNat
  let k := (n - j) / 64
  let nf := neg32 (to32 (intVal n))
  let rh := fma32 nf lHi x
  let rd := fma32 nf lLo rh
  let p := fma32 (const32 1 6) rd half32
  let p := fma32 p rd one32
  let q := mul32 p rd
  let t := floatVal 4 (texp j)
  (fmaVal 0 t (floatVal 4 q) t).1.scale k

/-- VFLOG of m · 2^e (R85): the operands of its last addition. -/
def log32 (m : Nat) (e : Int) : Nat × Nat :=
  let L := m.log2
  let j := (m * 128 + 2 ^ L) / 2 ^ (L + 1) - 64
  let top := j == 64
  let E := (L : Int) + e + (if top then 1 else 0)
  let f := to32 (.num false m (-(L : Int) - (if top then 1 else 0)))
  let j := if top then 0 else j
  let u := fma32 f (rlog j) minusOne32
  let p := fma32 0xBE800000 u (const32 1 3)
  let p := fma32 p u minusHalf32
  let lp := fma32 (mul32 u u) p u
  let ef := to32 (intVal E)
  (fma32 ef ln2Hi (tlog j), fma32 ef ln2Lo lp)

/-- A step of VFRECIP (R86). -/
def recipStep (m y : Nat) : Nat := fma32 y (fma32 (neg32 m) y one32) y

/-- VFRECIP of ±m · 2^e before its rounding. -/
def recip32 (n : Bool) (m : Nat) (e : Int) : Val :=
  let L := m.log2
  let mp := to32 (.num false m (-(L : Int)))
  let y := recipStep mp (recipStep mp (rrec (m * 128 / 2 ^ L - 128)))
  let v := (floatVal 4 y).scale (-((L : Int) + e))
  if n then v.negate else v

/-- A step of VFRSQRT (R86). -/
def rsqrtStep (mm y : Nat) : Nat := fma32 (mul32 y half32) (fma32 (neg32 (mul32 mm y)) y one32) y

/-- VFRSQRT of m · 2^e before its rounding. -/
def rsqrt32 (m : Nat) (e : Int) : Val :=
  let L := m.log2
  let E := (L : Int) + e
  let p := (E % 2).toNat
  let mm := to32 (.num false (m * (1 + p)) (-(L : Int)))
  let y := rsqrtStep mm (rsqrtStep mm (rrsq p (m * 64 / 2 ^ L - 64)))
  (floatVal 4 y).scale (-((E - p) / 2))

/-- VFSIN and VFCOS (R89): sn and cs of the reduced argument, and n mod 4. -/
def trig32 (n : Bool) (m : Nat) (e : Int) : Nat × (Nat × BitVec 6) × (Nat × BitVec 6) :=
  let t := trigReduce (toFix n m e)
  let rd := if t.1 == 0 then to32 (.num n m e) else to32 (fixVal t.2)
  let s := mul32 rd rd
  let ps := fma32 (const32 1 362880) s (const32 (-1) 5040)
  let ps := fma32 ps s (const32 1 120)
  let ps := fma32 ps s (const32 (-1) 6)
  let pc := fma32 (const32 (-1) 3628800) s (const32 1 40320)
  let pc := fma32 pc s (const32 (-1) 720)
  let pc := fma32 pc s (const32 1 24)
  let pc := fma32 pc s minusHalf32
  ((t.1 % 4).toNat, floatFma 4 rne false false (mul32 rd s) ps rd, floatFma 4 rne false false s pc one32)

/-- A pattern with its sign inverted, its flags kept. -/
def negFlags (x : Nat × BitVec 6) : Nat × BitVec 6 := (neg32 x.1, x.2)

/-- The FP32 result of an algorithm with the flags of its last rounding. -/
def trans32 (f : TransFn) (bits : Nat) (n : Bool) (m : Nat) (e : Int) : Nat × BitVec 6 :=
  match f with
  | .exp => roundFloat 4 rne (exp32 bits)
  | .log => let r := log32 m e; floatAdd 4 rne r.1 r.2
  | .recip => roundFloat 4 rne (recip32 n m e)
  | .rsqrt => roundFloat 4 rne (rsqrt32 m e)
  | .tanh =>
    let a := bits % 2 ^ 31
    if Nat.blt a 0x3E000000 then
      let s := mul32 bits bits
      let p := fma32 (const32 (-17) 315) s (const32 2 15)
      let p := fma32 p s (const32 (-1) 3)
      floatFma 4 rne false false (mul32 bits s) p bits
    else if Nat.ble 0x41200000 a then (withSign 4 n one32, 0)
    else
      let g := to32 (exp32 (mul32 0x40000000 a))
      let r := floatSub 4 rne one32 (div32 0x40000000 (add32 g one32))
      (withSign 4 n r.1, r.2)
  | .sigm => floatDiv 4 rne one32 (add32 one32 (to32 (exp32 (neg32 bits))))
  | .sin =>
    let t := trig32 n m e
    if t.1 == 0 then t.2.1 else if t.1 == 1 then t.2.2 else if t.1 == 2 then negFlags t.2.1 else negFlags t.2.2
  | .cos =>
    let t := trig32 n m e
    if t.1 == 0 then t.2.2 else if t.1 == 1 then negFlags t.2.1 else if t.1 == 2 then negFlags t.2.2 else t.2.1

/-- An algorithm's result with the flags of R81 and FTZ at the output (R74). -/
def trans32Out (ftz : Bool) (r : Nat × BitVec 6) : Nat × BitVec 6 :=
  let mag := r.1 % 2 ^ 31
  if ftz && mag != 0 && Nat.blt mag (2 ^ 23) then (r.1 - mag, fUF ||| fNX) else (r.1, r.2 ||| fNX)

/-- One element of a transcendental (R81, R82). -/
def transElem (f : TransFn) (c : Nat) (R : Rounding) (bits : Nat) : Nat × BitVec 6 :=
  let b := flushIn R.ftz c bits
  let x := floatVal c b
  match transSpecial f x, x with
  | some r, _ => let o := roundFloat c R r.1; (o.1, r.2 ||| o.2)
  | none, .num n m e => if c == 4 then trans32Out R.ftz (trans32 f b n m e) else roundFloat c R (transExact f n m e)
  | none, _ => (0, 0)

/-! ### Instructions (R195) -/

/-- A transcendental over the active lanes, class TRANS. -/
def vtrans (f : TransFn) (d : VDst) (a : VSrc) (m : MaskNo) : M Flow :=
  vop1 10 fmtFloat d a m (lanewise1 fun e x => transElem f e.fmt e.rounding x)

/-- VFEXP. -/
def execVfexp (stl : Stl) (d : VDst) (a : VSrc) (m : MaskNo) (s : State) : Result :=
  issue (opV 0x2F 0 stl d.code a.code 0 m) (vtrans .exp d a m) s
/-- VFLOG. -/
def execVflog (stl : Stl) (d : VDst) (a : VSrc) (m : MaskNo) (s : State) : Result :=
  issue (opV 0x2F 1 stl d.code a.code 0 m) (vtrans .log d a m) s
/-- VFRECIP. -/
def execVfrecip (stl : Stl) (d : VDst) (a : VSrc) (m : MaskNo) (s : State) : Result :=
  issue (opV 0x2F 2 stl d.code a.code 0 m) (vtrans .recip d a m) s
/-- VFRSQRT. -/
def execVfrsqrt (stl : Stl) (d : VDst) (a : VSrc) (m : MaskNo) (s : State) : Result :=
  issue (opV 0x2F 3 stl d.code a.code 0 m) (vtrans .rsqrt d a m) s
/-- VFTANH. -/
def execVftanh (stl : Stl) (d : VDst) (a : VSrc) (m : MaskNo) (s : State) : Result :=
  issue (opV 0x30 0 stl d.code a.code 0 m) (vtrans .tanh d a m) s
/-- VFSIGM. -/
def execVfsigm (stl : Stl) (d : VDst) (a : VSrc) (m : MaskNo) (s : State) : Result :=
  issue (opV 0x30 1 stl d.code a.code 0 m) (vtrans .sigm d a m) s
/-- VFSIN. -/
def execVfsin (stl : Stl) (d : VDst) (a : VSrc) (m : MaskNo) (s : State) : Result :=
  issue (opV 0x30 2 stl d.code a.code 0 m) (vtrans .sin d a m) s
/-- VFCOS. -/
def execVfcos (stl : Stl) (d : VDst) (a : VSrc) (m : MaskNo) (s : State) : Result :=
  issue (opV 0x30 3 stl d.code a.code 0 m) (vtrans .cos d a m) s

end Sys2Proof.Machine
end

