-- ==== Sys2Proof/Machine/Dispatch.lean ====
section
/-! DEFINITION. One arm for each instruction: the direct call of its meaning. -/

namespace Sys2Proof.Machine

def exec (i : Instr) (s : State) : Host.Outcome State Fault Refusal :=
  match i with
  | .add stl d a b => Sys2Proof.Machine.execAdd stl d a b s
  | .sub stl d a b => Sys2Proof.Machine.execSub stl d a b s
  | .and stl d a b => Sys2Proof.Machine.execAnd stl d a b s
  | .or stl d a b => Sys2Proof.Machine.execOr stl d a b s
  | .xor stl d a b => Sys2Proof.Machine.execXor stl d a b s
  | .andn stl d a b => Sys2Proof.Machine.execAndn stl d a b s
  | .orn stl d a b => Sys2Proof.Machine.execOrn stl d a b s
  | .shl stl d a b => Sys2Proof.Machine.execShl stl d a b s
  | .shr stl d a b => Sys2Proof.Machine.execShr stl d a b s
  | .shra stl d a b => Sys2Proof.Machine.execShra stl d a b s
  | .rot stl d a b => Sys2Proof.Machine.execRot stl d a b s
  | .min stl d a b => Sys2Proof.Machine.execMin stl d a b s
  | .max stl d a b => Sys2Proof.Machine.execMax stl d a b s
  | .minu stl d a b => Sys2Proof.Machine.execMinu stl d a b s
  | .maxu stl d a b => Sys2Proof.Machine.execMaxu stl d a b s
  | .mul stl d a b => Sys2Proof.Machine.execMul stl d a b s
  | .mulh stl d a b => Sys2Proof.Machine.execMulh stl d a b s
  | .mulhu stl d a b => Sys2Proof.Machine.execMulhu stl d a b s
  | .div stl d a b => Sys2Proof.Machine.execDiv stl d a b s
  | .divu stl d a b => Sys2Proof.Machine.execDivu stl d a b s
  | .rem stl d a b => Sys2Proof.Machine.execRem stl d a b s
  | .remu stl d a b => Sys2Proof.Machine.execRemu stl d a b s
  | .cmpeq stl d a b => Sys2Proof.Machine.execCmpeq stl d a b s
  | .cmpne stl d a b => Sys2Proof.Machine.execCmpne stl d a b s
  | .cmplt stl d a b => Sys2Proof.Machine.execCmplt stl d a b s
  | .cmpltu stl d a b => Sys2Proof.Machine.execCmpltu stl d a b s
  | .cmple stl d a b => Sys2Proof.Machine.execCmple stl d a b s
  | .cmpleu stl d a b => Sys2Proof.Machine.execCmpleu stl d a b s
  | .cmov stl d a b => Sys2Proof.Machine.execCmov stl d a b s
  | .clz stl d a => Sys2Proof.Machine.execClz stl d a s
  | .ctz stl d a => Sys2Proof.Machine.execCtz stl d a s
  | .popc stl d a => Sys2Proof.Machine.execPopc stl d a s
  | .addw stl d a b => Sys2Proof.Machine.execAddw stl d a b s
  | .subw stl d a b => Sys2Proof.Machine.execSubw stl d a b s
  | .mulw stl d a b => Sys2Proof.Machine.execMulw stl d a b s
  | .brev stl d a => Sys2Proof.Machine.execBrev stl d a s
  | .bswap stl d a => Sys2Proof.Machine.execBswap stl d a s
  | .exts stl d a b => Sys2Proof.Machine.execExts stl d a b s
  | .extz stl d a b => Sys2Proof.Machine.execExtz stl d a b s
  | .ins stl d a b => Sys2Proof.Machine.execIns stl d a b s
  | .addi stl d a imm => Sys2Proof.Machine.execAddi stl d a imm s
  | .andi stl d a imm => Sys2Proof.Machine.execAndi stl d a imm s
  | .ori stl d a imm => Sys2Proof.Machine.execOri stl d a imm s
  | .xori stl d a imm => Sys2Proof.Machine.execXori stl d a imm s
  | .shli stl d a imm => Sys2Proof.Machine.execShli stl d a imm s
  | .shri stl d a imm => Sys2Proof.Machine.execShri stl d a imm s
  | .shrai stl d a imm => Sys2Proof.Machine.execShrai stl d a imm s
  | .cmpeqi stl d a imm => Sys2Proof.Machine.execCmpeqi stl d a imm s
  | .cmplti stl d a imm => Sys2Proof.Machine.execCmplti stl d a imm s
  | .limm stl d k => Sys2Proof.Machine.execLimm stl d k s
  | .limh stl d k => Sys2Proof.Machine.execLimh stl d k s
  | .addp stl d a b => Sys2Proof.Machine.execAddp stl d a b s
  | .subp stl d a b => Sys2Proof.Machine.execSubp stl d a b s
  | .ptag stl d a b => Sys2Proof.Machine.execPtag stl d a b s
  | .ptagx stl d a => Sys2Proof.Machine.execPtagx stl d a s
  | .pmkt stl d a b => Sys2Proof.Machine.execPmkt stl d a b s
  | .pspace stl d a b => Sys2Proof.Machine.execPspace stl d a b s
  | .fadd stl d a b => Sys2Proof.Machine.execFadd stl d a b s
  | .fsub stl d a b => Sys2Proof.Machine.execFsub stl d a b s
  | .fmul stl d a b => Sys2Proof.Machine.execFmul stl d a b s
  | .fdiv stl d a b => Sys2Proof.Machine.execFdiv stl d a b s
  | .fsqrt stl d a => Sys2Proof.Machine.execFsqrt stl d a s
  | .fmin stl d a b => Sys2Proof.Machine.execFmin stl d a b s
  | .fmax stl d a b => Sys2Proof.Machine.execFmax stl d a b s
  | .fcmpeq stl d a b => Sys2Proof.Machine.execFcmpeq stl d a b s
  | .fcmplt stl d a b => Sys2Proof.Machine.execFcmplt stl d a b s
  | .fcmple stl d a b => Sys2Proof.Machine.execFcmple stl d a b s
  | .fcvtif stl d a => Sys2Proof.Machine.execFcvtif stl d a s
  | .fcvtfi stl d a => Sys2Proof.Machine.execFcvtfi stl d a s
  | .fclass stl d a => Sys2Proof.Machine.execFclass stl d a s
  | .fabs stl d a => Sys2Proof.Machine.execFabs stl d a s
  | .fneg stl d a => Sys2Proof.Machine.execFneg stl d a s
  | .fsgnj stl d a b => Sys2Proof.Machine.execFsgnj stl d a b s
  | .fma stl d a b c => Sys2Proof.Machine.execFma stl d a b c s
  | .fms stl d a b c => Sys2Proof.Machine.execFms stl d a b c s
  | .fnma stl d a b c => Sys2Proof.Machine.execFnma stl d a b c s
  | .fnms stl d a b c => Sys2Proof.Machine.execFnms stl d a b c s
  | .bz stl c o => Sys2Proof.Machine.execBz stl c o s
  | .bnz stl c o => Sys2Proof.Machine.execBnz stl c o s
  | .bltz stl c o => Sys2Proof.Machine.execBltz stl c o s
  | .bgez stl c o => Sys2Proof.Machine.execBgez stl c o s
  | .br stl o => Sys2Proof.Machine.execBr stl o s
  | .call stl o => Sys2Proof.Machine.execCall stl o s
  | .loop stl c o => Sys2Proof.Machine.execLoop stl c o s
  | .jr stl a => Sys2Proof.Machine.execJr stl a s
  | .ret stl => Sys2Proof.Machine.execRet stl s
  | .yield stl => Sys2Proof.Machine.execYield stl s
  | .done stl => Sys2Proof.Machine.execDone stl s
  | .donef stl => Sys2Proof.Machine.execDonef stl s
  | .nop stl => Sys2Proof.Machine.execNop stl s
  | .waitf stl a => Sys2Proof.Machine.execWaitf stl a s
  | .femark stl a => Sys2Proof.Machine.execFemark stl a s
  | .fefill stl a => Sys2Proof.Machine.execFefill stl a s
  | .fetest stl d a => Sys2Proof.Machine.execFetest stl d a s
  | .bararr stl d a => Sys2Proof.Machine.execBararr stl d a s
  | .barwait stl d a b => Sys2Proof.Machine.execBarwait stl d a b s
  | .crd stl d imm => Sys2Proof.Machine.execCrd stl d imm s
  | .cwr stl a imm => Sys2Proof.Machine.execCwr stl a imm s
  | .fenceRel stl g => Sys2Proof.Machine.execFenceRel stl g s
  | .fenceAcq stl g => Sys2Proof.Machine.execFenceAcq stl g s
  | .fenceFull stl g => Sys2Proof.Machine.execFenceFull stl g s
  | .fenceLb stl => Sys2Proof.Machine.execFenceLb stl s
  | .ld stl d p z f => Sys2Proof.Machine.execLd stl d p z f s
  | .lds stl d p z f => Sys2Proof.Machine.execLds stl d p z f s
  | .st stl d p z f => Sys2Proof.Machine.execSt stl d p z f s
  | .ldx stl d a b => Sys2Proof.Machine.execLdx stl d a b s
  | .stx stl d a b => Sys2Proof.Machine.execStx stl d a b s
  | .ldt stl d a b => Sys2Proof.Machine.execLdt stl d a b s
  | .stf stl d a b => Sys2Proof.Machine.execStf stl d a b s
  | .aadd stl d a b => Sys2Proof.Machine.execAadd stl d a b s
  | .amax stl d a b => Sys2Proof.Machine.execAmax stl d a b s
  | .amin stl d a b => Sys2Proof.Machine.execAmin stl d a b s
  | .amaxu stl d a b => Sys2Proof.Machine.execAmaxu stl d a b s
  | .aminu stl d a b => Sys2Proof.Machine.execAminu stl d a b s
  | .aand stl d a b => Sys2Proof.Machine.execAand stl d a b s
  | .aor stl d a b => Sys2Proof.Machine.execAor stl d a b s
  | .axor stl d a b => Sys2Proof.Machine.execAxor stl d a b s
  | .aswap stl d a b => Sys2Proof.Machine.execAswap stl d a b s
  | .acas stl d a b => Sys2Proof.Machine.execAcas stl d a b s
  | .afxadd stl d a b => Sys2Proof.Machine.execAfxadd stl d a b s
  | .afxrd stl d a => Sys2Proof.Machine.execAfxrd stl d a s
  | .afxset stl d a b => Sys2Proof.Machine.execAfxset stl d a b s
  | .aamax stl d a b => Sys2Proof.Machine.execAamax stl d a b s
  | .vaadd stl d a b => Sys2Proof.Machine.execVaadd stl d a b s
  | .vamaxabs stl d a b => Sys2Proof.Machine.execVamaxabs stl d a b s
  | .vafx stl d a b => Sys2Proof.Machine.execVafx stl d a b s
  | .vamaxDrain stl d a => Sys2Proof.Machine.execVamaxDrain stl d a s
  | .vadd stl d a b m => Sys2Proof.Machine.execVadd stl d a b m s
  | .vsub stl d a b m => Sys2Proof.Machine.execVsub stl d a b m s
  | .vmul stl d a b m => Sys2Proof.Machine.execVmul stl d a b m s
  | .vmulh stl d a b m => Sys2Proof.Machine.execVmulh stl d a b m s
  | .vand stl d a b m => Sys2Proof.Machine.execVand stl d a b m s
  | .vor stl d a b m => Sys2Proof.Machine.execVor stl d a b m s
  | .vxor stl d a b m => Sys2Proof.Machine.execVxor stl d a b m s
  | .vandn stl d a b m => Sys2Proof.Machine.execVandn stl d a b m s
  | .vshl stl d a b m => Sys2Proof.Machine.execVshl stl d a b m s
  | .vshr stl d a b m => Sys2Proof.Machine.execVshr stl d a b m s
  | .vshra stl d a b m => Sys2Proof.Machine.execVshra stl d a b m s
  | .vabsd stl d a b m => Sys2Proof.Machine.execVabsd stl d a b m s
  | .vmin stl d a b m => Sys2Proof.Machine.execVmin stl d a b m s
  | .vmax stl d a b m => Sys2Proof.Machine.execVmax stl d a b m s
  | .vminu stl d a b m => Sys2Proof.Machine.execVminu stl d a b m s
  | .vmaxu stl d a b m => Sys2Proof.Machine.execVmaxu stl d a b m s
  | .vfadd stl d a b m => Sys2Proof.Machine.execVfadd stl d a b m s
  | .vfsub stl d a b m => Sys2Proof.Machine.execVfsub stl d a b m s
  | .vfmul stl d a b m => Sys2Proof.Machine.execVfmul stl d a b m s
  | .vfdiv stl d a b m => Sys2Proof.Machine.execVfdiv stl d a b m s
  | .vfmin stl d a b m => Sys2Proof.Machine.execVfmin stl d a b m s
  | .vfmax stl d a b m => Sys2Proof.Machine.execVfmax stl d a b m s
  | .vfabs stl d a m => Sys2Proof.Machine.execVfabs stl d a m s
  | .vfneg stl d a m => Sys2Proof.Machine.execVfneg stl d a m s
  | .vfma stl d a b c => Sys2Proof.Machine.execVfma stl d a b c s
  | .vfms stl d a b c => Sys2Proof.Machine.execVfms stl d a b c s
  | .vfnma stl d a b c => Sys2Proof.Machine.execVfnma stl d a b c s
  | .vfnms stl d a b c => Sys2Proof.Machine.execVfnms stl d a b c s
  | .vcmpeq stl d a b m => Sys2Proof.Machine.execVcmpeq stl d a b m s
  | .vcmplt stl d a b m => Sys2Proof.Machine.execVcmplt stl d a b m s
  | .vcmpltu stl d a b m => Sys2Proof.Machine.execVcmpltu stl d a b m s
  | .vcmple stl d a b m => Sys2Proof.Machine.execVcmple stl d a b m s
  | .vfcmpeq stl d a b m => Sys2Proof.Machine.execVfcmpeq stl d a b m s
  | .vfcmplt stl d a b m => Sys2Proof.Machine.execVfcmplt stl d a b m s
  | .vfcmple stl d a b m => Sys2Proof.Machine.execVfcmple stl d a b m s
  | .vfcmpun stl d a b m => Sys2Proof.Machine.execVfcmpun stl d a b m s
  | .vsel stl d a b m => Sys2Proof.Machine.execVsel stl d a b m s
  | .vbcast stl d a b m => Sys2Proof.Machine.execVbcast stl d a b m s
  | .vextr stl d a b m => Sys2Proof.Machine.execVextr stl d a b m s
  | .vins stl d a b m => Sys2Proof.Machine.execVins stl d a b m s
  | .vperm stl d a b m => Sys2Proof.Machine.execVperm stl d a b m s
  | .vrot stl d a b m => Sys2Proof.Machine.execVrot stl d a b m s
  | .vcomp stl d a m => Sys2Proof.Machine.execVcomp stl d a m s
  | .vexpn stl d a m => Sys2Proof.Machine.execVexpn stl d a m s
  | .vredadd stl d a m => Sys2Proof.Machine.execVredadd stl d a m s
  | .vredmax stl d a m => Sys2Proof.Machine.execVredmax stl d a m s
  | .vredmin stl d a m => Sys2Proof.Machine.execVredmin stl d a m s
  | .vfredadd stl d a m => Sys2Proof.Machine.execVfredadd stl d a m s
  | .vcvt stl d a m => Sys2Proof.Machine.execVcvt stl d a m s
  | .vwiden stl d a m => Sys2Proof.Machine.execVwiden stl d a m s
  | .vnarrow stl d a m => Sys2Proof.Machine.execVnarrow stl d a m s
  | .vround stl d a m => Sys2Proof.Machine.execVround stl d a m s
  | .vfexp stl d a m => Sys2Proof.Machine.execVfexp stl d a m s
  | .vflog stl d a m => Sys2Proof.Machine.execVflog stl d a m s
  | .vfrecip stl d a m => Sys2Proof.Machine.execVfrecip stl d a m s
  | .vfrsqrt stl d a m => Sys2Proof.Machine.execVfrsqrt stl d a m s
  | .vftanh stl d a m => Sys2Proof.Machine.execVftanh stl d a m s
  | .vfsigm stl d a m => Sys2Proof.Machine.execVfsigm stl d a m s
  | .vfsin stl d a m => Sys2Proof.Machine.execVfsin stl d a m s
  | .vfcos stl d a m => Sys2Proof.Machine.execVfcos stl d a m s
  | .vamax stl d a m => Sys2Proof.Machine.execVamax stl d a m s
  | .vquant stl d a m => Sys2Proof.Machine.execVquant stl d a m s
  | .vscale stl d a b m => Sys2Proof.Machine.execVscale stl d a b m s
  | .vdot stl d a b m => Sys2Proof.Machine.execVdot stl d a b m s
  | .mand stl d a b m => Sys2Proof.Machine.execMand stl d a b m s
  | .mor stl d a b m => Sys2Proof.Machine.execMor stl d a b m s
  | .mxor stl d a b m => Sys2Proof.Machine.execMxor stl d a b m s
  | .mnot stl d a m => Sys2Proof.Machine.execMnot stl d a m s
  | .mpop stl d a m => Sys2Proof.Machine.execMpop stl d a m s
  | .mfirst stl d a m => Sys2Proof.Machine.execMfirst stl d a m s
  | .msetn stl d a m => Sys2Proof.Machine.execMsetn stl d a m s
  | .viota stl d a m => Sys2Proof.Machine.execViota stl d a m s
  | .vgetsc stl d a => Sys2Proof.Machine.execVgetsc stl d a s
  | .vsetsc stl d a b => Sys2Proof.Machine.execVsetsc stl d a b s
  | .vmov stl d a => Sys2Proof.Machine.execVmov stl d a s
  | .vlanes stl d => Sys2Proof.Machine.execVlanes stl d s
  | .vld stl d a b => Sys2Proof.Machine.execVld stl d a b s
  | .vst stl d a b => Sys2Proof.Machine.execVst stl d a b s
  | .vldc stl d a b => Sys2Proof.Machine.execVldc stl d a b s
  | .vstc stl d a b => Sys2Proof.Machine.execVstc stl d a b s
  | .vlds stl d a b => Sys2Proof.Machine.execVlds stl d a b s
  | .vsts stl d a b => Sys2Proof.Machine.execVsts stl d a b s
  | .vgath stl d a b => Sys2Proof.Machine.execVgath stl d a b s
  | .vscat stl d a b => Sys2Proof.Machine.execVscat stl d a b s
  | .tld stl x u => Sys2Proof.Machine.execTld stl x u s
  | .tst stl y u => Sys2Proof.Machine.execTst stl y u s
  | .tzero stl x => Sys2Proof.Machine.execTzero stl x s
  | .mma stl x y w u g => Sys2Proof.Machine.execMma stl x y w u g s
  | .mmas stl x y w u g => Sys2Proof.Machine.execMmas stl x y w u g s
  | .tadd stl x y w => Sys2Proof.Machine.execTadd stl x y w s
  | .tcvt stl x y u => Sys2Proof.Machine.execTcvt stl x y u s
  | .ttrans stl x y => Sys2Proof.Machine.execTtrans stl x y s
  | .trowv stl y u => Sys2Proof.Machine.execTrowv stl y u s
  | .tvrow stl x y u => Sys2Proof.Machine.execTvrow stl x y u s
  | .send stl a b => Sys2Proof.Machine.execSend stl a b s
  | .sends stl d a b => Sys2Proof.Machine.execSends stl d a b s
  | .sendv stl a b => Sys2Proof.Machine.execSendv stl a b s
  | .senda stl d a b => Sys2Proof.Machine.execSenda stl d a b s
  | .mlen stl d => Sys2Proof.Machine.execMlen stl d s
  | .msrc stl d => Sys2Proof.Machine.execMsrc stl d s
  | .launch stl d a => Sys2Proof.Machine.execLaunch stl d a s
  | .cntset stl a b => Sys2Proof.Machine.execCntset stl a b s
  | .rcap stl d a b => Sys2Proof.Machine.execRcap stl d a b s
  | .rput stl a b => Sys2Proof.Machine.execRput stl a b s
  | .rputv stl a b => Sys2Proof.Machine.execRputv stl a b s
  | .rputr stl a b => Sys2Proof.Machine.execRputr stl a b s
  | .rtake stl d a => Sys2Proof.Machine.execRtake stl d a s
  | .rempty stl a => Sys2Proof.Machine.execRempty stl a s
  | .rfull stl d a => Sys2Proof.Machine.execRfull stl d a s
  | .rwait stl d a => Sys2Proof.Machine.execRwait stl d a s
  | .xcopy stl d a b => Sys2Proof.Machine.execXcopy stl d a b s
  | .xcopym stl d a b => Sys2Proof.Machine.execXcopym stl d a b s
  | .xstrm stl d a b => Sys2Proof.Machine.execXstrm stl d a b s
  | .xstrmOff stl d => Sys2Proof.Machine.execXstrmOff stl d s
  | .xwait stl d a => Sys2Proof.Machine.execXwait stl d a s
  | .xpoll stl d a => Sys2Proof.Machine.execXpoll stl d a s
  | .xtdef stl a b => Sys2Proof.Machine.execXtdef stl a b s
  | .xdig stl d a b => Sys2Proof.Machine.execXdig stl d a b s
  | .gres stl => Sys2Proof.Machine.execGres stl s
  | .gend stl => Sys2Proof.Machine.execGend stl s
  | .gqry stl d => Sys2Proof.Machine.execGqry stl d s
  | .gwin stl a b => Sys2Proof.Machine.execGwin stl a b s
  | .trap stl b => Sys2Proof.Machine.execTrap stl b s
  | .brk stl b => Sys2Proof.Machine.execBrk stl b s
  | .rdtb stl d => Sys2Proof.Machine.execRdtb stl d s
  | .trmark stl a b => Sys2Proof.Machine.execTrmark stl a b s
  | .eret stl b => Sys2Proof.Machine.execEret stl b s
  | .saveq stl b => Sys2Proof.Machine.execSaveq stl b s
  | .restq stl b => Sys2Proof.Machine.execRestq stl b s
  | .drain stl d a b => Sys2Proof.Machine.execDrain stl d a b s
  | .colr stl d a b => Sys2Proof.Machine.execColr stl d a b s
  | .ncinv stl d a b => Sys2Proof.Machine.execNcinv stl d a b s
  | .wdset stl a b => Sys2Proof.Machine.execWdset stl a b s
  | .haltt stl d b => Sys2Proof.Machine.execHaltt stl d b s
  | .idle stl => Sys2Proof.Machine.execIdle stl s
  | .svsend stl a b => Sys2Proof.Machine.execSvsend stl a b s
  | .svrecv stl d a => Sys2Proof.Machine.execSvrecv stl d a s
  | .intack stl d => Sys2Proof.Machine.execIntack stl d s
  | .prcr stl d a => Sys2Proof.Machine.execPrcr stl d a s
  | .pcwr stl a b => Sys2Proof.Machine.execPcwr stl a b s
  | .swpout stl d a b => Sys2Proof.Machine.execSwpout stl d a b s
  | .swpin stl d a b => Sys2Proof.Machine.execSwpin stl d a b s
  | .fwdset stl a b => Sys2Proof.Machine.execFwdset stl a b s
  | .resett stl d a => Sys2Proof.Machine.execResett stl d a s
  | .thrset stl a b => Sys2Proof.Machine.execThrset stl a b s
  | .slotkill stl a => Sys2Proof.Machine.execSlotkill stl a s
  | .nop16 => Sys2Proof.Machine.execNop16 s
  | .done16 => Sys2Proof.Machine.execDone16 s
  | .donef16 => Sys2Proof.Machine.execDonef16 s
  | .yield16 => Sys2Proof.Machine.execYield16 s
  | .ret16 => Sys2Proof.Machine.execRet16 s
  | .brk16 => Sys2Proof.Machine.execBrk16 s
  | .cAdd a b => Sys2Proof.Machine.execCAdd a b s
  | .cSub a b => Sys2Proof.Machine.execCSub a b s
  | .cAnd a b => Sys2Proof.Machine.execCAnd a b s
  | .cOr a b => Sys2Proof.Machine.execCOr a b s
  | .cXor a b => Sys2Proof.Machine.execCXor a b s
  | .cMov a => Sys2Proof.Machine.execCMov a s
  | .cAddi a imm => Sys2Proof.Machine.execCAddi a imm s
  | .cLimm imm => Sys2Proof.Machine.execCLimm imm s
  | .cShli a imm => Sys2Proof.Machine.execCShli a imm s
  | .cShri a imm => Sys2Proof.Machine.execCShri a imm s
  | .cBr o => Sys2Proof.Machine.execCBr o s
  | .cBz a o => Sys2Proof.Machine.execCBz a o s
  | .cBnz a o => Sys2Proof.Machine.execCBnz a o s
  | .cLd a imm => Sys2Proof.Machine.execCLd a imm s
  | .cSt a imm => Sys2Proof.Machine.execCSt a imm s
  | .fixedLatencyCompletion who => Sys2Proof.Machine.execFixedLatencyCompletion who s
  | .varResultArrival k => Sys2Proof.Machine.execVarResultArrival k s
  | .messageArrival k => Sys2Proof.Machine.execMessageArrival k s
  | .countedMessageArrival k => Sys2Proof.Machine.execCountedMessageArrival k s
  | .headAged site iq => Sys2Proof.Machine.execHeadAged site iq s
  | .dispatch site => Sys2Proof.Machine.execDispatch site s
  | .residentThreadStart site => Sys2Proof.Machine.execResidentThreadStart site s
  | .registerWriteArrival k => Sys2Proof.Machine.execRegisterWriteArrival k s
  | .heldWriteDelivery site k => Sys2Proof.Machine.execHeldWriteDelivery site k s
  | .remoteRequestArrival k => Sys2Proof.Machine.execRemoteRequestArrival k s
  | .heldRequestRelease site k => Sys2Proof.Machine.execHeldRequestRelease site k s
  | .trapEntry site slot => Sys2Proof.Machine.execTrapEntry site slot s
  | .vtileRetire site => Sys2Proof.Machine.execVtileRetire site s
  | .yieldTimeout site slot => Sys2Proof.Machine.execYieldTimeout site slot s
  | .matrixGrant site => Sys2Proof.Machine.execMatrixGrant site s
  | .matrixEngineFree site => Sys2Proof.Machine.execMatrixEngineFree site s
  | .mslotWrite site val => Sys2Proof.Machine.execMslotWrite site val s
  | .copyLineLanding site ticket => Sys2Proof.Machine.execCopyLineLanding site ticket s
  | .copyJobCompletion site ticket => Sys2Proof.Machine.execCopyJobCompletion site ticket s
  | .copyJobError site ticket bits => Sys2Proof.Machine.execCopyJobError site ticket bits s
  | .followOnCommand site ticket => Sys2Proof.Machine.execFollowOnCommand site ticket s
  | .streamFetch site k => Sys2Proof.Machine.execStreamFetch site k s
  | .streamElementArrival site k => Sys2Proof.Machine.execStreamElementArrival site k s
  | .sendInjection site => Sys2Proof.Machine.execSendInjection site s
  | .nameCacheWalk site idx vtile => Sys2Proof.Machine.execNameCacheWalk site idx vtile s
  | .parkEntryWrite k => Sys2Proof.Machine.execParkEntryWrite k s
  | .parkedDelivery site => Sys2Proof.Machine.execParkedDelivery site s
  | .barwaitProbe site slot => Sys2Proof.Machine.execBarwaitProbe site slot s
  | .doorbell fn q tail => Sys2Proof.Machine.execDoorbell fn q tail s
  | .kernel q idx key ptbase parkbase => Sys2Proof.Machine.execKernel q idx key ptbase parkbase s
  | .marker q idx => Sys2Proof.Machine.execMarker q idx s
  | .childLaunchPacket k idx key ptbase parkbase => Sys2Proof.Machine.execChildLaunchPacket k idx key ptbase parkbase s
  | .launchStart idx => Sys2Proof.Machine.execLaunchStart idx s
  | .gangPlacement idx gang => Sys2Proof.Machine.execGangPlacement idx gang s
  | .preEmption part imgbase => Sys2Proof.Machine.execPreEmption part imgbase s
  | .summonService part imgbase => Sys2Proof.Machine.execSummonService part imgbase s
  | .preEmptedGangReturn idx gang => Sys2Proof.Machine.execPreEmptedGangReturn idx gang s
  | .qsliceExpiry idx gang => Sys2Proof.Machine.execQsliceExpiry idx gang s
  | .mappingPass => Sys2Proof.Machine.execMappingPass s
  | .bucketRefill => Sys2Proof.Machine.execBucketRefill s
  | .watchdogExpiry hw => Sys2Proof.Machine.execWatchdogExpiry hw s
  | .launchCompletion idx => Sys2Proof.Machine.execLaunchCompletion idx s
  | .pendingErrorWrite => Sys2Proof.Machine.execPendingErrorWrite s
  | .permitTimer region atCollier => Sys2Proof.Machine.execPermitTimer region atCollier s
  | .createQueue => Sys2Proof.Machine.execCreateQueue s
  | .destroyQueue => Sys2Proof.Machine.execDestroyQueue s
  | .unfreeze => Sys2Proof.Machine.execUnfreeze s
  | .flush => Sys2Proof.Machine.execFlush s
  | .setBucket => Sys2Proof.Machine.execSetBucket s
  | .setPartition key => Sys2Proof.Machine.execSetPartition key s
  | .setEventRing => Sys2Proof.Machine.execSetEventRing s
  | .getCounters => Sys2Proof.Machine.execGetCounters s
  | .setLog => Sys2Proof.Machine.execSetLog s
  | .setPair => Sys2Proof.Machine.execSetPair s
  | .attest sig cert => Sys2Proof.Machine.execAttest sig cert s
  | .readmit sigOk tested busy => Sys2Proof.Machine.execReadmit sigOk tested busy s
  | .setOwner sigOk => Sys2Proof.Machine.execSetOwner sigOk s
  | .bindHost => Sys2Proof.Machine.execBindHost s
  | .bindPeer => Sys2Proof.Machine.execBindPeer s
  | .preempt k => Sys2Proof.Machine.execPreempt k s
  | .saved k => Sys2Proof.Machine.execSaved k s
  | .faultstop k => Sys2Proof.Machine.execFaultstop k s
  | .debugstop k => Sys2Proof.Machine.execDebugstop k s
  | .resume k => Sys2Proof.Machine.execResume k s
  | .wdkill k => Sys2Proof.Machine.execWdkill k s
  | .restore k => Sys2Proof.Machine.execRestore k s
  | .restored k => Sys2Proof.Machine.execRestored k s
  | .killed k => Sys2Proof.Machine.execKilled k s
  | .quiesce k => Sys2Proof.Machine.execQuiesce k s
  | .quiesceLanding site => Sys2Proof.Machine.execQuiesceLanding site s
  | .permitReturn k => Sys2Proof.Machine.execPermitReturn k s
  | .kill k => Sys2Proof.Machine.execKill k s
  | .killdone k => Sys2Proof.Machine.execKilldone k s
  | .retireReport k => Sys2Proof.Machine.execRetireReport k s
  | .faultReport k => Sys2Proof.Machine.execFaultReport k s
  | .stats k => Sys2Proof.Machine.execStats k s
  | .imagebad k => Sys2Proof.Machine.execImagebad k s
  | .summon k => Sys2Proof.Machine.execSummon k s
  | .evict k => Sys2Proof.Machine.execEvict k s
  | .pack k => Sys2Proof.Machine.execPack k s
  | .savedp k => Sys2Proof.Machine.execSavedp k s
  | .ncreq k => Sys2Proof.Machine.execNcreq k s
  | .ncdone k => Sys2Proof.Machine.execNcdone k s
  | .swapout k => Sys2Proof.Machine.execSwapout k s
  | .evicted k => Sys2Proof.Machine.execEvicted k s
  | .place k => Sys2Proof.Machine.execPlace k s
  | .loadedp k => Sys2Proof.Machine.execLoadedp k s
  | .openGang k => Sys2Proof.Machine.execOpenGang k s
  | .placed k => Sys2Proof.Machine.execPlaced k s
  | .migrate k => Sys2Proof.Machine.execMigrate k s
  | .moved k => Sys2Proof.Machine.execMoved k s
  | .pdeliv k => Sys2Proof.Machine.execPdeliv k s
  | .pdone k => Sys2Proof.Machine.execPdone k s
  | .subregionUngate region sub => Sys2Proof.Machine.execSubregionUngate region sub s
  | .sgateWrite region val => Sys2Proof.Machine.execSgateWrite region val s
  | .thrDutyWrite region val => Sys2Proof.Machine.execThrDutyWrite region val s
  | .throttle k => Sys2Proof.Machine.execThrottle k s
  | .throttled k => Sys2Proof.Machine.execThrottled k s
  | .sensorSample region temp => Sys2Proof.Machine.execSensorSample region temp s
  | .timercmpWrite who val => Sys2Proof.Machine.execTimercmpWrite who val s
  | .timerMatch who => Sys2Proof.Machine.execTimerMatch who s
  | .interruptEntry who => Sys2Proof.Machine.execInterruptEntry who s
  | .ovrhWrite site slot val => Sys2Proof.Machine.execOvrhWrite site slot val s
  | .rxuInvalidatePage asid page => Sys2Proof.Machine.execRxuInvalidatePage asid page s
  | .rxuInvalidateAll asid => Sys2Proof.Machine.execRxuInvalidateAll asid s
  | .rxuInvalidateDone => Sys2Proof.Machine.execRxuInvalidateDone s
  | .captureSelect region val => Sys2Proof.Machine.execCaptureSelect region val s
  | .captureClear region => Sys2Proof.Machine.execCaptureClear region s
  | .haltAcknowledge => Sys2Proof.Machine.execHaltAcknowledge s
  | .speigOpen part sigOk => Sys2Proof.Machine.execSpeigOpen part sigOk s
  | .speigClose => Sys2Proof.Machine.execSpeigClose s
  | .speigHalt => Sys2Proof.Machine.execSpeigHalt s
  | .speigResume => Sys2Proof.Machine.execSpeigResume s
  | .attach idx brk stopAll => Sys2Proof.Machine.execAttach idx brk stopAll s
  | .detach idx => Sys2Proof.Machine.execDetach idx s
  | .pstop idx vtile => Sys2Proof.Machine.execPstop idx vtile s
  | .dstop idx vtile => Sys2Proof.Machine.execDstop idx vtile s
  | .cont idx vtile => Sys2Proof.Machine.execCont idx vtile s
  | .speigRead tgt addr len => Sys2Proof.Machine.execSpeigRead tgt addr len s
  | .speigWrite tgt addr data => Sys2Proof.Machine.execSpeigWrite tgt addr data s
  | .tracecfg region base size => Sys2Proof.Machine.execTracecfg region base size s
  | .capcfg region val => Sys2Proof.Machine.execCapcfg region val s
  | .capread region => Sys2Proof.Machine.execCapread region s
  | .digestFrame link q num tag digests => Sys2Proof.Machine.execDigestFrame link q num tag digests s
  | .pairTimeout q => Sys2Proof.Machine.execPairTimeout q s
  | .retireTile k => Sys2Proof.Machine.execRetireTile k s
  | .bringUp romOk unverified bad shorted unloaded untrained image sys => Sys2Proof.Machine.execBringUp romOk unverified bad shorted unloaded untrained image sys s
  | .droopStretch region sub => Sys2Proof.Machine.execDroopStretch region sub s
  | .droopRecovery region sub => Sys2Proof.Machine.execDroopRecovery region sub s
  | .peerLinkDown link => Sys2Proof.Machine.execPeerLinkDown link s
  | .lockstepMismatch => Sys2Proof.Machine.execLockstepMismatch s
  | .hbmRequestArrival k => Sys2Proof.Machine.execHbmRequestArrival k s
  | .colourAcknowledgement k => Sys2Proof.Machine.execColourAcknowledgement k s

end Sys2Proof.Machine
end

