-- ==== Sys2Proof/Machine/Waits.lean ====
section
/-! DEFINITION. Which slots of a tile are ready when one of them comes to a YIELD (spec/01_machine.md R36, spec/06_isa_scalar.md R170). -/

noncomputable section

namespace Sys2Proof.Machine

/-- Whether an instruction is a YIELD. -/
def isYield : Instr → Bool
  | .yield _ | .yield16 => true
  | _ => false

/-- Whether slot j of a tile would issue its next instruction in a cycle: its stall count has elapsed and it waits on nothing (R36), which
is so when that instruction, tried in that cycle, issues in it (log entry 51, DEDUCED). -/
def State.issuesAt (s : State) (site : Nat) (j : Fin 8) (c : Nat) : Bool :=
  let s := { s with cur := .tile site j, cycle := c }
  if (s.slot s.cur).thread && s.mayIssue && Nat.ble ((s.tile site).readyFrom (s.slot s.cur)) c && !s.pendingAt s.cur then
    match s.fetch s.cur with
    | .instr i =>
      match exec i s with
      | .next t => (t.tile site).slots[j].lastIssue == c && (t.tile site).slots[j].wait == .none
      | _ => false
    | .cause _ _ => false
  else false

/-- Before a YIELD of a tile's slot issues, the tile notes which other slots wait on nothing in its cycle; before any other instruction
nothing changes. -/
def State.beforeIssue (s : State) (i : Instr) : State :=
  match s.cur with
  | .tile site k =>
    if isYield i then
      let c := s.readyCycle
      let t := s.tile site
      s.setTile site { t with slots := Vector.ofFn fun j => { t.slots[j] with ready := j != k && s.issuesAt site j c } }
    else s
  | _ => s

end Sys2Proof.Machine

end
end

