-- ==== Sys2Proof/Machine/Step.lean ====
section
/-! DEFINITION. One step of the module: what the schedule names next, or the next instruction of the current agent. -/

noncomputable section

namespace Sys2Proof.Machine

/-- What stands around an instruction: after a next state the rest of the module moves. -/
def after (r : Result) : Result :=
  match r with
  | .next s => .next s.background
  | r => r

/-- The current agent takes a pending cause or interrupt at its instruction boundary, or fetches and executes; a YIELD of a tile's slot
finds noted which other slots wait on nothing. -/
def stepAgent (s : State) : Host.Outcome State Fault Refusal :=
  match s.cur with
  | .tile site k =>
    if s.pendingAt (.tile site k) then after (.next (s.takePending site k))
    else
      match s.fetch (.tile site k) with
      | .instr i => after (exec i (s.beforeIssue i))
      | .cause c tv => after (issue (op16 0x18 5 0) (throw (.trap c tv)) s)
  | a =>
    if s.interrupted a then after (.next (s.takeInterrupt a))
    else
      match s.fetch a with
      | .instr i => after (exec i s)
      | .cause c tv => after (issue (op16 0x18 5 0) (throw (.trap c tv)) s)

/-- One step: the head of the schedule, or the current agent when the schedule is empty. -/
def step (s : State) : Host.Outcome State Fault Refusal :=
  match s.sched with
  | .agent a :: rest => .next { s with sched := rest, cur := a }
  | .event i :: rest => if i.isEvent && !s.standsStill i then exec i { s with sched := rest } else .next { s with sched := rest }
  | .cycles n :: rest => .next { s with sched := rest, cycle := s.cycle + n }
  | .ticks n :: rest => .next { s with sched := rest, tbOff := s.tbOff + n }
  | .corrected a :: rest => .next (State.corrected { s with sched := rest } a)
  | .upset site w :: rest => .next (State.upset { s with sched := rest } site w)
  | .upsetRim w :: rest => .next (State.upsetRim { s with sched := rest } w)
  | .speigTag t :: rest => .next { s with sched := rest, speigTag := t }
  | .peerLinkUp k :: rest => .next (State.peerLinkUp { s with sched := rest } k)
  | .testMode r y on :: rest => .next (State.testMode { s with sched := rest } r y on)
  | .selfTestFails site :: rest => .next (State.selfTestFails { s with sched := rest } site)
  | .routine site k :: rest => State.routineStep { s with sched := rest } site k
  | [] => stepAgent s

/-- The state with an instruction of the opcode table stored where step fetches next. -/
def State.withFetchWord (s : State) (nbits w : Nat) : State := s.placeCode (tableHalfwords nbits w)

end Sys2Proof.Machine

end
end

