-- ==== Sys2Proof/Safety.lean ====
section
/-! DEFINITION. What counts as a safe state and a safe run of the module: every memory in its canonical form, and no step
that stops. -/

namespace Sys2Proof.Machine

/-- Every memory of a tile is in canonical form. -/
def Tile.memoriesWf (t : Tile) : Bool := t.spad.wf && t.shadow.wf

/-- Every memory of the module is in canonical form. -/
def State.memoriesWf (s : State) : Bool :=
  s.hbm.wf && s.host.wf && s.collier.mem.wf && s.stokers.all (fun r => r.2.mem.wf) && s.tiles.all fun r => r.2.memoriesWf

/-- One step leads from a state to another. -/
def State.stepsTo (s t : State) : Prop := step s = .next t

/-- The states that a run from a state passes. -/
inductive State.Reaches : State → State → Prop where
  | refl (s : State) : State.Reaches s s
  | tail {s t u : State} : State.Reaches s t → t.stepsTo u → State.Reaches s u

/-- A safe run: no state it passes stops. -/
def State.safeRun (s : State) : Prop := ∀ t, State.Reaches s t → ∃ u, t.stepsTo u

end Sys2Proof.Machine
end

