-- ==== Sys2Proof/Certificates/Slice0/Terms.lean ====
section
/-! DEFINITION. The words in which Obligations.lean states what instructions do: when an instruction is admitted, the state in
which it reads its operands, and tables that give each instruction of a family its place in the encoding and the value that the
specification gives its result, written in integer arithmetic. -/

noncomputable section

namespace Sys2Proof

/-- A destination that the encoding gives a meaning (R135). -/
def Dst.legal : Dst → Bool
  | .ill _ => false
  | _ => true

end Sys2Proof

namespace Sys2Proof.Machine

/-! ### The conditions of execution -/

/-- The current agent may issue now, and its mode admits the instruction (R36, R139 step 5, R275, R308). -/
def State.admits (s : State) (o : Op) : Prop := s.mayIssue = true ∧ modeCause s.cur (s.slot s.cur).sys o = none

/-- The state in which an instruction reads its operands: the cycle in which the slot is ready has come, and what has
completed by then has landed. -/
def State.opened (s : State) : State := s.advance s.cur s.readyCycle

/-- The current slot runs in USER mode on a tile that is in no guarded phase. -/
def State.plainUser (s : State) : Prop :=
  ∃ site k, s.cur = .tile site k ∧ (s.slot s.cur).sys = false ∧ (s.tile site).guarded = false

/-- The state with a scalar result issued at the current slot: a value of a latency, with its flags, for a destination. -/
def State.withResult (s : State) (lam : Nat) (flags : BitVec 6) (d : Dst) (v : Word) : State :=
  s.setSlot s.cur ((s.slot s.cur).result s.cycle lam flags d v)

/-- The state with a vector result issued at the current slot. -/
def State.withVResult (s : State) (lam : Nat) (flags : BitVec 6) (d : VDst) (v : Vec) (sd : Side) : State :=
  s.setSlot s.cur ((s.slot s.cur).vresult s.cycle lam flags d v sd)

/-- The state with a mask result issued at the current slot. -/
def State.withMask (s : State) (lam : Nat) (flags : BitVec 6) (d : MaskNo) (v : MaskWord) : State :=
  s.setSlot s.cur ((s.slot s.cur).fly (s.cycle + lam) (.mask d) 0 (v.setWidth 4096) 0 flags)

/-! ### Integer results (R66, R158 to R162) -/

/-- A word from an integer, modulo 2^64. -/
def ofI (i : Int) : Word := BitVec.ofInt 64 i
/-- A word from a natural number, modulo 2^64. -/
def ofN (n : Nat) : Word := BitVec.ofNat 64 n
/-- The integer 1 or 0. -/
def ofB (b : Bool) : Word := if b then 1 else 0

/-- A row of a family of scalar instructions of two sources: the constructor, its major and minor, its latency and its
value. -/
structure Row2 where
  make : Stl → Dst → Src → Src → Instr
  major : Nat
  sub : Nat
  lam : Nat
  value : Word → Word → Word

/-- The 64-bit and 32-bit integer instructions of two sources (R158, R66). -/
def intRows : List Row2 := [
  ⟨.add, 0x00, 0, 1, fun a b => ofN (a.toNat + b.toNat)⟩,
  ⟨.sub, 0x00, 1, 1, fun a b => ofI (a.toInt - b.toInt)⟩,
  ⟨.and, 0x00, 2, 1, fun a b => ofN (a.toNat &&& b.toNat)⟩,
  ⟨.or, 0x00, 3, 1, fun a b => ofN (a.toNat ||| b.toNat)⟩,
  ⟨.xor, 0x00, 4, 1, fun a b => ofN (a.toNat ^^^ b.toNat)⟩,
  ⟨.andn, 0x00, 5, 1, fun a b => ofN (a.toNat &&& (2 ^ 64 - 1 - b.toNat))⟩,
  ⟨.orn, 0x00, 6, 1, fun a b => ofN (a.toNat ||| (2 ^ 64 - 1 - b.toNat))⟩,
  ⟨.shl, 0x00, 7, 1, fun a b => ofN (a.toNat * 2 ^ (b.toNat % 64))⟩,
  ⟨.shr, 0x00, 8, 1, fun a b => ofN (a.toNat / 2 ^ (b.toNat % 64))⟩,
  ⟨.shra, 0x00, 9, 1, fun a b => ofI (a.toInt / 2 ^ (b.toNat % 64))⟩,
  ⟨.rot, 0x00, 10, 1, fun a b => ofN (a.toNat / 2 ^ (b.toNat % 64) + a.toNat * 2 ^ (64 - b.toNat % 64))⟩,
  ⟨.min, 0x00, 11, 1, fun a b => ofI (min a.toInt b.toInt)⟩,
  ⟨.max, 0x00, 12, 1, fun a b => ofI (max a.toInt b.toInt)⟩,
  ⟨.minu, 0x00, 13, 1, fun a b => ofN (min a.toNat b.toNat)⟩,
  ⟨.maxu, 0x00, 14, 1, fun a b => ofN (max a.toNat b.toNat)⟩,
  ⟨.mul, 0x00, 15, 3, fun a b => ofN (a.toNat * b.toNat)⟩,
  ⟨.mulh, 0x01, 0, 3, fun a b => ofI (a.toInt * b.toInt / 2 ^ 64)⟩,
  ⟨.mulhu, 0x01, 1, 3, fun a b => ofN (a.toNat * b.toNat / 2 ^ 64)⟩,
  ⟨.cmpeq, 0x01, 6, 1, fun a b => ofB (decide (a.toNat = b.toNat))⟩,
  ⟨.cmpne, 0x01, 7, 1, fun a b => ofB (decide (a.toNat ≠ b.toNat))⟩,
  ⟨.cmplt, 0x01, 8, 1, fun a b => ofB (decide (a.toInt < b.toInt))⟩,
  ⟨.cmpltu, 0x01, 9, 1, fun a b => ofB (decide (a.toNat < b.toNat))⟩,
  ⟨.cmple, 0x01, 10, 1, fun a b => ofB (decide (a.toInt ≤ b.toInt))⟩,
  ⟨.cmpleu, 0x01, 11, 1, fun a b => ofB (decide (a.toNat ≤ b.toNat))⟩,
  ⟨.addw, 0x02, 0, 1, fun a b => ofI ((a.toInt + b.toInt).bmod (2 ^ 32))⟩,
  ⟨.subw, 0x02, 1, 1, fun a b => ofI ((a.toInt - b.toInt).bmod (2 ^ 32))⟩,
  ⟨.mulw, 0x02, 2, 3, fun a b => ofI ((a.toInt * b.toInt).bmod (2 ^ 32))⟩]

/-- The divisions (R66): quotients toward zero, remainders with the sign of the dividend; a division by zero gives all ones
and the dividend, and the one overflow wraps. -/
def divRows : List Row2 := [
  ⟨.div, 0x01, 2, 20, fun a b => if b.toNat = 0 then ofI (-1) else ofI (a.toInt.tdiv b.toInt)⟩,
  ⟨.divu, 0x01, 3, 20, fun a b => if b.toNat = 0 then ofN (2 ^ 64 - 1) else ofN (a.toNat / b.toNat)⟩,
  ⟨.rem, 0x01, 4, 20, fun a b => if b.toNat = 0 then a else ofI (a.toInt.tmod b.toInt)⟩,
  ⟨.remu, 0x01, 5, 20, fun a b => if b.toNat = 0 then a else ofN (a.toNat % b.toNat)⟩]

/-- The position of a bit field: bits 5 to 0 of the operand (R159). -/
def posOf (b : Word) : Nat := b.toNat % 64
/-- The width of a bit field: bits 14 to 8 of the operand, cut at bit 63 (R159). -/
def lenOf (b : Word) : Nat := min (b.toNat / 256 % 128) (64 - posOf b)
/-- The field of a word. -/
def fieldOf (a b : Word) : Nat := a.toNat / 2 ^ posOf b % 2 ^ lenOf b

/-- Bit fields and pointers of two sources (R159, R162). -/
def fieldRows : List Row2 := [
  ⟨.exts, 0x02, 5, 1, fun a b => ofI ((fieldOf a b : Int).bmod (2 ^ lenOf b))⟩,
  ⟨.extz, 0x02, 6, 1, fun a b => ofN (fieldOf a b)⟩,
  ⟨.addp, 0x0E, 0, 1, fun a b => ofN (a.toNat / 2 ^ 56 * 2 ^ 56 + (a.toNat + b.toNat) % 2 ^ 56)⟩,
  ⟨.subp, 0x0E, 1, 1, fun a b => ofI (a.toNat / 2 ^ 56 * 2 ^ 56 + ((a.toNat : Int) - b.toNat) % 2 ^ 56)⟩,
  ⟨.ptag, 0x0E, 2, 1, fun a b => ofN (b.toNat % 256 * 2 ^ 56 + a.toNat % 2 ^ 56)⟩,
  ⟨.pmkt, 0x0E, 4, 1, fun a b =>
    ofN (a.toNat / 2 ^ 58 * 2 ^ 58 + 2 ^ 56 + b.toNat % 2 ^ 24 * 2 ^ 32 + a.toNat % 2 ^ 17)⟩,
  ⟨.pspace, 0x0E, 5, 1, fun a b => ofN (a.toNat / 2 ^ 58 * 2 ^ 58 + b.toNat % 4 * 2 ^ 56 + a.toNat % 2 ^ 56)⟩]

/-- A row of a family of scalar instructions of one source. -/
structure Row1 where
  make : Stl → Dst → Src → Instr
  major : Nat
  sub : Nat
  value : Word → Word

/-- Bit i of a word as a number. -/
def bitN (a : Word) (i : Nat) : Nat := a.toNat / 2 ^ i % 2

/-- The integer instructions of one source (R158, R162). -/
def unaryRows : List Row1 := [
  ⟨.clz, 0x01, 13, fun a => ofN (((List.range 64).takeWhile fun i => bitN a (63 - i) = 0).length)⟩,
  ⟨.ctz, 0x01, 14, fun a => ofN (((List.range 64).takeWhile fun i => bitN a i = 0).length)⟩,
  ⟨.popc, 0x01, 15, fun a => ofN ((List.range 64).countP fun i => bitN a i = 1)⟩,
  ⟨.brev, 0x02, 3, fun a => ofN (((List.range 64).map fun i => bitN a i * 2 ^ (63 - i)).sum)⟩,
  ⟨.bswap, 0x02, 4, fun a => ofN (((List.range 8).map fun i => a.toNat / 256 ^ i % 256 * 256 ^ (7 - i)).sum)⟩,
  ⟨.ptagx, 0x0E, 3, fun a => ofN (a.toNat / 2 ^ 56)⟩]

/-- A row of a family of scalar instructions of a source and a literal. -/
structure RowI where
  make : Stl → Dst → Src → BitVec 10 → Instr
  major : Nat
  value : Word → BitVec 10 → Word

/-- The immediate instructions whose literal is signed (R160). -/
def immRows : List RowI := [
  ⟨.addi, 0x03, fun a i => ofI (a.toInt + i.toInt)⟩,
  ⟨.andi, 0x04, fun a i => ofI i.toInt &&& a⟩,
  ⟨.ori, 0x05, fun a i => ofI i.toInt ||| a⟩,
  ⟨.xori, 0x06, fun a i => ofI i.toInt ^^^ a⟩,
  ⟨.cmpeqi, 0x0A, fun a i => ofB (decide (a.toInt = i.toInt))⟩,
  ⟨.cmplti, 0x0B, fun a i => ofB (decide (a.toInt < i.toInt))⟩]

/-- The immediate shifts, whose literal is 0 to 63 (R160). -/
def shiftRows : List RowI := [
  ⟨.shli, 0x07, fun a i => ofN (a.toNat * 2 ^ i.toNat)⟩,
  ⟨.shri, 0x08, fun a i => ofN (a.toNat / 2 ^ i.toNat)⟩,
  ⟨.shrai, 0x09, fun a i => ofI (a.toInt / 2 ^ i.toNat)⟩]

/-- A row of the 16-bit instructions that stand for a 32-bit one with a push (R133): the halfword, and what it stands
for. -/
structure Short2 where
  make : Src5 → Src5 → Instr
  major : Nat
  sub : Nat
  op : Nat
  low : Nat
  value : Word → Word → Word

/-- The 16-bit instructions of two sources (R133). -/
def shortRows : List Short2 := [
  ⟨.cAdd, 0x00, 0, 1, 0, fun a b => ofN (a.toNat + b.toNat)⟩,
  ⟨.cSub, 0x00, 1, 2, 0, fun a b => ofI (a.toInt - b.toInt)⟩,
  ⟨.cAnd, 0x00, 2, 3, 0, fun a b => ofN (a.toNat &&& b.toNat)⟩,
  ⟨.cOr, 0x00, 3, 4, 0, fun a b => ofN (a.toNat ||| b.toNat)⟩,
  ⟨.cXor, 0x00, 4, 4, 1, fun a b => ofN (a.toNat ^^^ b.toNat)⟩]

/-! ### Scalar floating point (R163 to R165) -/

/-- A row of the scalar floating-point instructions of two sources: the FP32 pattern or the integer and the flags that the
result of two FP32 patterns has. -/
structure FpRow2 where
  make : Stl → Dst → Src → Src → Instr
  sub : Nat
  lam : Nat
  value : Rounding → Nat → Nat → Nat × BitVec 6

/-- FP32 operations of two sources. -/
def fpRows2 : List FpRow2 := [
  ⟨.fadd, 0, 4, floatAdd 4⟩,
  ⟨.fsub, 1, 4, floatSub 4⟩,
  ⟨.fmul, 2, 4, floatMul 4⟩,
  ⟨.fdiv, 3, 12, floatDiv 4⟩,
  ⟨.fmin, 5, 4, fun R x y => floatMinMax 4 R false x y⟩,
  ⟨.fmax, 6, 4, fun R x y => floatMinMax 4 R true x y⟩,
  ⟨.fcmpeq, 7, 4, fun _ x y => ((floatCmp 4 false .eq x y).1.toNat, (floatCmp 4 false .eq x y).2)⟩,
  ⟨.fcmplt, 8, 4, fun _ x y => ((floatCmp 4 false .lt x y).1.toNat, (floatCmp 4 false .lt x y).2)⟩,
  ⟨.fcmple, 9, 4, fun _ x y => ((floatCmp 4 false .le x y).1.toNat, (floatCmp 4 false .le x y).2)⟩,
  ⟨.fsgnj, 15, 4, fun _ x y => (x % 2 ^ 31 + y / 2 ^ 31 * 2 ^ 31, 0)⟩]

/-- A row of the scalar floating-point instructions of one source word. -/
structure FpRow1 where
  make : Stl → Dst → Src → Instr
  sub : Nat
  lam : Nat
  value : Rounding → Word → Word × BitVec 6

/-- FP32 operations of one source: the pattern operations touch bit 31 alone and raise no flag (R163, R164). -/
def fpRows1 : List FpRow1 := [
  ⟨.fsqrt, 4, 12, fun R x => (ofN (floatSqrt 4 R (x.toNat % 2 ^ 32)).1, (floatSqrt 4 R (x.toNat % 2 ^ 32)).2)⟩,
  ⟨.fcvtif, 10, 6, fun R x => (ofN (roundFloat 4 R (intVal x.toInt)).1, (roundFloat 4 R (intVal x.toInt)).2)⟩,
  ⟨.fcvtfi, 11, 6, fun R x =>
    (ofI (valToInt (-2 ^ 63) (2 ^ 63 - 1) R (floatVal 4 (x.toNat % 2 ^ 32))).1,
     (valToInt (-2 ^ 63) (2 ^ 63 - 1) R (floatVal 4 (x.toNat % 2 ^ 32))).2)⟩,
  ⟨.fclass, 12, 4, fun _ x => (ofN (floatClass 4 (x.toNat % 2 ^ 32)), 0)⟩,
  ⟨.fabs, 13, 4, fun _ x => (ofN (x.toNat % 2 ^ 31), 0)⟩,
  ⟨.fneg, 14, 4, fun _ x => (ofN (x.toNat % 2 ^ 31 + (1 - x.toNat / 2 ^ 31 % 2) * 2 ^ 31), 0)⟩]

/-- A row of the fused operations: whether the product and whether the addend is negated (R165). -/
structure FmaRow where
  make : Stl → Dst → Src → Src → BitVec 2 → Instr
  sub : Nat
  negProduct : Bool
  negAddend : Bool

/-- FMA a × b + c, FMS a × b − c, FNMA −(a × b) − c, FNMS −(a × b) + c. -/
def fmaRows : List FmaRow := [⟨.fma, 0, false, false⟩, ⟨.fms, 1, false, true⟩, ⟨.fnma, 2, true, true⟩, ⟨.fnms, 3, true, false⟩]

/-! ### What vector instructions check and read before their result (R139, R179 to R182) -/

/-- Two vector sources and the governing mask, with the environment they give. -/
def vecArgs2 (ok : Nat → Bool) (d : VDst) (a b : VSrc) (m : MaskNo) : M (VEnv × (Vec × Side) × (Vec × Side)) := do
  checkVSrc false a
  checkVSrc true b
  checkVDst d
  windowVSrc a
  windowVSrc b
  windowVDst d
  checkFmt ok
  awaitVSrc a
  awaitVSrc b
  awaitMask m
  vectorUnit 1
  let x ← readVSrc a
  let y ← readVSrc b
  let k ← readMask m
  let sl ← getSlot
  return (sl.venv k, x, y)

/-- One vector source and the governing mask. -/
def vecArgs1 (ok : Nat → Bool) (d : VDst) (a : VSrc) (m : MaskNo) : M (VEnv × (Vec × Side)) := do
  checkVSrc false a
  checkVDst d
  windowVSrc a
  windowVDst d
  checkFmt ok
  awaitVSrc a
  awaitMask m
  vectorUnit 1
  let x ← readVSrc a
  let k ← readMask m
  let sl ← getSlot
  return (sl.venv k, x)

/-- Two vector sources of a comparison. -/
def vecArgsCmp (ok : Nat → Bool) (d : MaskNo) (a b : VSrc) (m : MaskNo) : M (VEnv × (Vec × Side) × (Vec × Side)) := do
  checkMaskDst d
  checkVSrc false a
  checkVSrc true b
  windowVSrc a
  windowVSrc b
  checkFmt ok
  awaitVSrc a
  awaitVSrc b
  awaitMask m
  vectorUnit 1
  let x ← readVSrc a
  let y ← readVSrc b
  let k ← readMask m
  let sl ← getSlot
  return (sl.venv k, x, y)

/-- One vector source of a reduction to a scalar destination. -/
def vecArgsRed (ok : Nat → Bool) (d : Dst) (a : VSrc) (m : MaskNo) : M (VEnv × (Vec × Side)) := do
  checkDst d
  checkVSrc false a
  windowVSrc a
  checkFmt ok
  awaitVSrc a
  awaitMask m
  vectorUnit 1
  let x ← readVSrc a
  let k ← readMask m
  let sl ← getSlot
  return (sl.venv k, x)

/-- A vector and a scalar source. -/
def vecArgsS (ok : Nat → Bool) (d : VDst) (a : VSrc) (b : Src) (m : MaskNo) : M (VEnv × (Vec × Side) × Word) := do
  checkVSrc false a
  checkVDst d
  windowVSrc a
  windowVDst d
  checkFmt ok
  awaitVSrc a
  awaitSrc b
  awaitMask m
  vectorUnit 1
  let x ← readVSrc a
  let y ← readSrc b
  let k ← readMask m
  let sl ← getSlot
  return (sl.venv k, x, y)

/-- Two masks and the governing mask, for a mask destination. -/
def maskArgs (d a b m : MaskNo) : M (VEnv × MaskWord × MaskWord) := do
  checkMaskDst d
  checkFmt fmtAny
  forAll awaitMask [a, b, m]
  vectorUnit 1
  let x ← readMask a
  let y ← readMask b
  let k ← readMask m
  let sl ← getSlot
  return (sl.venv k, x, y)

/-! ### Vector values (R183 to R187) -/

/-- A row of the integer and bitwise lanewise instructions: the value of a lane of w bits. -/
structure VRow2 where
  make : Stl → VDst → VSrc → VSrc → MaskNo → Instr
  major : Nat
  sub : Nat
  ok : Nat → Bool
  value : Nat → Nat → Nat → Nat

/-- An integer as a lane of w bits. -/
def laneI (w : Nat) (i : Int) : Nat := (i % (2 ^ w : Nat)).toNat
/-- A lane of w bits as a signed integer. -/
def laneS (w x : Nat) : Int := if 2 * x < 2 ^ w then x else (x : Int) - (2 ^ w : Nat)

/-- The lanewise instructions without flags (R183, R184). -/
def vintRows : List VRow2 := [
  ⟨.vadd, 0x22, 0, fmtInt, fun w x y => laneI w (x + y)⟩,
  ⟨.vsub, 0x22, 1, fmtInt, fun w x y => laneI w (x - y)⟩,
  ⟨.vmul, 0x22, 2, fmtInt, fun w x y => laneI w (x * y)⟩,
  ⟨.vmulh, 0x22, 3, fmtInt, fun w x y => laneI w (laneS w x * laneS w y / (2 ^ w : Nat))⟩,
  ⟨.vand, 0x23, 0, fmtRaw, fun _ x y => x &&& y⟩,
  ⟨.vor, 0x23, 1, fmtRaw, fun _ x y => x ||| y⟩,
  ⟨.vxor, 0x23, 2, fmtRaw, fun _ x y => x ^^^ y⟩,
  ⟨.vandn, 0x23, 3, fmtRaw, fun w x y => x &&& (2 ^ w - 1 - y)⟩,
  ⟨.vshl, 0x24, 0, fmtInt, fun w x y => x * 2 ^ y % 2 ^ w⟩,
  ⟨.vshr, 0x24, 1, fmtInt, fun _ x y => x / 2 ^ y⟩,
  ⟨.vshra, 0x24, 2, fmtInt, fun w x y => laneI w (laneS w x / (2 ^ y : Nat))⟩,
  ⟨.vabsd, 0x24, 3, fmtInt, fun w x y => (laneS w x - laneS w y).natAbs % 2 ^ w⟩,
  ⟨.vmin, 0x25, 0, fmtInt, fun w x y => laneI w (min (laneS w x) (laneS w y))⟩,
  ⟨.vmax, 0x25, 1, fmtInt, fun w x y => laneI w (max (laneS w x) (laneS w y))⟩,
  ⟨.vminu, 0x25, 2, fmtInt, fun _ x y => min x y⟩,
  ⟨.vmaxu, 0x25, 3, fmtInt, fun _ x y => max x y⟩]

/-- A row of the floating-point lanewise instructions of two sources (R185). -/
structure VfRow2 where
  make : Stl → VDst → VSrc → VSrc → MaskNo → Instr
  major : Nat
  sub : Nat
  value : Nat → Rounding → Nat → Nat → Nat × BitVec 6

/-- Sum, difference, product, quotient, minimum, maximum. -/
def vfRows2 : List VfRow2 := [
  ⟨.vfadd, 0x26, 0, floatAdd⟩,
  ⟨.vfsub, 0x26, 1, floatSub⟩,
  ⟨.vfmul, 0x26, 2, floatMul⟩,
  ⟨.vfdiv, 0x26, 3, floatDiv⟩,
  ⟨.vfmin, 0x27, 0, fun c R x y => floatMinMax c R false x y⟩,
  ⟨.vfmax, 0x27, 1, fun c R x y => floatMinMax c R true x y⟩]

/-- A row of the floating-point lanewise instructions of one source (R185, R193, R195). -/
structure VfRow1 where
  make : Stl → VDst → VSrc → MaskNo → Instr
  major : Nat
  sub : Nat
  lam : Nat
  value : Nat → Rounding → Nat → Nat × BitVec 6

/-- The pattern operations, the rounding to an integral value and the transcendentals. -/
def vfRows1 : List VfRow1 := [
  ⟨.vfabs, 0x27, 2, 6, fun c _ x => (x % signBit c, 0)⟩,
  ⟨.vfneg, 0x27, 3, 6, fun c _ x => (x % signBit c + (1 - x / signBit c % 2) * signBit c, 0)⟩,
  ⟨.vround, 0x2E, 3, 6, roundIntegral⟩,
  ⟨.vfexp, 0x2F, 0, 10, transElem .exp⟩,
  ⟨.vflog, 0x2F, 1, 10, transElem .log⟩,
  ⟨.vfrecip, 0x2F, 2, 10, transElem .recip⟩,
  ⟨.vfrsqrt, 0x2F, 3, 10, transElem .rsqrt⟩,
  ⟨.vftanh, 0x30, 0, 10, transElem .tanh⟩,
  ⟨.vfsigm, 0x30, 1, 10, transElem .sigm⟩,
  ⟨.vfsin, 0x30, 2, 10, transElem .sin⟩,
  ⟨.vfcos, 0x30, 3, 10, transElem .cos⟩]

/-- The flags of n lanes, ORed. -/
def orFlags (f : Nat → BitVec 6) (n : Nat) : BitVec 6 := ((List.range n).map f).foldl (fun x y => x ||| y) 0

/-- A row of the comparisons: the truth of a lane and its flags (R187). -/
structure VCmpRow where
  make : Stl → MaskNo → VSrc → VSrc → MaskNo → Instr
  major : Nat
  sub : Nat
  lam : Nat
  ok : Nat → Bool
  value : VEnv → Nat → Nat → Bool × BitVec 6

/-- Integer comparisons on lanes, then floating-point ones. -/
def vcmpRows : List VCmpRow := [
  ⟨.vcmpeq, 0x29, 0, 5, fmtInt, fun _ x y => (decide (x = y), 0)⟩,
  ⟨.vcmplt, 0x29, 1, 5, fmtInt, fun e x y => (decide (laneS e.width x < laneS e.width y), 0)⟩,
  ⟨.vcmpltu, 0x29, 2, 5, fmtInt, fun _ x y => (decide (x < y), 0)⟩,
  ⟨.vcmple, 0x29, 3, 5, fmtInt, fun e x y => (decide (laneS e.width x ≤ laneS e.width y), 0)⟩,
  ⟨.vfcmpeq, 0x2A, 0, 6, fmtFloat, fun e x y => floatCmp e.fmt e.rounding.ftz .eq x y⟩,
  ⟨.vfcmplt, 0x2A, 1, 6, fmtFloat, fun e x y => floatCmp e.fmt e.rounding.ftz .lt x y⟩,
  ⟨.vfcmple, 0x2A, 2, 6, fmtFloat, fun e x y => floatCmp e.fmt e.rounding.ftz .le x y⟩,
  ⟨.vfcmpun, 0x2A, 3, 6, fmtFloat, fun e x y => floatCmp e.fmt e.rounding.ftz .un x y⟩]

/-- A row of the reductions to a scalar (R190, R191, R196). -/
structure VRedRow where
  make : Stl → Dst → VSrc → MaskNo → Instr
  major : Nat
  sub : Nat
  ok : Nat → Bool
  value : VEnv → Nat → Nat × BitVec 6

/-- The sum, the extremes, the tree sum and the absolute maximum of the active lanes. -/
def vredRows : List VRedRow := [
  ⟨.vredadd, 0x2D, 0, fmtInt, fun e x => ((ofI ((e.actives x).map (toSigned e.width)).sum).toNat, 0)⟩,
  ⟨.vredmax, 0x2D, 1, fmtRaw, redMinMax true⟩,
  ⟨.vredmin, 0x2D, 2, fmtRaw, redMinMax false⟩,
  ⟨.vfredadd, 0x2D, 3, fmtFloat, redTree⟩,
  ⟨.vamax, 0x31, 0, fmtFloat, fun e x =>
    (((e.actives x).map fun v => (roundFloat 4 rne (floatVal e.fmt (flushIn e.rounding.ftz e.fmt v))).1 % 2 ^ 31).foldl
      max 0, 0)⟩]

/-! ### Branches (R133, R166, R167) -/

/-- What a branch does: its issue, its condition source, its offset in halfwords and when it is taken. -/
structure BranchShape where
  op : Op
  cond : Src
  off : Int
  taken : Word → Bool

/-- The relative branches. -/
def branchShape : Instr → Option BranchShape
  | .bz stl c o => some ⟨opL 0x11 stl c.code o, c, o.toInt, fun x => decide (x.toNat = 0)⟩
  | .bnz stl c o => some ⟨opL 0x12 stl c.code o, c, o.toInt, fun x => decide (x.toNat ≠ 0)⟩
  | .bltz stl c o => some ⟨opL 0x13 stl c.code o, c, o.toInt, fun x => decide (x.toInt < 0)⟩
  | .bgez stl c o => some ⟨opL 0x14 stl c.code o, c, o.toInt, fun x => decide (0 ≤ x.toInt)⟩
  | .br stl o => some ⟨opL 0x15 stl 16 o, .z, o.toInt, fun _ => true⟩
  | .cBr o => some ⟨op16 0x15 0 (0x5000 + o.toNat), .z, o.toInt, fun _ => true⟩
  | .cBz a o => some ⟨op16 0x11 0 (0x5800 + a.code * 64 + o.toNat), a.toSrc, o.toInt, fun x => decide (x.toNat = 0)⟩
  | .cBnz a o => some ⟨op16 0x12 0 (0x6000 + a.code * 64 + o.toNat), a.toSrc, o.toInt, fun x => decide (x.toNat ≠ 0)⟩
  | _ => none

/-- The index a signed distance away, modulo 2^16. -/
def movedPc (pc : Half) (k : Int) : Half := BitVec.ofInt 16 ((pc.toNat : Int) + k)

/-! ### Scalar accesses (R133, R171, R172, R175, R233 to R238) -/

/-- A pointer whose ADDRESS field is moved by a distance, modulo 2^56 (R175). -/
def movedPtr (p : Word) (k : Int) : Word := ofI (p.toNat / 2 ^ 56 * 2 ^ 56 + ((p.toNat : Int) + k) % 2 ^ 56)

/-- What a scalar access does: its issue, its destination and whether its answer is wanted, whether fences hold it as a
store, whether it releases first (R117), the spaces it reaches, the bytes it has at a pointer, and its pointer with what is
done at its home. -/
structure AccessShape where
  op : Op
  dst : Dst
  wants : Bool
  store : Bool
  release : Bool
  rule : M SpaceRule
  bytes : Word → Nat
  args : M (Word × MemOp)

/-- The bytes of a scalar atomic's word: 4 for a pointer of FMT 2, else 8 (R234). -/
def wordBytes (p : Word) : Nat := if p.toNat / 2 ^ 60 = 2 then 4 else 8

/-- A load. -/
def loadShape (op : Op) (d : Dst) (rule : SpaceRule) (n : Nat) (m : MemOp) (ptr : M Word) : AccessShape :=
  { op, dst := d, wants := true, store := false, release := false, rule := pure rule, bytes := fun _ => n
    args := do
      let p ← ptr
      return (p, m) }

/-- A store. -/
def storeShape (op : Op) (rule : SpaceRule) (n : Nat) (args : M (Word × MemOp)) : AccessShape :=
  { op, dst := .discard, wants := false, store := true, release := false, rule := pure rule, bytes := fun _ => n, args }

/-- An atomic, whose answer a discarded destination does not want (R238). -/
def atomicShape (op : Op) (d : Dst) (bytes : Word → Nat) (args : M (Word × MemOp)) : AccessShape :=
  { op, dst := d, wants := !decide (d = .discard), store := true, release := false, rule := atomicRule, bytes, args }

/-- An atomic of two sources on a word. -/
def wordAtomic (sub : Nat) (k : AtomKind) (stl : Stl) (d : Dst) (a b : Src) : AccessShape :=
  atomicShape (opA 0x20 sub stl d.code a.code b.code) d wordBytes (do
    let (p, v) ← read2 a b
    return (p, .atomic k (wordBytes p) v 0))

/-- The scalar loads, stores, full/empty operations, atomics and the barrier arrival. -/
def accessShape : Instr → Option AccessShape
  | .ld stl d p z f => some (loadShape (opM 0x1C stl d.code p.code z f) d anySpace (2 ^ z.toNat) (.load (2 ^ z.toNat) false) (do
      let x ← read1 p
      return movedPtr x (f.toInt * 2 ^ z.toNat)))
  | .lds stl d p z f => some (loadShape (opM 0x1D stl d.code p.code z f) d anySpace (2 ^ z.toNat) (.load (2 ^ z.toNat) true) (do
      let x ← read1 p
      return movedPtr x (f.toInt * 2 ^ z.toNat)))
  | .ldx stl d a b => some (loadShape (opA 0x1F 0 stl d.code a.code b.code) d anySpace 8 (.load 8 false) (do
      let (x, y) ← read2 a b
      return movedPtr x (8 * y.toNat)))
  | .ldt stl d a b => some (loadShape (opA 0x1F 2 stl d.code a.code b.code) d lineSpace 8 .ldt (do
      let (x, y) ← read2 a b
      return movedPtr x (8 * y.toNat)))
  | .cLd a i => some (loadShape (op16 0x1C 0 (0x6800 + a.code * 64 + i.toNat)) .push privateSpace 8 (.load 8 false) (do
      let x ← read1 a.toSrc
      return movedPtr x (8 * i.toNat)))
  | .fetest stl d a => some (loadShape (opA 0x18 9 stl d.code a.code 0) d lineSpace 1 .fetest (read1 a))
  | .st stl d p z f => some (storeShape (opM 0x1E stl d.code p.code z f) anySpace (2 ^ z.toNat) (do
      let (x, v) ← read2 p d
      return (movedPtr x (f.toInt * 2 ^ z.toNat), .store (2 ^ z.toNat) v)))
  | .stx stl d a b => some (storeShape (opA 0x1F 1 stl d.code a.code b.code) anySpace 8 (do
      let (x, y, v) ← read3 a b d
      return (movedPtr x (8 * y.toNat), .store 8 v)))
  | .stf stl d a b => some (storeShape (opA 0x1F 3 stl d.code a.code b.code) lineSpace 8 (do
      let (x, y, v) ← read3 a b d
      return (movedPtr x (8 * y.toNat), .stf v)))
  | .cSt a i => some (storeShape (op16 0x1E 0 (0x7000 + a.code * 64 + i.toNat)) privateSpace 8 (do
      let (x, v) ← read2 a.toSrc (.q 0)
      return (movedPtr x (8 * i.toNat), .store 8 v)))
  | .femark stl a => some (storeShape (opA 0x18 7 stl 0 a.code 0) lineSpace 1 (do
      let p ← read1 a
      return (p, .femark)))
  | .fefill stl a => some (storeShape (opA 0x18 8 stl 0 a.code 0) lineSpace 1 (do
      let p ← read1 a
      return (p, .fefill)))
  | .aadd stl d a b => some (wordAtomic 0 .add stl d a b)
  | .amax stl d a b => some (wordAtomic 1 .smax stl d a b)
  | .amin stl d a b => some (wordAtomic 2 .smin stl d a b)
  | .amaxu stl d a b => some (wordAtomic 3 .umax stl d a b)
  | .aminu stl d a b => some (wordAtomic 4 .umin stl d a b)
  | .aand stl d a b => some (wordAtomic 5 .band stl d a b)
  | .aor stl d a b => some (wordAtomic 6 .bor stl d a b)
  | .axor stl d a b => some (wordAtomic 7 .bxor stl d a b)
  | .aswap stl d a b => some (wordAtomic 8 .swap stl d a b)
  | .acas stl (.n k) a b => some (atomicShape (opA 0x20 9 stl (Dst.n k).code a.code b.code) (.n k) wordBytes (do
      let (p, v, e) ← read3 a b (.n k)
      return (p, .atomic .cas (wordBytes p) v e)))
  | .afxadd stl d a b => some (atomicShape (opA 0x20 10 stl d.code a.code b.code) d (fun _ => 16) (do
      let (p, v) ← read2 a b
      return (p, .fxAdd (v.setWidth 32))))
  | .afxrd stl d a =>
    some { loadShape (opA 0x20 11 stl d.code a.code 0) d anySpace 16 .fxRead (read1 a) with rule := atomicRule }
  | .afxset stl d a b => some (atomicShape (opA 0x20 12 stl d.code a.code b.code) d (fun _ => 16) (do
      let (p, v) ← read2 a b
      let sl ← getSlot
      return (p, .fxSet (v.setWidth 32) (if bitN v 40 = 1 then BitVec.ofNat 8 (v.toNat / 2 ^ 32) else sl.fxsc))))
  | .aamax stl d a b => some (atomicShape (opA 0x20 13 stl d.code a.code b.code) d (fun _ => 4) (do
      let (p, v) ← read2 a b
      return (p, .absmax (v.setWidth 32))))
  | .bararr stl d a =>
    some { atomicShape (opA 0x18 10 stl d.code a.code 0) d (fun _ => 8) (do
      let p ← read1 a
      return (p, .barArrive)) with rule := pure atomicSpace, release := true }
  | .vamaxDrain stl d a => some (storeShape (opA 0x21 3 stl d.code a.code 0) atomicSpace 4 (do
      checkVSrc false d
      windowVSrc d
      checkFmt fmtFloat
      awaitSrc a
      awaitVSrc d
      let p ← readSrc a
      let v ← readVSrc d
      let sl ← getSlot
      return (p, .absmax (BitVec.ofNat 32 (absMaxOf (sl.venv (BitVec.allOnes 1024)) v.1.toNat)))))
  | _ => none

/-- What holds an access that is otherwise ready: the slot's fences, and before a barrier arrival everything earlier. -/
def accessHeld (f : AccessShape) (pl : Place) : M Unit := do
  accessGate f.store pl
  if f.release then releaseGate else pure ()

/-- What an access to the own banks waits for and counts: the slot's vector register writes that are out, the slot's place among the
actions of a cycle at the banks (R97), and the order of exchanges under DET. -/
def ownTurn (m : MemOp) (off : Nat) : M Unit := do
  let s ← get
  awaitVregs
  bankAction s.cur.slotNo.val
  privExchange m off
  countExchange m

/-- The state after the answer of an access. -/
def State.withAnswer (s : State) (f : AccessShape) (v : Nat) : State :=
  if f.wants then s.withResult 1 0 f.dst (ofN v) else s

/-- The n bytes from an address on, read one by one, lowest first. -/
def bytesFrom (m : Memory) (a n : Nat) : Nat := ((List.range n).map fun i => (Memory.get m (a + i)).toNat * 256 ^ i).sum

/-- The byte that the n-byte value v puts at an address, from address b on, over memory m. -/
def byteOver (m : Memory) (b n v a : Nat) : Byte :=
  if b ≤ a ∧ a < b + n then BitVec.ofNat 8 (v / 256 ^ (a - b)) else Memory.get m a

/-! ### Fused, permuting and converting vector instructions (R186, R188, R189, R192, R194, R197 to R200) -/

/-- The active lanes below lane i. -/
def VEnv.below (e : VEnv) (i : Nat) : Nat := (List.range i).countP fun j => e.on j

/-- The sources of a fused vector instruction: A, B and a vector queue entry. -/
def vecArgs3 (d : VDst) (a b : VSrc) (c : BitVec 2) : M (VEnv × (Vec × Side) × (Vec × Side) × (Vec × Side)) := do
  checkVSrc false a
  checkVSrc true b
  checkVDst d
  windowVSrc a
  windowVSrc b
  windowVDst d
  checkFmt fmtFloat
  awaitVSrc a
  awaitVSrc b
  awaitVSrc (.vq (Fin.ofNat 4 c.toNat))
  vectorUnit 1
  let x ← readVSrc a
  let y ← readVSrc b
  let z ← readVSrc (.vq (Fin.ofNat 4 c.toNat))
  let sl ← getSlot
  return (sl.venv (BitVec.allOnes 1024), x, y, z)

/-- A row of the fused vector instructions. -/
structure VFmaRow where
  make : Stl → VDst → VSrc → VSrc → BitVec 2 → Instr
  sub : Nat
  negProduct : Bool
  negAddend : Bool

/-- VFMA, VFMS, VFNMA, VFNMS, signed as the scalar ones. -/
def vfmaRows : List VFmaRow :=
  [⟨.vfma, 0, false, false⟩, ⟨.vfms, 1, false, true⟩, ⟨.vfnma, 2, true, true⟩, ⟨.vfnms, 3, true, false⟩]

/-- A row of the instructions of a vector and a scalar source: the value of lane i. -/
structure VSRow where
  make : Stl → VDst → VSrc → Src → MaskNo → Instr
  major : Nat
  sub : Nat
  value : VEnv → Nat → Word → Nat → Nat

/-- The lane a number names where there is such an active lane, else 0. -/
def VEnv.lane0 (e : VEnv) (x j : Nat) : Nat := if j < e.lanes ∧ e.on j = true then e.lane x j else 0

/-- VBCAST, VINS, VROT. -/
def vsRows : List VSRow := [
  ⟨.vbcast, 0x2B, 1, fun e x y i => if e.on i = true then e.lane0 x y.toNat else 0⟩,
  ⟨.vins, 0x2B, 3, fun e x y i => if e.on i = true then y.toNat % 2 ^ e.width else e.lane x i⟩,
  ⟨.vrot, 0x2C, 1, fun e x y i => if e.on i = true then e.lane0 x ((i + y.toNat) % e.lanes) else 0⟩]

/-- VEXTR's sources. -/
def extractArgs (d : Dst) (a : VSrc) (b : Src) (m : MaskNo) : M (VEnv × (Vec × Side) × Word) := do
  checkDst d
  checkVSrc false a
  windowVSrc a
  checkFmt fmtRaw
  awaitVSrc a
  awaitSrc b
  awaitMask m
  vectorUnit 1
  let x ← readVSrc a
  let y ← readSrc b
  let k ← readMask m
  let sl ← getSlot
  return (sl.venv k, x, y)

/-- What a conversion of one vector knows: the slot as it checked it, the agent's slot number and vtile number, the source,
the mask and the key of stochastic rounding. -/
structure ConvArgs where
  sl : Slot
  slot : Nat
  vtn : Nat
  src : List (Vec × Side)
  mask : MaskWord
  key : Word

/-- The conversion of n lanes of the sources into FMT2, with its rounding, its block exponents and its active lanes. -/
def ConvArgs.lanes (c : ConvArgs) (n : Nat) (scale : Nat → Nat) : Nat × List Nat × BitVec 6 :=
  convertLanes c.sl.fmt c.sl.blk c.sl.fmt2 c.sl.blk2 n (roundingAt c.sl.rnd c.key c.slot c.vtn) c.sl.ftz scale
    (fun i => (activeLanes c.sl.vl n c.mask).getLsbD i) (groupBits c.src)

/-- VCVT's and VWIDEN's checks and source. -/
def convArgs (d : VDst) (a : VSrc) (m : MaskNo) (legal : Slot → Bool) (dst : Slot → List VDst) (g : Slot → Nat) :
    M ConvArgs := do
  checkVSrc false a
  checkVDst d
  windowVSrc a
  windowVDst d
  checkFmt fmtAny
  let sl ← getSlot
  require (legal sl && knLegal sl.fmt sl.blk) (.word .illegalOperand)
  forAll windowVDst (dst sl)
  awaitVSrc a
  awaitMask m
  vectorUnit (g sl)
  let x ← readVSrc a
  let k ← readMask m
  let key ← takeKey (narrowing sl.fmt sl.fmt2)
  let s ← get
  return { sl, slot := s.cur.slotNo.val, vtn := (s.tile s.cur.site).name.2, src := [x], mask := k, key }

/-- VNARROW's and VQUANT's checks and source group. -/
def groupArgs (d : VDst) (a : VSrc) (m : MaskNo) (fmtOk : Nat → Bool) (legal : Slot → Bool) (kn : Slot → Bool)
    (sr : Slot → Bool) : M ConvArgs := do
  checkVSrc false a
  checkVDst d
  windowVSrc a
  windowVDst d
  checkFmt fmtOk
  let sl ← getSlot
  let g := fmtWidth sl.fmt / fmtWidth sl.fmt2
  require (legal sl && kn sl) (.word .illegalOperand)
  checkGroupSrc a g
  forAll windowVSrc (groupSrc a g)
  forAll awaitVSrc (groupSrc a g)
  awaitMask m
  vectorUnit g
  let xs ← readGroup (groupSrc a g)
  let k ← readMask m
  let key ← takeKey (sr sl)
  let s ← get
  return { sl, slot := s.cur.slotNo.val, vtn := (s.tile s.cur.site).name.2, src := xs, mask := k, key }

/-- Whether a destination can take a group of g vectors (R194). -/
def groupFits (d : VDst) (g : Nat) : Bool :=
  match d with
  | .v k => decide (k.val + g ≤ 16)
  | _ => true

/-- The parts of a result in the order of R194, part 0 first: each takes its 4,096 bits; the first carries the flags. -/
def State.withGroup (s : State) (lam : Nat) (fl : BitVec 6) : List VDst → Nat → State
  | [], _ => s
  | d :: rest, bits =>
    (s.withVResult lam fl d (BitVec.ofNat 4096 bits) 0).withGroup lam 0 rest (bits / 2 ^ 4096)

/-- A row of the mask instructions of two masks. -/
structure MaskRow where
  make : Stl → MaskNo → MaskNo → MaskNo → MaskNo → Instr
  sub : Nat
  value : Bool → Bool → Bool

/-- MAND, MOR, MXOR. -/
def maskRows : List MaskRow :=
  [⟨.mand, 0, fun x y => x && y⟩, ⟨.mor, 1, fun x y => x || y⟩, ⟨.mxor, 2, fun x y => x != y⟩]

/-- The source of a mask instruction with a scalar result. -/
def maskArg (d : Dst) (a m : MaskNo) : M (VEnv × MaskWord) := do
  checkDst d
  checkFmt fmtAny
  forAll awaitMask [a, m]
  vectorUnit 1
  let x ← readMask a
  let k ← readMask m
  let sl ← getSlot
  return (sl.venv k, x)

/-- MSETN's source. -/
def msetnArg (d : MaskNo) (a : Src) (m : MaskNo) : M (VEnv × Word) := do
  checkMaskDst d
  checkFmt fmtAny
  awaitSrc a
  awaitMask m
  vectorUnit 1
  let n ← readSrc a
  let k ← readMask m
  let sl ← getSlot
  return (sl.venv k, n)

/-- VIOTA's source. -/
def iotaArg (d : VDst) (a m : MaskNo) : M (VEnv × MaskWord) := do
  checkVDst d
  windowVDst d
  checkFmt fmtInt
  forAll awaitMask [a, m]
  vectorUnit 1
  let x ← readMask a
  let k ← readMask m
  let sl ← getSlot
  return (sl.venv k, x)

/-- The source of a move. -/
def moveArg (d : VDst) (a : VSrc) : M (Vec × Side) := do
  checkVSrc false a
  checkVDst d
  windowVSrc a
  windowVDst d
  awaitVSrc a
  vectorUnit 1
  readVSrc a

/-- VSETSC's sources. -/
def setscArgs (d : VDst) (a b : VSrc) : M ((Vec × Side) × (Vec × Side)) := do
  checkVSrc false a
  checkVSrc true b
  checkVDst d
  windowVSrc a
  windowVSrc b
  windowVDst d
  checkBcast b
  awaitVSrc a
  awaitVSrc b
  vectorUnit 1
  let x ← readVSrc a
  let y ← readVSrc b
  return (x, y)

/-- VSCALE's sources. -/
def scaleArgs (d : VDst) (a : VSrc) (b : Src) (m : MaskNo) : M (Slot × (Vec × Side) × Word × MaskWord) := do
  checkVSrc false a
  checkVDst d
  windowVSrc a
  windowVDst d
  checkFmt fun c => decide (4 ≤ c)
  let sl ← getSlot
  checkBlock sl.fmt sl.blk
  awaitVSrc a
  awaitSrc b
  awaitMask m
  vectorUnit 1
  let x ← readVSrc a
  let y ← readSrc b
  let k ← readMask m
  return (sl, x, y, k)

/-- Whether the formats of VDOT agree (R199): one width of at most 16 bits, both integer or neither. -/
def dotFormats (sl : Slot) : Bool :=
  decide (sl.fmt2 ≤ 11 ∧ fmtWidth sl.fmt = fmtWidth sl.fmt2 ∧ fmtWidth sl.fmt ≤ 16 ∧ isInt sl.fmt = isInt sl.fmt2)

/-- VDOT's sources. -/
def dotArgs (d : VDst) (a b : VSrc) (m : MaskNo) : M (Slot × (Vec × Side) × (Vec × Side) × MaskWord) := do
  checkVSrc false a
  checkVSrc true b
  checkVDst d
  windowVSrc a
  windowVSrc b
  windowVDst d
  checkFmt fmtAny
  let sl ← getSlot
  require (dotFormats sl) (.word .illegalOperand)
  checkBlock sl.fmt sl.blk
  checkBlock sl.fmt2 sl.blk2
  match b with
  | .bcast _ => require (decide (sl.fmt ≤ 8) && !isKN sl.fmt2) (.word .illegalOperand)
  | _ => pure ()
  awaitVSrc a
  awaitVSrc b
  awaitMask m
  vectorUnit 1
  let x ← readVSrc a
  let y ← readVSrc b
  let k ← readMask m
  return (sl, x, y, k)

/-- The integer dot product of the elements that fall into 32-bit lane i. -/
def dotInt (w x y i : Nat) : Int :=
  ((List.range (32 / w)).map fun j =>
    laneS w (elemBits x w (32 / w * i + j)) * laneS w (elemBits y w (32 / w * i + j))).sum

/-! ### Vector accesses (R202 to R206, R239, R240) -/

/-- What a vector load does: its issue, its destination, and its pointer with its parts, one for each home, once every check
has passed and no fence holds it. -/
structure VLoadShape where
  op : Op
  dst : VDst
  args : M (Word × List (Place × MemOp))

/-- VLD, VLDS and VGATH. -/
def vloadShape : Instr → Option VLoadShape
  | .vld stl d a b => some ⟨opA 0x35 0 stl d.code a.code b.code, d, do
      checkVLoad d fmtAny
      let (x, y) ← read2 a b
      let sl ← getSlot
      let base := movedPtr x (512 * y.toNat)
      let ps ← placeElems { rule := anySpace, baseAlign := 8, one := true, rim := some false } base (loadElems sl)
      gateParts false ps
      return (base, rawLoads ps)⟩
  | .vlds stl d a b => some ⟨opA 0x35 4 stl d.code a.code b.code, d, do
      checkVLoad d fmtStride
      let (x, y) ← read2 a b
      let sl ← getSlot
      let ps ← placeElems { rule := anySpace, baseAlign := 1, one := false, rim := some false } x
        (spreadElems sl fun i => i * y.toInt)
      gateParts false ps
      return (x, apartLoads ps)⟩
  | .vgath stl d a b => some ⟨opA 0x35 6 stl d.code a.code b.code, d, do
      checkVSrc true b
      checkVDst d
      windowVSrc b
      windowVDst d
      checkFmt fmtGather
      awaitSrc a
      awaitVSrc b
      let x ← readSrc a
      let o ← readVSrc b
      let sl ← getSlot
      let ps ← placeElems { rule := anySpace, baseAlign := 1, one := false, rim := some false } x
        (spreadElems sl fun i => laneS (fmtWidth sl.fmt) (elemBits o.1.toNat (fmtWidth sl.fmt) i)
          * (fmtWidth sl.fmt / 8 : Nat))
      gateParts false ps
      return (x, apartLoads ps)⟩
  | _ => none

/-- The current slot runs no stage of a guarded phase. -/
def outside : M Unit := do
  let ph ← inPhase
  require (!ph) (.wait .none)

/-- What a vector store or atomic does outside the guarded phase: its issue, and its pointer with its parts. -/
structure VStoreShape where
  op : Op
  args : M (Word × List (Place × MemOp))

/-- The parts of a vector atomic on the lanes of a format. -/
def laneAtomic (k : AtomKind) (fmt : Nat → Bool) (d : VSrc) (a b : Src) : M (Word × List (Place × MemOp)) := do
  checkVStore d fmt
  let (x, y, v) ← readVStore d a b
  let sl ← getSlot
  let w := fmtWidth sl.fmt
  let base := movedPtr x (512 * y.toNat)
  outside
  let ps ← placeElems { rule := atomicSpace, baseAlign := 8, one := true, rim := some true } base
    ((activeList sl).map fun i => VElem.at (w * i) w (w * i))
  outside
  gateParts true ps
  return (base, (byHome ps).map fun h =>
    (h.1, .vecAtomic k (w / 8) (h.2.map fun p => (p.place.addr, ofN (p.lane w v.1.toNat)))))

/-- VST, VSTS, VSCAT, VAADD, VAMAXABS and VAFX. -/
def vstoreShape : Instr → Option VStoreShape
  | .vst stl d a b => some ⟨opA 0x35 1 stl d.code a.code b.code, do
      checkVStore d fmtAny
      let (x, y, v) ← readVStore d a b
      let sl ← getSlot
      let base := movedPtr x (512 * y.toNat)
      outside
      let ps ← placeElems { rule := anySpace, baseAlign := 8, one := true, rim := some true } base (storeElems sl)
      outside
      gateParts true ps
      return (base, rawStores v.1.toNat ps)⟩
  | .vsts stl d a b => some ⟨opA 0x35 5 stl d.code a.code b.code, do
      checkVStore d fmtStride
      let (x, y, v) ← readVStore d a b
      let sl ← getSlot
      outside
      let ps ← placeElems { rule := anySpace, baseAlign := 1, one := false, rim := some true } x
        (spreadElems sl fun i => i * y.toInt)
      outside
      gateParts true ps
      return (x, apartStores v.1.toNat ps)⟩
  | .vscat stl d a b => some ⟨opA 0x35 7 stl d.code a.code b.code, do
      checkVStoreV d b fmtGather
      let (x, o, v) ← readVStoreV d a b
      let sl ← getSlot
      outside
      let ps ← placeElems { rule := anySpace, baseAlign := 1, one := false, rim := some true } x
        (spreadElems sl fun i => laneS (fmtWidth sl.fmt) (elemBits o.toNat (fmtWidth sl.fmt) i) * (fmtWidth sl.fmt / 8 : Nat))
      outside
      gateParts true ps
      return (x, apartStores v.toNat ps)⟩
  | .vaadd stl d a b => some ⟨opA 0x21 0 stl d.code a.code b.code, laneAtomic .add (fun c => c == 1 || c == 2) d a b⟩
  | .vamaxabs stl d a b => some ⟨opA 0x21 1 stl d.code a.code b.code, laneAtomic .umax (fun c => c == 4) d a b⟩
  | .vafx stl d a b => some ⟨opA 0x21 2 stl d.code a.code b.code, do
      checkVStoreV d b fun c => c == 4
      let (x, o, v) ← readVStoreV d a b
      let sl ← getSlot
      outside
      let ps ← placeElems { rule := atomicSpace, baseAlign := 16, one := false, rim := some true } x
        ((activeList sl).map fun i =>
          { delta := 16 * laneS 32 (elemBits o.toNat 32 i), bytes := 16, align := 1, pos := 32 * i, len := 32, boff := 0 })
      outside
      gateParts true ps
      return (x, (byHome ps).map fun h =>
        (h.1, .vecFx (h.2.map fun p => (p.place.addr, BitVec.ofNat 32 (p.lane 32 v.toNat)))))⟩
  | _ => none

/-- A place moved down to the start of the access whose element stands there. -/
def Place.back (pl : Place) (n : Nat) : Place :=
  match pl with
  | .priv off => .priv (off - n)
  | .vtile vt off => .vtile vt (off - n)
  | .hbm va => .hbm (va - n)
  | .aperture k off => .aperture k (off - n)
  | pl => pl

/-- VLDC's pointer, conversion, and the place of its first byte where an element is active (R204). -/
def vldcArgs (d : VDst) (a b : Src) : M (Word × Convert × Option Place) := do
  checkVLoad d fmtAny
  let (x, y) ← read2 a b
  let sl ← getSlot
  let base := movedPtr x (convBytes sl (ptrFmt x) * y.toNat)
  let ps ← placeConv sl x base (some false)
  gateParts false ps
  let key ← takeKey (narrowing (ptrFmt x) sl.fmt)
  let s ← get
  return (base, { regFmt := sl.fmt, regBlk := sl.blk, memFmt := ptrFmt x, memBlk := ptrBlk x, rnd := sl.rnd, key,
                  slot := s.cur.slotNo.val, vtn := (s.tile s.cur.site).name.2, active := activeUnder0 sl },
    ps.head?.map fun p => p.place.back p.el.delta.toNat)

/-- VSTC's pointer, parts and flags outside the guarded phase (R204). -/
def vstcArgs (d : VSrc) (a b : Src) : M (Word × List (Place × MemOp) × BitVec 6) := do
  checkVStore d fmtAny
  let (x, y, v) ← readVStore d a b
  let sl ← getSlot
  let base := movedPtr x (convBytes sl (ptrFmt x) * y.toNat)
  outside
  let ps ← placeConv sl x base (some true)
  let key ← takeKey (narrowing sl.fmt (ptrFmt x))
  let s ← get
  let r := convertLanes sl.fmt sl.blk (ptrFmt x) (ptrBlk x) (fmtLanes sl.fmt)
    (roundingAt sl.rnd key s.cur.slotNo.val (s.tile s.cur.site).name.2) sl.ftz (sidecarScale sl.fmt sl.blk v.2.toNat)
    (fun i => (activeUnder0 sl).getLsbD i) v.1.toNat
  outside
  gateParts true ps
  return (base, (byHome ps).map fun h =>
      (h.1, MemOp.vecStore (mergePuts (h.2.map (Placed.put r.1)))
        (if isKN (ptrFmt x) then h.2.flatMap (shadowPuts (ptrFmt x) (ptrBlk x) r.2.1) else [])), r.2.2)

/-- Whether the parts of an access are more than one access to the own banks. -/
def partsTravel (parts : List (Place × MemOp)) : Prop :=
  parts ≠ [] ∧ ∀ off m, parts ≠ [(.priv off, m)]

/-! ### Control registers (R56 to R61, R276, R277) -/

/-- A control register of a tile: its index, and the bits that a write of a word leaves in it, given the bits it had. -/
structure CtlRow where
  index : Nat
  kept : Nat → Nat → Nat

/-- A register that a write replaces, in its low w bits. -/
def ctlPlain (index w : Nat) : CtlRow := ⟨index, fun _ v => v % 2 ^ w⟩

/-- The registers of a tile that are written and read back, of every scope (R56, R57, R59, R60, R276, R277). -/
def ctlRows : List CtlRow := [
  ⟨0x000, fun _ v => v % 2 ^ 15 + v / 2 ^ 16 % 4 * 2 ^ 16⟩,
  ⟨0x001, fun _ v => v % 2 ^ 4 + v / 2 ^ 16 % 4 * 2 ^ 16⟩,
  ⟨0x002, fun o v => v / 8 % 2 * 8 + (if v % 8 ≤ 4 then v % 8 else o % 8)⟩,
  ctlPlain 0x003 6, ctlPlain 0x004 1, ctlPlain 0x005 16, ctlPlain 0x006 64, ctlPlain 0x007 64, ctlPlain 0x008 32,
  ctlPlain 0x009 64, ctlPlain 0x00A 64, ctlPlain 0x010 19, ctlPlain 0x011 19, ctlPlain 0x012 19, ctlPlain 0x013 19,
  ctlPlain 0x014 19, ctlPlain 0x015 19, ctlPlain 0x016 19, ctlPlain 0x017 19, ctlPlain 0x018 64, ctlPlain 0x021 32,
  ctlPlain 0x022 8, ctlPlain 0x023 64, ctlPlain 0x024 32,
  ⟨0x200, fun o v => o % 2 + v / 4 % 2 * 4⟩, ctlPlain 0x201 16, ctlPlain 0x202 14, ctlPlain 0x203 64,
  ⟨0x204, fun o v => ((List.range 6).map fun i => if v / 2 ^ i % 2 = 1 then 0 else o / 2 ^ i % 2 * 2 ^ i).sum⟩,
  ⟨0x210, fun o v => v % 4 + o / 4 % 2 * 4⟩, ctlPlain 0x211 5]

/-- The read-only registers of a tile. -/
def ctlReadOnly : List Nat := [0x020, 0x025, 0x026, 0x027, 0x028, 0x029, 0x206, 0x207, 0x212, 0x213]

/-- The registers of a core that are written and read back, but for the loop levels (R276, R277, R307, R418). -/
def coreRows (a : Agent) : List CtlRow := [
  ⟨0x002, fun o v => v / 8 % 2 * 8 + (if v % 8 ≤ 4 then v % 8 else o % 8)⟩, ctlPlain 0x003 6, ctlPlain 0x004 1, ctlPlain 0x005 16,
  ⟨0x200, fun _ v => 1 + v / 2 % 4 * 2⟩, ctlPlain 0x201 16, ctlPlain 0x202 14, ctlPlain 0x203 64, ctlPlain 0x221 7, ctlPlain 0x222 64]
  ++ (if a = .collier then [ctlPlain 0x380 12] else [])

/-- The registers that a core only reads, or reads and clears (R276, R418). -/
def coreReadOnly (a : Agent) (i : Nat) : Prop :=
  i ∈ [0x028, 0x213, 0x220, 0x389]
  ∨ (a = .collier ∧ ((0x300 ≤ i ∧ i ≤ 0x33F) ∨ i = 0x388 ∨ i = 0x391 ∨ (0x3A0 ≤ i ∧ i ≤ 0x3AF)))
  ∨ ((∃ r, a = .stoker r) ∧ (i ∈ [0x301, 0x302, 0x303] ∨ (0x3C1 ≤ i ∧ i ≤ 0x3D3)))

/-! ### Matrix elements (R54, R55, R211) -/

/-- The signed value of an integer element as a source: a disabled one is 0. -/
def Tile.intSource (t : Tile) (k : Fin 8) (c : TileCfg) (r col : Nat) : Int :=
  if t.mxOn r col = true then laneS c.width (t.telem k c r col) else 0

/-- A tile register takes new elements where the predicates enable them and keeps everything else. -/
def elementsBecome (t t' : Tile) (k : Fin 8) (c : TileCfg) (f : Nat → Nat → Nat) : Prop :=
  (∀ i j, i < c.rows → j < c.cols →
    elemBits t'.tregs[k].toNat c.width (i * c.cols + j) = if t.mxOn i j = true then f i j else t.telem k c i j)
  ∧ t'.tregs[k].toNat / 2 ^ (c.width * c.count) = t.tregs[k].toNat / 2 ^ (c.width * c.count)
  ∧ ∀ j, j ≠ k → t'.tregs[j] = t.tregs[j]

/-! ### Messages and register writes (R241 to R258) -/

/-- SEND's header, destination vtile and payload. -/
def sendArgs (a b : Src) : M (Word × List Word) := do
  let (h, p) ← read2 a b
  require (headerOk h false 64) (.word .illegalOperand)
  let off ← payloadAt p (hdrLen h)
  checkVtile (hdrVt h)
  let ws ← readPayload p off (hdrLen h)
  return (h, ws)

/-- SENDS's. -/
def sendsArgs (d a b : Src) : M (Word × List Word) := do
  let (h, w0, w1) ← read3 a b d
  require (headerOk h false 2) (.word .illegalOperand)
  checkVtile (hdrVt h)
  return (h, [w0, w1].take (hdrLen h))

/-- SENDV's. -/
def sendvArgs (a : Src) (b : VSrc) : M (Word × List Word) := do
  checkVSrc false b
  windowVSrc b
  awaitSrc a
  awaitVSrc b
  let h ← readSrc a
  let v ← readVSrc b
  require (headerOk h false 64) (.word .illegalOperand)
  checkVtile (hdrVt h)
  return (h, (List.range (hdrLen h)).map fun i => ofN (v.1.toNat / 2 ^ (64 * i)))

/-- SENDA's header, destination vtile and payload: word 0 is the pointer. -/
def sendaArgs (d a b : Src) : M (Word × Nat × List Word) := do
  let (h, g, p) ← read3 a b d
  require (headerOk h true 63) (.word .illegalOperand)
  require (ptrSpace g == 1) (.trap .bounds g)
  let off ← payloadAt p (hdrLen h)
  checkVtile (bitsOf g.toNat 55 32)
  let ws ← readPayload p off (hdrLen h)
  return (h, bitsOf g.toNat 55 32, g :: ws)

/-- A message that nothing holds: outside the guarded phase, behind no fence, with room in the interface. -/
def sendFree : M Unit := do
  outside
  fenceGate true false
  interfaceRoom

/-- LAUNCH's packet, from the own scratchpad (R246). -/
def launchArg (d : Dst) (a : Src) : M (List Byte) := do
  checkDst d
  let p ← read1 a
  let off := ptrAddr p
  require (ptrSpace p == 2 && off / 2 ^ 17 == 0 && Nat.ble (off + 128) Config.spadBytes) (.trap .bounds p)
  require (off % 8 == 0) (.trap .alignment p)
  fenceGate false true
  let r ← privAccess (.vecLoad [{ pos := 0, len := 1024, addr := off, boff := 0 }]) p off
  return natToBytes 128 r.val

/-- RPUTV's capability and value. -/
def rputvArgs (a : Src) (b : VSrc) : M (Word × Vec × Side) := do
  checkVSrc false b
  windowVSrc b
  awaitSrc a
  awaitVSrc b
  let c ← readSrc a
  let v ← readVSrc b
  checkCap c true
  return (c, v.1, v.2)

/-- The checks of an instruction that names a register by a literal and has another destination of its kind (R139, R257). -/
def takeArgs (d a : BitVec 6) : M Unit := do
  require (decide (a.toNat < 48)) (.word .illegalOperand)
  if a.toNat < 32 then do
    checkDst (Dst.ofCode d.toNat)
    require (decide (Dst.ofCode d.toNat ≠ .n (Fin.ofNat 32 a.toNat))) (.word .illegalOperand)
  else do
    checkVDst (VDst.ofCode d.toNat)
    checkVreg (Fin.ofNat 16 (a.toNat - 32))
    windowVDst (VDst.ofCode d.toNat)
    require (decide (VDst.ofCode d.toNat ≠ .v (Fin.ofNat 16 (a.toNat - 32)))) (.word .illegalOperand)

/-- The state with a named register or the lines of a vector register empty. -/
def State.emptied (s : State) (a : BitVec 6) : State :=
  if a.toNat < 32 then
    s.setSlot s.cur { s.slot s.cur with nfull := BitVec.ofNat 32 ((s.slot s.cur).nfull.toNat &&& (2 ^ 32 - 1 - 2 ^ a.toNat)) }
  else
    let t := s.tile s.cur.site
    s.setTile s.cur.site
      { t with fe := t.fe &&& ~~~vregLines (vregOffset (s.launch t.name.1) s.cur.slotNo (a.toNat - 32)) }

/-- A control register of the current slot or tile as it reads. -/
def State.ctlOf (s : State) (i : Nat) : Option Word :=
  match (s.slot s.cur).ctlGet s.cur.slotNo.val i with
  | some v => some v
  | none => s.tileCtlGet s.cur.site i

/-- The bytes that a captured access adds to the guard buffer: 16, and its data rounded up to 16 (R126). -/
def guardBytes (i : Instr) (n : Nat) : Nat :=
  match i with
  | .femark _ _ | .fefill _ _ | .bararr _ _ _ => 16
  | .vamaxDrain _ _ _ => 16 + 512
  | _ => 16 + (n + 15) / 16 * 16

/-- The state with an entry of the template table of the current tile written. -/
def State.withTemplate (s : State) (i : Nat) (v : Nat) : State :=
  s.setTile s.cur.site { s.tile s.cur.site with
    templates := (s.tile s.cur.site).templates.set (Fin.ofNat 64 i : Fin 64) (BitVec.ofNat 256 v) }

/-! ### Events -/

/-- Packet k of the fabric has its turn and stands at the site of its vtile, of a live launch, which no forwarding entry leads
on from (R112, R327, R342). -/
def State.arrives (s : State) (k : Nat) (p : Packet) (site idx vt : Nat) : Prop :=
  s.fabric[k]? = some p ∧ s.hasTurn k p = true ∧ p.dst = .vtile idx vt ∧ s.discards p idx = false ∧ p.hop = .site site
    ∧ (s.tile site).occ = some (idx, vt) ∧ (s.tile site).fwd = none

/-- The same at an interface that accepts directly (R352). -/
def State.arrivesDirect (s : State) (k : Nat) (p : Packet) (site idx vt : Nat) : Prop :=
  s.arrives k p site idx vt ∧ (s.tile site).ni = .direct

/-- The events of an arrival, each with the packets that it is for. -/
def arrivalRows : List ((Nat → Instr) × (Packet → Bool)) := [
  (.varResultArrival, fun p => p.entryType == 3),
  (.messageArrival, Packet.isMessage false),
  (.countedMessageArrival, Packet.isMessage true),
  (.registerWriteArrival, fun p => p.entryType == 1),
  (.remoteRequestArrival, fun p => p.isRequest)]

/-- Room for a message of n words at an input queue (R26): fewer than 16 messages, and 6,848 payload bytes in the buffer. -/
def Tile.queueRoom (t : Tile) (i : Fin 4) (n : Nat) : Prop :=
  t.iqs[i].msgs.length < 16 ∧ t.payloadUsed + 8 * n ≤ 6848

/-- A message accepted behind the others of its queue, with the latencies that the capture units take (R26, R407). -/
def State.enqueued (s : State) (site : Nat) (p : Packet) (h : Word) (ws : List Word) (cls : Nat) : State :=
  let t := s.tile site
  let i : Fin 4 := Fin.ofNat 4 (hdrPrio h)
  let m := p.toMsg h ws cls (t.payloadSpot (8 * ws.length)) s.tb.toNat false
  let q : InQueue := { t.iqs[i] with
    msgs := t.iqs[i].msgs ++ [m], since := if t.iqs[i].msgs = [] then s.cycle else t.iqs[i].since }
  let u := s.setTile site { t with iqs := t.iqs.set i q }
  (u.capture site 1 t.name.1 m.transit).capture site 6 t.name.1 (t.iqs[i].msgs.length + 1)

/-- A counter of the error log of a launch that a tile raises. -/
def State.noted (s : State) (site idx : Nat) (f : ErrorLog → ErrorLog) : State := s.countAt site idx f

/-- The head entry of a queue, which the Collier may take: it is mapped and ACTIVE, has one, and an index is free (R312,
R313). -/
def State.offers (s : State) (n : Nat) (x : Queue) (v : Nat) : Prop :=
  Table.get? s.queues n = some x ∧ s.mayTake x = true ∧ v = Memory.read s.host (x.entryAt x.head) 128

/-- A launch index that is free. -/
def State.freeIndex (s : State) (idx : Nat) : Prop := idx < 65536 ∧ Table.get? s.launches idx = none

/-- A well-formed admin command of queue 0 with an OP at its head, and the state with it taken (R324, R336). -/
def State.commands (s : State) (op : Nat) (t : State) (v : Nat) : Prop :=
  ∃ x, s.offers 0 x v ∧ packetBits v 0 7 0 = 0x10 ∧ adminBad v = false ∧ adminOp v = op ∧ t = s.takeEntry 0 x

/-- An admin command is done: a COMPLETED record and event, or a rejection with its reason (R324, R336). -/
def adminOutcome (i : Instr) (op : Nat) (reason : State → Nat → Option Nat) (effect : State → Nat → State) : Prop :=
  ∀ s t v, s.commands op t v →
    (reason t v = none → exec i s = .next ((effect t v).adminDone v none))
    ∧ ∀ r, reason t v = some r → exec i s = .next (t.adminDone v (some r))

/-- The oldest message between its sender and receiver on the Flue is of a type, goes to a tile exactly where the type is one
that tiles take, and the state with it taken (R296, R333). -/
def State.receives (s : State) (k type : Nat) (m : FlueMsg) (t : State) : Prop :=
  s.flue[k]? = some m ∧ m.type = type ∧ (m.dst < 0x40000 ↔ toTile type = true) ∧ (∀ x ∈ s.flue.take k, ¬(x.src = m.src ∧ x.dst = m.dst))
    ∧ t = (let u := ({ s with flue := s.flue.eraseIdx k } : State).owePermit m
      if toTile type && type != 5 then u.admitQueued m.dst s.flue.length else u)

/-- Every thread of a tile gets a bit of PEND, with the value its cause writes to TVAL. -/
def Tile.pended (t : Tile) (b : Fin 6) (v : Word) : Vector Slot 8 :=
  t.slots.map fun sl => if sl.thread then { sl with pend := sl.pend ||| (1#6 <<< b.val), pendVal := sl.pendVal.set b v } else sl

/-- The state with a summon of a gang pending. -/
def State.withSummon (s : State) (idx gang : Nat) : State :=
  let part := (s.launch idx).part
  let p := Table.getD s.partitions part {}
  { s with partitions := Table.put s.partitions part { p with summons := p.summons ++ [(idx, gang)] } }

/-! ### Frames -/

/-- The state after a TRAP or BRK (R265): the pass of a loop that ends here is counted, and the cause is taken with the next
instruction as return point. -/
def State.trapped (s : State) (o : Op) (c : Cause) (tv : Word) : State :=
  let n := (s.slot s.cur).next o.len
  (s.setSlot s.cur { n with readyAt := max n.readyAt (s.cycle + o.stl + 1), lastIssue := s.cycle, wait := .none }).takeTrap c tv
    n.pc

/-- No vector register result that a slot of the current tile has issued and not completed lands on an address (R46). -/
def State.quietAt (s : State) (a : Nat) : Prop :=
  let t := s.tile s.cur.site
  ∀ (j : Fin 8) (f : Flight) (r : Fin 16), f ∈ t.slots[j].flights → f.dst = .vreg r →
    a < vregOffset (s.launch t.name.1) j r.val ∨ vregOffset (s.launch t.name.1) j r.val + 512 ≤ a

/-- The registers of a slot but for a destination and what results issued earlier land in. -/
def Slot.frame (sl u : Slot) (d : Dst) : Prop :=
  (∀ k : Fin 32, d ≠ .n k → (∀ f ∈ sl.flights, f.dst ≠ .named k) → u.n[k] = sl.n[k] ∧ u.sn[k] = sl.sn[k])
  ∧ (d ≠ .push → (∀ f ∈ sl.flights, f.dst ≠ .queue) → u.q = sl.q ∧ u.sq = sl.sq)
  ∧ ((∀ f ∈ sl.flights, f.dst ≠ .vqueue) → u.vq = sl.vq)
  ∧ ((∀ f ∈ sl.flights, ∀ k, f.dst ≠ .mask k) → u.m1 = sl.m1 ∧ u.m2 = sl.m2 ∧ u.m3 = sl.m3)
  ∧ ((∀ f ∈ sl.flights, f.flags = 0) → u.fstat = sl.fstat)
  ∧ u.vt = sl.vt ∧ u.vt2 = sl.vt2 ∧ u.rnd = sl.rnd ∧ u.schk = sl.schk ∧ u.lr = sl.lr ∧ u.fxsc = sl.fxsc
  ∧ u.srseed = sl.srseed ∧ u.xfollow = sl.xfollow ∧ u.msgcls = sl.msgcls ∧ u.thread = sl.thread ∧ u.res = sl.res
  ∧ u.sys = sl.sys ∧ u.pie = sl.pie ∧ u.gen = sl.gen ∧ u.epc = sl.epc ∧ u.cause = sl.cause ∧ u.tval = sl.tval ∧ u.pend = sl.pend
  ∧ u.ovr = sl.ovr

/-- What a register-only instruction leaves unchanged: everything outside its tile or core, every byte of its tile's scratchpad
on which no earlier vector result lands, the tile's registers, the other slots without results of their own, and the slot's
registers but its destination. -/
def State.registerFrame (s u : State) (d : Dst) : Prop :=
  (s.slot s.cur).frame (u.slot s.cur) d
  ∧ match s.cur with
    | .tile site k =>
      u = { s with cycle := u.cycle, freeCtr := u.freeCtr, tiles := u.tiles }
      ∧ (∀ x, x ≠ site → u.tile x = s.tile x)
      ∧ (∀ a, s.quietAt a → Memory.get (u.tile site).spad a = Memory.get (s.tile site).spad a)
      ∧ (u.tile site).tregs = (s.tile site).tregs ∧ (u.tile site).tcfg = (s.tile site).tcfg
      ∧ (u.tile site).counters = (s.tile site).counters ∧ (u.tile site).iqs = (s.tile site).iqs
      ∧ (u.tile site).jobs = (s.tile site).jobs ∧ (u.tile site).guard = (s.tile site).guard
      ∧ ∀ j : Fin 8, j ≠ k → (s.tile site).slots[j].flights = [] → (u.tile site).slots[j] = (s.tile site).slots[j]
    | .collier =>
      u = { s with cycle := u.cycle, freeCtr := u.freeCtr, collier := u.collier }
      ∧ u.collier = { s.collier with th := u.collier.th }
    | .stoker r =>
      u = { s with cycle := u.cycle, freeCtr := u.freeCtr, stokers := u.stokers }
      ∧ u.stoker r = { s.stoker r with th := (u.stoker r).th } ∧ ∀ x, x ≠ r → u.stoker x = s.stoker x

/-- The scratchpad bytes of the current tile but for some ranges and for earlier vector results. -/
def State.bytesFrame (s u : State) (ws : List (Nat × Nat)) : Prop :=
  ∀ a, (∀ w ∈ ws, a < w.1 ∨ w.1 + w.2 ≤ a) → s.quietAt a →
    Memory.get (u.tile s.cur.site).spad a = Memory.get (s.tile s.cur.site).spad a

end Sys2Proof.Machine

end
end

