-- ==== Sys2Proof/Certificates/Slice0/Obligations.lean ====
section
/-! DEFINITION. The statements about the model, from the numbered rules of spec/: what each instruction and each step of the module
does, what a step keeps, and what it leaves alone. A statement of several parts is the conjunction of its claims. -/

noncomputable section

open Sys2Proof
open Sys2Proof.Machine

/-! ### Scalar integer instructions -/

/-- R158, R159, R162: the two-source integer, field and pointer instructions complete with the value that integer
arithmetic gives, in every destination and from every source. -/
def Claim.IntegerResults : Prop :=
  ∀ r ∈ intRows ++ fieldRows, ∀ stl d a b s x y t,
    d.legal = true → s.admits (opA r.major r.sub stl d.code a.code b.code) →
    read2 a b s.opened = .ok ((x, y), t) →
    exec (r.make stl d a b) s
      = .next (finish (opA r.major r.sub stl d.code a.code b.code) .seq
          (t.withResult (slat r.lam [a, b]) 0 d (r.value x y)))

/-- R66: DIV, DIVU, REM and REMU complete, by zero and at the one overflow too. -/
def Claim.DivisionResults : Prop :=
  ∀ r ∈ divRows, ∀ stl d a b s x y t,
    d.legal = true → s.admits (opA r.major r.sub stl d.code a.code b.code) →
    read2 a b s.opened = .ok ((x, y), t) →
    exec (r.make stl d a b) s
      = .next (finish (opA r.major r.sub stl d.code a.code b.code) .seq
          (t.withResult (slat r.lam [a, b]) 0 d (r.value x y)))

/-- R158, R160, R161, R162: one-source, immediate, shift-immediate and literal instructions complete with their values; a
shift literal above 63 is an illegal operand. -/
def Claim.UnaryAndImmediateResults : Prop :=
  (∀ r ∈ unaryRows, ∀ stl d a s x t,
    d.legal = true → s.admits (opA r.major r.sub stl d.code a.code 0) → read1 a s.opened = .ok (x, t) →
    exec (r.make stl d a) s
      = .next (finish (opA r.major r.sub stl d.code a.code 0) .seq (t.withResult (slat 1 [a]) 0 d (r.value x))))
  ∧ (∀ r ∈ immRows, ∀ stl d a i s x t,
    d.legal = true → s.admits (opI r.major stl d.code a.code i) → read1 a s.opened = .ok (x, t) →
    exec (r.make stl d a i) s
      = .next (finish (opI r.major stl d.code a.code i) .seq (t.withResult 1 0 d (r.value x i))))
  ∧ (∀ r ∈ shiftRows, ∀ stl d a i s x t,
    d.legal = true → i.toNat < 64 → s.admits (opI r.major stl d.code a.code i) → read1 a s.opened = .ok (x, t) →
    exec (r.make stl d a i) s
      = .next (finish (opI r.major stl d.code a.code i) .seq (t.withResult 1 0 d (r.value x i))))
  ∧ (∀ r ∈ shiftRows, ∀ stl d a i s,
    64 ≤ i.toNat → d.legal = true → s.admits (opI r.major stl d.code a.code i) →
    exec (r.make stl d a i) s
      = .next (s.takeTrap .illegalOperand (ofN (opI r.major stl d.code a.code i).word) (s.slot s.cur).pc))
  ∧ (∀ stl d k s, d.legal = true → s.admits (opL 0x0C stl d.code k) →
    exec (.limm stl d k) s = .next (finish (opL 0x0C stl d.code k) .seq (s.opened.withResult 1 0 d (ofI k.toInt))))
  ∧ (∀ stl r k s s1 x t, s.admits (opL 0x0D stl (Dst.n r).code k) →
    awaitNamed r s.opened = .ok ((), s1) → readNamed r s1 = .ok (x, t) →
    exec (.limh stl (.n r) k) s
      = .next (finish (opL 0x0D stl (Dst.n r).code k) .seq
          (t.withResult 1 0 (.n r) (ofN (x.toNat * 65536 + k.toNat)))))

/-- R156, R158, R159: CMOV and INS read the value that their destination held, and write it whether or not it changes. -/
def Claim.OldValueResults : Prop :=
  ∀ stl d a b s s1 s2 x y o t, d.legal = true →
    awaitOld d s.opened = .ok ((), s1) → read2 a b s1 = .ok ((x, y), s2) → readOld d s2 = .ok (o, t) →
    (s.admits (opA 0x01 12 stl d.code a.code b.code) →
      exec (.cmov stl d a b) s
        = .next (finish (opA 0x01 12 stl d.code a.code b.code) .seq (t.withResult 1 0 d (if y.toNat = 0 then o else x))))
    ∧ (s.admits (opA 0x02 7 stl d.code a.code b.code) →
      exec (.ins stl d a b) s
        = .next (finish (opA 0x02 7 stl d.code a.code b.code) .seq
            (t.withResult 1 0 d (ofI ((o.toNat : Int) - (fieldOf o y : Int) * 2 ^ posOf y
              + (x.toNat % 2 ^ lenOf y : Nat) * 2 ^ posOf y)))))

/-- R133: the 16-bit arithmetic instructions push what the 32-bit instructions that they stand for give; C.ADDI and C.LIMM
extend their literal with its sign, C.SHLI and C.SHRI take a count of 0 to 63. -/
def Obligations.ShortFormResults : Prop :=
  (∀ r ∈ shortRows, ∀ a b s x y t,
    s.admits (op16 r.major r.sub (r.op * 2048 + a.code * 64 + b.code * 2 + r.low)) →
    read2 a.toSrc b.toSrc s.opened = .ok ((x, y), t) →
    exec (r.make a b) s
      = .next (finish (op16 r.major r.sub (r.op * 2048 + a.code * 64 + b.code * 2 + r.low)) .seq
          (t.withResult 1 0 .push (r.value x y))))
  ∧ (∀ a i s x t, read1 a.toSrc s.opened = .ok (x, t) →
    (s.admits (op16 0x03 0 (0x3000 + a.code * 64 + i.toNat)) →
      exec (.cAddi a i) s = .next (finish (op16 0x03 0 (0x3000 + a.code * 64 + i.toNat)) .seq
        (t.withResult 1 0 .push (ofI (x.toInt + i.toInt)))))
    ∧ (s.admits (op16 0x07 0 (0x4000 + a.code * 64 + i.toNat)) →
      exec (.cShli a i) s = .next (finish (op16 0x07 0 (0x4000 + a.code * 64 + i.toNat)) .seq
        (t.withResult 1 0 .push (ofN (x.toNat * 2 ^ i.toNat)))))
    ∧ (s.admits (op16 0x08 0 (0x4800 + a.code * 64 + i.toNat)) →
      exec (.cShri a i) s = .next (finish (op16 0x08 0 (0x4800 + a.code * 64 + i.toNat)) .seq
        (t.withResult 1 0 .push (ofN (x.toNat / 2 ^ i.toNat))))))
  ∧ (∀ a s x t, s.admits (op16 0x00 3 (0x2800 + a.code * 64)) → read1 a.toSrc s.opened = .ok (x, t) →
    exec (.cMov a) s = .next (finish (op16 0x00 3 (0x2800 + a.code * 64)) .seq (t.withResult 1 0 .push x)))
  ∧ (∀ i s, s.admits (op16 0x0C 0 (0x3800 + i.toNat)) →
    exec (.cLimm i) s = .next (finish (op16 0x0C 0 (0x3800 + i.toNat)) .seq (s.opened.withResult 1 0 .push (ofI i.toInt))))

/-! ### Scalar floating point -/

/-- R163 to R165: the scalar floating-point instructions complete with the rounding of RND, SR acting as RNE and no
flushing, on FP32 patterns in bits 31 to 0. -/
def Obligations.ScalarFloatResults : Prop :=
  (∀ r ∈ fpRows2, ∀ stl d a b s x y t,
    d.legal = true → s.admits (opA 0x0F r.sub stl d.code a.code b.code) → read2 a b s.opened = .ok ((x, y), t) →
    exec (r.make stl d a b) s
      = .next (finish (opA 0x0F r.sub stl d.code a.code b.code) .seq
          (t.withResult (slat r.lam [a, b]) (r.value (t.slot t.cur).scalarRounding (x.toNat % 2 ^ 32) (y.toNat % 2 ^ 32)).2 d
            (ofN (r.value (t.slot t.cur).scalarRounding (x.toNat % 2 ^ 32) (y.toNat % 2 ^ 32)).1))))
  ∧ (∀ r ∈ fpRows1, ∀ stl d a s x t,
    d.legal = true → s.admits (opA 0x0F r.sub stl d.code a.code 0) → read1 a s.opened = .ok (x, t) →
    exec (r.make stl d a) s
      = .next (finish (opA 0x0F r.sub stl d.code a.code 0) .seq
          (t.withResult (slat r.lam [a]) (r.value (t.slot t.cur).scalarRounding x).2 d
            (r.value (t.slot t.cur).scalarRounding x).1)))
  ∧ (∀ r ∈ fmaRows, ∀ stl d a b c s x y z t,
    d.legal = true → s.admits (opF 0x10 r.sub stl d.code a.code b.code c) →
    read3 a b (.q (Fin.ofNat 16 c.toNat)) s.opened = .ok ((x, y, z), t) →
    exec (r.make stl d a b c) s
      = .next (finish (opF 0x10 r.sub stl d.code a.code b.code c) .seq
          (t.withResult (slat 4 [a, b])
            (floatFma 4 (t.slot t.cur).scalarRounding r.negProduct r.negAddend (x.toNat % 2 ^ 32) (y.toNat % 2 ^ 32)
              (z.toNat % 2 ^ 32)).2 d
            (ofN (floatFma 4 (t.slot t.cur).scalarRounding r.negProduct r.negAddend (x.toNat % 2 ^ 32) (y.toNat % 2 ^ 32)
              (z.toNat % 2 ^ 32)).1))))

/-! ### Vector instructions -/

/-- R183, R184, R48: the lanewise integer and bitwise instructions complete; each active lane has the value that integer
arithmetic gives, each inactive lane is zero, and the sidecar is that of A. -/
def Obligations.VectorIntegerLanes : Prop :=
  ∀ r ∈ vintRows, ∀ stl d a b m s e x y t,
    s.admits (opV r.major r.sub stl d.code a.code b.code m) → vecArgs2 r.ok d a b m s.opened = .ok ((e, x, y), t) →
    ∃ v : Vec,
      exec (r.make stl d a b m) s
        = .next (finish (opV r.major r.sub stl d.code a.code b.code m) .seq
            (t.withVResult (vlat 5 [a, b]) 0 d v x.2))
      ∧ ∀ i, i < e.lanes → elemBits v.toNat e.width i
          = if e.on i then r.value e.width (e.lane x.1.toNat i) (e.lane y.1.toNat i) else 0

/-- R185, R193, R195, R48: the lanewise floating-point instructions complete; active lanes have their rounded values,
inactive lanes are zero, and the flags of the active lanes are ORed. -/
def Claim.VectorFloatLanes : Prop :=
  (∀ r ∈ vfRows2, ∀ stl d a b m s e x y t,
    s.admits (opV r.major r.sub stl d.code a.code b.code m) → vecArgs2 fmtFloat d a b m s.opened = .ok ((e, x, y), t) →
    ∃ v : Vec,
      exec (r.make stl d a b m) s
        = .next (finish (opV r.major r.sub stl d.code a.code b.code m) .seq
            (t.withVResult (vlat 6 [a, b])
              (orFlags (fun i => if e.on i then
                (r.value e.fmt e.rounding (e.lane x.1.toNat i) (e.lane y.1.toNat i)).2 else 0) e.lanes) d v x.2))
      ∧ ∀ i, i < e.lanes → elemBits v.toNat e.width i
          = if e.on i then (r.value e.fmt e.rounding (e.lane x.1.toNat i) (e.lane y.1.toNat i)).1 % 2 ^ e.width else 0)
  ∧ (∀ r ∈ vfRows1, ∀ stl d a m s e x t,
    s.admits (opV r.major r.sub stl d.code a.code 0 m) → vecArgs1 fmtFloat d a m s.opened = .ok ((e, x), t) →
    ∃ v : Vec,
      exec (r.make stl d a m) s
        = .next (finish (opV r.major r.sub stl d.code a.code 0 m) .seq
            (t.withVResult (vlat r.lam [a])
              (orFlags (fun i => if e.on i then (r.value e.fmt e.rounding (e.lane x.1.toNat i)).2 else 0) e.lanes) d v x.2))
      ∧ ∀ i, i < e.lanes → elemBits v.toNat e.width i
          = if e.on i then (r.value e.fmt e.rounding (e.lane x.1.toNat i)).1 % 2 ^ e.width else 0)

/-- R187, R48: a comparison completes and writes the whole mask: the truth of each active lane, and 0 in every other bit. -/
def Claim.VectorCompareMasks : Prop :=
  ∀ r ∈ vcmpRows, ∀ stl d a b m s e x y t,
    s.admits (opV r.major r.sub stl d.toNat a.code b.code m) → vecArgsCmp r.ok d a b m s.opened = .ok ((e, x, y), t) →
    ∃ v : MaskWord,
      exec (r.make stl d a b m) s
        = .next (finish (opV r.major r.sub stl d.toNat a.code b.code m) .seq
            (t.withMask (vlat r.lam [a, b])
              (orFlags (fun i => if e.on i then (r.value e (e.lane x.1.toNat i) (e.lane y.1.toNat i)).2 else 0) e.lanes) d v))
      ∧ ∀ i, v.getLsbD i = (decide (i < e.lanes) && e.on i && (r.value e (e.lane x.1.toNat i) (e.lane y.1.toNat i)).1)

/-- R190, R191, R196: the reductions complete with a scalar result over the active lanes. That VAMAX and its drain flush FP32
subnormal lanes under FTZ and raise no flag for it is the model's reading, log entry 42 (DEDUCED). -/
def Claim.VectorReductions : Prop :=
  ∀ r ∈ vredRows, ∀ stl d a m s e x t,
    s.admits (opV r.major r.sub stl d.code a.code 0 m) → vecArgsRed r.ok d a m s.opened = .ok ((e, x), t) →
    exec (r.make stl d a m) s
      = .next (finish (opV r.major r.sub stl d.code a.code 0 m) .seq
          (t.withResult (vlat 8 [a]) (r.value e x.1.toNat).2 d (ofN (r.value e x.1.toNat).1)))

/-- The claims IntegerResults and DivisionResults together. -/
def Obligations.IntegerArithmetic : Prop := Claim.IntegerResults ∧ Claim.DivisionResults

/-- The claims UnaryAndImmediateResults and OldValueResults together. -/
def Obligations.UnaryImmediateAndOldValue : Prop := Claim.UnaryAndImmediateResults ∧ Claim.OldValueResults

/-- The claims VectorCompareMasks and VectorReductions together. -/
def Obligations.VectorComparesAndReductions : Prop := Claim.VectorCompareMasks ∧ Claim.VectorReductions

/-! ### Control flow -/

/-- R133, R166: a relative branch reads its condition and continues OFF halfwords from its own index, modulo 2^16, where it is
taken; where it is not, in sequence. -/
def Claim.BranchResults : Prop :=
  ∀ i f, branchShape i = some f → ∀ s x t, s.admits f.op → read1 f.cond s.opened = .ok (x, t) →
    exec i s = .next (finish f.op (if f.taken x = true then .jump (movedPc (t.slot t.cur).pc f.off) else .seq) t)

/-- R166, R167, R133: CALL writes LR with the index after it and continues at its target, RET continues at LR, JR at bits 15 to
0 of its operand. -/
def Claim.CallAndReturnResults : Prop :=
  (∀ stl o s, s.admits (opL 0x16 stl 16 o) →
    exec (.call stl o) s
      = .next (finish (opL 0x16 stl 16 o) (.jump (movedPc (s.opened.slot s.opened.cur).pc o.toInt))
          (s.opened.setSlot s.opened.cur
            { s.opened.slot s.opened.cur with lr := movedPc (s.opened.slot s.opened.cur).pc 2 })))
  ∧ (∀ stl a s x t, s.admits (opA 0x18 0 stl 0 a.code 0) → read1 a s.opened = .ok (x, t) →
    exec (.jr stl a) s = .next (finish (opA 0x18 0 stl 0 a.code 0) (.jump (BitVec.ofNat 16 (x.toNat % 65536))) t))
  ∧ (∀ stl s, s.admits (opA 0x18 1 stl 0 0 0) →
    exec (.ret stl) s = .next (finish (opA 0x18 1 stl 0 0 0) (.jump (s.opened.slot s.opened.cur).lr) s.opened))
  ∧ (∀ s, s.admits (op16 0x18 1 4) →
    exec .ret16 s = .next (finish (op16 0x18 1 4) (.jump (s.opened.slot s.opened.cur).lr) s.opened))

/-- R168, R131: LOOP sets up LC0, the outer level, where it is free, and else LC1, with the count in bits 31 to 0, the next index
and the end index; a count of 0 continues behind the end instruction; it faults on an end nearer than 2 or behind, at the end of an
active loop, and with both levels active. That the length of an end instruction beyond the code is a free value, 1 or 2, is the
model's choice, log entry 6. -/
def Obligations.LoopResults : Prop :=
  ∀ stl c o s x t, s.admits (opL 0x17 stl c.code o) → read1 c s.opened = .ok (x, t) →
    let sl := t.slot t.cur
    let stop := movedPc sl.pc o.toNat
    let ends (l : LoopLevel) : Prop := l.count.toNat ≠ 0 ∧ l.stop = sl.pc
    let lvl : LoopLevel := { count := BitVec.ofNat 32 (x.toNat % 2 ^ 32), start := movedPc sl.pc 2, stop }
    (2 ≤ o.toInt → ¬ ends sl.lc0 → ¬ ends sl.lc1 →
      (x.toNat % 2 ^ 32 ≠ 0 → sl.lc0.count.toNat = 0 →
        exec (.loop stl c o) s = .next (finish (opL 0x17 stl c.code o) .seq (t.setSlot t.cur { sl with lc0 := lvl })))
      ∧ (x.toNat % 2 ^ 32 ≠ 0 → sl.lc0.count.toNat ≠ 0 → sl.lc1.count.toNat = 0 →
        exec (.loop stl c o) s = .next (finish (opL 0x17 stl c.code o) .seq (t.setSlot t.cur { sl with lc1 := lvl })))
      ∧ (x.toNat % 2 ^ 32 = 0 → (sl.lc0.count.toNat = 0 ∨ sl.lc1.count.toNat = 0) → stop.toNat < t.codeSize t.cur →
        exec (.loop stl c o) s
          = .next (finish (opL 0x17 stl c.code o)
              (.jump (movedPc stop (if (t.codeHalf t.cur stop.toNat).toNat < 2 ^ 15 then 1 else 2))) t))
      ∧ (x.toNat % 2 ^ 32 = 0 → (sl.lc0.count.toNat = 0 ∨ sl.lc1.count.toNat = 0) → t.codeSize t.cur ≤ stop.toNat →
        ∃ n, (n = 1 ∨ n = 2) ∧ exec (.loop stl c o) s
          = .next (finish (opL 0x17 stl c.code o) (.jump (movedPc stop n)) (t.spend t.cur 1))))
    ∧ (o.toInt < 2 ∨ ends sl.lc0 ∨ ends sl.lc1 ∨ (sl.lc0.count.toNat ≠ 0 ∧ sl.lc1.count.toNat ≠ 0) →
        exec (.loop stl c o) s
          = .next (s.takeTrap .illegalOperand (ofN (opL 0x17 stl c.code o).word) (s.slot s.cur).pc))

/-- R169: after an instruction that leaves the pc sequential, an inner loop at its end continues at its start while its count,
less one, is not 0; otherwise the outer level is looked at in the same way; and the stall count delays the next issue, also after an instruction that
ends its thread. An effect that is seen from the next cycle on ends the cycle (R173). -/
def Obligations.SequenceAndLoopEnd : Prop :=
  ∀ (o : Op) (s : State),
    let sl := s.slot s.cur
    let at1 : Prop := sl.lc1.count.toNat ≠ 0 ∧ sl.pc = sl.lc1.stop
    let at0 : Prop := sl.lc0.count.toNat ≠ 0 ∧ sl.pc = sl.lc0.stop
    let dec (l : LoopLevel) : LoopLevel := { l with count := BitVec.ofNat 32 (l.count.toNat - 1) }
    let wait (x : Slot) : Slot := { x with readyAt := max x.readyAt (s.cycle + o.stl + 1), lastIssue := s.cycle, wait := .none }
    let go (pc : Half) (l0 l1 : LoopLevel) : State := s.setSlot s.cur (wait { sl with pc, lc0 := l0, lc1 := l1 })
    (¬ at1 → ¬ at0 → finish o .seq s = go (movedPc sl.pc o.len) sl.lc0 sl.lc1)
    ∧ (at1 → sl.lc1.count.toNat ≠ 1 → finish o .seq s = go sl.lc1.start sl.lc0 (dec sl.lc1))
    ∧ (at1 → sl.lc1.count.toNat = 1 → at0 → sl.lc0.count.toNat ≠ 1 →
        finish o .seq s = go sl.lc0.start (dec sl.lc0) (dec sl.lc1))
    ∧ (at1 → sl.lc1.count.toNat = 1 → at0 → sl.lc0.count.toNat = 1 →
        finish o .seq s = go (movedPc sl.pc o.len) (dec sl.lc0) (dec sl.lc1))
    ∧ (at1 → sl.lc1.count.toNat = 1 → ¬ at0 → finish o .seq s = go (movedPc sl.pc o.len) sl.lc0 (dec sl.lc1))
    ∧ (¬ at1 → at0 → sl.lc0.count.toNat ≠ 1 → finish o .seq s = go sl.lc0.start (dec sl.lc0) sl.lc1)
    ∧ (¬ at1 → at0 → sl.lc0.count.toNat = 1 → finish o .seq s = go (movedPc sl.pc o.len) (dec sl.lc0) sl.lc1)
    ∧ finish o .seqLate s = (let t := finish o .seq s; { t with cycle := t.cycle + 1 })
    ∧ finish o .ended s = s.setSlot s.cur (wait sl)
    ∧ ∀ pc, finish o (.jump pc) s = s.setSlot s.cur (wait { sl with pc })

/-- R170, R22, R24: NOP changes nothing; YIELD notes the slots that are ready, those that wait on nothing as the tile has noted before
it issues (log entry 51, DEDUCED); DONE ends a thread that is not the resident
thread of slot 0, and is illegal there; DONEF retires the vtile once R24 lets it, and is illegal elsewhere. -/
def Obligations.ThreadControlResults : Prop :=
  (∀ i o, (∃ stl, i = .nop stl ∧ o = opA 0x18 5 stl 0 0 0) ∨ (i = .nop16 ∧ o = op16 0x18 5 0) →
    ∀ s, s.admits o → exec i s = .next (finish o .seq s.opened))
  ∧ (∀ i o, (∃ stl, i = .yield stl ∧ o = opA 0x18 2 stl 0 0 0) ∨ (i = .yield16 ∧ o = op16 0x18 2 3) →
    ∀ s, s.admits o →
      (s.opened.cur.isCore = true → exec i s = .next (finish o .seq s.opened))
      ∧ ∀ site k, s.opened.cur = .tile site k →
        exec i s = .next (finish o .seq (s.opened.setSlot s.opened.cur
          { s.opened.slot s.opened.cur with
            yieldAt := some (s.opened.cycle, readyMask (s.opened.tile site) k s.opened.cycle) })))
  ∧ (∀ i o, (∃ stl, i = .done stl ∧ o = opA 0x18 3 stl 0 0 0) ∨ (i = .done16 ∧ o = op16 0x18 3 1) →
    ∀ s site k, s.admits o → s.opened.cur = .tile site k →
      (¬ (k = 0 ∧ (s.opened.slot s.opened.cur).res = true) → exec i s = .next (finish o .ended (s.opened.endThread site k)))
      ∧ ((k = 0 ∧ (s.opened.slot s.opened.cur).res = true) →
        exec i s = .next (s.takeTrap .illegalInstruction (ofN o.word) (s.slot s.cur).pc)))
  ∧ (∀ i o, (∃ stl, i = .donef stl ∧ o = opA 0x18 4 stl 0 0 0) ∨ (i = .donef16 ∧ o = op16 0x18 4 2) →
    ∀ s site k, s.admits o → s.opened.cur = .tile site k →
      ((k = 0 ∧ (s.opened.slot s.opened.cur).res = true) → s.opened.retireReady site k = true →
        exec i s
          = .next (finish o .ended ((s.opened.advance s.opened.cur (s.opened.slot s.opened.cur).lastDue).retireVtile site)))
      ∧ ((k = 0 ∧ (s.opened.slot s.opened.cur).res = true) → s.opened.retireReady site k = false →
        exec i s = .next (s.hold .donef))
      ∧ (¬ (k = 0 ∧ (s.opened.slot s.opened.cur).res = true) →
        exec i s = .next (s.takeTrap .illegalInstruction (ofN o.word) (s.slot s.cur).pc)))

/-! ### Scalar memory accesses -/

/-- R171, R172, R175, R233 to R238: outside the guarded phase a scalar load, store, full/empty operation, atomic or barrier
arrival whose pointer passes its checks and that no fence holds completes: on the own banks and in a core's memories with its
answer, elsewhere by a request to the home of its location. That a core's access to rim memory leaves its data units under the
device key and clears the errors of the words it overwrites whole is log entries 40 and 48 (DEDUCED). -/
def Obligations.ScalarAccessesComplete : Prop :=
  ∀ i f, accessShape i = some f → f.dst.legal = true → ∀ s p m r pl t, s.admits f.op →
    f.args s.opened = .ok ((p, m), t) → f.rule t = .ok (r, t) → placeOf r p (f.bytes p) (f.bytes p) t = .ok (pl, t) →
    inPhase t = .ok (false, t) → accessHeld f pl t = .ok ((), t) →
    (∀ off u b h, pl = .priv off → ownTurn m off t = .ok ((), u) → (u.tile u.cur.site).perform m off = .ok b h →
      exec i s = .next (finish f.op .seq ((u.setTile u.cur.site b).withAnswer f h.val)))
    ∧ (∀ vt off u, pl = .vtile vt off →
      remoteAccess m p (.vtile (t.tile t.cur.site).name.1 vt) (landingOf f.dst) f.wants t = .ok ((), u) →
      exec i s = .next (finish f.op .seq u))
    ∧ (∀ va u, pl = .hbm va →
      t.translates (t.launch (t.tile t.cur.site).name.1).asid (m.reads va ++ m.writes va) (m.writes va) = true →
      remoteAccess m p .rim (landingOf f.dst) f.wants t = .ok ((), u) → exec i s = .next (finish f.op .seq u))
    ∧ (∀ k off u, pl = .aperture k off → t.cur.isCore = false →
      t.hostInside (t.launch (t.tile t.cur.site).name.1).part (m.reads off ++ m.writes off) = true →
      remoteAccess m p .rim (landingOf f.dst) f.wants t = .ok ((), u) → exec i s = .next (finish f.op .seq u))
    ∧ (∀ k off, pl = .aperture k off → t.cur.isCore = true →
      let out := m.onMem (fun x => x) (fun _ => 127) t.host off
      exec i s = .next (finish f.op .seq (State.withAnswer { t with host := out.1 } f out.2.2.val)))
    ∧ (∀ a, pl = .coreLocal a →
      let out := m.onMem (fun x => x) (fun _ => 127) (t.core t.cur).mem a
      exec i s = .next (finish f.op .seq ((t.setCore t.cur { t.core t.cur with mem := out.1 }).withAnswer f out.2.2.val)))
    ∧ (∀ a, pl = .phys a → hbmEccHit t.hbmEcc (fun x => x) (m.reads a) = false →
      let out := m.onMem (fun x => x) (fun _ => 127) t.hbm a
      exec i s = .next (finish f.op .seq (State.withAnswer
        { t.sealedFor none ((m.writes a).flatMap fun w => unitsIn w.1 w.2) with
          hbm := out.1, hbmEcc := hbmEccClear t.hbmEcc (fun x => x) (m.writes a) } f out.2.2.val)))

/-- R97 to R101: a plain load reads its bytes, little-endian, and waits for full lines; a plain store writes its bytes and no
other, and waits for no line; LDT sets its line empty, STF full, FEMARK and FEFILL change the bit alone, FETEST reads it. -/
def Obligations.PlainAccessesAtTheBanks : Prop :=
  ∀ (t : Tile) (off : Nat), t.spad.wf = true →
    (∀ n signed, n ∈ [1, 2, 4, 8] →
      (t.linesFull off n = false → t.perform (.load n signed) off = .waits)
      ∧ (t.linesFull off n = true → t.eccAt off n = none →
        ∃ h, t.perform (.load n signed) off = .ok t h ∧
          ofN h.val = if signed = true then ofI ((bytesFrom t.spad off n : Int).bmod (2 ^ (8 * n))) else ofN (bytesFrom t.spad off n)))
    ∧ (∀ n v, n ∈ [1, 2, 4, 8] →
      ∃ b h, t.perform (.store n v) off = .ok b h ∧ b.fe = t.fe ∧ b.shadow = t.shadow ∧
        ∀ a, Memory.get b.spad a = byteOver t.spad off n (v : Word).toNat a)
    ∧ (t.linesFull off 8 = true → t.eccAt off 8 = none →
      ∃ b h, t.perform .ldt off = .ok b h ∧ h.val = bytesFrom t.spad off 8 ∧ b.spad = t.spad ∧
        ∀ i, i < 1024 → b.fe.getLsbD i = (t.fe.getLsbD i && !decide (i = off / 128)))
    ∧ (∀ v, off < 131072 → ∃ b h, t.perform (.stf v) off = .ok b h ∧
      (∀ a, Memory.get b.spad a = byteOver t.spad off 8 (v : Word).toNat a) ∧
        ∀ i, i < 1024 → b.fe.getLsbD i = (t.fe.getLsbD i || decide (i = off / 128)))
    ∧ (off < 131072 → ∃ b h, t.perform .femark off = .ok b h ∧ b.spad = t.spad ∧
      ∀ i, i < 1024 → b.fe.getLsbD i = (t.fe.getLsbD i && !decide (i = off / 128)))
    ∧ (off < 131072 → ∃ b h, t.perform .fefill off = .ok b h ∧ b.spad = t.spad ∧
      ∀ i, i < 1024 → b.fe.getLsbD i = (t.fe.getLsbD i || decide (i = off / 128)))
    ∧ ∃ h, t.perform .fetest off = .ok t h ∧ h.val = (t.fe.getLsbD (off / 128)).toNat

/-- R235: the new and the returned value of each scalar atomic, on words of 4 and of 8 bytes. -/
def Claim.AtomicValues : Prop :=
  ∀ w, w = 32 ∨ w = 64 → ∀ o, o < 2 ^ w → ∀ b e : Nat,
    atomNew .add w o b e = (o + b) % 2 ^ w
    ∧ laneS w (atomNew .smax w o b e) = max (laneS w o) (laneS w (b % 2 ^ w))
    ∧ laneS w (atomNew .smin w o b e) = min (laneS w o) (laneS w (b % 2 ^ w))
    ∧ atomNew .umax w o b e = max o (b % 2 ^ w)
    ∧ atomNew .umin w o b e = min o (b % 2 ^ w)
    ∧ atomNew .band w o b e = o &&& b
    ∧ atomNew .bor w o b e = o ||| b % 2 ^ w
    ∧ atomNew .bxor w o b e = o ^^^ b % 2 ^ w
    ∧ atomNew .swap w o b e = b % 2 ^ w
    ∧ atomNew .cas w o b e = (if o = e % 2 ^ w then b % 2 ^ w else o)
    ∧ (∀ k, k ∈ [AtomKind.add, .smax, .smin] → ofN (atomOld k w o) = ofI (laneS w o))
    ∧ ∀ k, k ∈ [AtomKind.umax, .umin, .band, .bor, .bxor, .swap, .cas] → atomOld k w o = o

/-- R97, R120, R234 to R237: at the banks an atomic, a cell operation, AAMAX or a barrier arrival is one read-modify-write of
its own bytes: no other byte, no full/empty bit and no block exponent changes, and it waits for full lines. -/
def Claim.ReadModifyWriteAtTheBanks : Prop :=
  ∀ (t : Tile) (off : Nat) (m : MemOp) (n : Nat) (new : Nat → Nat) (old : Nat → Nat), t.spad.wf = true →
    (∃ k e b, n ∈ [4, 8] ∧ m = .atomic k n b e
        ∧ new = (fun o => atomNew k (8 * n) o (b : Word).toNat (e : Word).toNat) ∧ old = atomOld k (8 * n))
      ∨ (∃ v, n = 16 ∧ m = .fxAdd v ∧ new = (fun c => cellAdd c (v : BitVec 32).toNat)
          ∧ old = fun c => (cellSticky (cellAdd c v.toNat)).toNat)
      ∨ (∃ v sc, n = 16 ∧ m = .fxSet v sc ∧ new = (fun _ => cellSet (v : BitVec 32).toNat (sc : BitVec 8).toNat)
          ∧ old = fun _ => (cellSticky (cellSet v.toNat sc.toNat)).toNat)
      ∨ (∃ v, n = 4 ∧ m = .absmax v ∧ new = (fun o => max o ((v : BitVec 32).toNat % 2 ^ 31)) ∧ old = fun o => o)
      ∨ (n = 8 ∧ m = .barArrive ∧ new = barrierArrive ∧ old = fun o => o) →
    (t.linesFull off n = false → t.perform m off = .waits)
    ∧ (t.linesFull off n = true → t.eccAt off n = none →
      ∃ b h, t.perform m off = .ok b h ∧ h.val = old (bytesFrom t.spad off n) ∧ b.fe = t.fe ∧ b.shadow = t.shadow ∧
        ∀ a, Memory.get b.spad a = byteOver t.spad off n (new (bytesFrom t.spad off n)) a)

/-- R119, R120: a barrier arrival adds 1 to the arrivals in bits 15 to 0; the arrival that reaches the number of bits 47 to 32,
65,536 for 0, sets them to 0 and complements the phase in bit 63; nothing else of the word changes. -/
def Claim.BarrierArrival : Prop :=
  ∀ w, w < 2 ^ 64 →
    let a := w % 2 ^ 16 + 1
    let e := if w / 2 ^ 32 % 2 ^ 16 = 0 then 65536 else w / 2 ^ 32 % 2 ^ 16
    barrierArrive w / 2 ^ 16 % 2 ^ 47 = w / 2 ^ 16 % 2 ^ 47
    ∧ barrierArrive w % 2 ^ 16 = (if a = e then 0 else a % 2 ^ 16)
    ∧ barrierArrive w / 2 ^ 63 = (if a = e then 1 - w / 2 ^ 63 else w / 2 ^ 63)

/-- R171, R172, R117: WAITF completes when its line is full, and waits while it is not; BARWAIT completes with the word when its
phase differs from bit 0 of the operand, and what follows it waits for what has to return; it waits while the phase is the
old one, and while no probe has come back from another home. A probe that met a fault raises it (R31). -/
def Claim.WaitsComplete : Prop :=
  (∀ stl a s p off t u, s.admits (opA 0x18 6 stl 0 a.code 0) → read1 a s.opened = .ok (p, t) →
    placeOf privateSpace p 1 1 t = .ok (.priv off, t) → accessGate false (.priv off) t = .ok ((), t) →
    awaitVregs t = .ok ((), u) →
    exec (.waitf stl a) s
      = if (u.tile u.cur.site).fe.getLsbD (off / 128) = true then .next (finish (opA 0x18 6 stl 0 a.code 0) .seq u)
        else .next (s.hold .held))
  ∧ (∀ stl d a b s p ph pl t, d.legal = true → s.admits (opA 0x18 11 stl d.code a.code b.code) →
    read2 a b s.opened = .ok ((p, ph), t) → placeOf atomicSpace p 8 8 t = .ok (pl, t) →
    accessGate false pl t = .ok ((), t) →
    let ended (v : Word) : Prop := v.toNat / 2 ^ 63 ≠ ph.toNat % 2
    let taken (u : State) (v : Word) : Host.Outcome State Fault Refusal :=
      let w := u.setSlot u.cur { u.slot u.cur with probe := none }
      .next (finish (opA 0x18 11 stl d.code a.code b.code) .seq
        ((w.setSlot w.cur { w.slot w.cur with fenceAcq := (w.slot w.cur).nextId }).withResult 1 0 d v))
    (∀ off u b' h, pl = .priv off → ownTurn (.load 8 false) off t = .ok ((), u) →
      (u.tile u.cur.site).perform (.load 8 false) off = .ok b' h →
      (ended (ofN h.val) → exec (.barwait stl d a b) s = taken (u.setTile u.cur.site b') (ofN h.val))
      ∧ (¬ ended (ofN h.val) → exec (.barwait stl d a b) s = .next (s.hold .barwait)))
    ∧ ((∀ off, pl ≠ .priv off) →
      ((t.slot t.cur).probe = none → exec (.barwait stl d a b) s = .next (s.hold .barwait))
      ∧ ∀ pr, (t.slot t.cur).probe = some pr →
        (∀ c tv, pr.error = some (c, tv) → exec (.barwait stl d a b) s = .next (s.takeTrap c tv (s.slot s.cur).pc))
        ∧ (pr.error = none →
          (∀ v, pr.value = some v → ended v → exec (.barwait stl d a b) s = taken t v)
          ∧ ((∀ v, pr.value = some v → ¬ ended v) → exec (.barwait stl d a b) s = .next (s.hold .barwait)))))

/-- The claims BranchResults and CallAndReturnResults together. -/
def Obligations.BranchesCallsAndReturns : Prop := Claim.BranchResults ∧ Claim.CallAndReturnResults

/-- The claims AtomicValues and BarrierArrival together. -/
def Obligations.AtomicsAndBarrierValues : Prop := Claim.AtomicValues ∧ Claim.BarrierArrival

/-- R186: VFMA, VFMS, VFNMA and VFNMS complete over the lanes below VL, C naming a vector queue entry, each lane rounded
once. -/
def Claim.VectorFusedLanes : Prop :=
  ∀ r ∈ vfmaRows, ∀ stl d a b c s e x y z t,
    s.admits (opF 0x28 r.sub stl d.code a.code b.code c) → vecArgs3 d a b c s.opened = .ok ((e, x, y, z), t) →
    let f i := floatFma e.fmt e.rounding r.negProduct r.negAddend (e.lane x.1.toNat i) (e.lane y.1.toNat i) (e.lane z.1.toNat i)
    ∃ v : Vec,
      exec (r.make stl d a b c) s
        = .next (finish (opF 0x28 r.sub stl d.code a.code b.code c) .seq
            (t.withVResult (vlat 6 [a, b]) (orFlags (fun i => if e.on i = true then (f i).2 else 0) e.lanes) d v x.2))
      ∧ ∀ i, i < e.lanes → elemBits v.toNat e.width i = if e.on i = true then (f i).1 % 2 ^ e.width else 0

/-- R188, R189: VSEL, VPERM, VBCAST, VINS, VROT, VCOMP, VEXPN and VEXTR complete; an index that names no active lane gives 0,
VINS keeps the other lanes of A, VEXTR extends integer lanes with their sign. -/
def Obligations.VectorSelectAndPermute : Prop :=
  (∀ stl d a b m s e x y t, s.admits (opV 0x2B 0 stl d.code a.code b.code m) →
    vecArgs2 fmtRaw d a b m s.opened = .ok ((e, x, y), t) →
    ∃ v : Vec, exec (.vsel stl d a b m) s
        = .next (finish (opV 0x2B 0 stl d.code a.code b.code m) .seq (t.withVResult (vlat 5 [a, b]) 0 d v x.2))
      ∧ ∀ i, i < e.lanes → elemBits v.toNat e.width i
          = if i < e.v then (if e.on i = true then e.lane x.1.toNat i else e.lane y.1.toNat i) else 0)
  ∧ (∀ stl d a b m s e x y t, s.admits (opV 0x2C 0 stl d.code a.code b.code m) →
    vecArgs2 fmtRaw d a b m s.opened = .ok ((e, x, y), t) →
    ∃ v : Vec, exec (.vperm stl d a b m) s
        = .next (finish (opV 0x2C 0 stl d.code a.code b.code m) .seq (t.withVResult (vlat 5 [a, b]) 0 d v x.2))
      ∧ ∀ i, i < e.lanes → elemBits v.toNat e.width i
          = if e.on i = true then e.lane0 x.1.toNat (e.lane y.1.toNat i) else 0)
  ∧ (∀ r ∈ vsRows, ∀ stl d a b m s e x y t, s.admits (opV r.major r.sub stl d.code a.code b.code m) →
    vecArgsS fmtRaw d a b m s.opened = .ok ((e, x, y), t) →
    ∃ v : Vec, exec (r.make stl d a b m) s
        = .next (finish (opV r.major r.sub stl d.code a.code b.code m) .seq
            (t.withVResult (vlat (slat 5 [b]) [a]) 0 d v x.2))
      ∧ ∀ i, i < e.lanes → elemBits v.toNat e.width i = r.value e x.1.toNat y i)
  ∧ (∀ stl d a m s e x t, s.admits (opV 0x2C 2 stl d.code a.code 0 m) →
    vecArgs1 fmtRaw d a m s.opened = .ok ((e, x), t) →
    ∃ v : Vec, exec (.vcomp stl d a m) s
        = .next (finish (opV 0x2C 2 stl d.code a.code 0 m) .seq (t.withVResult (vlat 5 [a]) 0 d v x.2))
      ∧ (∀ i, i < e.lanes → e.on i = true → elemBits v.toNat e.width (e.below i) = e.lane x.1.toNat i)
      ∧ ∀ j, e.below e.lanes ≤ j → j < e.lanes → elemBits v.toNat e.width j = 0)
  ∧ (∀ stl d a m s e x t, s.admits (opV 0x2C 3 stl d.code a.code 0 m) →
    vecArgs1 fmtRaw d a m s.opened = .ok ((e, x), t) →
    ∃ v : Vec, exec (.vexpn stl d a m) s
        = .next (finish (opV 0x2C 3 stl d.code a.code 0 m) .seq (t.withVResult (vlat 5 [a]) 0 d v x.2))
      ∧ ∀ i, i < e.lanes → elemBits v.toNat e.width i = if e.on i = true then e.lane x.1.toNat (e.below i) else 0)
  ∧ (∀ stl d a b m s e x y t, s.admits (opV 0x2B 2 stl d.code a.code b.code m) →
    extractArgs d a b m s.opened = .ok ((e, x, y), t) →
    exec (.vextr stl d a b m) s
      = .next (finish (opV 0x2B 2 stl d.code a.code b.code m) .seq
          (t.withResult (vlat (slat 5 [b]) [a]) 0 d
            (if e.fmt ≤ 3 then ofI (laneS e.width (e.lane0 x.1.toNat y.toNat)) else ofN (e.lane0 x.1.toNat y.toNat)))))

/-- R192, R194, R197: VCVT, VWIDEN, VNARROW and VQUANT complete with the conversion of their active lanes; VCVT between equal
formats copies the active lanes; VQUANT writes the block exponents into the sidecar. -/
def Claim.VectorConversions : Prop :=
  (∀ stl d a m s c t, s.admits (opV 0x2E 0 stl d.code a.code 0 m) →
    convArgs d a m (fun sl => decide (sl.fmt2 ≤ 8 ∧ fmtWidth sl.fmt = fmtWidth sl.fmt2)) (fun _ => []) (fun _ => 1) s.opened
      = .ok (c, t) →
    let n := fmtLanes c.sl.fmt
    (c.sl.fmt ≠ c.sl.fmt2 →
      exec (.vcvt stl d a m) s
        = .next (finish (opV 0x2E 0 stl d.code a.code 0 m) .seq
            (t.withVResult (vlat 6 [a]) (c.lanes n (sidecarScale c.sl.fmt c.sl.blk (c.src.headD (0, 0)).2.toNat)).2.2 d
              (BitVec.ofNat 4096 (c.lanes n (sidecarScale c.sl.fmt c.sl.blk (c.src.headD (0, 0)).2.toNat)).1)
              (if isKN c.sl.fmt = true then 0 else (c.src.headD (0, 0)).2))))
    ∧ (c.sl.fmt = c.sl.fmt2 → ∃ v : Vec,
      exec (.vcvt stl d a m) s
        = .next (finish (opV 0x2E 0 stl d.code a.code 0 m) .seq
            (t.withVResult (vlat 6 [a]) 0 d v (if isKN c.sl.fmt = true then 0 else (c.src.headD (0, 0)).2)))
      ∧ ∀ i, i < n → elemBits v.toNat (fmtWidth c.sl.fmt) i
          = if (activeLanes c.sl.vl n c.mask).getLsbD i = true then
              elemBits (c.src.headD (0, 0)).1.toNat (fmtWidth c.sl.fmt) i else 0))
  ∧ (∀ stl d a m s c t, s.admits (opV 0x2E 1 stl d.code a.code 0 m) →
    convArgs d a m (fun sl => decide (sl.fmt2 ≤ 8 ∧ (fmtWidth sl.fmt2 / fmtWidth sl.fmt = 2 ∨ fmtWidth sl.fmt2 / fmtWidth sl.fmt = 4))
        && groupFits d (fmtWidth sl.fmt2 / fmtWidth sl.fmt))
      (fun sl => groupDst d (fmtWidth sl.fmt2 / fmtWidth sl.fmt)) (fun sl => fmtWidth sl.fmt2 / fmtWidth sl.fmt) s.opened
      = .ok (c, t) →
    let r := c.lanes (fmtLanes c.sl.fmt) (sidecarScale c.sl.fmt c.sl.blk (c.src.headD (0, 0)).2.toNat)
    exec (.vwiden stl d a m) s
      = .next (finish (opV 0x2E 1 stl d.code a.code 0 m) .seq
          (t.withGroup (vlat 6 [a]) r.2.2 (groupDst d (fmtWidth c.sl.fmt2 / fmtWidth c.sl.fmt)) r.1)))
  ∧ (∀ stl d a m s c t, s.admits (opV 0x2E 2 stl d.code a.code 0 m) →
    groupArgs d a m fmtAny (fun sl => decide (sl.fmt2 ≤ 8 ∧ (fmtWidth sl.fmt / fmtWidth sl.fmt2 = 2 ∨ fmtWidth sl.fmt / fmtWidth sl.fmt2 = 4)))
      (fun sl => knLegal sl.fmt sl.blk) (fun sl => narrowing sl.fmt sl.fmt2) s.opened = .ok (c, t) →
    let r := c.lanes (fmtLanes c.sl.fmt2) (groupScale c.sl.fmt c.sl.blk c.src)
    exec (.vnarrow stl d a m) s
      = .next (finish (opV 0x2E 2 stl d.code a.code 0 m) .seq
          (t.withVResult (vlat 6 [a]) r.2.2 d (BitVec.ofNat 4096 r.1) 0)))
  ∧ (∀ stl d a m s c t, s.admits (opV 0x31 1 stl d.code a.code 0 m) →
    groupArgs d a m fmtFloat (fun sl => decide (isKN sl.fmt2 = true ∧ fmtWidth sl.fmt2 ≤ fmtWidth sl.fmt
        ∧ (fmtWidth sl.fmt / fmtWidth sl.fmt2 ≠ 8 ∨ ∃ k, a = .v k)))
      (fun sl => knLegal sl.fmt2 sl.blk2) (fun _ => true) s.opened = .ok (c, t) →
    let r := c.lanes (fmtLanes c.sl.fmt2) (fun _ => 127)
    exec (.vquant stl d a m) s
      = .next (finish (opV 0x31 1 stl d.code a.code 0 m) .seq
          (t.withVResult (vlat 6 [a]) r.2.2 d (BitVec.ofNat 4096 r.1)
            (BitVec.ofNat 128 (sidecarOf c.sl.fmt2 c.sl.blk2 r.2.1)))))

/-- R198: VSCALE completes; on a format with block exponents it adds the operand, cut to −512 to 512, to each exponent that is
not 255, between 0 and 254, and keeps the elements; on the others it scales each active lane and rounds. -/
def Claim.VectorScaleResults : Prop :=
  ∀ stl d a b m s sl x y k t, s.admits (opV 0x31 2 stl d.code a.code b.code m) →
    scaleArgs d a b m s.opened = .ok ((sl, x, y, k), t) →
    let n : Int := max (-512) (min 512 y.toInt)
    let e := sl.venv k
    (isKN sl.fmt = true →
      exec (.vscale stl d a b m) s
        = .next (finish (opV 0x31 2 stl d.code a.code b.code m) .seq
            (t.withVResult (vlat (slat 6 [b]) [a]) (flagIf (scaleBlocks sl.fmt sl.blk x.2.toNat n).2 fSAT) d x.1
              (BitVec.ofNat 128 (scaleBlocks sl.fmt sl.blk x.2.toNat n).1))))
    ∧ (isKN sl.fmt = false →
      let f i := roundFloat e.fmt e.rounding ((floatVal e.fmt (flushIn e.rounding.ftz e.fmt (e.lane x.1.toNat i))).scale n)
      ∃ v : Vec,
        exec (.vscale stl d a b m) s
          = .next (finish (opV 0x31 2 stl d.code a.code b.code m) .seq
              (t.withVResult (vlat (slat 6 [b]) [a]) (orFlags (fun i => if e.on i = true then (f i).2 else 0) e.lanes) d v x.2))
        ∧ ∀ i, i < e.lanes → elemBits v.toNat e.width i = if e.on i = true then (f i).1 % 2 ^ e.width else 0)

/-- R199: VDOT completes; each active 32-bit lane is the dot product of its elements, saturated for integers and rounded once
to FP32 for the others; the sidecar is zero. -/
def Claim.VectorDotResults : Prop :=
  ∀ stl d a b m s sl x y k t, s.admits (opV 0x31 3 stl d.code a.code b.code m) →
    dotArgs d a b m s.opened = .ok ((sl, x, y, k), t) →
    let w := fmtWidth sl.fmt
    let on (i : Nat) : Prop := 32 / w * i < sl.vl ∧ k.getLsbD i = true
    ∃ (v : Vec) (fl : BitVec 6),
      exec (.vdot stl d a b m) s
        = .next (finish (opV 0x31 3 stl d.code a.code b.code m) .seq (t.withVResult (vlat 8 [a, b]) fl d v 0))
      ∧ (∀ i, i < 128 → ¬ on i → elemBits v.toNat 32 i = 0)
      ∧ (∀ i, i < 128 → on i → isInt sl.fmt = true →
          laneS 32 (elemBits v.toNat 32 i) = max (-2 ^ 31) (min (2 ^ 31 - 1) (dotInt w x.1.toNat y.1.toNat i)))
      ∧ ∀ i, i < 128 → on i → isInt sl.fmt = false →
          elemBits v.toNat 32 i = (roundFloat 4 sl.vecRounding (dotVals sl.vecRounding.mode [] ((List.range (32 / w)).map fun j =>
            (dotElem sl.fmt sl.blk x.1.toNat x.2.toNat (j + 32 / w * i),
             dotElem sl.fmt2 sl.blk2 y.1.toNat y.2.toNat (j + 32 / w * i)))).1).1 % 2 ^ 32

/-- R200, R201: the mask instructions complete: MAND, MOR, MXOR, MNOT and MSETN write each active lane and 0 elsewhere, MPOP
counts, MFIRST gives the lowest set active lane or all ones, VIOTA counts the set lanes below each lane. -/
def Claim.MaskResults : Prop :=
  (∀ r ∈ maskRows, ∀ stl d a b m s e x y t, s.admits (opV 0x32 r.sub stl d.toNat a.toNat b.toNat m) →
    maskArgs d a b m s.opened = .ok ((e, x, y), t) →
    ∃ v : MaskWord, exec (r.make stl d a b m) s
        = .next (finish (opV 0x32 r.sub stl d.toNat a.toNat b.toNat m) .seq (t.withMask 5 0 d v))
      ∧ ∀ i, v.getLsbD i = (decide (i < e.lanes) && e.on i && r.value (x.getLsbD i) (y.getLsbD i)))
  ∧ (∀ stl d a m s e x y t, s.admits (opV 0x32 3 stl d.toNat a.toNat 0 m) →
    maskArgs d a a m s.opened = .ok ((e, x, y), t) →
    ∃ v : MaskWord, exec (.mnot stl d a m) s
        = .next (finish (opV 0x32 3 stl d.toNat a.toNat 0 m) .seq (t.withMask 5 0 d v))
      ∧ ∀ i, v.getLsbD i = (decide (i < e.lanes) && e.on i && !x.getLsbD i))
  ∧ (∀ stl d a m s e n t, s.admits (opV 0x33 2 stl d.toNat a.code 0 m) → msetnArg d a m s.opened = .ok ((e, n), t) →
    ∃ v : MaskWord, exec (.msetn stl d a m) s
        = .next (finish (opV 0x33 2 stl d.toNat a.code 0 m) .seq (t.withMask (slat 5 [a]) 0 d v))
      ∧ ∀ i, v.getLsbD i = (decide (i < e.lanes) && e.on i && decide (i < n.toNat)))
  ∧ (∀ stl d a m s e x t, maskArg d a m s.opened = .ok ((e, x), t) →
    (s.admits (opV 0x33 0 stl d.code a.toNat 0 m) →
      exec (.mpop stl d a m) s
        = .next (finish (opV 0x33 0 stl d.code a.toNat 0 m) .seq
            (t.withResult 8 0 d (ofN ((List.range e.lanes).countP fun i => e.on i && x.getLsbD i)))))
    ∧ (s.admits (opV 0x33 1 stl d.code a.toNat 0 m) →
      (∀ i, i < e.lanes → e.on i = true → x.getLsbD i = true →
          (∀ j, j < i → ¬ (e.on j = true ∧ x.getLsbD j = true)) →
        exec (.mfirst stl d a m) s
          = .next (finish (opV 0x33 1 stl d.code a.toNat 0 m) .seq (t.withResult 8 0 d (ofN i))))
      ∧ ((∀ i, i < e.lanes → ¬ (e.on i = true ∧ x.getLsbD i = true)) →
        exec (.mfirst stl d a m) s
          = .next (finish (opV 0x33 1 stl d.code a.toNat 0 m) .seq (t.withResult 8 0 d (ofI (-1)))))))
  ∧ (∀ stl d a m s e x t, s.admits (opV 0x33 3 stl d.code a.toNat 0 m) → iotaArg d a m s.opened = .ok ((e, x), t) →
    ∃ v : Vec, exec (.viota stl d a m) s
        = .next (finish (opV 0x33 3 stl d.code a.toNat 0 m) .seq (t.withVResult 5 0 d v 0))
      ∧ ∀ i, i < e.lanes → elemBits v.toNat e.width i
          = if e.on i = true then ((List.range i).countP fun j => e.on j && x.getLsbD j) % 2 ^ e.width else 0)

/-- R201: VMOV copies a vector with its sidecar, VGETSC the sidecar into the low 128 bits with a sidecar of zero, VSETSC takes
its sidecar from the low 128 bits of B, and VLANES gives the lesser of VL and the lanes of the format. -/
def Claim.VectorMoves : Prop :=
  (∀ stl d a s x t, moveArg d a s.opened = .ok (x, t) →
    (s.admits (opV 0x34 2 stl d.code a.code 0 0) →
      exec (.vmov stl d a) s = .next (finish (opV 0x34 2 stl d.code a.code 0 0) .seq
        (t.withVResult (vlat 5 [a]) 0 d x.1 x.2)))
    ∧ (s.admits (opV 0x34 0 stl d.code a.code 0 0) →
      exec (.vgetsc stl d a) s = .next (finish (opV 0x34 0 stl d.code a.code 0 0) .seq
        (t.withVResult (vlat 5 [a]) 0 d (BitVec.ofNat 4096 x.2.toNat) 0))))
  ∧ (∀ stl d a b s x y t, s.admits (opV 0x34 1 stl d.code a.code b.code 0) → setscArgs d a b s.opened = .ok ((x, y), t) →
    exec (.vsetsc stl d a b) s = .next (finish (opV 0x34 1 stl d.code a.code b.code 0) .seq
      (t.withVResult (vlat 5 [a, b]) 0 d x.1 (BitVec.ofNat 128 y.1.toNat))))
  ∧ (∀ stl d s t u, d.legal = true → s.admits (opV 0x34 3 stl d.code 0 0 0) →
    checkFmt fmtAny s.opened = .ok ((), t) → vectorUnit 1 t = .ok ((), u) →
    exec (.vlanes stl d) s = .next (finish (opV 0x34 3 stl d.code 0 0 0) .seq
      (u.withResult 5 0 d (ofN (min (u.slot u.cur).vl (4096 / fmtWidth (u.slot u.cur).fmt))))))

/-- The claims VectorFloatLanes and VectorFusedLanes together. -/
def Obligations.VectorFloatAndFusedLanes : Prop := Claim.VectorFloatLanes ∧ Claim.VectorFusedLanes

/-- The claims VectorConversions, VectorScaleResults and VectorDotResults together. -/
def Obligations.ConversionsScalesAndDotProducts : Prop := Claim.VectorConversions ∧ Claim.VectorScaleResults ∧ Claim.VectorDotResults

/-- The claims MaskResults and VectorMoves together. -/
def Obligations.MasksAndVectorMoves : Prop := Claim.MaskResults ∧ Claim.VectorMoves

/-! ### Vector memory accesses -/

/-- R202, R203, R205, R206: VLD, VLDS and VGATH complete: a load without active elements writes zeros, one from the own banks
writes what the banks answer, and any other sends one request to each home. -/
def Claim.VectorLoadsComplete : Prop :=
  ∀ i f, vloadShape i = some f → ∀ s p parts t, s.admits f.op → f.args s.opened = .ok ((p, parts), t) →
    (parts = [] → exec i s = .next (finish f.op .seq (t.withVResult 1 0 f.dst 0 0)))
    ∧ (∀ off m u b h, parts = [(.priv off, m)] → ownTurn m off t = .ok ((), u) →
        (u.tile u.cur.site).perform m off = .ok b h →
        exec i s = .next (finish f.op .seq
          ((u.setTile u.cur.site b).withVResult 1 h.flags f.dst (BitVec.ofNat 4096 h.val) (BitVec.ofNat 128 h.side))))
    ∧ (∀ id u v, partsTravel parts → reserve (vlandingOf f.dst) parts.length t = .ok (id, u) →
        sendParts p id true parts u = .ok ((), v) → exec i s = .next (finish f.op .seq v))

/-- R202, R203, R205, R206, R239, R240: outside the guarded phase VST, VSTS, VSCAT, VAADD, VAMAXABS and VAFX complete: with no
active element nothing is stored, on the own banks they are performed at once, and elsewhere requests go to the homes. -/
def Claim.VectorStoresComplete : Prop :=
  ∀ i f, vstoreShape i = some f → ∀ s p parts t, s.admits f.op → f.args s.opened = .ok ((p, parts), t) →
    (parts = [] → exec i s = .next (finish f.op .seq t))
    ∧ (∀ off m u b h, parts = [(.priv off, m)] → ownTurn m off t = .ok ((), u) →
        (u.tile u.cur.site).perform m off = .ok b h →
        exec i s = .next (finish f.op .seq (u.setTile u.cur.site b)))
    ∧ (∀ id u v, partsTravel parts → freshId t = .ok (id, u) → sendParts p id false parts u = .ok ((), v) →
        exec i s = .next (finish f.op .seq v))

/-- R204: VLDC converts memory into the register format and VSTC the register into the format of the pointer; both complete, at
the own banks at once, with the flags of the conversion. -/
def Claim.VectorConvertingAccesses : Prop :=
  (∀ stl d a b s p c home t, s.admits (opA 0x35 2 stl d.code a.code b.code) →
    vldcArgs d a b s.opened = .ok ((p, c, home), t) →
    (∀ off u r h, home = some (.priv off) → ownTurn (.vecConvert c) off t = .ok ((), u) →
      (u.tile u.cur.site).perform (.vecConvert c) off = .ok r h →
      exec (.vldc stl d a b) s = .next (finish (opA 0x35 2 stl d.code a.code b.code) .seq
        ((u.setTile u.cur.site r).withVResult 1 h.flags d (BitVec.ofNat 4096 h.val) (BitVec.ofNat 128 h.side))))
    ∧ (∀ pl id u v, home = some pl → (∀ off, pl ≠ .priv off) → reserve (vlandingOf d) 1 t = .ok (id, u) →
      sendRequest (.vecConvert c) p (homeDest (u.tile u.cur.site).name.1 pl) id true u = .ok ((), v) →
      exec (.vldc stl d a b) s = .next (finish (opA 0x35 2 stl d.code a.code b.code) .seq v))
    ∧ (home = none → ∃ v sd,
      exec (.vldc stl d a b) s = .next (finish (opA 0x35 2 stl d.code a.code b.code) .seq (t.withVResult 1 0 d v sd))))
  ∧ (∀ stl d a b s p parts fl t, s.admits (opA 0x35 3 stl d.code a.code b.code) →
    vstcArgs d a b s.opened = .ok ((p, parts, fl), t) →
    let done (u : State) : State := u.setSlot u.cur ((u.slot u.cur).flagsAt (u.cycle + 1) fl)
    (parts = [] → exec (.vstc stl d a b) s = .next (finish (opA 0x35 3 stl d.code a.code b.code) .seq (done t)))
    ∧ (∀ off m u r h, parts = [(.priv off, m)] → ownTurn m off t = .ok ((), u) →
        (u.tile u.cur.site).perform m off = .ok r h →
        exec (.vstc stl d a b) s
          = .next (finish (opA 0x35 3 stl d.code a.code b.code) .seq (done (u.setTile u.cur.site r))))
    ∧ (∀ id u v, partsTravel parts → freshId t = .ok (id, u) → sendParts p id false parts u = .ok ((), v) →
        exec (.vstc stl d a b) s = .next (finish (opA 0x35 3 stl d.code a.code b.code) .seq (done v))))

/-- R239, R240: the effect of the parts of VAADD, VAMAXABS and VAFX at the banks: each element is one read-modify-write of its
own word or cell, in ascending order of the list. -/
def Claim.VectorAtomicsAtTheBanks : Prop :=
  ∀ (t : Tile) (off : Nat), t.spad.wf = true →
    (∀ k n a v rest, n ∈ [2, 4] → k ≠ .umax → t.linesFull a n = true → t.eccAt a n = none →
      t.perform (.vecAtomic k n ((a, v) :: rest)) off
        = match t.perform (.atomic k n v 0) a with
          | .ok b _ => b.perform (.vecAtomic k n rest) off
          | r => r)
    ∧ (∀ a v rest, t.linesFull a 4 = true → t.eccAt a 4 = none →
      t.perform (.vecAtomic .umax 4 ((a, v) :: rest)) off
        = match t.perform (.absmax (BitVec.ofNat 32 ((v : Word).toNat % 2 ^ 31))) a with
          | .ok b _ => b.perform (.vecAtomic .umax 4 rest) off
          | r => r)
    ∧ (∀ a v rest, t.linesFull a 16 = true → t.eccAt a 16 = none →
      t.perform (.vecFx ((a, v) :: rest)) off
        = match t.perform (.fxAdd v) a with
          | .ok b _ => b.perform (.vecFx rest) off
          | r => r)
    ∧ (∀ a v, t.linesFull a 4 = true → t.eccAt a 4 = none →
      ∃ b h, t.perform (.vecAtomic .umax 4 [(a, v)]) off = .ok b h ∧
        ∀ x, Memory.get b.spad x = byteOver t.spad a 4 (max (bytesFrom t.spad a 4) ((v : Word).toNat % 2 ^ 31)) x)
    ∧ (∀ a v, t.linesFull a 16 = true → t.eccAt a 16 = none →
      ∃ b h, t.perform (.vecFx [(a, v)]) off = .ok b h ∧
        ∀ x, Memory.get b.spad x = byteOver t.spad a 16 (cellAdd (bytesFrom t.spad a 16) (v : BitVec 32).toNat) x)

/-- The claims ReadModifyWriteAtTheBanks and VectorAtomicsAtTheBanks together. -/
def Obligations.ReadModifyWriteAndVectorAtomics : Prop := Claim.ReadModifyWriteAtTheBanks ∧ Claim.VectorAtomicsAtTheBanks

/-- The claims VectorLoadsComplete, VectorStoresComplete and VectorConvertingAccesses together. -/
def Obligations.VectorAccessesComplete : Prop := Claim.VectorLoadsComplete ∧ Claim.VectorStoresComplete ∧ Claim.VectorConvertingAccesses

/-! ### Control registers, fences, the guarded phase -/

/-- R57, R173: CRD completes with the register of its index; a core's read clears the counters that clear on reading; in USER
mode an index of 0x200 and above raises the privileged cause, and an index of no register is an illegal operand. -/
def Claim.ControlRegisterReads : Prop :=
  ∀ stl d (i : BitVec 10) s, d.legal = true → s.admits (opI 0x19 stl d.code 0 i) →
    (∀ v, s.opened.cur.isCore = false → ((s.opened.slot s.opened.cur).sys = true ∨ i.toNat < 0x200) →
      s.opened.ctlOf i.toNat = some v →
      exec (.crd stl d i) s = .next (finish (opI 0x19 stl d.code 0 i) .seq (s.opened.withResult 1 0 d v)))
    ∧ (∀ v, s.opened.cur.isCore = true → ¬ (s.opened.cur = .collier ∧ i.toNat = 0x390) →
      s.opened.coreCtlGet s.opened.cur i.toNat = some v →
      exec (.crd stl d i) s
        = .next (finish (opI 0x19 stl d.code 0 i) .seq
            ((s.opened.coreReadClear s.opened.cur i.toNat).withResult 1 0 d v)))
    ∧ (s.opened.cur.isCore = false → (s.opened.slot s.opened.cur).sys = false → 0x200 ≤ i.toNat →
      exec (.crd stl d i) s
        = .next (s.takeTrap .privileged (ofN (opI 0x19 stl d.code 0 i).word) (s.slot s.cur).pc))
    ∧ (s.opened.cur.isCore = false → ((s.opened.slot s.opened.cur).sys = true ∨ i.toNat < 0x200) →
      s.opened.ctlOf i.toNat = none →
      exec (.crd stl d i) s
        = .next (s.takeTrap .illegalOperand (ofN (opI 0x19 stl d.code 0 i).word) (s.slot s.cur).pc))

/-- R57 to R60, R169, R173, R276 to R278: in a tile CWR completes; the register then reads as the written bits that it keeps,
and every other register reads as before; a write of a read-only register changes none. A write to a register of the tile is
seen from the next cycle on; one of LC0 or LC1 stands behind its own end check. OVRH loses its valid bit by a write with bit 0 clear and
nothing else. In USER mode an index of 0x200 and above raises the privileged cause, and an index of no register is an illegal operand. -/
def Claim.ControlRegisterWrites : Prop :=
  let flow (t : State) (i : Nat) : Flow := if ((t.slot t.cur).ctlGet t.cur.slotNo.val i).isSome = true then .seq else .seqLate
  (∀ r ∈ ctlRows, r.index ≠ 6 → r.index ≠ 7 → ∀ stl a s v t o, s.admits (opI 0x1A stl 16 a.code (BitVec.ofNat 10 r.index)) →
    s.opened.cur.isCore = false → ((s.opened.slot s.opened.cur).sys = true ∨ r.index < 0x200) →
    read1 a s.opened = .ok (v, t) → t.cur.isCore = false → t.ctlOf r.index = some o →
    ∃ u, exec (.cwr stl a (BitVec.ofNat 10 r.index)) s
        = .next (finish (opI 0x1A stl 16 a.code (BitVec.ofNat 10 r.index)) (flow t r.index) u)
      ∧ u.ctlOf r.index = some (ofN (r.kept o.toNat v.toNat)) ∧ ∀ j, j ≠ r.index → u.ctlOf j = t.ctlOf j)
  ∧ (∀ i, (i = 6 ∨ i = 7) → ∀ stl a s v t, s.admits (opI 0x1A stl 16 a.code (BitVec.ofNat 10 i)) →
    s.opened.cur.isCore = false → read1 a s.opened = .ok (v, t) → t.cur.isCore = false →
    let n := (t.slot t.cur).next 2
    let c := t.setSlot t.cur n
    ∃ u, exec (.cwr stl a (BitVec.ofNat 10 i)) s
        = .next (finish (opI 0x1A stl 16 a.code (BitVec.ofNat 10 i)) (.jump n.pc) u)
      ∧ u.ctlOf i = some v ∧ ∀ j, j ≠ i → u.ctlOf j = c.ctlOf j)
  ∧ (∀ i ∈ ctlReadOnly, ∀ stl a s v t, s.admits (opI 0x1A stl 16 a.code (BitVec.ofNat 10 i)) →
    s.opened.cur.isCore = false → ((s.opened.slot s.opened.cur).sys = true ∨ i < 0x200) →
    read1 a s.opened = .ok (v, t) → t.cur.isCore = false →
    ∃ u, exec (.cwr stl a (BitVec.ofNat 10 i)) s
        = .next (finish (opI 0x1A stl 16 a.code (BitVec.ofNat 10 i)) (flow t i) u) ∧ ∀ j, u.ctlOf j = t.ctlOf j)
  ∧ (∀ stl a s v t, s.admits (opI 0x1A stl 16 a.code 0x205) → s.opened.cur.isCore = false →
    (s.opened.slot s.opened.cur).sys = true → read1 a s.opened = .ok (v, t) → t.cur.isCore = false →
    let sl := t.slot t.cur
    exec (.cwr stl a 0x205) s = .next (finish (opI 0x1A stl 16 a.code 0x205) .seq
      (t.setSlot t.cur (if v.toNat % 2 = 1 then sl else { sl with ovr := { sl.ovr with valid := false } }))))
  ∧ (∀ stl a (i : BitVec 10) s, s.admits (opI 0x1A stl 16 a.code i) →
    let illegal (c : Cause) : Prop := exec (.cwr stl a i) s
      = .next (s.takeTrap c (ofN (opI 0x1A stl 16 a.code i).word) (s.slot s.cur).pc)
    (s.opened.cur.isCore = false → (s.opened.slot s.opened.cur).sys = false → 0x200 ≤ i.toNat → illegal .privileged)
    ∧ (s.opened.cur.isCore = false → ((s.opened.slot s.opened.cur).sys = true ∨ i.toNat < 0x200) →
      s.opened.ctlOf i.toNat = none → illegal .illegalOperand)
    ∧ (s.opened.cur.isCore = true → ¬ (s.opened.cur = .collier ∧ i.toNat = 0x390) →
      s.opened.coreCtlGet s.opened.cur i.toNat = none → illegal .illegalOperand))

/-- R276, R277, R307, R407, R411, R418 to R420, R427: what CWR writes on the Collier and on a Stoker. A register that is written and read back
takes its bits and no other register changes; a register that only reads is left alone; a write of TIMERCMP leaves a pending source 4
pending; SNS_CRIT makes every region's trip anew; a W1C bit of THERM_ALERT whose sensor crosses in the same cycle stays set; a threshold at
or below ECCCNT makes source 6 pending; THR_DUTY sends THROTTLE and waits for its permit; RXUINV waits while one runs; SGATE gates the
sub-regions that are not busy. -/
def Claim.CoreRegisterWrites : Prop :=
  ∀ stl a (i : BitVec 10) s v t, s.admits (opI 0x1A stl 16 a.code i) → s.opened.cur = t.cur → t.cur.isCore = true →
    read1 a s.opened = .ok (v, t) →
    let o := opI 0x1A stl 16 a.code i
    let c := t.core t.cur
    let ends (u : State) : Prop := exec (.cwr stl a i) s = .next (finish o .seq u)
    (∀ r ∈ coreRows t.cur, r.index = i.toNat → ∃ x u, t.coreCtlGet t.cur r.index = some x ∧ ends u
      ∧ u.coreCtlGet t.cur r.index = some (ofN (r.kept x.toNat v.toNat))
      ∧ ∀ j, j ≠ r.index → u.coreCtlGet t.cur j = t.coreCtlGet t.cur j)
    ∧ (coreReadOnly t.cur i.toNat → ends t)
    ∧ (let n := (t.slot t.cur).next 2
      let l : LoopLevel := { count := BitVec.ofNat 32 v.toNat, start := BitVec.ofNat 16 (v.toNat / 2 ^ 32), stop := BitVec.ofNat 16 (v.toNat / 2 ^ 48) }
      (i.toNat = 6 → exec (.cwr stl a i) s = .next (finish o (.jump n.pc) (t.setSlot t.cur { n with lc0 := l })))
      ∧ (i.toNat = 7 → exec (.cwr stl a i) s = .next (finish o (.jump n.pc) (t.setSlot t.cur { n with lc1 := l }))))
    ∧ (i.toNat = 0x38A → ∃ u, ends u ∧ (u.core t.cur).eccThr.toNat = v.toNat % 2 ^ 32 ∧ (u.core t.cur).eccCnt = c.eccCnt
      ∧ (u.core t.cur).iedge = c.iedge ||| (if v.toNat % 2 ^ 32 ≤ c.eccCnt.toNat ∧ c.eccCnt.toNat < c.eccThr.toNat then 0x40 else 0))
    ∧ (t.cur = .collier →
      (i.toNat = 0x381 → ∃ u, ends u ∧ u.snsCrit.toNat = v.toNat % 2 ^ 12 ∧ ∀ r, r < 64 →
        let x := t.therm r
        u.therm r = { x with trip := decide (v.toNat % 2 ^ 12 ≤ x.temp.toNat ∨ (x.trip = true ∧ v.toNat % 2 ^ 12 ≤ x.temp.toNat + 80)) })
      ∧ (i.toNat = 0x382 → ∃ u, ends u
        ∧ u.alert = (t.alert &&& ~~~v) ||| (if t.crossed.1 = t.cycle then t.crossed.2 &&& v else 0))
      ∧ (∀ r, r < 64 → i.toNat = 0x340 + r →
        let d := v.toNat % 32
        (d = 0 ∨ 16 < d → ends t)
        ∧ (0 < d → d ≤ 16 → (t.link r).toStoker = 0 → exec (.cwr stl a i) s = .next (s.hold .held))
        ∧ (0 < d → d ≤ 16 → (t.link r).toStoker ≠ 0 →
          ends ((t.toStoker r 0x80 (d * 2 ^ 16)).setTherm r { t.therm r with duty := d, pend := true })))
      ∧ (i.toNat = 0x390 → (t.rxuBusy = true → exec (.cwr stl a i) s = .next (s.hold .held))
        ∧ (t.rxuBusy = false → ends { t with
            rxuBusy := true
            rxu := t.rxu.filter fun e => !decide (e.1.1 = v.toNat % 2 ^ 16 ∧ (v.toNat / 2 ^ 62 % 2 = 1 ∨ e.1.2 = v.toNat / 2 ^ 16 % 2 ^ 36)) })))
    ∧ ∀ r, t.cur = .stoker r →
      (i.toNat = 0x300 → ends (t.writeSgate r (BitVec.ofNat 16 v.toNat)) ∧ ∀ k, k < 16 →
        ((t.writeSgate r (BitVec.ofNat 16 v.toNat)).stoker r).sgate.getLsbD k
          = (v.getLsbD k && ((t.stoker r).sgate.getLsbD k || !t.subBusy r k)))
      ∧ (i.toNat = 0x3C0 → ends (t.captureSelect r v.toNat))

/-- R114, R174: a FENCE completes and marks what was issued before it: REL for later stores, ACQ and LB for later accesses,
FULL for all of them; a scope of 5 to 7 is an illegal operand in REL, ACQ and FULL. -/
def Claim.FenceResults : Prop :=
  ∀ stl (g : BitVec 3) s,
    let sl := s.opened.slot s.opened.cur
    let put (x : Slot) : State := s.opened.setSlot s.opened.cur x
    (g.toNat ≤ 4 →
      (s.admits (opA 0x1B 0 stl 0 0 g.toNat) →
        exec (.fenceRel stl g) s = .next (finish (opA 0x1B 0 stl 0 0 g.toNat) .seq (put { sl with fenceRel := sl.nextId })))
      ∧ (s.admits (opA 0x1B 1 stl 0 0 g.toNat) →
        exec (.fenceAcq stl g) s = .next (finish (opA 0x1B 1 stl 0 0 g.toNat) .seq (put { sl with fenceAcq := sl.nextId })))
      ∧ (s.admits (opA 0x1B 2 stl 0 0 g.toNat) →
        exec (.fenceFull stl g) s = .next (finish (opA 0x1B 2 stl 0 0 g.toNat) .seq
          (put { sl with fenceRel := sl.nextId, fenceAcq := sl.nextId, fenceAll := sl.nextId }))))
    ∧ (s.admits (opA 0x1B 3 stl 0 0 1) →
      exec (.fenceLb stl) s = .next (finish (opA 0x1B 3 stl 0 0 1) .seq (put { sl with fenceLb := sl.nextId })))
    ∧ (5 ≤ g.toNat → ∀ f ∈ [(0, Instr.fenceRel stl g), (1, Instr.fenceAcq stl g), (2, Instr.fenceFull stl g)],
      s.admits (opA 0x1B f.1 stl 0 0 g.toNat) →
      exec f.2 s = .next (s.takeTrap .illegalOperand (ofN (opA 0x1B f.1 stl 0 0 g.toNat).word) (s.slot s.cur).pc))

/-- R114: what a fence holds: behind ACQ every access while an earlier load or atomic has not returned, behind REL a store
while one has not returned or an earlier access has not been performed, behind FULL every access while an earlier one has not
been performed, behind LB an access to the own scratchpad while an earlier one through either alias has not. A write of a vector register is
such an access until it lands (R46). -/
def Claim.FencesHold : Prop :=
  ∀ store own s,
    let sl := s.slot s.cur
    let out (n : Nat) : Prop := ∃ f ∈ sl.flights, f.due = none ∧ f.id < n
    let held : Prop :=
      (store = true ∧ sl.fenceRel ≠ 0 ∧ (out sl.fenceRel ∨ s.unperformedBefore s.cur sl.fenceRel = true))
      ∨ (sl.fenceAcq ≠ 0 ∧ out sl.fenceAcq)
      ∨ (sl.fenceAll ≠ 0 ∧ s.unperformedBefore s.cur sl.fenceAll = true)
      ∨ (own = true ∧ sl.fenceLb ≠ 0 ∧ s.loopbackBefore s.cur sl.fenceLb = true)
    (held → fenceGate store own s = .error (.wait .held)) ∧ (¬ held → fenceGate store own s = .ok ((), s))
    ∧ ∀ f ∈ sl.flights, ∀ n, f.inPad = true → f.lands sl.flights s.cycle = false → f.id < n →
      s.unperformedBefore s.cur n = true ∧ s.loopbackBefore s.cur n = true

/-- R125, R126: in the guarded phase a store, atomic or barrier arrival to the private alias outside the window, and one
elsewhere whose answer is wanted, raises the guard window cause; one to the private alias inside the window is performed at once; any other
one elsewhere is not performed but appended to the captured accesses, as the request that it makes, with its bytes, where the buffer has
room, and ends the phase with reason 3 where it has none. -/
def Obligations.GuardedPhaseWrites : Prop :=
  ∀ i f, accessShape i = some f → f.dst.legal = true → f.store = true → ∀ s p m r pl t, s.admits f.op →
    f.args s.opened = .ok ((p, m), t) → f.rule t = .ok (r, t) → placeOf r p (f.bytes p) (f.bytes p) t = .ok (pl, t) →
    inPhase t = .ok (true, t) →
    let g := (t.tile t.cur.site).guard
    let n := guardBytes i (f.bytes p)
    let room := (t.launch (t.tile t.cur.site).name.1).pkt.guardsize * 128
    let dst : Dest := match pl with
      | .vtile vt _ => .vtile (t.tile t.cur.site).name.1 vt
      | _ => .rim
    (∀ off, pl = .priv off → g.inWindow off (f.bytes p) = false →
      exec i s = .next (s.takeTrap .guardWindow p (s.slot s.cur).pc))
    ∧ ((∀ off, pl ≠ .priv off) → f.wants = true → exec i s = .next (s.takeTrap .guardWindow p (s.slot s.cur).pc))
    ∧ (∀ off u b h, pl = .priv off → g.inWindow off (f.bytes p) = true → accessHeld f pl t = .ok ((), t) →
      ownTurn m off t = .ok ((), u) → (u.tile u.cur.site).perform m off = .ok b h →
      exec i s = .next (finish f.op .seq ((u.setTile u.cur.site b).withAnswer f h.val)))
    ∧ ((∀ off, pl ≠ .priv off) → f.wants = false → g.used + n ≤ room →
      exec i s = .next (finish f.op .seq (t.setTile t.cur.site { t.tile t.cur.site with
        guard := { g with caught := g.caught ++ [.packets [t.packet 0 0 dst (.request m p false)]], used := g.used + n } })))
    ∧ ((∀ off, pl ≠ .priv off) → f.wants = false → room < g.used + n → exec i s = .next (s.rejectPhase s.cur.site 3 0))

/-! ### The matrix engine -/

/-- R35, R208 to R210: TLD, TST, TZERO, MMA, MMAS, TADD, TCVT, TTRANS, TROWV and TVROW are the matrix commands. One whose
slot the free engine picks, that no fence holds, whose sources are there and whose checks pass completes with its effect; the engine is then busy for the cycles of R209, and the command's flags come when it is free. -/
def Claim.MatrixCommandsComplete : Prop :=
  (∀ i, ((∃ stl x u, i = .tld stl x u) ∨ (∃ stl y u, i = .tst stl y u) ∨ (∃ stl x, i = .tzero stl x)
      ∨ (∃ stl x y w u g, i = .mma stl x y w u g) ∨ (∃ stl x y w u g, i = .mmas stl x y w u g)
      ∨ (∃ stl x y w, i = .tadd stl x y w) ∨ (∃ stl x y u, i = .tcvt stl x y u) ∨ (∃ stl x y, i = .ttrans stl x y)
      ∨ (∃ stl y u, i = .trowv stl y u) ∨ ∃ stl x y u, i = .tvrow stl x y u) ↔ (matrixOf i).isSome = true)
  ∧ ∀ i c, matrixOf i = some c → ∀ s site k t s4 u n fl, s.cur = .tile site k → s.admits c.op →
    let s1 := s.opened
    let s2 := s1.setSlot s1.cur { s1.slot s1.cur with mheld := some i }
    let s3 := s2.setTile site t
    (s1.tile site).mfree ≤ s1.cycle → s2.pickMatrix site = some (k, t) → s2.followReady site k = false →
    s3.admits c.op → fenceGate true true s3.opened = .ok ((), s3.opened) →
    awaitSources c s3.opened = .ok ((), s4) → matrixEffect c (read1 c.s) s4 = .ok ((n, fl), u) →
    let v := u.setSlot u.cur ((u.slot u.cur).flagsAt (u.cycle + n) fl)
    let w := v.setTile v.cur.site { v.tile v.cur.site with mfree := v.cycle + n }
    exec i s = .next (finish c.op .seq (w.setSlot w.cur { w.slot w.cur with mheld := none }))

/-- R208: a matrix command that meets a busy engine is held: its slot waits with the command. -/
def Claim.MatrixCommandsHeld : Prop :=
  ∀ i c, matrixOf i = some c → ∀ s site k, s.cur = .tile site k → s.admits c.op →
    s.opened.cycle < (s.opened.tile site).mfree →
    exec i s = .next ((s.opened.setSlot s.opened.cur { s.opened.slot s.opened.cur with mheld := some i }).hold .matrix)

/-- R213 to R215, R218: TZERO, TADD, TTRANS and the integer MMA on formats without block exponents: enabled elements of the
target take zero, the sum, the transposed source or the accumulated products, modulo 2^32; all other bits stay. -/
def Obligations.MatrixElementResults : Prop :=
  ∀ (c : MatrixCmd) (s : State), s.cur.isCore = false →
    let t := s.tile s.cur.site
    let cd := t.cfg c.td
    let ca := t.cfg c.ta
    let cb := t.cfg c.tb
    let same (x : TileCfg) : Prop := x.fmt = cd.fmt ∧ x.rows = cd.rows ∧ x.cols = cd.cols
    cd.valid = true → ca.valid = true → cb.valid = true → isKN cd.fmt = false → isKN ca.fmt = false →
    (∃ u, effTzero c s = .ok ((12, 0), u) ∧ elementsBecome t (u.tile s.cur.site) c.td cd fun _ _ => 0)
    ∧ (same ca → same cb → cd.fmt = 2 →
      ∃ u, effTadd c s = .ok ((12, 0), u)
        ∧ elementsBecome t (u.tile s.cur.site) c.td cd fun i j => (t.telem c.ta cd i j + t.telem c.tb cd i j) % 2 ^ 32)
    ∧ (same ca → same cb → cd.fmt = 4 →
      ∃ u fl, effTadd c s = .ok ((12, fl), u)
        ∧ elementsBecome t (u.tile s.cur.site) c.td cd fun i j =>
            (floatAdd 4 rne (t.telem c.ta cd i j) (t.telem c.tb cd i j)).1 % 2 ^ 32)
    ∧ (cd.fmt = ca.fmt → cd.rows = ca.cols → cd.cols = ca.rows →
      ∃ u, effTtrans c s = .ok ((12, 0), u)
        ∧ elementsBecome t (u.tile s.cur.site) c.td cd fun i j => if t.mxOn j i = true then t.telem c.ta ca j i else 0)
    ∧ (∀ rd, c.minor = 3 → c.s = .q 0 → cd.fmt = 2 → ca.fmt = cb.fmt → (ca.fmt = 0 ∨ ca.fmt = 3) →
      let m := if c.mode % 2 = 1 then ca.cols else ca.rows
      let k := if c.mode % 2 = 1 then ca.rows else ca.cols
      let k' := if c.mode / 2 % 2 = 1 then cb.cols else cb.rows
      let n := if c.mode / 2 % 2 = 1 then cb.rows else cb.cols
      k = k' → cd.rows = m → cd.cols = n →
      ∃ u b, effMma c rd s = .ok ((b, 0), u)
        ∧ elementsBecome t (u.tile s.cur.site) c.td cd fun i j =>
            laneI 32 ((if c.mode / 4 % 2 = 1 then 0 else (t.telem c.td cd i j : Int))
              + ((List.range k).map fun x =>
                  (if c.mode % 2 = 1 then t.intSource c.ta ca x i else t.intSource c.ta ca i x)
                    * (if c.mode / 2 % 2 = 1 then t.intSource c.tb cb j x else t.intSource c.tb cb x j)).sum))

/-! ### Messages, launches, register capabilities -/

/-- R241 to R244: outside the guarded phase SEND, SENDS, SENDV and SENDA with a legal header complete: the message stands in the
network interface behind the earlier ones, under the next issue number and the next number of its traffic class. -/
def Claim.SendsComplete : Prop :=
  ∀ (o : Op) (i : Instr) (s : State) (h : Word) (vt : Nat) (ws : List Word) (t : State), s.admits o →
    ((∃ stl a b, i = .send stl a b ∧ o = opA 0x37 0 stl 0 a.code b.code ∧ sendArgs a b s.opened = .ok ((h, ws), t)
        ∧ vt = h.toNat / 2 ^ 40)
      ∨ (∃ stl d a b, i = .sends stl d a b ∧ o = opA 0x37 1 stl d.code a.code b.code
        ∧ sendsArgs d a b s.opened = .ok ((h, ws), t) ∧ vt = h.toNat / 2 ^ 40)
      ∨ (∃ stl a b, i = .sendv stl a b ∧ o = opA 0x37 2 stl 0 a.code b.code ∧ sendvArgs a b s.opened = .ok ((h, ws), t)
        ∧ vt = h.toNat / 2 ^ 40)
      ∨ (∃ stl d a b, i = .senda stl d a b ∧ o = opA 0x37 3 stl d.code a.code b.code
        ∧ sendaArgs d a b s.opened = .ok ((h, vt, ws), t))) →
    sendFree t = .ok ((), t) →
    let tc := h.toNat / 2 ^ 19 % 8
    let u := t.setSlot t.cur { t.slot t.cur with nextId := (t.slot t.cur).nextId + 1 }
    let b := u.tile u.cur.site
    let k : Fin 8 := Fin.ofNat 8 tc
    exec i s = .next (finish o .seq (u.setTile u.cur.site
      { b with
        sendSeq := b.sendSeq.set k (b.sendSeq[k] + 1)
        outq := b.outq ++ [{ u.packet (t.slot t.cur).nextId tc (.vtile (t.tile t.cur.site).name.1 vt) (.message h ws) with
                             seq := b.sendSeq[k] }] }))

/-- R245: MLEN gives the payload words of the current message and MSRC its source, slot, traffic class, kind and time stamp;
both give 0 without a message. -/
def Claim.MessageRegisterResults : Prop :=
  ∀ stl d s, d.legal = true →
    let sl := s.opened.slot s.opened.cur
    (s.admits (opA 0x37 4 stl d.code 0 0) →
      exec (.mlen stl d) s = .next (finish (opA 0x37 4 stl d.code 0 0) .seq (s.opened.withResult 1 0 d
        (match sl.msg with
          | some m => ofN m.words.length
          | none => 0))))
    ∧ (s.admits (opA 0x37 5 stl d.code 0 0) →
      exec (.msrc stl d) s = .next (finish (opA 0x37 5 stl d.code 0 0) .seq (s.opened.withResult 1 0 d
        (match sl.msg with
          | some m => ofN (m.srcVt % 2 ^ 24 + m.srcSlot % 8 * 2 ^ 24 + m.tc % 8 * 2 ^ 27 + m.kind % 4 * 2 ^ 30 + m.ts.toNat * 2 ^ 32)
          | none => 0))))

/-- R246 to R248: outside the guarded phase LAUNCH, behind everything earlier, hands its packet on and completes with the
status word, and CNTSET completes with the count and class of its counter entry set, behind the sends of its slot that stand
in the interface; an index above 63 or class 63 is an illegal operand. -/
def Claim.LaunchAndCounterResults : Prop :=
  (∀ stl d a s bytes t, s.admits (opA 0x37 6 stl d.code a.code 0) → launchArg d a s.opened = .ok (bytes, t) →
    inPhase t = .ok (false, t) → releaseGate t = .ok ((), t) →
    let r := t.launchChild (t.tile t.cur.site).name.1 bytes
    exec (.launch stl d a) s = .next (finish (opA 0x37 6 stl d.code a.code 0) .seq (r.1.withResult 1 0 d r.2)))
  ∧ (∀ stl a b s i v t, s.admits (opA 0x37 7 stl 0 a.code b.code) → read2 a b s.opened = .ok ((i, v), t) →
    (i.toNat ≤ 63 → v.toNat / 2 ^ 32 % 64 ≠ 63 → inPhase t = .ok (false, t) → fenceGate true false t = .ok ((), t) →
      let b' := t.tile t.cur.site
      ((∀ p ∈ b'.outq, p.src.slot ≠ t.cur.slotNo) →
        exec (.cntset stl a b) s = .next (finish (opA 0x37 7 stl 0 a.code b.code) .seq
          (t.setTile t.cur.site { b' with
            counters := b'.counters.set (Fin.ofNat 64 i.toNat : Fin 64)
              { count := BitVec.ofNat 32 v.toNat, cls := BitVec.ofNat 6 (v.toNat / 2 ^ 32) } })))
      ∧ ((∃ p ∈ b'.outq, p.src.slot = t.cur.slotNo) →
        exec (.cntset stl a b) s = .next (finish (opA 0x37 7 stl 0 a.code b.code) .seq
          (t.setTile t.cur.site { b' with
            ctrSets := b'.ctrSets ++ [(t.cur.slotNo, (t.slot t.cur).nextId, i.toNat, v)] }))))
    ∧ (63 < i.toNat ∨ v.toNat / 2 ^ 32 % 64 = 63 →
      exec (.cntset stl a b) s
        = .next (s.takeTrap .illegalOperand (ofN (opA 0x37 7 stl 0 a.code b.code).word) (s.slot s.cur).pc)))

/-- R249 to R253: RCAP completes with a capability of the own register under the launch's key; outside the guarded phase RPUT,
RPUTV and RPUTR complete: the write stands in the interface in traffic class 2, or is discarded and counted where the
capability is bad. -/
def Claim.RegisterCapabilityResults : Prop :=
  (∀ stl d (a : BitVec 6) (b : BitVec 1) s t, d.legal = true → s.admits (opA 0x38 0 stl d.code a.toNat b.toNat) →
    checkReg a s.opened = .ok ((), t) →
    let key := (t.launch (t.tile t.cur.site).name.1).key
    let c := ofN ((t.tile t.cur.site).name.2 % 2 ^ 24 * 2 ^ 40 + t.cur.slotNo.val * 2 ^ 37 + a.toNat * 2 ^ 31
      + (t.slot t.cur).gen.toNat * 2 ^ 19 + b.toNat * 2 ^ 18)
    exec (.rcap stl d a b) s = .next (finish (opA 0x38 0 stl d.code a.toNat b.toNat) .seq
      (t.withResult 3 0 d (ofN (c.toNat + (checkCode key c).toNat)))))
  ∧ (∀ stl a b s c v t, read2 a b s.opened = .ok ((c, v), t) → checkCap c false t = .ok ((), t) →
    sendFree t = .ok ((), t) →
    (s.admits (opA 0x38 1 stl 0 a.code b.code) →
      exec (.rput stl a b) s = .next (finish (opA 0x38 1 stl 0 a.code b.code) .seq
        (t.sendWrite (t.tile t.cur.site).name.1 c v 0 0 false)))
    ∧ (s.admits (opA 0x38 3 stl 0 a.code b.code) → releaseGate t = .ok ((), t) →
      exec (.rputr stl a b) s = .next (finish (opA 0x38 3 stl 0 a.code b.code) .seq
        (t.sendWrite (t.tile t.cur.site).name.1 c v 0 0 true))))
  ∧ (∀ stl a b s c v sd t, s.admits (opA 0x38 2 stl 0 a.code b.code) → rputvArgs a b s.opened = .ok ((c, v, sd), t) →
    sendFree t = .ok ((), t) →
    exec (.rputv stl a b) s = .next (finish (opA 0x38 2 stl 0 a.code b.code) .seq
      (t.sendWrite (t.tile t.cur.site).name.1 c 0 v sd false)))

/-- R257: RTAKE completes with the value of a full register and leaves it empty, RWAIT leaves it full, REMPTY empties it, and
RFULL gives 1 where it is full; a register that is empty makes RTAKE and RWAIT wait. -/
def Claim.RegisterTakingResults : Prop :=
  (∀ stl d (a : BitVec 6) s t u v x, takeArgs d a s.opened = .ok ((), t) → a.toNat < 32 →
    awaitNamed (Fin.ofNat 32 a.toNat) t = .ok ((), u) → readNamed (Fin.ofNat 32 a.toNat) u = .ok (v, x) →
    (s.admits (opA 0x38 4 stl d.toNat a.toNat 0) →
      exec (.rtake stl d a) s = .next (finish (opA 0x38 4 stl d.toNat a.toNat 0) .seq
        ((x.emptied a).withResult 1 0 (Dst.ofCode d.toNat) v)))
    ∧ (s.admits (opA 0x38 7 stl d.toNat a.toNat 0) →
      exec (.rwait stl d a) s = .next (finish (opA 0x38 7 stl d.toNat a.toNat 0) .seq
        (x.withResult 1 0 (Dst.ofCode d.toNat) v))))
  ∧ (∀ stl d (a : BitVec 6) s t u x v, takeArgs d a s.opened = .ok ((), t) → 32 ≤ a.toNat →
    awaitVSrc (.v (Fin.ofNat 16 (a.toNat - 32))) t = .ok ((), u) →
    readVSrc (.v (Fin.ofNat 16 (a.toNat - 32))) u = .ok (v, x) →
    (s.admits (opA 0x38 4 stl d.toNat a.toNat 0) →
      exec (.rtake stl d a) s = .next (finish (opA 0x38 4 stl d.toNat a.toNat 0) .seq
        ((x.emptied a).withVResult 1 0 (VDst.ofCode d.toNat) v.1 v.2)))
    ∧ (s.admits (opA 0x38 7 stl d.toNat a.toNat 0) →
      exec (.rwait stl d a) s = .next (finish (opA 0x38 7 stl d.toNat a.toNat 0) .seq
        (x.withVResult 1 0 (VDst.ofCode d.toNat) v.1 v.2))))
  ∧ (∀ stl d (a : BitVec 6) s t, s.admits (opA 0x38 4 stl d.toNat a.toNat 0) → takeArgs d a s.opened = .ok ((), t) →
    a.toNat < 32 → (t.slot t.cur).sys = false → (t.slot t.cur).nfull.getLsbD a.toNat = false →
    exec (.rtake stl d a) s = .next (s.hold .held))
  ∧ (∀ stl d (a : BitVec 6) s t, s.admits (opA 0x38 7 stl d.toNat a.toNat 0) → takeArgs d a s.opened = .ok ((), t) →
    a.toNat < 32 → (t.slot t.cur).sys = false → (t.slot t.cur).nfull.getLsbD a.toNat = false →
    exec (.rwait stl d a) s = .next (s.hold .held))
  ∧ (∀ stl d (a : BitVec 6) s t u, takeArgs d a s.opened = .ok ((), t) → 32 ≤ a.toNat → fenceGate false true t = .ok ((), t) →
    awaitVregs t = .ok ((), u) →
    (u.tile u.cur.site).linesFull (vregOffset (t.launch (t.tile t.cur.site).name.1) t.cur.slotNo (a.toNat - 32)) 512 = false →
    (s.admits (opA 0x38 4 stl d.toNat a.toNat 0) → exec (.rtake stl d a) s = .next (s.hold .held))
    ∧ (s.admits (opA 0x38 7 stl d.toNat a.toNat 0) → exec (.rwait stl d a) s = .next (s.hold .held)))
  ∧ (∀ stl (a : BitVec 6) s t, s.admits (opA 0x38 5 stl 0 a.toNat 0) → checkReg a s.opened = .ok ((), t) →
    exec (.rempty stl a) s = .next (finish (opA 0x38 5 stl 0 a.toNat 0) .seq (t.emptied a)))
  ∧ (∀ stl d (a : BitVec 6) s t, d.legal = true → s.admits (opA 0x38 6 stl d.code a.toNat 0) →
    checkReg a s.opened = .ok ((), t) →
    exec (.rfull stl d a) s = .next (finish (opA 0x38 6 stl d.code a.toNat 0) .seq (t.withResult 1 0 d
      (ofB (if a.toNat < 32 then (t.slot t.cur).nfull.getLsbD a.toNat
        else (t.tile t.cur.site).linesFull
          (vregOffset (t.launch (t.tile t.cur.site).name.1) t.cur.slotNo (a.toNat - 32)) 512)))))

/-- The claims WaitsComplete, FenceResults and FencesHold together. -/
def Obligations.WaitsAndFences : Prop := Claim.WaitsComplete ∧ Claim.FenceResults ∧ Claim.FencesHold

/-- The claims ControlRegisterReads, ControlRegisterWrites and CoreRegisterWrites together. -/
def Obligations.ControlRegisters : Prop := Claim.ControlRegisterReads ∧ Claim.ControlRegisterWrites ∧ Claim.CoreRegisterWrites

/-- The claims MatrixCommandsComplete and MatrixCommandsHeld together. -/
def Obligations.MatrixCommands : Prop := Claim.MatrixCommandsComplete ∧ Claim.MatrixCommandsHeld

/-- The claims SendsComplete, MessageRegisterResults and LaunchAndCounterResults together. -/
def Obligations.MessagesLaunchesAndCounters : Prop := Claim.SendsComplete ∧ Claim.MessageRegisterResults ∧ Claim.LaunchAndCounterResults

/-- The claims RegisterCapabilityResults and RegisterTakingResults together. -/
def Obligations.RemoteRegisters : Prop := Claim.RegisterCapabilityResults ∧ Claim.RegisterTakingResults

/-! ### The copy engine -/

/-- R223 to R225: outside the guarded phase XCOPY, XCOPYM and XDIG on a legal template, with a free place in the engine and
behind no fence, complete with the ticket of the started job; XCOPYM reads the operand of XFOLLOW's command as it issues. While
16 jobs are outstanding they wait. That the ticket has latency 1 is the model's choice, log entry 52. -/
def Claim.CopyJobsStart : Prop :=
  ∀ (o : Op) (i : Instr) (d : Dst) (s : State) (dig : Bool) (ti off : Word) (f : Option (BitVec 32 × Word)) (u t : State),
    d.legal = true → s.admits o →
    ((∃ stl a b, i = .xcopy stl d a b ∧ o = opA 0x39 0 stl d.code a.code b.code ∧ dig = false ∧ f = none ∧ u = t
        ∧ read2 a b s.opened = .ok ((ti, off), t))
      ∨ (∃ stl a b, i = .xdig stl d a b ∧ o = opA 0x39 6 stl d.code a.code b.code ∧ dig = true ∧ f = none ∧ u = t
        ∧ read2 a b s.opened = .ok ((ti, off), t))
      ∨ (∃ stl a b, i = .xcopym stl d a b ∧ o = opA 0x39 1 stl d.code a.code b.code ∧ dig = false
        ∧ read2 a b s.opened = .ok ((ti, off), u) ∧ readFollow u = .ok (f, t))) →
    ti.toNat ≤ 63 →
    let g := geometry (u.tile u.cur.site).templates[(Fin.ofNat 64 ti.toNat : Fin 64)] off
    inPhase u = .ok (false, u) →
    (16 ≤ (u.tile u.cur.site).jobs.length → exec i s = .next (s.hold .held))
    ∧ ((u.tile u.cur.site).jobs.length < 16 →
      checkJobEarly g dig t = .ok ((), t) → checkJobLate g t = .ok ((), t) → fenceGate true true t = .ok ((), t) →
      let w := t.beginJob t.cur.site t.cur.slotNo g dig f
      exec i s = .next (finish o .seq (w.withResult 1 0 d (ofN (w.tile w.cur.site).lastTicket.toNat))))

/-- R223, R225, R103: the geometry of a job is its template's with the operand's signed offsets added; its ticket follows the
last, 0 skipped; its job joins the engine's list, and the lines of its own destination become empty. -/
def Claim.CopyJobRecord : Prop :=
  ∀ (t : Tile) (now : Nat) (k : Fin 8) (v : BitVec 256) (o : Word) (f : Option (BitVec 32 × Word)),
    let g := geometry v o
    let b := t.startJob now k g false f
    g.src = movedPtr (ofN (v.toNat % 2 ^ 64)) (laneS 32 (o.toNat % 2 ^ 32))
    ∧ g.dst = movedPtr (ofN (v.toNat / 2 ^ 64)) (laneS 32 (o.toNat / 2 ^ 32))
    ∧ g.rowLen = v.toNat / 2 ^ 128 % 2 ^ 20 ∧ g.rows = v.toNat / 2 ^ 148 % 2 ^ 12 + 1
    ∧ b.lastTicket.toNat = (if t.lastTicket.toNat = 2 ^ 32 - 1 then 1 else t.lastTicket.toNat + 1)
    ∧ b.jobs.length = t.jobs.length + 1 ∧ b.spad = t.spad ∧ b.slots = t.slots
    ∧ ∀ i, i < 1024 → b.fe.getLsbD i = (t.fe.getLsbD i && !decide (i ∈ ownLines (g.dstHull t.name.2 false)))

/-- R228: XPOLL completes with 1 when no covered job runs, else 0; XWAIT completes then with XERR, which it clears, and waits
while a covered job runs; a ticket that was not issued is an illegal operand, and so is any but 0 before the first job. -/
def Claim.CopyWaitResults : Prop :=
  ∀ stl d a s v t, d.legal = true → read1 a s.opened = .ok (v, t) →
    let n := v.toNat % 2 ^ 32
    let last := (t.tile t.cur.site).lastTicket.toNat
    let upTo (x y : Nat) : Prop := (y + 2 ^ 32 - x) % 2 ^ 32 < 2 ^ 31
    let issued : Prop := v.toNat = 0 ∨ (last ≠ 0 ∧ upTo n last)
    let busy : Prop := last ≠ 0 ∧ ∃ j ∈ (t.tile t.cur.site).jobs, upTo j.ticket.toNat (if v.toNat = 0 then last else n)
    (s.admits (opA 0x39 4 stl d.code a.code 0) →
      (issued → busy → exec (.xpoll stl d a) s = .next (finish (opA 0x39 4 stl d.code a.code 0) .seq (t.withResult 1 0 d 0)))
      ∧ (issued → ¬ busy →
        exec (.xpoll stl d a) s = .next (finish (opA 0x39 4 stl d.code a.code 0) .seq (t.withResult 1 0 d 1)))
      ∧ (¬ issued → exec (.xpoll stl d a) s
        = .next (s.takeTrap .illegalOperand (ofN (opA 0x39 4 stl d.code a.code 0).word) (s.slot s.cur).pc)))
    ∧ (s.admits (opA 0x39 3 stl d.code a.code 0) →
      (issued → ¬ busy →
        exec (.xwait stl d a) s = .next (finish (opA 0x39 3 stl d.code a.code 0) .seq
          ((t.setTile t.cur.site { t.tile t.cur.site with xerr := 0 }).withResult 1 0 d
            (ofN (t.tile t.cur.site).xerr.toNat))))
      ∧ (issued → busy → exec (.xwait stl d a) s = .next (s.hold .held))
      ∧ (¬ issued → exec (.xwait stl d a) s
        = .next (s.takeTrap .illegalOperand (ofN (opA 0x39 3 stl d.code a.code 0).word) (s.slot s.cur).pc)))

/-- R222, R230, R17: XTDEF loads a template, at once from the own banks and by a request from elsewhere; XSTRM binds a stream with
element size D[2] to a legal template, a source in a vtile that the launch does not have being the unmapped cause, and XSTRM.OFF unbinds
it. -/
def Claim.TemplateAndStreamResults : Prop :=
  (∀ stl a b s i p t pl, s.admits (opA 0x39 5 stl 0 a.code b.code) → read2 a b s.opened = .ok ((i, p), t) → i.toNat ≤ 63 →
    placeOf templateSpace p 32 8 t = .ok (pl, t) → accessGate false pl t = .ok ((), t) →
    (∀ off u b' h, pl = .priv off → ownTurn (.xtdef i.toNat) off t = .ok ((), u) →
      (u.tile u.cur.site).perform (.xtdef i.toNat) off = .ok b' h →
      exec (.xtdef stl a b) s = .next (finish (opA 0x39 5 stl 0 a.code b.code) .seq
        ((u.setTile u.cur.site b').withTemplate i.toNat h.val)))
    ∧ (∀ vt off u, pl = .vtile vt off →
      remoteAccess (.xtdef i.toNat) p (.vtile (t.tile t.cur.site).name.1 vt) (.template (Fin.ofNat 64 i.toNat)) true t
        = .ok ((), u) →
      exec (.xtdef stl a b) s = .next (finish (opA 0x39 5 stl 0 a.code b.code) .seq u))
    ∧ (∀ va u, pl = .hbm va →
      t.translates (t.launch (t.tile t.cur.site).name.1).asid [(va, 32)] [] = true →
      remoteAccess (.xtdef i.toNat) p .rim (.template (Fin.ofNat 64 i.toNat)) true t = .ok ((), u) →
      exec (.xtdef stl a b) s = .next (finish (opA 0x39 5 stl 0 a.code b.code) .seq u)))
  ∧ (∀ stl (d : BitVec 3) a b s i o t, s.admits (opA 0x39 2 stl d.toNat a.code b.code) →
    read2 a b s.opened = .ok ((i, o), t) →
    i.toNat ≤ 63 →
    let g := geometry (t.tile t.cur.site).templates[(Fin.ofNat 64 i.toNat : Fin 64)] o
    let size := if 4 ≤ d.toNat then 512 else 8
    let far : Prop := g.src.toNat / 2 ^ 56 % 4 = 1
      ∧ (t.launch (t.tile t.cur.site).name.1).pkt.vtiles ≤ g.src.toNat / 2 ^ 32 % 2 ^ 24
    g.rowLen ≠ 0 → g.reserved = 0 → g.conv = false → g.bar = none → g.rowLen * g.rows % size = 0 →
    (far → exec (.xstrm stl d a b) s
      = .next (s.takeTrap .unmapped (ofN (g.src.toNat / 2 ^ 32 % 2 ^ 24)) (s.slot s.cur).pc))
    ∧ (¬ far → exec (.xstrm stl d a b) s = .next (finish (opA 0x39 2 stl d.toNat a.code b.code) .seq
      (t.setTile t.cur.site { t.tile t.cur.site with
        streams := (t.tile t.cur.site).streams.set (Fin.ofNat 4 d.toNat : Fin 4)
          (some { src := g.src, rowLen := g.rowLen, rows := g.rows, sstride := g.sstride, wide := decide (4 ≤ d.toNat),
                  next := 0, landed := [], asked := 0, failed := false }) }))))
  ∧ (∀ stl (d : BitVec 3) s, s.admits (opA 0x39 2 stl (d.toNat + 8) 0 0) →
    exec (.xstrmOff stl d) s = .next (finish (opA 0x39 2 stl (d.toNat + 8) 0 0) .seq
      (s.opened.setTile s.opened.cur.site { s.opened.tile s.opened.cur.site with
        streams := (s.opened.tile s.opened.cur.site).streams.set (Fin.ofNat 4 d.toNat : Fin 4) none })))

/-! ### The guarded phase and debug instructions -/

/-- R127, R260 to R262: GRES in the surrogate stage starts the check; GEND in the check stage rejects the phase with reason 2 when the
residual is a NaN and 1 when its magnitude is not at or below the tolerance, issues one captured access in a cycle when it is, and
accepts once none is left; elsewhere both are illegal. That the buffer's bytes are free from the acceptance on is log entry 34 (DEDUCED). -/
def Claim.GuardedPhaseResults : Prop :=
  ∀ stl s,
    let t := s.opened.tile s.opened.cur.site
    let l := s.opened.launch t.name.1
    let o := opA 0x3A 1 stl 0 0 0
    let size := cmpVal (floatVal 4 (t.gresid.toNat % 2 ^ 31)) (floatVal 4 l.pkt.gtol.toNat)
    let nan : Prop := ∃ q, floatVal 4 t.gresid.toNat = .nan q
    let within : Prop := ¬ nan ∧ (size = some .lt ∨ size = some .eq)
    (s.admits (opA 0x3A 0 stl 0 0 0) →
      (t.guard.stage = .surrogate →
        exec (.gres stl) s = .next (finish (opA 0x3A 0 stl 0 0 0) (.jump (BitVec.ofNat 16 l.pkt.check))
          (s.opened.setTile s.opened.cur.site { t with guard := { t.guard with stage := .check } })))
      ∧ (t.guard.stage ≠ .surrogate → exec (.gres stl) s
        = .next (s.takeTrap .illegalInstruction (ofN (opA 0x3A 0 stl 0 0 0).word) (s.slot s.cur).pc)))
    ∧ (s.admits o → t.guard.stage = .check →
      (within → t.guard.caught = [] →
        exec (.gend stl) s = .next (finish o .seq (s.opened.acceptPhase s.opened.cur.site)))
      ∧ (nan → exec (.gend stl) s = .next (finish o .ended (s.opened.rejectPhase s.opened.cur.site 2 0)))
      ∧ (¬ nan → ¬ within → exec (.gend stl) s = .next (finish o .ended (s.opened.rejectPhase s.opened.cur.site 1 0)))
      ∧ (∀ c rest u, within → t.guard.caught = c :: rest →
        let x := s.opened.openBuffer s.opened.cur.site
        (x.releaseCaptured c = some u →
          let b := u.tile x.cur.site
          exec (.gend stl) s = .next ((u.setTile x.cur.site { b with guard := { b.guard with caught := rest } }).hold .held))
        ∧ (x.releaseCaptured c = none → exec (.gend stl) s = .next (x.hold .held))))
    ∧ (s.admits o → t.guard.stage ≠ .check →
      exec (.gend stl) s = .next (s.takeTrap .illegalInstruction (ofN o.word) (s.slot s.cur).pc))

/-- R262, R289: a rejected phase performs no captured access, counts in GREJ, records its reason and cause, and starts the resident
thread of slot 0 anew at EXACT; in a phase that GEND has not accepted a synchronous cause of a USER-mode slot other than BRK and the
counter fault rejects it, with reason 4 for the guard window and 5 for every other cause. -/
def Claim.RejectedPhase : Prop :=
  (∀ (s : State) (c : Cause) (tv : Word) (ret : Half) (site : Nat) (k : Fin 8), s.cur = .tile site k →
    let u := s.advance s.cur (s.slot s.cur).lastDue
    let t := u.tile site
    t.slots[k].sys = false → (t.guard.stage = .surrogate ∨ t.guard.stage = .check) → t.guard.used ≠ 1 →
    c ∉ [.overwrite, .preempt, .wdkill, .debug, .restore, .brk, .counter] →
    s.takeTrap c tv ret = u.rejectPhase site (if c = .guardWindow then 4 else 5) c.code)
  ∧ ∀ (s : State) (site reason cause : Nat),
    let u := s.rejectPhase site reason cause
    let g := (u.tile site).guard
    g.stage = .exact ∧ g.caught = [] ∧ g.reason = reason ∧ g.cause = cause
    ∧ ((u.tile site).slots[(0 : Fin 8)]).pc = BitVec.ofNat 16 (s.launch (s.tile site).name.1).pkt.exact
    ∧ ((u.tile site).slots[(0 : Fin 8)]).thread = true ∧ ((u.tile site).slots[(0 : Fin 8)]).res = true
    ∧ ((u.tile site).slots[(0 : Fin 8)]).sys = false ∧ u.hbm = s.hbm ∧ u.fabric = s.fabric

/-- R263, R264: GQRY gives the stage, reason, cause, buffer use and captured count of a guarded launch and 0 of another; GWIN
sets the private window in a phase and changes nothing outside one; a window that is not whole lines, is empty, leaves the
scratchpad or meets the buffer is an illegal operand. -/
def Claim.GuardQueryAndWindow : Prop :=
  (∀ stl d s, d.legal = true → s.admits (opA 0x3A 2 stl d.code 0 0) →
    let t := s.opened.tile s.opened.cur.site
    let g := t.guard
    exec (.gqry stl d) s = .next (finish (opA 0x3A 2 stl d.code 0 0) .seq (s.opened.withResult 1 0 d
      (if (s.opened.launch t.name.1).pkt.guarded = true then
        ofN (g.stage.code + g.reason % 256 * 2 ^ 8 + g.cause % 256 * 2 ^ 16 + g.used / 16 % 65536 * 2 ^ 32
          + g.caught.length % 65536 * 2 ^ 48) else 0))))
  ∧ (∀ stl a b s x y t, s.admits (opA 0x3A 3 stl 0 a.code b.code) → read2 a b s.opened = .ok ((x, y), t) →
    let c := t.tile t.cur.site
    let l := t.launch c.name.1
    let ok : Prop := x.toNat % 128 = 0 ∧ y.toNat % 128 = 0 ∧ y.toNat ≠ 0 ∧ x.toNat + y.toNat ≤ 131072
      ∧ (x.toNat + y.toNat ≤ l.pkt.guardbase * 128 ∨ (l.pkt.guardbase + l.pkt.guardsize) * 128 ≤ x.toNat)
    (c.guarded = true → ok →
      exec (.gwin stl a b) s = .next (finish (opA 0x3A 3 stl 0 a.code b.code) .seq
        (t.setTile t.cur.site { c with guard := { c.guard with window := some (x.toNat, y.toNat) } })))
    ∧ (c.guarded = false → exec (.gwin stl a b) s = .next (finish (opA 0x3A 3 stl 0 a.code b.code) .seq t))
    ∧ (c.guarded = true → ¬ ok → exec (.gwin stl a b) s
        = .next (s.takeTrap .illegalOperand (ofN (opA 0x3A 3 stl 0 a.code b.code).word) (s.slot s.cur).pc)))

/-- R265, R266, R403, R169: TRAP and BRK take their causes with the code as TVAL and the next instruction as return point, the pass
of a loop that they end being counted, and wait while an outstanding load or atomic has to return; RDTB, behind every result of
its slot, gives the timebase; TRMARK leaves a MARK record of a tile's thread. -/
def Claim.TrapAndTraceResults : Prop :=
  (∀ (i : Instr) (o : Op) (c : Cause) (b : BitVec 6),
    (∃ stl, i = .trap stl b ∧ o = opA 0x3B 0 stl 0 0 b.toNat ∧ c = .trap)
      ∨ (∃ stl, i = .brk stl b ∧ o = opA 0x3B 1 stl 0 0 b.toNat ∧ c = .brk)
      ∨ (i = .brk16 ∧ o = op16 0x3B 1 5 ∧ c = .brk ∧ b = 0) →
    ∀ s, s.admits o →
      (s.opened.trapWaits c = false → exec i s = .next (s.opened.trapped o c (ofN b.toNat)))
      ∧ (s.opened.trapWaits c = true → exec i s = .next (s.opened.hold (s.opened.slot s.opened.cur).wait)))
  ∧ (∀ stl d s, d.legal = true → s.admits (opA 0x3B 2 stl d.code 0 0) →
    (∀ f ∈ (s.opened.slot s.opened.cur).flights, f.due ≠ none) →
    let t := s.opened.advance s.opened.cur (s.opened.slot s.opened.cur).lastDue
    exec (.rdtb stl d) s = .next (finish (opA 0x3B 2 stl d.code 0 0) .seq (t.withResult 1 0 d t.tb)))
  ∧ (∀ stl a (b : BitVec 6) s v t, s.admits (opA 0x3B 3 stl 0 a.code b.toNat) → read1 a s.opened = .ok (v, t) →
    (t.cur.isCore = true → exec (.trmark stl a b) s = .next (finish (opA 0x3B 3 stl 0 a.code b.toNat) .seq t))
    ∧ ∀ site k, t.cur = .tile site k →
      exec (.trmark stl a b) s = .next (finish (opA 0x3B 3 stl 0 a.code b.toNat) .seq
        (t.emit site 0x05 k.val (t.slot t.cur).sys
          (traceThread (t.tile site).name.1 (t.tile site).name.2 (t.launch (t.tile site).name.1).entry 0) v.toNat
          (b.toNat + (t.tile site).guard.stage.code * 256))))

/-- The claims CopyJobsStart and CopyJobRecord together. -/
def Obligations.CopyJobs : Prop := Claim.CopyJobsStart ∧ Claim.CopyJobRecord

/-- The claims CopyWaitResults and TemplateAndStreamResults together. -/
def Obligations.CopyWaitsTemplatesAndStreams : Prop := Claim.CopyWaitResults ∧ Claim.TemplateAndStreamResults

/-- The claims GuardedPhaseResults, RejectedPhase and GuardQueryAndWindow together. -/
def Obligations.GuardedPhase : Prop := Claim.GuardedPhaseResults ∧ Claim.RejectedPhase ∧ Claim.GuardQueryAndWindow

/-! ### System instructions -/

/-- R287, R288, R310: ERET with mode 0 returns to EPC, a tile's slot in USER mode, a core with IE from PIE; with mode 1 a tile's
thread starts anew, of its own kind and in USER mode, at the class-63 handler with its fault record as the current message;
any other mode, mode 1 on a core and an absent handler are illegal operands. -/
def Claim.ReturnFromTrap : Prop :=
  ∀ stl (b : BitVec 6) s, s.admits (opA 0x3C 0 stl 0 0 b.toNat) →
    let t := s.opened
    let o := opA 0x3C 0 stl 0 0 b.toNat
    (b.toNat = 0 → t.cur.isCore = false →
      exec (.eret stl b) s = .next (finish o (.jump (t.slot t.cur).epc) (t.setSlot t.cur
        { t.slot t.cur with sys := false, recorded := false, pc := (t.slot t.cur).epc, wait := .none })))
    ∧ (b.toNat = 0 → t.cur.isCore = true →
      exec (.eret stl b) s = .next (finish o (.jump (t.slot t.cur).epc) (t.setCore t.cur
        { t.core t.cur with
          ie := (t.core t.cur).pie
          th := { (t.core t.cur).th with pc := (t.core t.cur).th.epc, wait := .none } })))
    ∧ (∀ site k, b.toNat = 1 → t.cur = .tile site k → ((t.launch (t.tile site).name.1).handler 63).toNat ≠ 0xFFFF →
      exec (.eret stl b) s = .next (finish o (.jump ((t.launch (t.tile site).name.1).handler 63))
        (t.reflect site k ((t.launch (t.tile site).name.1).handler 63))))
    ∧ (1 < b.toNat ∨ (b.toNat = 1 ∧ t.cur.isCore = true)
        ∨ (∃ site k, b.toNat = 1 ∧ t.cur = .tile site k ∧ ((t.launch (t.tile site).name.1).handler 63).toNat = 0xFFFF) →
      exec (.eret stl b) s = .next (s.takeTrap .illegalOperand (ofN o.word) (s.slot s.cur).pc))

/-- R290, R291 (log entry 71, DEDUCED): the system routine saves on a pre-emption, a debug stop and a BRK of a held launch, and idles until
RESUME, and WDKILL takes it to KILLED; it stops the vtile on cause 11 and on a fault without a class-63 entry; and it starts the thread
anew at that entry on every other fault, having emptied the overwrite record on an overwrite fault. -/
def Claim.RoutineResults : Prop :=
  ∀ s site k, s.cur = .tile site k → (s.slot s.cur).sys = true → s.mayIssue = true →
    let l := s.launch (s.tile site).name.1
    let sl := s.slot s.cur
    let code := sl.cause.toNat % 256
    let saves := code = 17 ∨ code = 19 ∨ (code = 14 ∧ l.held = true)
    let faults := code ∉ [17, 18, 19, 20] ∧ ¬(code = 14 ∧ l.held = true)
    let t := s.opened
    let idle := opA 0x3C 8 0 0 0 0
    (sl.pc = 0 → saves → k ≠ 0 ∨ l.blockReserved = false →
      s.routineStep site k = .next (finish (opA 0x3C 1 0 0 0 0) (.jump 2) (t.setTile t.cur.site
        ((t.tile t.cur.site).saveRecord ((t.launch (t.tile t.cur.site).name.1).pkt.recordAt t.cur.slotNo.val) t.cur.slotNo))))
    ∧ (sl.pc = 4 → saves → (t.slot t.cur).pend.getLsbD 2 = true →
      s.routineStep site k = .next (finish idle (.jump 16) (t.setSlot t.cur { t.slot t.cur with pend := (t.slot t.cur).pend &&& 0x3B#6 })))
    ∧ (∀ m u, sl.pc = 4 → saves → (t.slot t.cur).pend.getLsbD 2 = false → t.takeMessage = some (m, u) →
      s.routineStep site k = .next (finish idle (.jump (if m.type = 5 then 6 else 4)) u))
    ∧ (sl.pc = 4 → saves → (t.slot t.cur).pend.getLsbD 2 = false → t.takeMessage = none →
      s.routineStep site k = .next (s.hold .idle))
    ∧ (sl.pc = 6 → code = 17 → s.routineStep site k = exec (.eret 0 0) s)
    ∧ (sl.pc = 8 → code = 19 ∨ (code = 14 ∧ l.held = true) → s.routineStep site k = exec (.eret 0 0) s)
    ∧ (sl.pc = 0 → faults → code = 11 ∨ (l.handler 63).toNat = 0xFFFF →
      s.routineStep site k = .next (finish (opI 0x1A 0 16 0 0x210) (.jump 2)
        (t.setTile t.cur.site { t.tile t.cur.site with stop := true })))
    ∧ (sl.pc = 0 → faults → code ≠ 11 → code ≠ 16 → (l.handler 63).toNat ≠ 0xFFFF → s.routineStep site k = exec (.eret 0 1) s)
    ∧ (sl.pc = 0 → code = 16 → (l.handler 63).toNat ≠ 0xFFFF →
      s.routineStep site k = .next (finish (opI 0x1A 0 16 0 0x205) (.jump 2)
        (t.setSlot t.cur { t.slot t.cur with ovr := { (t.slot t.cur).ovr with valid := false } })))

/-- R294, R98: SAVEQ writes the save record of its slot, and with TREG the block of a free matrix engine; RESTQ of a record that
holds a thread restores it, and with TREG the block; TREG without a reserved block is an illegal operand, and an uncorrectable
word of the record faults. -/
def Obligations.SaveAndRestoreResults : Prop :=
  (∀ stl s, s.admits (opA 0x3C 1 stl 0 0 0) →
    let t := s.opened
    exec (.saveq stl 0) s = .next (finish (opA 0x3C 1 stl 0 0 0) .seq (t.setTile t.cur.site
      ((t.tile t.cur.site).saveRecord ((t.launch (t.tile t.cur.site).name.1).pkt.recordAt t.cur.slotNo.val) t.cur.slotNo))))
  ∧ (∀ stl s, s.admits (opA 0x3C 1 stl 0 0 1) →
    let t := s.opened
    let l := t.launch (t.tile t.cur.site).name.1
    let r := (t.tile t.cur.site).saveRecord (l.pkt.recordAt t.cur.slotNo.val) t.cur.slotNo
    (l.blockReserved = true → r.matrixBusy t.cycle = false →
      exec (.saveq stl 1) s = .next (finish (opA 0x3C 1 stl 0 0 1) .seq (t.setTile t.cur.site (r.saveBlock l.pkt.blockAt))))
    ∧ (l.blockReserved = false → exec (.saveq stl 1) s
        = .next (s.takeTrap .illegalOperand (ofN (opA 0x3C 1 stl 0 0 1).word) (s.slot s.cur).pc)))
  ∧ (∀ stl s, s.admits (opA 0x3C 2 stl 0 0 0) →
    let t := s.opened
    let b := t.tile t.cur.site
    let base := (t.launch b.name.1).pkt.recordAt t.cur.slotNo.val
    let trap (c : Cause) (v : Word) := exec (.restq stl 0) s = .next (s.takeTrap c v (s.slot s.cur).pc)
    ((∀ i, i < 384 → base / 8 + i ∉ b.eccWords) →
      (b.recThread base = true →
        exec (.restq stl 0) s = .next (finish (opA 0x3C 2 stl 0 0 0) .seq
          ((t.setTile t.cur.site (b.restoreRecord base (t.freeAt t.cur) t.cur.slotNo)).spend t.cur 128)))
      ∧ (b.recThread base = false → trap .illegalOperand (ofN (opA 0x3C 2 stl 0 0 0).word)))
    ∧ ∀ i, i < 384 → base / 8 + i ∈ b.eccWords → (∀ j, j < i → base / 8 + j ∉ b.eccWords) →
      trap .ecc (ofN (2 * 2 ^ 56 + base + 8 * i)))
  ∧ (∀ stl s, s.admits (opA 0x3C 2 stl 0 0 1) →
    let t := s.opened
    let b := t.tile t.cur.site
    let l := t.launch b.name.1
    let base := l.pkt.recordAt t.cur.slotNo.val
    let u := (t.setTile t.cur.site (b.restoreRecord base (t.freeAt t.cur) t.cur.slotNo)).spend t.cur 128
    l.blockReserved = true → (∀ i, i < 384 → base / 8 + i ∉ b.eccWords) → b.recThread base = true →
      (∀ i, i < 1032 → l.pkt.blockAt / 8 + i ∉ (u.tile u.cur.site).eccWords) →
      exec (.restq stl 1) s = .next (finish (opA 0x3C 2 stl 0 0 1) .seq
        (u.setTile u.cur.site ((u.tile u.cur.site).restoreBlock l.pkt.blockAt))))

/-- R297 to R299: on a Stoker DRAIN completes with 0 when no selected site has a packet of the colour on its way, COLR gives a
site's counter, and NCINV completes when every earlier packet under its key has been performed, drops the entries under the
key and gives their number; DRAIN and NCINV wait until then. -/
def Claim.StokerFabricResults : Prop :=
  (∀ stl d a b s c p map t, d.legal = true → s.admits (opA 0x3C 3 stl d.code a.code b.code) →
    read2 a b s.opened = .ok ((c, p), t) → c.toNat ≤ 15 → mapArg p t = .ok (map, t) →
    ((∀ r ∈ t.selected map, r.2.inFlight c.toNat = 0) →
      exec (.drain stl d a b) s = .next (finish (opA 0x3C 3 stl d.code a.code b.code) .seq (t.withResult 1 0 d 0)))
    ∧ ((∃ r ∈ t.selected map, r.2.inFlight c.toNat ≠ 0) → exec (.drain stl d a b) s = .next (s.hold .held)))
  ∧ (∀ stl d a b s x c site t, d.legal = true → s.admits (opA 0x3C 4 stl d.code a.code b.code) →
    read2 a b s.opened = .ok ((x, c), t) → siteArg x t = .ok (site, t) → c.toNat ≤ 15 →
    exec (.colr stl d a b) s = .next (finish (opA 0x3C 4 stl d.code a.code b.code) .seq
      (t.withResult 1 0 d (ofN ((t.tile site).inFlight c.toNat)))))
  ∧ (∀ stl d a b s key p map t, d.legal = true → s.admits (opA 0x3C 5 stl d.code a.code b.code) →
    read2 a b s.opened = .ok ((key, p), t) → mapArg p t = .ok (map, t) →
    let first := key.toNat % 2 ^ 24
    let k := key.toNat / 2 ^ 24 % 32
    let idx := key.toNat / 2 ^ 32 % 65536
    let sites := (t.selected map).map (·.1)
    first % 2 ^ k = 0 →
    (t.sentUnder sites idx first k = false →
      exec (.ncinv stl d a b) s = .next (finish (opA 0x3C 5 stl d.code a.code b.code) .seq
        ((t.forgetAt sites idx first k).withResult 1 0 d (ofN ((t.selected map).map fun r => r.2.known idx first k).sum))))
    ∧ (t.sentUnder sites idx first k = true → exec (.ncinv stl d a b) s = .next (s.hold .held)))

/-- R300: WDSET sets the watchdog of a hardware queue slot of the Collier, 0 disabling it; HALTT drives or releases the halt
tree and reserves its destination for the acknowledgement. -/
def Claim.CollierControlResults : Prop :=
  (∀ stl a b s q x t, s.admits (opA 0x3C 6 stl 0 a.code b.code) → read2 a b s.opened = .ok ((q, x), t) →
    (q.toNat ≤ 511 → exec (.wdset stl a b) s = .next (finish (opA 0x3C 6 stl 0 a.code b.code) .seq
      { t with watchdogs := Table.put t.watchdogs q.toNat { Table.getD t.watchdogs q.toNat {} with
          deadline := if x.toNat % 2 ^ 32 = 0 then none else some (t.clock + 1000 * (x.toNat % 2 ^ 32)) } }))
    ∧ (511 < q.toNat → exec (.wdset stl a b) s
        = .next (s.takeTrap .illegalOperand (ofN (opA 0x3C 6 stl 0 a.code b.code).word) (s.slot s.cur).pc)))
  ∧ (∀ stl d (b : BitVec 6) s id t, d.legal = true → s.admits (opA 0x3C 7 stl d.code 0 b.toNat) →
    reserve (landingOf d) 1 s.opened = .ok (id, t) →
    (b.toNat ≤ 1 → exec (.haltt stl d b) s = .next (finish (opA 0x3C 7 stl d.code 0 b.toNat) .seq
      { t.driveHalt (decide (b.toNat = 0)) with haltIds := (t.driveHalt (decide (b.toNat = 0))).haltIds ++ [id] }))
    ∧ (1 < b.toNat → exec (.haltt stl d b) s
        = .next (s.takeTrap .illegalOperand (ofN (opA 0x3C 7 stl d.code 0 b.toNat).word) (s.slot s.cur).pc)))

/-- R301, R302, R296: IDLE completes when a supervisor message or a pending cause stands at the slot, or an enabled interrupt
at the core, and waits otherwise; SVRECV gives 0 without a message, else stores the oldest one's header and payload and gives
the header; SVSEND, behind everything earlier, sends its message, waits while its sender holds 4 unsent ones or a permit is
missing, and a tile's FAULTSTOP is followed by TVAL and EPC. -/
def Claim.SupervisorMessageResults : Prop :=
  (∀ stl s, s.admits (opA 0x3C 8 stl 0 0 0) →
    (s.opened.idleEnds = true → exec (.idle stl) s = .next (finish (opA 0x3C 8 stl 0 0 0) .seq s.opened))
    ∧ (s.opened.idleEnds = false → exec (.idle stl) s = .next (s.hold .idle)))
  ∧ (∀ stl a b s h v t u, s.admits (opA 0x3C 9 stl 0 a.code b.code) → read2 a b s.opened = .ok ((h, v), t) →
    h.toNat / 2 ^ 28 % 2 ^ 20 = 0 → destOk t.cur (h.toNat % 2 ^ 20) = true → svsendGate (h.toNat / 2 ^ 20 % 256) t = .ok ((), t) →
    (t.maySend (agentCode t.cur) = true → t.sendFlue t.cur h v = some u →
      exec (.svsend stl a b) s = .next (finish (opA 0x3C 9 stl 0 a.code b.code) .seq
        (u.faultWords t.cur (h.toNat / 2 ^ 20 % 256))))
    ∧ (t.maySend (agentCode t.cur) = false ∨ t.sendFlue t.cur h v = none →
      exec (.svsend stl a b) s = .next (s.hold .held)))
  ∧ (∀ stl d a s p pl t, d.legal = true → s.admits (opA 0x3C 10 stl d.code a.code 0) → read1 a s.opened = .ok (p, t) →
    placeOf privateSpace p 16 8 t = .ok (pl, t) →
    (t.takeMessage = none →
      exec (.svrecv stl d a) s = .next (finish (opA 0x3C 10 stl d.code a.code 0) .seq (t.withResult 1 0 d 0)))
    ∧ (∀ m u r off v, t.takeMessage = some (m, u) → pl = .priv off →
      privAccess (.vecStore [{ len := 128, addr := off, boff := 0, data := m.header.toNat + m.payload.toNat * 2 ^ 64 }] []) p off u
        = .ok (r, v) →
      exec (.svrecv stl d a) s = .next (finish (opA 0x3C 10 stl d.code a.code 0) .seq (v.withResult 1 0 d m.header)))
    ∧ (∀ m u r off v, t.takeMessage = some (m, u) → pl = .coreLocal off →
      localAccess (.vecStore [{ len := 128, addr := off, boff := 0, data := m.header.toNat + m.payload.toNat * 2 ^ 64 }] []) off u
        = .ok (r, v) →
      exec (.svrecv stl d a) s = .next (finish (opA 0x3C 10 stl d.code a.code 0) .seq (v.withResult 1 0 d m.header))))

/-- R302, R303, R427: INTACK gives the lowest enabled pending source of a core, an edge-type one being cleared, the timer's with the
comparison that has made it pending, and 0xFF with none;
PRCR and PCWR read and write a slot-scope register of a slot of the tile that is in SYS mode or runs no thread, and any other
selector is an illegal operand. -/
def Claim.InterruptAndPeerRegisterResults : Prop :=
  (∀ stl d s, d.legal = true → s.admits (opA 0x3C 11 stl d.code 0 0) → s.opened.cur.isCore = true →
    let t := s.opened
    let c := t.core t.cur
    let on (k : Nat) : Prop := (t.ipend t.cur &&& c.iena).getLsbD k = true
    ((∀ k, k < 7 → ¬ on k) →
      exec (.intack stl d) s = .next (finish (opA 0x3C 11 stl d.code 0 0) .seq (t.withResult 1 0 d 255)))
    ∧ (∀ k, k < 7 → on k → (∀ j, j < k → ¬ on j) →
      exec (.intack stl d) s = .next (finish (opA 0x3C 11 stl d.code 0 0) .seq
        ((t.setCore t.cur { c with
            iedge := if 2 ≤ k then c.iedge &&& ~~~(1#7 <<< k) else c.iedge
            timerArmed := c.timerArmed && !(decide (k = 4) && t.timerDue t.cur) }).withResult 1 0 d (ofN k)))))
  ∧ (∀ stl d a s v t, d.legal = true → s.admits (opA 0x3C 12 stl d.code a.code 0) → read1 a s.opened = .ok (v, t) →
    let k : Fin 8 := Fin.ofNat 8 (v.toNat % 8)
    let sl := (t.tile t.cur.site).slots[k]
    let i := v.toNat / 2 ^ 16 % 1024
    (∀ w, (sl.sys = true ∨ sl.thread = false) → sl.ctlGet k.val i = some w →
      exec (.prcr stl d a) s = .next (finish (opA 0x3C 12 stl d.code a.code 0) .seq (t.withResult 1 0 d w)))
    ∧ ((sl.sys = false ∧ sl.thread = true) ∨ sl.ctlGet k.val i = none →
      exec (.prcr stl d a) s
        = .next (s.takeTrap .illegalOperand (ofN (opA 0x3C 12 stl d.code a.code 0).word) (s.slot s.cur).pc)))
  ∧ (∀ stl a b s v w t, s.admits (opA 0x3C 13 stl 0 a.code b.code) → read2 a b s.opened = .ok ((v, w), t) →
    let k : Fin 8 := Fin.ofNat 8 (v.toNat % 8)
    let sl := (t.tile t.cur.site).slots[k]
    let i := v.toNat / 2 ^ 16 % 1024
    (∀ x, (sl.sys = true ∨ sl.thread = false) → sl.ctlSet i w = some x →
      exec (.pcwr stl a b) s = .next (finish (opA 0x3C 13 stl 0 a.code b.code) .seq
        (t.setTile t.cur.site ((t.tile t.cur.site).setSlot k x))))
    ∧ ((sl.sys = false ∧ sl.thread = true) ∨ sl.ctlGet k.val i = none →
      exec (.pcwr stl a b) s
        = .next (s.takeTrap .illegalOperand (ofN (opA 0x3C 13 stl 0 a.code b.code).word) (s.slot s.cur).pc)))

/-- R304 to R306: on a Stoker SWPOUT and SWPIN move a vtile's image and give their status, FWDSET sets or removes a forwarding
entry, RESETT resets a tile and gives 0, or 2 for a site whose core supply is fused off (log entry 15, DEDUCED), and THRSET sets the issue duty, 1 to
16 sixteenths, of the sub-regions of its mask. -/
def Claim.StokerTileResults : Prop :=
  (∀ stl d a b s x t, d.legal = true → swapArgs a b s.opened = .ok (x, t) →
    (s.admits (opA 0x3C 14 stl d.code a.code b.code) →
      exec (.swpout stl d a b) s = .next (finish (opA 0x3C 14 stl d.code a.code b.code) .seq
        ((t.swapOut x.1 x.2).1.withResult 1 0 d (ofN (t.swapOut x.1 x.2).2))))
    ∧ (s.admits (opA 0x3C 15 stl d.code a.code b.code) →
      exec (.swpin stl d a b) s = .next (finish (opA 0x3C 15 stl d.code a.code b.code) .seq
        ((t.swapIn x.1 x.2).1.withResult 1 0 d (ofN (t.swapIn x.1 x.2).2)))))
  ∧ (∀ stl a b s x y site t, s.admits (opA 0x3D 0 stl 0 a.code b.code) → read2 a b s.opened = .ok ((x, y), t) →
    siteArg x t = .ok (site, t) →
    (y.toNat = 2 ^ 64 - 1 → exec (.fwdset stl a b) s = .next (finish (opA 0x3D 0 stl 0 a.code b.code) .seq
      (t.setTile site { t.tile site with fwd := none })))
    ∧ (∀ new, y.toNat ≠ 2 ^ 64 - 1 → siteArg y t = .ok (new, t) →
      exec (.fwdset stl a b) s = .next (finish (opA 0x3D 0 stl 0 a.code b.code) .seq
        (t.setTile site { t.tile site with fwd := some new }))))
  ∧ (∀ stl d a s x site t, d.legal = true → s.admits (opA 0x3D 1 stl d.code a.code 0) → read1 a s.opened = .ok (x, t) →
    siteArg x t = .ok (site, t) →
    exec (.resett stl d a) s = .next (finish (opA 0x3D 1 stl d.code a.code 0) .seq
      ((t.resetTile site).withResult 1 0 d (if (t.tile site).fused = true then 2 else 0))))
  ∧ (∀ stl a b s m d t r, s.admits (opA 0x3D 2 stl 0 a.code b.code) → read2 a b s.opened = .ok ((m, d), t) →
    t.cur = .stoker r → 1 ≤ d.toNat → d.toNat ≤ 16 →
    ∃ c : Core, exec (.thrset stl a b) s = .next (finish (opA 0x3D 2 stl 0 a.code b.code) .seq
        { t with stokers := Table.put t.stokers r c })
      ∧ ∀ k : Fin 16, c.duties[k] = if bitN m k.val = 1 then d.toNat else (t.stoker r).duties[k])

/-- R306: SLOTKILL ends the thread of a slot of the tile at once; in the resident thread of slot 0 it needs STOP; a slot that
names itself issues nothing further. -/
def Claim.SlotKillResults : Prop :=
  ∀ stl a s v t site k, s.admits (opA 0x3D 3 stl 0 a.code 0) → read1 a s.opened = .ok (v, t) → t.cur = .tile site k →
    let j : Fin 8 := Fin.ofNat 8 (v.toNat % 8)
    let sl := (t.tile site).slots[j]
    let barred : Prop := j = 0 ∧ sl.thread = true ∧ sl.res = true ∧ (t.tile site).stop = false
    let u := t.advance (.tile site j) sl.lastDue
    let w := u.setSlot (.tile site j) (u.slot (.tile site j)).free
    (¬ barred → j ≠ k → exec (.slotkill stl a) s = .next (finish (opA 0x3D 3 stl 0 a.code 0) .seq w))
    ∧ (¬ barred → j = k → exec (.slotkill stl a) s = .next (finish (opA 0x3D 3 stl 0 a.code 0) .ended w))
    ∧ (barred → exec (.slotkill stl a) s
        = .next (s.takeTrap .illegalOperand (ofN (opA 0x3D 3 stl 0 a.code 0).word) (s.slot s.cur).pc))

/-- The claims TrapAndTraceResults, ReturnFromTrap and RoutineResults together. -/
def Obligations.TrapsReturnsAndTrace : Prop := Claim.TrapAndTraceResults ∧ Claim.ReturnFromTrap ∧ Claim.RoutineResults

/-- The claims StokerFabricResults and StokerTileResults together. -/
def Obligations.StokerInstructions : Prop := Claim.StokerFabricResults ∧ Claim.StokerTileResults

/-- The claims CollierControlResults and SlotKillResults together. -/
def Obligations.CollierAndSlotControl : Prop := Claim.CollierControlResults ∧ Claim.SlotKillResults

/-- The claims SupervisorMessageResults and InterruptAndPeerRegisterResults together. -/
def Obligations.SupervisorAndInterruptInstructions : Prop := Claim.SupervisorMessageResults ∧ Claim.InterruptAndPeerRegisterResults

/-! ### Packets that arrive -/

/-- R31, R327, R342, R346, R352, R353: where a packet goes. At its vtile's site an interface that accepts directly takes it, or it
stays, or in a replay stands in the ring from which it is delivered (R391); a sealed one that does not accept it spills; a spilling
one appends it to its gang's ring, and a request that spills is performed with that; a forwarding entry leads it on; a retired vtile makes it
late, its tile answering what wants an answer where its router has room; a moved one sends it to translation again; messages and register writes of no live launch are dropped, and all that goes to a launch that is gone. -/
def Obligations.PacketsArrive : Prop :=
  (∀ r ∈ arrivalRows, ∀ k s p site idx vt, r.2 p = true → s.arrives k p site idx vt →
    ((s.tile site).ni = .direct →
      (∀ t, s.accept site p false = some t → exec (r.1 k) s = .next (t.eject k))
      ∧ (s.accept site p false = none → s.forcedArrival site p = false → exec (r.1 k) s = .next s)
      ∧ (s.accept site p false = none → s.forcedArrival site p = true →
        exec (r.1 k) s
          = .next ((s.setTile site { s.tile site with ni := .delivering, pdone := true }).append k p site idx vt)))
    ∧ ((s.tile site).ni = .sealed →
      (∀ t, s.accept site p false = some t → exec (r.1 k) s = .next (t.eject k))
      ∧ (s.accept site p false = none →
        exec (r.1 k) s
          = .next ((s.setTile site { s.tile site with ni := .spill }).append k { p with spilled := true } site idx vt)))
    ∧ ((s.tile site).ni = .spill → exec (r.1 k) s = .next (s.append k { p with spilled := true } site idx vt))
    ∧ ((s.tile site).ni = .append ∨ (s.tile site).ni = .delivering → exec (r.1 k) s = .next (s.append k p site idx vt)))
  ∧ (∀ r ∈ arrivalRows, ∀ k s p idx vt, r.2 p = true → s.fabric[k]? = some p → s.hasTurn k p = true → p.dst = .vtile idx vt →
    ((p.entryType ≤ 1 ∧ (s.isLive idx = false ∨ s.isLive p.src.idx = false)) ∨ Table.get? s.launches idx = none →
      exec (r.1 k) s = .next (s.eject k))
    ∧ (s.discards p idx = false →
      (p.hop = .gone → exec (r.1 k) s = .next (if s.isLive idx = true then s.late k p vt none else s.eject k))
      ∧ ∀ site, p.hop = .site site →
        (∀ new, (s.tile site).occ = some (idx, vt) → (s.tile site).fwd = some new →
          exec (r.1 k) s = .next (s.forward k p site new))
        ∧ ((s.tile site).occ ≠ some (idx, vt) → s.isLive idx = false → exec (r.1 k) s = .next (s.eject k))
        ∧ ((s.tile site).occ ≠ some (idx, vt) → s.isLive idx = true → s.vtRetired idx vt = true →
          exec (r.1 k) s = .next (s.late k p vt (some site)))
        ∧ ((s.tile site).occ ≠ some (idx, vt) → s.isLive idx = true → s.vtRetired idx vt = false →
          exec (r.1 k) s = .next { s with fabric := s.fabric.set k { p with hop := .unresolved } })))

/-- R26, R27, R29: a message for a class without a handler is dropped and counted; one with a handler joins the queue of its
priority where there is room, and stays in the network where there is not. A counted message takes DEC from COUNT; the one that
brings it to zero starts the handler of the entry's class; a DEC above COUNT is a counter fault, recorded in slot 0 or counted.
What is counted stands behind every local action of its cycle (R248). -/
def Claim.MessagesAccepted : Prop :=
  ∀ k s p site idx vt h ws, s.arrivesDirect k p site idx vt → p.body = .message h ws →
    (hdrKind h ≠ 1 →
      ((s.launch idx).pkt.handlers = false ∨ (s.launch idx).handler (hdrClass h) = 0xFFFF →
        exec (.messageArrival k) s = .next ((s.noted site idx fun g => { g with noHandler := g.noHandler + 1 }).eject k))
      ∧ ((s.launch idx).pkt.handlers = true → (s.launch idx).handler (hdrClass h) ≠ 0xFFFF →
        ((s.launch idx).replaying = false → ¬(s.tile site).queueRoom (Fin.ofNat 4 (hdrPrio h)) ws.length →
          exec (.messageArrival k) s = .next s)
        ∧ ((s.launch idx).replaying = false → (s.tile site).queueRoom (Fin.ofNat 4 (hdrPrio h)) ws.length →
          exec (.messageArrival k) s = .next ((s.enqueued site p h ws (hdrClass h)).eject k))))
    ∧ (hdrKind h = 1 →
      let i : Fin 64 := Fin.ofNat 64 (hdrClass h)
      let t := s.tile site
      let e := t.counters[i]
      (hdrDec h = 0 → exec (.countedMessageArrival k) s = .next (s.tick.eject k))
      ∧ ((s.launch idx).replaying = false → 0 < hdrDec h →
        (hdrDec h < e.count.toNat →
          exec (.countedMessageArrival k) s
            = .next ((s.setTile site { t with
                counters := t.counters.set i { e with count := e.count - BitVec.ofNat 32 (hdrDec h) } }).tick.eject k))
        ∧ (e.count.toNat < hdrDec h →
          (t.slots[(0 : Fin 8)].pend.getLsbD 4 = true →
            exec (.countedMessageArrival k) s
              = .next ((s.noted site idx fun g => { g with ctrdrop := g.ctrdrop + 1 }).tick.eject k))
          ∧ (t.slots[(0 : Fin 8)].pend.getLsbD 4 = false →
            exec (.countedMessageArrival k) s
              = .next ((s.setTile site (t.setSlot 0 { t.slots[(0 : Fin 8)] with
                  pend := t.slots[(0 : Fin 8)].pend ||| 0x10#6
                  pendVal := t.slots[(0 : Fin 8)].pendVal.set 4 (ofN (i.val + hdrDec h % 256 * 2 ^ 8
                    + e.count.toNat % 256 * 2 ^ 16 + p.src.vt % 2 ^ 24 * 2 ^ 24)) })).tick.eject k)))
        ∧ (hdrDec h = e.count.toNat → ∀ u, s.acceptDirect site p h ws e.cls.toNat false = some u →
          exec (.countedMessageArrival k) s
            = .next ((let v := u.noteOrder idx vt (entryWord 1 p.src.vt (p.tc - 4) i.val p.seq) none
                      v.setTile site { v.tile site with
                        counters := (v.tile site).counters.set i { e with count := 0 } }).tick.eject k))))

/-- R254 to R256: a register write of another generation is dropped and counted; an unoccupied register takes the value and is
full; an occupied one takes a strict write into the overwrite record, or counts it where that is full, and holds a queue write, as
a queue write behind a held one of its register is; without room the write stays. A write for a slot whose state stands in its save
record stays too (log entry 27). A write is done after every local action of its cycle (R42, R258). R31, R143: a reply and an error
reply come to the slot that waits. R101, R105: a request is performed or held at its home. -/
def Claim.WritesRepliesAndRequestsAccepted : Prop :=
  ∀ k s p site idx vt, s.arrivesDirect k p site idx vt →
    (∀ c v vec sd rel, p.body = .regWrite c v vec sd rel →
      let t := s.tile site
      let l := s.launch idx
      let slot : Fin 8 := Fin.ofNat 8 (bitsOf c.toNat 39 37)
      let reg := capReg c
      let sl := t.slots[slot]
      let u := s.logEntry idx vt (entryWord 2 p.src.vt (slot.val * 8) reg p.seq) none
      let behind := t.hold.any fun h => h.slot == slot && h.reg == reg
      let room : Prop := t.hold.length < 4 ∧ (reg < 32 ∨ t.payloadUsed + 528 ≤ 6848)
      (sl.thread = false ∨ c.extractLsb' 19 12 ≠ sl.gen →
        exec (.registerWriteArrival k) s
          = .next ((s.noted site p.src.idx fun g => { g with stalecap := g.stalecap + 1 }).tick.eject k))
      ∧ (sl.thread = true → c.extractLsb' 19 12 = sl.gen → sl.recorded = true → l.replaying = false →
        exec (.registerWriteArrival k) s = .next s)
      ∧ (sl.thread = true → c.extractLsb' 19 12 = sl.gen → sl.recorded = false → l.replaying = false →
        (t.occupied l slot reg = false → (c.getLsbD 18 && behind) = false →
          exec (.registerWriteArrival k) s = .next ((u.setTile site (t.putReg l slot reg v vec sd rel)).tick.eject k))
        ∧ (t.occupied l slot reg = true → c.getLsbD 18 = false →
          exec (.registerWriteArrival k) s = .next ((u.overwrite site slot reg p v).tick.eject k))
        ∧ (t.occupied l slot reg = true ∨ behind = true → c.getLsbD 18 = true → room →
          exec (.registerWriteArrival k) s
            = .next ((u.setTile site
                { t with hold := t.hold
                    ++ [{ slot, reg, gen := c.extractLsb' 19 12, val := v, vec, side := sd, src := p.src, release := rel }] }).tick.eject
                k))
        ∧ (t.occupied l slot reg = true ∨ behind = true → c.getLsbD 18 = true → ¬room →
          exec (.registerWriteArrival k) s = .next s)))
    ∧ (∀ v sd fl, p.body = .reply v sd fl →
      exec (.varResultArrival k) s = .next ((s.landReply site p v sd fl).eject k))
    ∧ (∀ c tv pc, p.body = .errorReply c tv pc →
      exec (.varResultArrival k) s = .next ((s.landError site p c tv pc).eject k))
    ∧ ∀ op ptr wants, p.body = .request op ptr wants →
      (s.heldBehind site (s.tile site).heldReqs p = false → (s.tile site).heldReqs.length < 16 →
        (∀ u, s.performAt site p op ptr wants = some u → exec (.remoteRequestArrival k) s = .next (u.eject k))
        ∧ (s.performAt site p op ptr wants = none →
          exec (.remoteRequestArrival k) s
            = .next ((s.setTile site { s.tile site with heldReqs := (s.tile site).heldReqs ++ [p] }).eject k)))
      ∧ (s.heldBehind site (s.tile site).heldReqs p = true ∨ 16 ≤ (s.tile site).heldReqs.length →
        exec (.remoteRequestArrival k) s = .next s)

/-- R101, R106, R244, R256, R337 to R342, R346 to R353, R404: the other steps of the network: a held write is delivered once its
register is unoccupied, a held request once it can be performed, a request at the rim is performed and answered, a trace record goes into
its ring there, a name is translated by directory and placement table, a packet is injected, one whose target is absent is parked, a
parked one is delivered or delivery ends (with a ring that holds other tiles' entries alone it says so with EMPTY 0: log entry 53,
DEDUCED), and an acknowledgement takes one from its colour's counter, which may let a retired vtile be reported. -/
def Obligations.NetworkSteps : Prop :=
  (∀ site k s h, (s.tile site).hold[k]? = some h → (s.tile site).slots[h.slot].thread = true →
    (s.tile site).slots[h.slot].recorded = false → (s.tile site).occupied (s.launch (s.tile site).name.1) h.slot h.reg = false →
    ((s.tile site).hold.take k).any (fun x => x.slot == h.slot && x.reg == h.reg) = false →
    exec (.heldWriteDelivery site k) s
      = .next (s.setTile site ({ s.tile site with hold := (s.tile site).hold.eraseIdx k }.putReg
          (s.launch (s.tile site).name.1) h.slot h.reg h.val h.vec h.side h.release)).tick)
  ∧ (∀ site k s p op ptr wants u, (s.tile site).heldReqs[k]? = some p →
    s.heldBehind site ((s.tile site).heldReqs.take k) p = false → p.body = .request op ptr wants →
    s.performAt site p op ptr wants = some u →
    exec (.heldRequestRelease site k) s
      = .next (u.setTile site { u.tile site with heldReqs := (s.tile site).heldReqs.eraseIdx k }))
  ∧ (∀ k s p op ptr wants, s.fabric[k]? = some p → p.dst = .rim → p.body = .request op ptr wants → s.hasTurn k p = true →
    (Table.get? s.launches p.src.idx).isSome = true →
    (∀ u r, s.performRim p op ptr = some (u, .ok r) →
      (wants = true → exec (.hbmRequestArrival k) s
        = .next ((u.eject k).answerRim p (.reply (BitVec.ofNat 4096 r.val) (BitVec.ofNat 128 r.side) r.flags)
            (op.isLoad && ptrSpace ptr == 0)))
      ∧ (wants = false → exec (.hbmRequestArrival k) s = .next (u.eject k)))
    ∧ ∀ u c, s.performRim p op ptr = some (u, .error c) →
      exec (.hbmRequestArrival k) s = .next ((u.eject k).answerRim p (.errorReply c ptr p.pc) false))
  ∧ (∀ k s p v, s.fabric[k]? = some p → p.dst = .rim → p.body = .trace v → s.hasTurn k p = true →
    exec (.hbmRequestArrival k) s = .next ((s.eject k).landTrace p.site v))
  ∧ (∀ site idx vt s p, ((s.tile site).outq ++ s.fabric).find? (fun p => p.waitsFor site idx vt) = some p →
    s.mayWalk site idx vt = true →
    let h : Hop :=
      let d := s.directory + 32 * idx
      let e := s.hbm64 (s.hbm64 (d + 8) % 2 ^ 48 + 8 * vt)
      if s.hbm64 d / 2 ^ 63 % 2 = 0 then .gone
      else if e / 2 ^ 18 % 4 = 1 then .site (e % 2 ^ 18)
      else if e / 2 ^ 18 % 4 = 0 then .ring idx (vt / 2 ^ (s.hbm64 d / 2 ^ 24 % 16))
      else .gone
    let fix (p : Packet) : Packet := if p.waitsFor site idx vt = true then { p with hop := h, walked := true } else p
    exec (.nameCacheWalk site idx vt) s
      = .next (({ s with fabric := s.fabric.map fix }.setTile site
          { (s.tile site).fill idx vt h with outq := (s.tile site).outq.map fix }).capture site 5 p.src.idx
            (s.cycle - p.cyc)))
  ∧ (∀ site s p k, (s.tile site).outq.zipIdx.find? (fun x => s.mayInject (s.tile site) x.2 x.1) = some (p, k) →
    exec (.sendInjection site) s
      = .next ((s.setTile site { s.tile site with outq := (s.tile site).outq.eraseIdx k }.settleCounters).inject p))
  ∧ (∀ k s p idx gang u, s.fabric[k]? = some p → p.hop = .ring idx gang → s.hasTurn k p = true → s.isLive idx = true →
    s.isLive p.src.idx = true →
    (s.toRetired p = true → exec (.parkEntryWrite k) s = .next { s with fabric := s.fabric.set k { p with hop := .gone } })
    ∧ (s.toRetired p = false → s.park idx gang p none = some u → exec (.parkEntryWrite k) s = .next (u.eject k)))
  ∧ (∀ site s idx vt, (s.tile site).occ = some (idx, vt) → (s.tile site).ni = .delivering →
    let gang := (s.launch idx).gangOf vt
    let r := s.ring idx gang
    (r.entries = [] →
      exec (.parkedDelivery site) s
        = .next (((s.setTile site { s.tile site with ni := if (s.tile site).sealing = true then .sealed else .direct }).storeRing
            idx gang { r with drainpark := false }).sendPdone site true))
    ∧ (r.entries ≠ [] →
      (∀ before after e i u, s.deliverable site r = before ++ (e, i) :: after →
        (∀ x ∈ before, s.accept site x.1 true = none) → s.accept site e true = some u →
        exec (.parkedDelivery site) s = .next (u.storeRing idx gang (r.remove i)))
      ∧ ((∀ x ∈ s.deliverable site r, s.accept site x.1 true = none) →
        exec (.parkedDelivery site) s = .next (s.sendPdone site false))))
  ∧ ∀ k s site colour idx, s.acks[k]? = some (site, colour, idx) →
    exec (.colourAcknowledgement k) s
      = .next ({ s with acks := s.acks.eraseIdx k }.setTile site { s.tile site with
          colourCtr := (s.tile site).colourCtr.set (Fin.ofNat 16 colour : Fin 16)
            ((s.tile site).colourCtr[(Fin.ofNat 16 colour : Fin 16)] - 1) }).reportRetired

/-! ### Steps of a tile -/

/-- R20, R24, R27, R31, R35, R141, R170, R172, R209, R282, R283: the steps of a tile. The dispatcher takes the head of a queue
into the lowest free slot, the aged head that became aged first before the lowest queue, one a cycle; resident threads start at the
launch entry, in a guarded launch at SURR; a slot takes its pending cause; a vtile retires; a YIELD ends after 8 cycles; the next
fixed-latency result lands; a BARWAIT issues once what its probe brought ends its wait, and sends the next probe when one is due;
the matrix engine grants the picked slot. -/
def Obligations.TileSteps : Prop :=
  (∀ site iq s, (s.tile site).iqs[iq].aged = none → (s.tile site).iqs[iq].msgs ≠ [] →
    (s.tile site).iqs[iq].since + 4096 ≤ s.cycle →
    exec (.headAged site iq) s = .next (s.setTile site { s.tile site with
      iqs := (s.tile site).iqs.set iq
        { (s.tile site).iqs[iq] with aged := some ((s.tile site).iqs[iq].since + 4096) } }))
  ∧ (∀ site s i k m rest, s.mayDispatch site = true → (s.launch (s.tile site).name.1).replaying = false →
    (s.tile site).pick s.cycle = some i → (List.finRange 8).find? (s.tile site).activationFree = some k →
    (s.tile site).iqs[i].msgs = m :: rest →
    ∃ t, exec (.dispatch site) s = .next t ∧ (t.tile site).iqs[i].msgs = rest
      ∧ (t.tile site).slots[k].thread = true ∧ (t.tile site).slots[k].res = false ∧ (t.tile site).slots[k].sys = false
      ∧ (t.tile site).slots[k].pc = (s.launch (s.tile site).name.1).handler m.cls
      ∧ (t.tile site).slots[k].msg = some m ∧ (t.tile site).slots[k].cursor = 0
      ∧ (t.tile site).slots[k].gen = (s.tile site).slots[k].gen + 1
      ∧ (t.tile site).slots[k].srseed = (s.launch (s.tile site).name.1).pkt.seed
      ∧ (t.tile site).dispFree = max s.cycle (s.tile site).dispFree + 1
      ∧ ∀ j, j ≠ k → (t.tile site).slots[j] = (s.tile site).slots[j])
  ∧ (∀ site s, (s.tile site).fresh = true → (s.tile site).pdone = true → (s.tile site).occ.isSome = true →
    let l := s.launch (s.tile site).name.1
    ∃ t, exec (.residentThreadStart site) s = .next t ∧ (t.tile site).fresh = false
      ∧ ∀ k : Fin 8, k.val < l.pkt.slots →
        (t.tile site).slots[k].thread = true ∧ (t.tile site).slots[k].res = true ∧ (t.tile site).slots[k].sys = false
        ∧ (t.tile site).slots[k].pc = BitVec.ofNat 16 (if l.pkt.guarded then l.pkt.surr else l.entry)
        ∧ (t.tile site).slots[k].gen = (s.tile site).slots[k].gen + 1)
  ∧ (∀ site k s, s.pendingAt (.tile site k) = true → exec (.trapEntry site k) s = .next (s.takePending site k))
  ∧ (∀ site s, (s.tile site).slots[(0 : Fin 8)].thread = true → (s.tile site).slots[(0 : Fin 8)].sys = false →
    (s.tile site).slots[(0 : Fin 8)].wait = .donef → (s.tile site).stop = false → s.halted = false →
    s.retireReady site 0 = true →
    exec (.vtileRetire site) s
      = .next ((s.advance (.tile site 0) (s.tile site).slots[(0 : Fin 8)].lastDue).retireVtile site))
  ∧ (∀ site k s c m, (s.tile site).slots[k].yieldAt = some (c, m) → c + 8 ≤ s.cycle →
    exec (.yieldTimeout site k) s = .next (s.setSlot (.tile site k) { (s.tile site).slots[k] with yieldAt := none }))
  ∧ (∀ who s d rest, (s.slot who).flights.filterMap (·.due) = d :: rest →
    exec (.fixedLatencyCompletion who) s = .next (s.advance who (rest.foldl min d)))
  ∧ (∀ site k s stl d a b p ph pl t,
    let s1 : State := { s with cur := .tile site k }
    let o := opA 0x18 11 stl d.code a.code b.code
    (s.tile site).slots[k].sys = false → (s.tile site).slots[k].wait = .barwait → s.pendingAt (.tile site k) = false →
    s.barwaitAt (.tile site k) = some (stl, d, a, b) → d.legal = true → s1.admits o →
    read2 a b s1.opened = .ok ((p, ph), t) → placeOf atomicSpace p 8 8 t = .ok (pl, t) → accessGate false pl t = .ok ((), t) →
    let ended (v : Word) : Prop := v.toNat / 2 ^ 63 ≠ ph.toNat % 2
    let taken (u : State) (v : Word) : Host.Outcome State Fault Refusal :=
      let w := u.setSlot u.cur { u.slot u.cur with probe := none }
      .next { finish o .seq ((w.setSlot w.cur { w.slot w.cur with fenceAcq := (w.slot w.cur).nextId }).withResult 1 0 d v) with
        cur := s.cur }
    (∀ off u b' h, pl = .priv off → ownTurn (.load 8 false) off t = .ok ((), u) →
      (u.tile u.cur.site).perform (.load 8 false) off = .ok b' h → ended (ofN h.val) →
      exec (.barwaitProbe site k) s = taken (u.setTile u.cur.site b') (ofN h.val))
    ∧ ((∀ off, pl ≠ .priv off) →
      (∀ pr v, (t.slot t.cur).probe = some pr → pr.error = none → pr.value = some v → ended v →
        exec (.barwaitProbe site k) s = taken t v)
      ∧ (barwaitBody d a b s1.opened = .error (.wait .barwait) →
        ((s.tile site).slots[k].probeDue s.cycle ph = false → exec (.barwaitProbe site k) s = .next s)
        ∧ ∀ s2, (s.tile site).slots[k].probeDue s.cycle ph = true → sendProbe p ph pl s1 = .ok ((), s2) →
          exec (.barwaitProbe site k) s = .next { s2 with cur := s.cur })))
  ∧ (∀ site s k t c, s.halted = false → (s.tile site).mfree ≤ s.cycle → s.pickMatrix site = some (k, t) →
    (s.followReady site k = true → exec (.matrixGrant site) s = .next ((s.setTile site t).runFollow site k))
    ∧ (s.followReady site k = false → (t.slots[k].mheld).bind matrixOf = some c →
      let s1 : State := { s.setTile site t with cur := .tile site k }
      ∀ s4 u n fl, s1.admits c.op → fenceGate true true s1.opened = .ok ((), s1.opened) →
      awaitSources c s1.opened = .ok ((), s4) → matrixEffect c (read1 c.s) s4 = .ok ((n, fl), u) →
      let v := u.setSlot u.cur ((u.slot u.cur).flagsAt (u.cycle + n) fl)
      let w := v.setTile v.cur.site { v.tile v.cur.site with mfree := v.cycle + n }
      exec (.matrixGrant site) s
        = .next { finish c.op .seq (w.setSlot w.cur { w.slot w.cur with mheld := none }) with cur := s.cur }))
  ∧ (∀ site s, exec (.matrixEngineFree site) s = .next { s with cycle := max s.cycle (s.tile site).mfree })
  ∧ ∀ site v s, exec (.mslotWrite site v) s = .next (s.setTile site { s.tile site with mslot := v, mptr := 0 })

/-- R105, R121, R225, R227, R229, R230, R399: the steps of the copy engine: the next piece of a job lands, waits, or asks another vtile's
tile, whose answer brings its bytes; an error stops its writes and drops its follow-on, an uncorrectable barrier word being one; a job that has written makes its follow-on ready, and one whose follow-on is done arrives at its barrier and
leaves the engine, after the implicit release of its slot; a stream asks for at most 4 elements ahead of the reads, and takes the
next one or notes the failed fetch. In a wafer halt no row begins. -/
def Obligations.CopyEngineSteps : Prop :=
  (∀ site ticket s j before, (s.tile site).findJob ticket = some (j, before) →
    (j.written = false → (s.halted = false ∨ j.moved % j.rowLen ≠ 0) →
      (∀ u, s.copyPiece site j before = .ok u () → exec (.copyLineLanding site ticket) s = .next u)
      ∧ (∀ u id, s.copyPiece site j before = .asks u id →
        exec (.copyLineLanding site ticket) s = .next (u.setJob site { j with out := id }))
      ∧ (s.copyPiece site j before = .waits → exec (.copyLineLanding site ticket) s = .next s)
      ∧ ((∀ u b, s.copyPiece site j before ≠ .fails u b) → (ptrSpace j.src = 3 ∨ ptrSpace j.dst = 3) →
        exec (.copyJobError site ticket 8) s
          = .next (s.setJob site { j with failed := true, bits := j.bits ||| 8, follow := .none }))
      ∧ ∀ bits u b, s.copyPiece site j before = .fails u b →
        exec (.copyJobError site ticket bits) s
          = .next (u.setJob site { j with failed := true, bits := j.bits ||| b, follow := .none }))
    ∧ (j.written = true → j.failed = false → j.follow = .waiting →
      exec (.followOnCommand site ticket) s = .next (s.setJob site { j with follow := .ready }))
    ∧ (j.written = true → j.out = 0 → (j.follow = .none ∨ j.follow = .finished) →
      (j.bar = none → exec (.copyJobCompletion site ticket) s = .next (s.finishJob site j))
      ∧ ∀ off, j.bar = some off →
        (s.jobReleased site j = false → exec (.copyJobCompletion site ticket) s = .next s)
        ∧ (s.jobReleased site j = true →
          let at_ := ({ s.tile site with fe := markFull (s.tile site).fe j.marked } : Tile).perform .barArrive off
          (∀ t r, at_ = .ok t r → exec (.copyJobCompletion site ticket) s = .next ((s.setTile site t).finishJob site j))
          ∧ (∀ w, at_ = .ecc w → exec (.copyJobCompletion site ticket) s
            = .next (s.finishJob site { j with failed := true, bits := j.bits ||| 4, follow := .none }))
          ∧ (at_ = .waits → exec (.copyJobCompletion site ticket) s = .next s))))
  ∧ (∀ site id v sd (s : State) (j : CopyJob), (s.tile site).jobs.find? (fun x => x.out == id) = some j → j.failed = false →
    ptrSpace j.src = 1 → ptrAddr j.src / 2 ^ 32 % 2 ^ 24 ≠ (s.tile site).name.2 → j.got = none → j.digest = false →
    s.engineReply site id v sd = s.setJob site { j with got := some (v, sd), out := 0 })
  ∧ (∀ site k s b, (s.tile site).streams[k] = some b →
    (s.halted = false → b.failed = false → b.asked < b.count → b.asked < b.next + 4 →
      exec (.streamFetch site k) s
        = .next (s.setTile site { s.tile site with streams := (s.tile site).streams.set k (some { b with asked := b.asked + 1 }) }))
    ∧ (b.failed = false → b.out = 0 → b.next + b.landed.length < b.asked →
      let e := b.next + b.landed.length
      let read := s.streamData site b
      let failed (u : State) (bits : BitVec 5) : Prop :=
        ∃ t, exec (.streamElementArrival site k) s = .next t ∧ (t.tile site).streams[k] = some { b with failed := true }
          ∧ (t.tile site).xerr = (u.tile site).xerr ||| bits
      (∀ u v, read = .ok u v →
        (streamEcc s site b e = false →
          exec (.streamElementArrival site k) s
            = .next (u.setStream site k { b with
                landed := b.landed ++ [(BitVec.ofNat 4096 v, s.streamScales site b)], part := (0, 0, 0) }))
        ∧ (streamEcc s site b e = true → failed u 4))
      ∧ (∀ u id, read = .asks u id → exec (.streamElementArrival site k) s = .next (u.setStream site k { b with out := id }))
      ∧ (read = .waits → exec (.streamElementArrival site k) s = .next s)
      ∧ ∀ u bits, read = .fails u bits → failed u bits))

/-! ### Queues and launches -/

/-- R312, R313, R317 to R321, R326, R327, R30: a doorbell that names a queue of its function within range moves the tail and
raises source 2 at the Collier, and any other is counted; the Collier takes the head entry of a mapped ACTIVE queue and creates a
launch or a marker, or rejects it with its reason; a child packet likewise; a launch completes; a watchdog that expires kills the
launch that it covers. -/
def Claim.QueueSteps : Prop :=
  (∀ fn q tail s x, Table.get? s.queues q = some x →
    let new := (tail % 2 ^ 17 + 2 ^ 17 - x.head) % 2 ^ 17
    (fn = 0 ∨ x.fn = fn → x.unread ≤ new → new ≤ 2 ^ x.log →
      exec (.doorbell fn q tail) s
        = .next ({ s with queues := Table.put s.queues q { x with tail := tail % 2 ^ 17 } }.raise .collier 2))
    ∧ ((fn ≠ 0 ∧ x.fn ≠ fn) ∨ new < x.unread ∨ 2 ^ x.log < new →
      exec (.doorbell fn q tail) s = .next { s with dbbad := satInc s.dbbad }))
  ∧ (∀ fn q tail s, Table.get? s.queues q = none → exec (.doorbell fn q tail) s = .next { s with dbbad := satInc s.dbbad })
  ∧ (∀ q idx key ptbase parkbase s x v, s.offers q x v → s.freeIndex idx → (readPacket v).kind ≠ 2 →
    ((q = 0 → (readPacket v).kind ≠ 0x10) →
      (∀ r, s.kernelReason q x (readPacket v) false ptbase parkbase = some r →
        exec (.kernel q idx key ptbase parkbase) s = .next ((s.takeEntry q x).reject q x (readPacket v) r))
      ∧ ∀ i, s.kernelReason q x (readPacket v) false ptbase parkbase = none → s.readImageAt x.asid (readPacket v).code = some i →
        exec (.kernel q idx key ptbase parkbase) s
          = .next ((s.takeEntry q x).create idx q { x with head := (x.head + 1) % 2 ^ 17 } (readPacket v) key none i
              ptbase parkbase))
    ∧ (q = 0 → (readPacket v).kind = 0x10 → adminBad v = true →
      exec (.kernel q idx key ptbase parkbase) s = .next ((s.takeEntry q x).adminDone v (some 10))))
  ∧ (∀ q idx s x v, s.offers q x v → s.freeIndex idx → (readPacket v).kind = 2 →
    exec (.marker q idx) s
      = .next ((s.takeEntry q x).create idx q { x with head := (x.head + 1) % 2 ^ 17 } (readPacket v).marker 0 none
          { header := 0, code := [], handlers := [] } 0 0))
  ∧ (∀ k idx key ptbase parkbase s c l q, s.children[k]? = some c → (∀ x ∈ s.children.take k, x.parent ≠ c.parent) →
    s.freeIndex idx → Table.get? s.launches c.parent = some l →
    let t : State := { s with children := s.children.eraseIdx k }
    let p := readPacket (bytesToNat c.bytes)
    (l.killed.isSome = true → exec (.childLaunchPacket k idx key ptbase parkbase) s = .next t)
    ∧ (l.killed = none → Table.get? s.queues l.queue = some q → p.kind = 2 →
      exec (.childLaunchPacket k idx key ptbase parkbase) s
        = .next (t.create idx l.queue q p.marker key (some c.parent) { header := 0, code := [], handlers := [] } 0 0))
    ∧ (l.killed = none → Table.get? s.queues l.queue = some q → p.kind ≠ 2 →
      (∀ i, t.kernelReason l.queue q p true ptbase parkbase = none → t.readImageAt q.asid p.code = some i →
        exec (.childLaunchPacket k idx key ptbase parkbase) s
          = .next (t.create idx l.queue q p key (some c.parent) i ptbase parkbase))
      ∧ ∀ r, t.kernelReason l.queue q p true ptbase parkbase = some r →
        exec (.childLaunchPacket k idx key ptbase parkbase) s
          = .next ((t.setLaunch c.parent { l with children := l.children - 1 }).reject l.queue q p r)))
  ∧ (∀ idx s l, Table.get? s.launches idx = some l →
    (∀ status reason, l.killed = some (status, reason) → s.killReady idx = true →
      exec (.launchCompletion idx) s = .next (s.completeLaunch idx status reason))
    ∧ (l.killed = none → l.pkt.kind = 2 → s.mayStart idx = true →
      exec (.launchCompletion idx) s = .next (s.completeLaunch idx 1 0))
    ∧ (l.killed = none → l.pkt.kind ≠ 2 → s.completeReady idx = true →
      exec (.launchCompletion idx) s = .next (s.completeLaunch idx 1 0)))
  ∧ ∀ hw s d idx, (Table.getD s.watchdogs hw {}).deadline = some d → (Table.getD s.watchdogs hw {}).covers = some idx →
    s.halted = false → d ≤ s.tb.toNat → s.covered hw idx = true → s.completeReady idx = false →
    exec (.watchdogExpiry hw) s
      = .next ({ s with watchdogs := Table.put s.watchdogs hw { deadline := none, covers := some idx } }.killLaunch idx 4 0)

/-- R324, R325, R332, R333: a microsecond moves each bucket by its rate less the tiles charged to it, within plus and minus its
cap; a mapping pass, 1 ms after the last, marks, releases and maps queues in the order after the one mapped last; the oldest
pending error goes into an event ring with room; permits owed for 2 µs return. -/
def Claim.PeriodicSteps : Prop :=
  (∀ s, s.halted = false → 1000 * (s.refills + 1) ≤ s.tb.toNat →
    exec .bucketRefill s = .next { s with
      refills := s.refills + 1
      buckets := s.buckets.map fun r =>
        (r.1, { r.2 with level := max (-(r.2.cap : Int)) (min r.2.cap (r.2.level + r.2.rate - s.charged r.1)) }) })
  ∧ (∀ s, 7 ≤ s.boot → 1000000 * (s.passes + 1) ≤ s.tb.toNat →
    let crowded := decide (511 < (s.queues.filter fun r => s.eligible r.1 r.2).length)
    let t : State := { s with
      passes := s.passes + 1, queues := s.queues.map fun r => (r.1, s.passQueue crowded r.1 r.2) }
    let es := (t.queues.filter fun r => t.eligible r.1 r.2).map (·.1)
    exec .mappingPass s
      = .next ((es.filter (fun n => decide (t.lastMapped < n)) ++ es.filter (fun n => decide (n ≤ t.lastMapped))).foldl
          State.mapQueue t))
  ∧ (∀ s n p before after, s.ringFull = false → s.pendings = before ++ (n, p) :: after →
    (∀ r ∈ before ++ after, p.order < r.2.order) →
    exec .pendingErrorWrite s
      = .next ({ s.writeEvent p.type p.status p.reason n p.hwq p.tag p.count (p.info.toNat ||| p.orTypes % 256 * 256) p.tick
          (p.count != 0) with pendings := Table.del s.pendings n }))
  ∧ ∀ region s,
    ((s.link region).owedByCollier ≠ 0 → (s.link region).owedSinceCollier + 2000 ≤ s.tb.toNat →
      exec (.permitTimer region true) s
        = .next ((s.setLink region { s.link region with owedByCollier := 0 }).flueSend collierCode (stokerCode region) 0x40 0
            (ofN ((s.link region).owedByCollier * 2 ^ 16))))
    ∧ ((s.link region).owedByStoker ≠ 0 → (s.link region).owedSinceStoker + 2000 ≤ s.tb.toNat →
      exec (.permitTimer region false) s
        = .next ((s.setLink region { s.link region with owedByStoker := 0 }).flueSend (stokerCode region) collierCode 0x40 0
            (ofN ((s.link region).owedByStoker * 2 ^ 16))))

/-- The claims MessagesAccepted and WritesRepliesAndRequestsAccepted together. -/
def Obligations.PacketsAccepted : Prop := Claim.MessagesAccepted ∧ Claim.WritesRepliesAndRequestsAccepted

/-- The claims QueueSteps and PeriodicSteps together. -/
def Obligations.QueuesAndPeriods : Prop := Claim.QueueSteps ∧ Claim.PeriodicSteps

/-! ### Placement -/

/-- R322, R323, R343, R360, R375, R434: the Collier's choices. The first gang of the head launch is placed, where it waits for
tiles (a launch stays the head until it has started) and a replay's next segment is its own (log entry 55, DEDUCED); a gang of a started
launch, with nothing before it; a summoned gang, the oldest summon first; a pre-empted gang returns; where tiles do not suffice
one victim is evicted; and the slices of a gang run out. -/
def Obligations.PlacementSteps : Prop :=
  (∀ idx s l' sites, s.halted = false → s.head (s.launch idx).part = some (idx, l') →
    (s.launch idx).wantsTiles = true → s.replayTurn idx = true →
    s.headTurn (s.launch idx).part (s.launch idx) = true → s.placementOf idx 0 = some sites →
    exec (.launchStart idx) s
      = .next ((s.setPart (s.launch idx).part
          { Table.getD s.partitions (s.launch idx).part {} with lastSlot := s.slotOf (s.launch idx) }).placeGang idx 0 sites))
  ∧ (∀ idx gang s sites, s.halted = false → s.row5 idx gang = true → s.first5 idx gang = true →
    s.noSummons (s.launch idx).part = true → (∀ i l, s.head (s.launch idx).part = some (i, l) → l.wantsTiles = false) →
    s.returning (s.launch idx).part = [] → s.placementOf idx gang = some sites →
    exec (.gangPlacement idx gang) s = .next (s.placeGang idx gang sites))
  ∧ (∀ part base s idx l i j, s.halted = false → s.head part = some (idx, l) → l.wantsTiles = true → s.evicting part = false →
    s.placementOf idx 0 = none → s.victim part base (fun x _ => Nat.blt l.pkt.prio x.pkt.prio) = some (i, j) →
    exec (.preEmption part base) s = .next (s.evictGang i j base true))
  ∧ (∀ part base s idx gang rest, s.halted = false → (Table.getD s.partitions part {}).summons = (idx, gang) :: rest →
    s.isLive idx = true →
    ((s.launch idx).gang gang).state = .unplaced ∨ ((s.launch idx).gang gang).state = .absent →
    (∀ sites, s.placementOf idx gang = some sites →
      exec (.summonService part base) s = .next (s.placeGang idx gang sites))
    ∧ ∀ i j, s.placementOf idx gang = none → s.evicting part = false →
      s.victim part base (fun x g => Nat.blt (s.launch idx).pkt.prio x.pkt.prio
        || (x.pkt.prio == (s.launch idx).pkt.prio && !x.pkt.keepalive && s.sliceOver g)) = some (i, j) →
      exec (.summonService part base) s = .next (s.evictGang i j base false))
  ∧ (∀ idx gang s prio since sites,
    let part := (s.launch idx).part
    let may (y : Nat × Nat × Nat × Nat) : Prop :=
      s.placementOf y.2.2.1 y.2.2.2 ≠ none ∧ ∀ r ∈ s.heads part, r.2.wantsTiles = true → y.1 ≤ r.2.pkt.prio
    s.halted = false → (prio, since, idx, gang) ∈ s.returning part → may (prio, since, idx, gang) →
    (∀ y ∈ s.returning part, may y → since ≤ y.2.1) → s.noSummons part = true → s.placementOf idx gang = some sites →
    (∀ y ∈ s.returning part, y.2.2 = (idx, gang) → y = (prio, since, idx, gang)) →
    exec (.preEmptedGangReturn idx gang) s = .next (s.placeGang idx gang sites))
  ∧ ∀ idx gang s, s.halted = false → ((s.launch idx).gang gang).state = .resident →
    s.sliceOver ((s.launch idx).gang gang) = true →
    exec (.qsliceExpiry idx gang) s
      = .next (((s.launch idx).gang gang).sites.foldl (fun s x => s.setTile x.2 { s.tile x.2 with qslice := 0 }) s)

/-! ### Admin commands -/

/-- R324, R335, R336, R366, R367, R388, R395, R421, R422, R424 to R426: the admin commands. Each well-formed command at the head
of queue 0 is taken; where its reason to reject it holds it ends with that reason, 12 for its arguments and 13 while something
is in use, and where none does it has its effect and ends with status COMPLETED. READMIT reads its site from the first doubleword of the
blob (log entry 19, DESIGN CHOICE); the outcomes of the signatures are arguments of the commands (log entry 39); SET_PARTITION draws a
new key, and what the old one encrypted is lost (log entry 40, DEDUCED). -/
def Obligations.AdminCommands : Prop :=
  adminOutcome .createQueue 1
    (fun s v =>
      let a := adminArg v 2
      let q := bitsOf a 15 0
      argBusy (q == 0 || (Table.get? s.queues q).isSome || decide (bitsOf a 20 16 < 4) || decide (16 < bitsOf a 20 16)
        || (match Table.get? s.asidPart (bitsOf a 63 48) with
            | some p => p != bitsOf a 44 39
            | none => false)
        || s.partEmpty (bitsOf a 44 39)) false)
    (fun s v =>
      let a := adminArg v 2
      { s with
        queues := Table.put s.queues (bitsOf a 15 0)
          { base := adminArg v 0, log := bitsOf a 20 16, headptr := adminArg v 1, fn := bitsOf a 26 21,
            bucket := bitsOf a 38 27, part := bitsOf a 44 39, asid := bitsOf a 63 48, head := 0, tail := 0, state := .active,
            slot := none, mappedAt := 0, olog := {}, pair := {} }
        asidPart := Table.put s.asidPart (bitsOf a 63 48) (bitsOf a 44 39) })
  ∧ adminOutcome .destroyQueue 2
    (fun s v => argBusy (adminQueue v == 0 || (Table.get? s.queues (adminQueue v)).isNone) (s.hasLaunch (adminQueue v)))
    (fun s v =>
      let asid := ((Table.get? s.queues (adminQueue v)).map (·.asid)).getD 0
      let qs := Table.del s.queues (adminQueue v)
      { s with queues := qs, asidPart := if qs.any (fun r => r.2.asid == asid) then s.asidPart else Table.del s.asidPart asid })
  ∧ adminOutcome .unfreeze 3
    (fun s v => argBusy (((Table.get? s.queues (adminQueue v)).map (·.state)) != some .frozen) (s.pendingOf (adminQueue v)))
    (fun s v => s.activate (adminQueue v))
  ∧ (∀ s s1 v, s.adminTake 4 = some (s1, v) →
    let n := adminQueue v
    let idle := s.launches.filter fun r => r.2.queue == n && r.2.started.isNone
    let loading := idle.filter fun r => r.2.gangs.any fun g => !g.sites.isEmpty
    let reason := argBusy (Table.get? s1.queues n).isNone (s1.pendingOf n)
    let clear : Prop := loading = [] ∧ ∀ r ∈ idle, r.2.killed = none ∨ s.killReady r.1 = true
    (∀ r, reason = some r → exec .flush s = .next (s1.adminDone v (some r)))
    ∧ (reason = none → clear →
      exec .flush s
        = .next ((((((s1.unstarted n).foldl (fun s r =>
              (s.setLaunch r.1 { s.launch r.1 with log := r.2.log }).completeLaunch r.1 (r.2.killed.getD (3, 17)).1
                (r.2.killed.getD (3, 17)).2) s1).flushEntries n 65536).activate n).armWatchdog n).adminDone v none))
    ∧ (reason = none → ¬clear → exec .flush s = .next (loading.foldl (fun s r => s.killLaunch r.1 3 17) s)))
  ∧ adminOutcome .setBucket 5 (fun _ _ => none)
    (fun s v =>
      let b : Bucket := { level := bitsOf (adminArg v 3) 63 32, rate := bitsOf (adminArg v 3) 17 0, cap := bitsOf (adminArg v 3) 63 32 }
      { s with buckets := Table.put s.buckets (bitsOf (adminArg v 2) 11 0) b })
  ∧ (∀ key, adminOutcome (.setPartition key) 6
    (fun s v => argBusy
      ((s.partitions.any fun r => r.1 != bitsOf (adminArg v 2) 5 0 && r.2.regions &&& ofN (adminArg v 0) != 0)
        || (List.range 64).any fun r => (ofN (adminArg v 0)).getLsbD r && s.classOf r == 0)
      (s.partLive (bitsOf (adminArg v 2) 5 0)))
    (fun s v => (s.rekey (bitsOf (adminArg v 2) 5 0)).setPart (bitsOf (adminArg v 2) 5 0)
      { Table.getD s.partitions (bitsOf (adminArg v 2) 5 0) {} with regions := ofN (adminArg v 0), key }))
  ∧ adminOutcome .setEventRing 7
    (fun s v => argBusy (decide (bitsOf (adminArg v 2) 4 0 < 6) || decide (20 < bitsOf (adminArg v 2) 4 0))
      (s.evring.on && s.ringHead != s.evring.tail))
    (fun s v => { s with evring :=
      { on := true, base := adminArg v 0, headaddr := adminArg v 1, log := bitsOf (adminArg v 2) 4 0, tail := 0 } })
  ∧ adminOutcome .getCounters 8 (fun _ _ => none)
    (fun s v => { s with
      host := Memory.write s.host (adminArg v 0) 16 (s.evdrop.toNat + s.evcoal.toNat * 2 ^ 32 + s.dbbad.toNat * 2 ^ 64)
      evdrop := 0, evcoal := 0 })
  ∧ adminOutcome .setLog 9
    (fun s v =>
      let a := adminArg v 2
      argBusy ((Table.get? s.queues (adminQueue v)).isNone || bitsOf a 17 16 == 3 || decide (bitsOf a 22 18 < 12)
        || decide (20 < bitsOf a 22 18) || adminArg v 0 % 4096 != 0) (s.hasLaunch (adminQueue v)))
    (fun s v =>
      match Table.get? s.queues (adminQueue v) with
      | some q => { s with queues := Table.put s.queues (adminQueue v) { q with
          olog := { mode := bitsOf (adminArg v 2) 17 16, base := adminArg v 0, len := adminArg v 1,
                    logv := bitsOf (adminArg v 2) 22 18, append := adminArg v 0, aside := 0, read := adminArg v 0 } } }
      | none => s)
  ∧ adminOutcome .setPair 10
    (fun s v =>
      let a := adminArg v 2
      argBusy ((Table.get? s.queues (adminQueue v)).isNone
        || (bitsOf a 40 40 == 1 && !(Table.getD s.peers (bitsOf a 19 16) {}).paired)) (s.hasLaunch (adminQueue v)))
    (fun s v =>
      match Table.get? s.queues (adminQueue v) with
      | some q => { s with queues := Table.put s.queues (adminQueue v) { q with
          pair := { enabled := bitsOf (adminArg v 2) 40 40 == 1, digests := adminArg v 0, link := bitsOf (adminArg v 2) 19 16,
                    peerQueue := bitsOf (adminArg v 2) 35 20, count := bitsOf (adminArg v 2) 39 36 + 1,
                    timeout := bitsOf (adminArg v 3) 31 0 } } }
      | none => s)
  ∧ (∀ sig cert, adminOutcome (.attest sig cert) 11 (fun _ _ => none)
    (fun s v =>
      if bitsOf (adminArg v 2) 0 0 = 1 then
        { s with
          host := Memory.write s.host (adminArg v 0) (8 + (cert.take 1016).length)
            ((cert.take 1016).length + bytesToNat (cert.take 1016) * 2 ^ 64) }
      else { s with
        host := Memory.write s.host (adminArg v 0) 224
          (s.reportBits (Memory.read s.host (adminArg v 1) 32) + sig.toNat * 2 ^ 1280) }))
  ∧ (∀ sigOk tested busy, adminOutcome (.readmit sigOk tested busy) 12
    (fun s v => argBusy (!sigOk || !tested || (s.tile (Memory.read s.host (adminArg v 0) 8 % Config.sites)).fused) busy)
    (fun s v =>
      let site := Memory.read s.host (adminArg v 0) 8 % Config.sites
      if (s.tile site).retired = true then
        (({ s with readmits := s.readmits + 1 }.setTile site { s.tile site with retired := false, good := true }).markGood site
          true).regrade
      else s))
  ∧ (∀ sigOk, adminOutcome (.setOwner sigOk) 13 (fun s _ => argBusy (s.owner && !sigOk) false)
    (fun s v => { s with owner := true, ownerKey := BitVec.ofNat 512 (Memory.read s.host (adminArg v 0) 64) }))
  ∧ adminOutcome .bindHost 14
    (fun s v => argBusy (s.partEmpty (bitsOf (adminArg v 2) 5 0)) (s.partLive (bitsOf (adminArg v 2) 5 0)))
    (fun s v => s.setPart (bitsOf (adminArg v 2) 5 0)
      { Table.getD s.partitions (bitsOf (adminArg v 2) 5 0) {} with
        hostBase := adminArg v 0, hostLen := adminArg v 1, hostBound := true })
  ∧ adminOutcome .bindPeer 15
    (fun s v => argBusy (!(Table.getD s.peers (bitsOf (adminArg v 2) 3 0) {}).up) (s.linkUsed (bitsOf (adminArg v 2) 3 0)))
    (fun s v =>
      let l : PeerLink := { up := true, paired := true, part := bitsOf (adminArg v 2) 9 4, pasid := bitsOf (adminArg v 2) 31 16 }
      { s with peers := Table.put s.peers (bitsOf (adminArg v 2) 3 0) l })

/-! ### Supervisor messages -/

/-- R282, R285, R291, R295, R296, R327, R328, R334, R352, R353, R355, R356, R357, R400, R421: what a tile and its Stoker make of the messages
of stopping and killing. PREEMPT, DEBUGSTOP, WDKILL and RESTORE set the PEND bits of the threads concerned; PREEMPT also seals the
interface, one that still delivers once it has, and answers with the threads; QUIESCE stops the dispatcher and lands once no activation runs; RESUME waits for SVRECV
and opens a sealed interface; a fault is recorded and kills its launch; KILL reaches every tile of the launch, and with every
thread killed the tiles are reset, what they counted is reported, and KILLDONE reports them. A FAULTSTOP of a gang that is being saved
ends that eviction's SAVEDP as a failure (log entry 22, DEDUCED). -/
def Obligations.StopAndKillMessages : Prop :=
  (∀ k s m t, s.receives k 0x01 m t →
    (((t.tile m.dst).occ.map (·.1)) ≠ some m.idx →
      exec (.preempt k) s = .next (t.flueSend m.dst (stokerCode (regionOf m.dst)) 0x72 0 0))
    ∧ (((t.tile m.dst).occ.map (·.1)) = some m.idx →
      let u := t.flushSums m.dst
      let x := u.tile m.dst
      exec (.preempt k) s
        = .next ((u.setTile m.dst { x with
            slots := x.pended 1 m.payload, ni := if x.ni = .direct then .sealed else x.ni, sealing := x.ni != .direct, nodisp := true
            savedMask := 0 }).flueSend m.dst (stokerCode (regionOf m.dst)) 0x72 0 (x.threadMask.setWidth 64))))
  ∧ (∀ k s m t, s.receives k 0x04 m t →
    exec (.debugstop k) s
      = .next (t.setTile m.dst { t.tile m.dst with slots := (t.tile m.dst).pended 3 m.payload }))
  ∧ (∀ k s m t, s.receives k 0x05 m t → (t.tile m.dst).svq.length < 8 →
    exec (.resume k) s
      = .next ((t.setTile m.dst { t.tile m.dst with
          svq := (t.tile m.dst).svq ++ [m], nodisp := false, sealing := false
          ni := if (t.tile m.dst).ni = .sealed then .direct else (t.tile m.dst).ni }).admitQueued m.dst s.flue.length))
  ∧ (∀ k s m t, s.receives k 0x06 m t →
    (∀ j : Fin 8, ¬((t.tile m.dst).slots[j].thread = true ∧ (t.tile m.dst).slots[j].wait = .dead)) →
    exec (.wdkill k) s
      = .next (t.setTile m.dst { t.tile m.dst with slots := (t.tile m.dst).pended 2 m.payload, nodisp := true }))
  ∧ (∀ k s m t, s.receives k 0x07 m t →
    let x := t.tile m.dst
    let p := (t.launch x.name.1).pkt
    exec (.restore k) s
      = .next (t.setTile m.dst { x with
          nodisp := true
          slots := Vector.ofFn fun j : Fin 8 =>
            if x.slots[j].loading = true ∨ (j.val < p.records ∧ x.recThread (p.recordAt j.val) = true) then
              { x.slots[j] with pend := x.slots[j].pend ||| 0x20#6, pendVal := x.slots[j].pendVal.set 5 m.payload }
            else x.slots[j] }))
  ∧ (∀ k s m t, s.receives k 0x0A m t →
    exec (.quiesce k) s
      = .next (t.setTile m.dst { t.tile m.dst with
          nodisp := true, quiesce := true
          slots := (t.tile m.dst).slots.map fun sl => { sl with pendVal := sl.pendVal.set 3 m.payload } }))
  ∧ (∀ site s, (s.tile site).quiesce = true → (s.tile site).fresh = false →
    (s.tile site).guarded = true ∨ (∀ j : Fin 8, (s.tile site).slots[j].thread = false ∨ (s.tile site).slots[j].res = true) →
    exec (.quiesceLanding site) s
      = .next (s.setTile site { s.tile site with
          quiesce := false
          slots := (s.tile site).slots.map fun sl => if sl.thread then { sl with pend := sl.pend ||| 0x08#6 } else sl }))
  ∧ (∀ k s m t, s.receives k 0x70 m t →
    exec (.pdeliv k) s
      = .next (t.setTile m.dst { t.tile m.dst with
          ni := if (t.tile m.dst).ni = .append ∨ (t.tile m.dst).ni = .spill then .delivering else (t.tile m.dst).ni
          pdone := false }))
  ∧ (∀ k s m t tv pc rest idx vt, s.receives k 0x03 m t →
    (t.flue.filter fun x => x.type == 0x03 && x.src == m.src && x.dst == m.dst) = tv :: pc :: rest →
    (t.tile m.src).occ = some (idx, vt) →
    let u : State := { t with flue := (t.flue.erase tv).erase pc }
    let u := if m.payload.toNat % 256 = 11 then
        u.setTile m.src { t.tile m.src with eccStops := (t.tile m.src).eccStops ++ [t.tb.toNat] } else u
    let w := u.toCollier (regionOf m.src) 0x44 (gangPayload idx vt
      ((if m.tag = 31 then 31 else m.payload.toNat % 256) % 256 + pc.payload.toNat % 65536 * 256))
    let j := (w.launch idx).gangOf vt
    exec (.faultstop k) s
      = .next (if ((w.launch idx).gang j).state = .saving then w.toCollier (regionOf m.src) 0x62 (gangPayload idx j 1) else w))
  ∧ (∀ k s m t, s.receives k 0x44 m t → (Table.get? t.launches m.idx).isSome = true →
    let u := t.count m.idx fun g =>
      if g.stops = 0 then
        { g with stops := 1, fcause := bitsOf m.payload.toNat 47 40, fvtile := m.gang, fepc := bitsOf m.payload.toNat 63 48 }
      else { g with stops := g.stops + 1 }
    exec (.faultReport k) s = .next (if t.isLive m.idx = true then u.killLaunch m.idx 5 0 else u))
  ∧ (∀ k s m t, s.receives k 0x09 m t →
    exec (.killed k) s
      = .next (t.setTile m.src { t.tile m.src with
          savedMask := (t.tile m.src).savedMask ||| (1#8 <<< (m.payload.toNat % 8)) }))
  ∧ (∀ k s m t, s.receives k 0x41 m t →
    let rows := (s.rowsOf (regionOfCode m.dst)).filter fun x => (x.2.occ.map (·.1)) == some m.idx
    let sites := (s.rowsOf (regionOfCode m.dst)).map (·.1)
    ((∃ x ∈ rows, x.2.killSent = false) →
      exec (.kill k) s
        = .next (rows.foldl (fun s x =>
            (s.setTile x.1 { s.tile x.1 with killSent := true, savedMask := 0 }).flueSend m.dst x.1 0x06 0 (ofN m.idx)) s))
    ∧ ((∀ x ∈ rows, x.2.killSent = true ∧ x.2.killed = true) → s.sentUnder sites m.idx 0 24 = false →
      exec (.kill k) s
        = .next (((((rows.map (·.1)).foldl State.clearTile t).forgetAt sites m.idx 0 24).sendStats (regionOfCode m.dst)
            m.idx).toCollier (regionOfCode m.dst) 0x42 (gangPayload m.idx rows.length 0))))
  ∧ (∀ k s m t l, s.receives k 0x42 m t → Table.get? t.launches m.idx = some l →
    exec (.killdone k) s
      = .next (t.setLaunch m.idx { l with
          killAwait := l.killAwait.erase (regionOfCode m.src)
          gangs := l.gangs.map fun g => { g with sites := g.sites.filter fun x => regionOf x.2 != regionOfCode m.src } }))
  ∧ (∀ k s m t, s.receives k 0x43 m t → exec (.retireReport k) s = .next t)
  ∧ (∀ k s m t, s.receives k 0x40 m t → exec (.permitReturn k) s = .next t)
  ∧ (∀ k s m t, s.receives k 0x45 m t →
    exec (.stats k) s
      = .next (t.count m.idx fun g => g.bump (bitsOf m.payload.toNat 31 16) (bitsOf m.payload.toNat 63 32)))
  ∧ ∀ k s m t, s.receives k 0x46 m t →
    exec (.imagebad k) s = .next (if t.isLive m.idx = true then t.killLaunch m.idx 2 9 else t)

/-- R345, R351, R356, R357, R360: the messages of an eviction. EVICT sends PREEMPT to each tile of the gang in the region; PACK
and SAVED complete a tile's report, and with the last one the region's vtiles read ABSENT and SAVEDP goes; with the last SAVEDP
the name caches are purged; with the last NCDONE the images are written; with the last EVICTED the gang is ABSENT, and a summon
that was kept or a packet that was parked summons it again. A SAVEDP or EVICTED that reports a failure kills the launch (log
entry 22). -/
def Obligations.EvictionMessages : Prop :=
  (∀ k s m t, s.receives k 0x60 m t → t.isLive m.idx = true →
    (((t.launch m.idx).gang m.gang).state = .unplaced ∨ ((t.launch m.idx).gang m.gang).state = .absent →
      (m.idx, m.gang) ∉ (Table.getD t.partitions (t.launch m.idx).part {}).summons →
      exec (.summon k) s = .next (t.withSummon m.idx m.gang))
    ∧ (((t.launch m.idx).gang m.gang).state = .saving ∨ ((t.launch m.idx).gang m.gang).state = .flushing →
      exec (.summon k) s = .next (t.modGang m.idx m.gang fun g => { g with summoned := true }))
    ∧ (((t.launch m.idx).gang m.gang).state = .loading ∨ ((t.launch m.idx).gang m.gang).state = .resident →
      exec (.summon k) s = .next t))
  ∧ (∀ k s m t, s.receives k 0x61 m t →
    exec (.evict k) s
      = .next (((((t.launch m.idx).gang m.gang).inRegion (regionOfCode m.dst)).foldl (fun s x =>
          (s.setTile x.2 { s.tile x.2 with packMask := none, savedMask := 0 }).flueSend m.dst x.2 0x01 0 (ofN m.idx)) t).checkSaved
          m.idx m.gang (regionOfCode m.dst)))
  ∧ (∀ k s m t, s.receives k 0x72 m t →
    let u := if (t.tile m.src).occ.isSome = true then
        t.setTile m.src { t.tile m.src with packMask := some (m.payload.setWidth 8) } else t
    exec (.pack k) s
      = .next (u.launches.foldl (fun s l =>
          (List.range l.2.gangs.length).foldl (fun s j => s.checkSaved l.1 j (regionOf m.src)) s) u))
  ∧ (∀ k s m t idx vt, s.receives k 0x02 m t → (t.tile m.src).occ = some (idx, vt) →
    ((t.launch idx).gang ((t.launch idx).gangOf vt)).state = .saving →
    exec (.saved k) s
      = .next ((t.setTile m.src { t.tile m.src with
          savedMask := (t.tile m.src).savedMask ||| (1#8 <<< (m.payload.toNat % 8)) }).checkSaved idx ((t.launch idx).gangOf vt)
          (regionOf m.src)))
  ∧ (∀ k s m t, s.receives k 0x62 m t → t.gangIn m.idx m.gang 1 = true →
    let u := t.answered m.idx m.gang (regionOfCode m.src)
    let l := u.launch m.idx
    (m.payload.getLsbD 40 = true → exec (.savedp k) s = .next (t.killLaunch m.idx 5 0))
    ∧ (m.payload.getLsbD 40 = false → (l.gang m.gang).awaiting ≠ [] → exec (.savedp k) s = .next u)
    ∧ (m.payload.getLsbD 40 = false → (l.gang m.gang).awaiting = [] →
      exec (.savedp k) s
        = .next (u.askRegions m.idx m.gang 2 0x63 (gangPayload m.idx (m.gang * 2 ^ l.pkt.ganglog) l.pkt.ganglog)
            (u.partRegions l.part))))
  ∧ (∀ k s m t, s.receives k 0x63 m t →
    let sites := (s.rowsOf (regionOfCode m.dst)).map (·.1)
    let key := bitsOf m.payload.toNat 44 40
    s.sentUnder sites m.idx m.gang key = false →
    exec (.ncreq k) s
      = .next ((t.forgetAt sites m.idx m.gang key).toCollier (regionOfCode m.dst) 0x64 m.payload.toNat))
  ∧ (∀ k s m t, s.receives k 0x64 m t → t.isLive m.idx = true →
    let j := (t.launch m.idx).gangOf m.gang
    let u := t.answered m.idx j (regionOfCode m.src)
    let g := (u.launch m.idx).gang j
    (g.awaiting ≠ [] → exec (.ncdone k) s = .next u)
    ∧ (g.awaiting = [] →
      (g.phase = 2 → g.state = .saving → g.regions = [] →
        exec (.ncdone k) s = .next ((u.modGang m.idx j fun g => { g with state := .flushing }).evicted m.idx j))
      ∧ (g.phase = 2 → g.state = .saving → g.regions ≠ [] →
        exec (.ncdone k) s
          = .next ((u.modGang m.idx j fun g => { g with state := .flushing }).askRegions m.idx j 3 0x65
              (gangPayload m.idx j 0) g.regions))
      ∧ (g.phase = 5 → g.state = .loading →
        exec (.ncdone k) s
          = .next ((if j = 0 then u.startReplay m.idx else u).askRegions m.idx j 6 0x69 (gangPayload m.idx j 0) g.regions))
      ∧ (∀ x, g.phase = 7 → u.moves.find? (fun x => x.idx == m.idx && x.vt == m.gang) = some x →
        exec (.ncdone k) s
          = .next ((u.modGang m.idx j fun g => { g with phase := 0 }).toStoker (regionOf x.new) 0x69
              (gangPayload m.idx m.gang 1)))))
  ∧ (∀ k s m t, s.receives k 0x65 m t → s.gangIn m.idx m.gang 3 = true →
    let xs := ((s.launch m.idx).gang m.gang).inRegion (regionOfCode m.dst)
    (∀ x ∈ xs, (s.tile x.2).drained = true ∧ (s.tile x.2).quiescent s.cycle = true) →
    exec (.swapout k) s
      = .next (let y := xs.foldl (fun acc x =>
            ((acc.1.swapOut x.2 ((s.launch m.idx).imageAt m.gang x.1)).1,
              acc.2 || (acc.1.swapOut x.2 ((s.launch m.idx).imageAt m.gang x.1)).2 != 0)) (t, false)
          y.1.toCollier (regionOfCode m.dst) 0x66 (gangPayload m.idx m.gang y.2.toNat)))
  ∧ ∀ k s m t, s.receives k 0x66 m t → t.gangIn m.idx m.gang 3 = true →
    let r := regionOfCode m.src
    let u := ((t.vacate ((((t.launch m.idx).gang m.gang).inRegion r).map (·.2))).modGang m.idx m.gang fun g =>
      { g with sites := g.sites.filter fun x => regionOf x.2 != r }).answered m.idx m.gang r
    (m.payload.getLsbD 40 = true → exec (.evicted k) s = .next (t.killLaunch m.idx 5 0))
    ∧ (m.payload.getLsbD 40 = false → ((u.launch m.idx).gang m.gang).awaiting ≠ [] → exec (.evicted k) s = .next u)
    ∧ (m.payload.getLsbD 40 = false → ((u.launch m.idx).gang m.gang).awaiting = [] → exec (.evicted k) s = .next (u.evicted m.idx m.gang))

/-- R295, R347, R355, R356, R359, R361: the messages of swap-in and migration. PLACE loads each tile of the gang in its region,
fresh or from its image, once no sub-region of it is gated; RESTORED completes a tile's report and LOADEDP goes with the last; a
failed load kills the launch; with the last LOADEDP the name caches are purged; OPEN starts delivery; with the last PDONE the
threads resume and PLACED goes; with the last PLACED the gang is RESIDENT with slices of 100 µs and the launch has started. A
migration stops, carries over and installs one vtile, on a tile whose core supply is brought back first. That a LOADEDP or MOVED with
the failure bit kills the launch with status FAULTED is log entry 22 (DEDUCED), and so is the failure that PLACE or MIGRATE reports; a gang
whose vtiles have all retired before its last PLACED is log entry 33 (DEDUCED), and PLACED is stated for the others here. -/
def Obligations.SwapInMessages : Prop :=
  (∀ (k : Nat) (s : State) (m : FlueMsg) (t : State), s.receives k 0x67 m t → s.gangIn m.idx m.gang 4 = true →
    let l := s.launch m.idx
    let xs := (l.gang m.gang).inRegion (regionOfCode m.dst)
    let fresh := m.payload.getLsbD 40
    let load (acc : State × Bool) (x : Nat × Nat) : State × Bool :=
      let y := acc.1.swapIn x.2 (if fresh then 0 else l.imageAt m.gang x.1)
      (if y.2 == 0 && !fresh then y.1.restoreAt m.idx x.2 else y.1, acc.2 && y.2 == 0)
    (∀ x ∈ xs, s.gatedAt x.2 = false) →
    exec (.place k) s
      = .next (if (xs.foldl load (t, true)).2 = true then
            (xs.foldl load (t, true)).1.checkLoaded m.idx m.gang (regionOfCode m.dst)
          else (xs.foldl load (t, true)).1.toCollier (regionOfCode m.dst) 0x68 (gangPayload m.idx m.gang 1)))
  ∧ (∀ k s m t idx g, s.receives k 0x08 m t →
    let u := t.setTile m.src { t.tile m.src with
      savedMask := (t.tile m.src).savedMask ||| (1#8 <<< (m.payload.toNat % 8)) }
    u.gangAt m.src = some (idx, g) → exec (.restored k) s = .next (u.checkLoaded idx g (regionOf m.src)))
  ∧ (∀ k s m t, s.receives k 0x68 m t → t.gangIn m.idx m.gang 4 = true →
    (m.payload.getLsbD 40 = true → exec (.loadedp k) s = .next (t.killLaunch m.idx 5 0))
    ∧ (m.payload.getLsbD 40 = false →
      let u := t.answered m.idx m.gang (regionOfCode m.src)
      let l := u.launch m.idx
      ((l.gang m.gang).awaiting ≠ [] → exec (.loadedp k) s = .next u)
      ∧ ((l.gang m.gang).awaiting = [] →
        exec (.loadedp k) s
          = .next (u.askRegions m.idx m.gang 5 0x63 (gangPayload m.idx (m.gang * 2 ^ l.pkt.ganglog) l.pkt.ganglog)
              (u.partRegions l.part)))))
  ∧ (∀ k s m t, s.receives k 0x69 m t →
    let start (s : State) (site : Nat) : State :=
      (s.setTile site { s.tile site with opening := true }).flueSend m.dst site 0x70 0 0
    (m.payload.getLsbD 40 = false → t.gangIn m.idx m.gang 6 = true →
      exec (.openGang k) s
        = .next ((((t.launch m.idx).gang m.gang).inRegion (regionOfCode m.dst)).foldl (fun s x => start s x.2) t))
    ∧ ∀ x, m.payload.getLsbD 40 = true → t.moves.find? (fun x => x.idx == m.idx && x.vt == m.gang) = some x →
      exec (.openGang k) s = .next (start (t.vacate [x.old]) x.new))
  ∧ (∀ k s m t, s.receives k 0x71 m t → (t.tile m.src).opening = true →
    let u := t.setTile m.src { t.tile m.src with opening := false }
    (∀ x, u.moves.find? (fun x => x.new == m.src) = some x →
      exec (.pdone k) s
        = .next ({ u.resumeAt x.idx m.src with moves := u.moves.filter fun y => y.new != m.src }.toCollier (regionOf m.src) 0x6A
            (gangPayload x.idx x.vt 1)))
    ∧ ∀ idx j, u.moves.find? (fun x => x.new == m.src) = none → u.gangAt m.src = some (idx, j) →
      let xs := ((u.launch idx).gang j).inRegion (regionOf m.src)
      (xs.any (fun x => (u.tile x.2).opening) = true → exec (.pdone k) s = .next u)
      ∧ (xs.any (fun x => (u.tile x.2).opening) = false →
        exec (.pdone k) s
          = .next ((xs.foldl (fun s x => s.resumeAt idx x.2) u).toCollier (regionOf m.src) 0x6A (gangPayload idx j 0))))
  ∧ (∀ k s m t, s.receives k 0x6A m t → m.payload.getLsbD 40 = false → t.gangIn m.idx m.gang 6 = true →
    let u := t.answered m.idx m.gang (regionOfCode m.src)
    let g := (u.launch m.idx).gang m.gang
    (g.awaiting ≠ [] → exec (.placed k) s = .next u)
    ∧ (g.awaiting = [] → g.retiredVts.length ≠ (u.launch m.idx).gangSize m.gang →
      exec (.placed k) s
        = .next ((g.sites.foldl (fun s x => s.setTile x.2 { s.tile x.2 with qslice := s.clock + 100000 })
            (u.modGang m.idx m.gang fun g =>
              { g with state := .resident, phase := 0, since := u.tb.toNat, preempted := none })).startLaunch m.idx)))
  ∧ (∀ k s m t, s.receives k 0x6B m t →
    let vt := m.gang
    let l := s.launch m.idx
    let g := l.gang (l.gangOf vt)
    let new := bitsOf m.payload.toNat 57 40
    (∀ old, s.moves.find? (fun x => x.idx == m.idx && x.vt == vt) = none → g.sites.find? (fun x => x.1 == vt) = some (vt, old) →
      g.state = .resident → g.phase = 0 → regionOf old = regionOfCode m.dst → regionOf new = regionOfCode m.dst →
      s.isFree new = true →
      exec (.migrate k) s
        = .next (let u : State := { s.supply new with moves := s.moves ++ [{ idx := m.idx, vt, old, new, phase := 0 }] }
            (u.setTile old { u.tile old with packMask := none, savedMask := 0 }).flueSend m.dst old 0x01 0 (ofN m.idx)))
    ∧ (∀ x, s.moves.find? (fun x => x.idx == m.idx && x.vt == vt) = some x → x.phase = 0 →
      ((s.tile x.old).occ ≠ some (m.idx, vt) →
        exec (.migrate k) s = .next { t with moves := t.moves.filter fun y => !(y.idx == m.idx && y.vt == vt) })
      ∧ ((s.tile x.old).occ = some (m.idx, vt) → (s.tile x.old).reported = true → (s.tile x.old).drained = true →
        (s.tile x.old).quiescent s.cycle = true →
        ((s.carryOver x).2 = true →
          let u := (s.carryOver x).1
          exec (.migrate k) s
            = .next { u with moves := u.moves.map fun y => if y.idx == m.idx && y.vt == vt then { y with phase := 1 } else y })
        ∧ ((s.carryOver x).2 = false →
          let u := (t.carryOver x).1
          exec (.migrate k) s
            = .next (({ u with
                moves := u.moves.map fun y => if y.idx == m.idx && y.vt == vt then { y with phase := 2 } else y } : State).toCollier
                (regionOfCode m.dst) 0x6C (gangPayload m.idx vt 1)))))
    ∧ (∀ x, s.moves.find? (fun x => x.idx == m.idx && x.vt == vt) = some x → x.phase = 1 → (s.tile x.new).reported = true →
      exec (.migrate k) s
        = .next (({ t.installMove x with
            moves := (t.installMove x).moves.map fun y =>
              if y.idx == m.idx && y.vt == vt then { y with phase := 2 } else y } : State).toCollier
            (regionOfCode m.dst) 0x6C (gangPayload m.idx vt 0))))
  ∧ ∀ k s m t, s.receives k 0x6C m t → t.isLive m.idx = true →
    let l := t.launch m.idx
    (m.payload.getLsbD 40 = true → exec (.moved k) s = .next (t.killLaunch m.idx 5 0))
    ∧ (m.payload.getLsbD 40 = false →
      exec (.moved k) s
        = .next (t.askRegions m.idx (l.gangOf m.gang) 7 0x63 (gangPayload m.idx m.gang 0) (t.partRegions l.part)))

/-! ### The wafer -/

/-- R398, R407, R409 to R412, R416 to R424: bring-up and what the wafer does of itself. Bring-up checks the boot image, starts the Collier
in its local memory (log entry 61, DEDUCED) and the Stokers, condemns, fuses, loads the system segment, gates idle sub-regions (log
entry 29) and leaves queue 0 in hardware slot 0 (log entry 18); with an image that does not verify the Collier stops; a tile is retired; a
placement ungates; SGATE, THR_DUTY, OVRH and CSEL take their writes (an OVRH write with VALID 1 is ignored); a Stoker confirms a duty, and
every THROTTLED clears PEND (log entry 32); a sensor crossing WARN raises an alert; droop is counted; a peer link that goes down takes its
pairing with it (log entry 23); the lockstep and the halt tree report. -/
def Claim.WaferSteps : Prop :=
  (∀ unv bad shorted unl unt image sys s, s.boot = 0 → s.bootFailed = false →
    exec (.bringUp false unv bad shorted unl unt image sys) s
      = .next { s with boot := 1, bootFailed := true, collier := { s.collier with running := false } }
    ∧ (let regions := List.range 64
      let z : State := { s with
        image
        collier := { s.collier with
          th := { thread := true, sys := true }, mem := Memory.write s.collier.mem 0 image.length (bytesToNat image) } }
      let a := regions.foldl State.mapRegion (regions.foldl (State.bootStoker unv image) z)
      let b := (bad.filter fun x => decide (x < Config.sites)).foldl State.condemn a
      let c := (shorted.filter fun n => decide (n < 1024)).foldl State.fuseOff b
      let d := { c with untrained := unt, directory := Config.directory, asidTable := Config.asidTable }.loadSystem sys
      let e := (unl.filter fun x => decide (x < Config.sites)).foldl State.retireSite d
      exec (.bringUp true unv bad shorted unl unt image sys) s
        = .next (let f := regions.foldl State.gateIdle e
          { f.setQueue 0 Queue.admin with boot := 7, passes := f.tb.toNat / 1000000, refills := f.tb.toNat / 1000 })))
  ∧ (∀ k s m t, s.receives k 0x82 m t →
    exec (.retireTile k) s = .next (t.retireSite (m.payload.toNat % Config.sites)))
  ∧ (∀ region sub s, (s.stoker region).sgate.getLsbD sub.val = true → s.placingIn region sub.val = true →
    exec (.subregionUngate region sub) s
      = .next ({ s with stokers := Table.put s.stokers region { s.stoker region with
          sgate := (s.stoker region).sgate &&& ~~~(1#16 <<< sub.val) } }.ungate region sub.val))
  ∧ (∀ region v s, exec (.sgateWrite region v) s = .next (s.writeSgate region v))
  ∧ (∀ region sub s,
    ((s.stoker region).stretch.getLsbD sub.val = false →
      exec (.droopStretch region sub) s
        = .next { s with stokers := Table.put s.stokers region { s.stoker region with
            stretch := (s.stoker region).stretch ||| (1#16 <<< sub.val), droop := satInc (s.stoker region).droop } })
    ∧ exec (.droopRecovery region sub) s
        = .next { s with stokers := Table.put s.stokers region { s.stoker region with
            stretch := (s.stoker region).stretch &&& ~~~(1#16 <<< sub.val) } })
  ∧ (∀ region v s, (s.link region).toStoker ≠ 0 → 1 ≤ v.toNat % 32 → v.toNat % 32 ≤ 16 →
    let t := s.toStoker region 0x80 (v.toNat % 32 * 2 ^ 16)
    exec (.thrDutyWrite region v) s = .next (t.setTherm region { t.therm region with duty := v.toNat % 32, pend := true }))
  ∧ (∀ region v s, (s.link region).toStoker = 0 ∨ v.toNat % 32 = 0 ∨ 16 < v.toNat % 32 →
    exec (.thrDutyWrite region v) s = .next s)
  ∧ (∀ k s m t, s.receives k 0x80 m t →
    exec (.throttle k) s
      = .next ((t.setDuty (regionOfCode m.dst) 0xFFFF (bitsOf m.payload.toNat 20 16)).toCollier (regionOfCode m.dst) 0x81
          m.payload.toNat))
  ∧ (∀ k s m t, s.receives k 0x81 m t →
    exec (.throttled k) s
      = .next (t.setTherm (regionOfCode m.src) { t.therm (regionOfCode m.src) with
          applied := bitsOf m.payload.toNat 20 16, pend := false }))
  ∧ (∀ region temp s, region < 64 →
    let x := s.therm region
    let t := s.setTherm region { x with
      temp, valid := true
      trip := decide (s.snsCrit.toNat ≤ temp.toNat) || (x.trip && decide (s.snsCrit.toNat ≤ temp.toNat + 80)) }
    let bit : Word := 1#64 <<< region
    let u : State := { t with
      alert := t.alert ||| bit, crossed := (t.cycle, if t.crossed.1 = t.cycle then t.crossed.2 ||| bit else bit) }
    (x.temp.toNat < s.snsWarn.toNat → s.snsWarn.toNat ≤ temp.toNat →
      exec (.sensorSample region temp) s = .next (if s.alert &&& bit = 0 then u.raise .collier 3 else u))
    ∧ (s.snsWarn.toNat ≤ x.temp.toNat ∨ temp.toNat < s.snsWarn.toNat → exec (.sensorSample region temp) s = .next t))
  ∧ (∀ site slot v s,
    (v.getLsbD 0 = false →
      ∃ t, exec (.ovrhWrite site slot v) s = .next t ∧ (t.tile site).slots[slot].ovr.valid = false
        ∧ ∀ j, j ≠ slot → (t.tile site).slots[j] = (s.tile site).slots[j])
    ∧ (v.getLsbD 0 = true → exec (.ovrhWrite site slot v) s = .next (s.setTile site (s.tile site))))
  ∧ (∀ asid page s, s.rxuBusy = false →
    exec (.rxuInvalidatePage asid page) s
      = .next { s with rxuBusy := true, rxu := s.rxu.filter fun r => r.1 != (asid, page) }
    ∧ exec (.rxuInvalidateAll asid) s
      = .next { s with rxuBusy := true, rxu := s.rxu.filter fun r => r.1.1 != asid })
  ∧ (∀ asid page s, s.rxuBusy = true →
    exec (.rxuInvalidatePage asid page) s = .next s ∧ exec (.rxuInvalidateAll asid) s = .next s)
  ∧ (∀ s, exec .rxuInvalidateDone s = .next { s with rxuBusy := false })
  ∧ (∀ region v s,
    exec (.captureSelect region v) s
      = .next { s with stokers := Table.put s.stokers region { s.stoker region with
          cap := (s.stoker region).cap.select v.toNat } }
    ∧ exec (.captureClear region) s
      = .next { s with stokers := Table.put s.stokers region { s.stoker region with cap :=
          { qty := (s.stoker region).cap.qty, filt := (s.stoker region).cap.filt, lidx := (s.stoker region).cap.lidx } } })
  ∧ (∀ s, s.haltDriven = true →
    exec .haltAcknowledge s
      = .next (({ s with
          haltDriven := false, haltIds := []
          collier := { s.collier with th := { s.collier.th with
            flights := s.collier.th.flights.map fun f =>
              if s.haltIds.contains f.id = true then { f with due := some s.cycle, val := s.tb } else f } } } : State).raise .collier 5))
  ∧ (∀ link s,
    ∃ t, exec (.peerLinkDown link) s = .next t ∧ (Table.getD t.peers link.val {}).up = false
      ∧ (Table.getD t.peers link.val {}).paired = false ∧ t.hbm = s.hbm ∧ t.host = s.host ∧ t.queues = s.queues)
  ∧ ∀ s, ∃ t, exec .lockstepMismatch s = .next t ∧ t.collier.running = false ∧ t.halted = true ∧ t.lockerr = true
    ∧ t.aer = true

/-- R276, R309, R310, R427: timers and interrupts, of the Collier and of a Stoker. A write of TIMERCMP arms the comparison, from the
next tick on, and loses no match before it; source 4 pends from the first tick in which TB has reached TIMERCMP, and the match raises it once; an
interrupt that is pending and enabled is taken once the core's results have completed (R142): PIE takes IE, IE is cleared, CAUSE
holds 64 plus the source, EPC the index that would have issued next, behind an IDLE that has ended, and the core continues at
0x0010. -/
def Claim.TimerAndInterruptSteps : Prop :=
  (∀ who s, who.isCore = true →
    let c := s.core who
    let due := c.timerArmed && decide (c.timercmp.toNat ≤ s.tb.toNat) && decide (c.timerAt < s.tb.toNat)
    (∀ v, let u := if due = true then s.raise who 4 else s
      exec (.timercmpWrite who v) s
        = .next (u.setCore who { u.core who with timercmp := v, timerArmed := true, timerAt := u.tb.toNat }))
    ∧ (due = true → (s.ipend who).getLsbD 4 = true
      ∧ ∃ t, exec (.timerMatch who) s = .next t ∧ (t.core who).iedge.getLsbD 4 = true ∧ (t.core who).timerArmed = false)
    ∧ (due = false → exec (.timerMatch who) s = .next s))
  ∧ ∀ who s, who.isCore = true → (s.core who).running = true → (s.core who).ie = true →
    s.ipend who &&& (s.core who).iena ≠ 0 →
    let u := s.advance who (s.core who).th.lastDue
    ∃ t k, exec (.interruptEntry who) s = .next t
      ∧ (u.ipend who &&& (s.core who).iena).getLsbD k = true
      ∧ (∀ j, j < k → (u.ipend who &&& (s.core who).iena).getLsbD j = false)
      ∧ (t.core who).ie = false ∧ (t.core who).pie = true ∧ t.cycle = max s.cycle (s.core who).th.lastDue
      ∧ (t.core who).th.epc = (if (s.core who).th.wait = .idle then ((s.core who).th.next 2).pc else (s.core who).th.pc)
      ∧ (t.core who).th.pc = 0x0010 ∧ (t.core who).th.cause.toNat % 256 = 64 + k

/-! ### The Speig port and pairing -/

/-- R393, R394, R397, R398, R400 to R402, R404, R407: the Speig port. A signed command opens the one session; its commands act on
launches of its partition and answer, and are refused without a session or outside the partition; reads and writes reach 4 KiB
of a stopped vtile's scratchpad or of an ASID of the partition, and a longer one is refused; a held launch's break is noted, and stops every
vtile where that was asked. What counts as stopped is log entry 30, and which regions are a partition's to configure log entry 31
(both DEDUCED); the digests of a pair are compared when both are there, and a
queue whose peer is silent freezes. -/
def Obligations.SpeigAndPairing : Prop :=
  (∀ part sigOk s,
    (sigOk = true → s.speig.session = none → exec (.speigOpen part sigOk) s = .next { s with speig := { session := some part, op := 1 } })
    ∧ (sigOk = false ∨ s.speig.session.isSome = true → exec (.speigOpen part sigOk) s = .next (s.refuse 1)))
  ∧ (∀ s, s.speig.session = none → ∀ idx vt brk all tgt addr len data region base size v,
    ∀ x ∈ [(Instr.speigClose, 2), (.speigHalt, 3), (.speigResume, 4), (.attach idx brk all, 5), (.detach idx, 6), (.pstop idx vt, 7),
      (.dstop idx vt, 8), (.cont idx vt, 9), (.speigRead tgt addr len, 10), (.speigWrite tgt addr data, 11),
      (.tracecfg region base size, 12), (.capcfg region v, 13), (.capread region, 14)],
    exec x.1 s = .next (s.refuse x.2))
  ∧ (∀ part s, s.speig.session = some part →
    exec .speigClose s
      = .next { ((s.launches.filter fun r => r.2.held).map (·.1)).foldl State.letGo s with speig := { op := 2 } }
    ∧ exec .speigHalt s = .next ((s.driveHalt true).reply 3 [])
    ∧ exec .speigResume s = .next ((s.driveHalt false).reply 4 [])
    ∧ (∀ idx, s.inPart part idx = true →
      (∀ brk all, exec (.attach idx brk all) s
        = .next ((s.setLaunch idx { s.launch idx with held := brk, stopAll := all }).reply 5 []))
      ∧ exec (.detach idx) s
          = .next ((s.setLaunch idx { s.launch idx with held := false, stopAll := false, toStop := [] }).reply 6 [])
      ∧ ∀ vt site, s.occupied idx vt = some site →
        let tell (op type : Nat) := (s.flueSend (stokerCode (regionOf site)) site type 0 (ofN idx)).reply op []
        exec (.pstop idx vt) s = .next (tell 7 0x0A) ∧ exec (.dstop idx vt) s = .next (tell 8 0x04)
        ∧ ((s.tile site).isStopped = true → exec (.cont idx vt) s = .next (tell 9 0x05))
        ∧ ((s.tile site).isStopped = false → exec (.cont idx vt) s = .next (s.refuse 9)))
    ∧ (∀ idx vt brk all addr len data, s.inPart part idx = false →
      ∀ x ∈ [(Instr.attach idx brk all, 5), (.detach idx, 6), (.pstop idx vt, 7), (.dstop idx vt, 8), (.cont idx vt, 9),
        (.speigRead (.spad idx vt) addr len, 10), (.speigWrite (.spad idx vt) addr data, 11)],
      exec x.1 s = .next (s.refuse x.2))
    ∧ (∀ idx vt addr len data, s.occupied idx vt = none →
      ∀ x ∈ [(Instr.pstop idx vt, 7), (.dstop idx vt, 8), (.cont idx vt, 9), (.speigRead (.spad idx vt) addr len, 10),
        (.speigWrite (.spad idx vt) addr data, 11)],
      exec x.1 s = .next (s.refuse x.2))
    ∧ (∀ asid addr len data, s.partOf asid ≠ some part →
      exec (.speigRead (.hbm asid) addr len) s = .next (s.refuse 10)
      ∧ exec (.speigWrite (.hbm asid) addr data) s = .next (s.refuse 11))
    ∧ (∀ region base size v, s.regionIn part region = false →
      ∀ x ∈ [(Instr.tracecfg region base size, 12), (.capcfg region v, 13), (.capread region, 14)],
      exec x.1 s = .next (s.refuse x.2))
    ∧ (∀ tgt addr len v, s.peek part tgt addr len = some v →
      exec (.speigRead tgt addr len) s = .next (s.reply 10 (natToBytes len v)))
    ∧ (∀ tgt addr data t, s.poke part tgt addr data = some t → exec (.speigWrite tgt addr data) s = .next (t.reply 11 []))
    ∧ (∀ tgt addr len, 4096 < len → exec (.speigRead tgt addr len) s = .next (s.refuse 10))
    ∧ (∀ region, s.regionIn part region = true →
      (∀ base size, exec (.tracecfg region base size) s
        = .next (({ s with
            trace := Table.put s.trace region { base, size, used := 0 }
            tiles := s.tiles.map fun r => (r.1, { r.2 with trRebase := r.2.trRebase || regionOf r.1 == region }) } : State).reply 12 []))
      ∧ (∀ v, exec (.capcfg region v) s = .next ((s.captureSelect region v.toNat).reply 13 []))
      ∧ exec (.capread region) s = .next (s.reply 14 (s.stoker region).cap.bytes)))
  ∧ (∀ k s m t idx vt, s.receives k 0x02 m t → (t.tile m.src).occ = some (idx, vt) → (t.launch idx).held = true →
    ((t.launch idx).gang ((t.launch idx).gangOf vt)).state ≠ .saving → (∀ x ∈ t.moves, x.old ≠ m.src) →
    let b := m.payload.toNat % 8
    ((t.tile m.src).slots[(Fin.ofNat 8 b : Fin 8)].cause.toNat % 256 = 14) →
    let u := t.setTile m.src { t.tile m.src with savedMask := (t.tile m.src).savedMask ||| (1#8 <<< b) }
    let w : State := { u with speig := { u.speig with breaks := u.speig.breaks ++ [(idx, vt, b)] } }
    exec (.saved k) s = .next (if (t.launch idx).stopAll = true then w.stopEvery idx else w))
  ∧ (∀ link q num tag ds s x, Table.get? s.queues q = some x → x.pair.enabled = true → x.pair.link = link.val →
    (Table.getD s.peers link.val {}).up = true → (Table.getD s.peers link.val {}).paired = true →
    let y : Queue := { x with pair := { x.pair with theirs := some (num, tag.toNat, ds) } }
    exec (.digestFrame link q num tag ds) s = .next (({ s with queues := Table.put s.queues q y }).compareDigests q y))
  ∧ ∀ q s x k tag ds limit, Table.get? s.queues q = some x → x.pair.mine = some (k, tag, ds, limit) → limit ≤ s.tb.toNat →
    exec (.pairTimeout q) s
      = .next ({ s with queues := Table.put s.queues q { x with
          state := .frozen, pair := { x.pair with mine := none, theirs := none, waiting := false } } }.postEvent 9 0 0 q tag
            (k % 2 ^ 32))

/-- The claims WaferSteps and TimerAndInterruptSteps together. -/
def Obligations.WaferTimersAndInterrupts : Prop := Claim.WaferSteps ∧ Claim.TimerAndInterruptSteps

/-! ### The whole machine -/

/-- R128 to R138, R144, R146: every instruction with well-formed operands is the one that its own words decode to, whatever
follows them. -/
def Obligations.DecodeOfEncode : Prop :=
  ∀ i rest, i.wf = true → i.isEvent = false → decode (encode i ++ rest) = .ok (i, rest)

/-- R128 to R131, R144, R146: words of the encoding tables decode to the instructions they stand for. -/
def Obligations.DecodedWords : Prop :=
  decodeTableWord 32 0x80200010 = some (.add 0 (.n 0) (.q 0) (.q 1))
  ∧ decodeTableWord 32 0x86A307FB = some (.addi 2 (.n 3) (.q 1) (BitVec.ofInt 10 (-5)))
  ∧ decodeTableWord 32 0x98008234 = some (.limm 0 .push 0x8234)
  ∧ decodeTableWord 32 0xAA10FFFE = some (.br 0 0xFFFE)
  ∧ decodeTableWord 32 0xB2250207 = some (.crd 0 (.n 5) 0x207)
  ∧ decodeTableWord 32 0xB2252207 = none
  ∧ decodeTableWord 32 0xB8240BFE = some (.ld 0 (.n 4) (.q 2) 3 (BitVec.ofInt 8 (-2)))
  ∧ decodeTableWord 32 0xCC000538 = some (.vfadd 0 .push (.vq 1) (.v 3) 2)
  ∧ decodeTableWord 16 0x0824 = some (.cAdd (.q 0) (.n 2))
  ∧ decodeTableWord 16 0x0800 = some (.cAdd (.q 0) (.q 0))
  ∧ decodeTableWord 32 0xF8000000 = some (.eret 0 0)
  ∧ decodeTableWord 32 0xFC000000 = none

/-- R96, R106 (log entries 4 and 5): the canonical form of every memory, the model's own, is kept by every step: addresses strictly rising and no byte listed that an
unlisted address reads as. -/
def Obligations.MemoryFormKept : Prop :=
  ∀ s t, s.memoriesWf = true → step s = .next t → t.memoriesWf = true

/-- R307, R309, R313, R324, R331, R412, R416, R418: what reset leaves: the Collier alone runs, from index 0, with interrupts
disabled; no tile holds a vtile or runs a thread; no queue, launch, packet or message is there; SNS_WARN is 0x550 and SNS_CRIT
0x690; a fresh bucket is empty; and every memory has its canonical form. -/
def Obligations.ResetState : Prop :=
  State.reset.memoriesWf = true ∧ State.reset.cur = .collier ∧ State.reset.collier.running = true
  ∧ State.reset.collier.th.pc = 0 ∧ State.reset.collier.ie = false ∧ (∀ r, (State.reset.stoker r).running = false)
  ∧ (∀ site, (State.reset.tile site).occ = none ∧ ∀ k : Fin 8, (State.reset.tile site).slots[k].thread = false)
  ∧ State.reset.queues = [] ∧ State.reset.launches = [] ∧ State.reset.fabric = [] ∧ State.reset.flue = []
  ∧ State.reset.snsWarn = 0x550 ∧ State.reset.snsCrit = 0x690 ∧ State.reset.halted = false
  ∧ (∀ r, (State.reset.link r).toStoker = 16 ∧ (State.reset.link r).toCollier = 8)
  ∧ ∀ b : Nat, (Table.getD State.reset.buckets b {}).level = 0 ∧ (Table.getD State.reset.buckets b {}).rate = 0
    ∧ (Table.getD State.reset.buckets b {}).cap = 0

/-- R128, R129: where the halfwords at the program counter decode to an instruction, nothing is pending and no other step is
scheduled, a step executes that instruction, and then the rest of the module moves (log entry 2). A YIELD of a tile's slot first finds
noted which of the other slots issue their next instruction in its cycle (log entry 51, DEDUCED); before any other nothing changes. A
scheduled event is executed, unless it is one of the Collier's after a lockstep mismatch (R424) or with a boot image that has not verified
(R416); a scheduled agent becomes the current one; cycles and ticks pass; and memory errors, a failed self-test (log entry 62), the system routine (log entry 71), the tag of
a Speig command, the training of a peer link and test mode come as scheduled (log entry 39). -/
def Obligations.StepRunsDecodedInstruction : Prop :=
  (∀ s i rest, s.sched = [] → s.pendingAt s.cur = false → s.interrupted s.cur = false →
    (s.slot s.cur).pc.toNat < s.codeSize s.cur →
    let h := s.codeHalf s.cur (s.slot s.cur).pc.toNat
    let l := s.codeHalf s.cur ((s.slot s.cur).pc.toNat + 1)
    (h.toNat < 2 ^ 15 → decode [h] = .ok (i, rest) → step s = after (exec i (s.beforeIssue i)))
    ∧ (2 ^ 15 ≤ h.toNat → (s.slot s.cur).pc.toNat + 1 < s.codeSize s.cur → decode [h, l] = .ok (i, rest) →
      step s = after (exec i (s.beforeIssue i))))
  ∧ (∀ (i : Instr) (s : State), (∀ stl, i ≠ .yield stl) ∧ i ≠ .yield16 ∨ s.cur.isCore = true → s.beforeIssue i = s)
  ∧ (∀ (i : Instr) (s : State) (site : Nat) (k : Fin 8), (∃ stl, i = .yield stl) ∨ i = .yield16 → s.cur = .tile site k →
    s.beforeIssue i = s.setTile site { s.tile site with
      slots := Vector.ofFn fun j => { (s.tile site).slots[j] with ready := j != k && s.issuesAt site j s.readyCycle } })
  ∧ (∀ t, after (.next t) = .next t.background) ∧ (∀ f, after (.fault f) = .fault f)
  ∧ (∀ s i rest, s.sched = .event i :: rest → i.isEvent = true → (s.lockerr = false ∧ s.bootFailed = false) ∨ byCollier i = false →
      step s = exec i { s with sched := rest })
  ∧ (∀ s i rest, s.sched = .event i :: rest → s.lockerr = true ∨ s.bootFailed = true → byCollier i = true →
      step s = .next { s with sched := rest })
  ∧ (∀ s a rest, s.sched = .agent a :: rest → step s = .next { s with sched := rest, cur := a })
  ∧ (∀ s n rest, s.sched = .cycles n :: rest → step s = .next { s with sched := rest, cycle := s.cycle + n })
  ∧ (∀ s n rest, s.sched = .ticks n :: rest → step s = .next { s with sched := rest, tbOff := s.tbOff + n })
  ∧ (∀ s a rest, s.sched = .corrected a :: rest → step s = .next (State.corrected { s with sched := rest } a))
  ∧ (∀ s site w rest, s.sched = .upset site w :: rest → step s = .next (State.upset { s with sched := rest } site w))
  ∧ (∀ s w rest, s.sched = .upsetRim w :: rest → step s = .next (State.upsetRim { s with sched := rest } w))
  ∧ (∀ s tag rest, s.sched = .speigTag tag :: rest → step s = .next { s with sched := rest, speigTag := tag })
  ∧ (∀ s link rest, s.sched = .peerLinkUp link :: rest → step s = .next (State.peerLinkUp { s with sched := rest } link))
  ∧ (∀ s r y on rest, s.sched = .testMode r y on :: rest → step s = .next (State.testMode { s with sched := rest } r y on))
  ∧ (∀ s site rest, s.sched = .selfTestFails site :: rest → step s = .next (State.selfTestFails { s with sched := rest } site))
  ∧ (∀ s site k rest, s.sched = .routine site k :: rest → step s = State.routineStep { s with sched := rest } site k)

/-- R139: no instruction and no step of the module is refused, in any state. -/
def Obligations.NothingIsRefused : Prop :=
  (∀ i s r, exec i s ≠ .refused r) ∧ ∀ s r, step s ≠ .refused r

/-- R273, R281: in USER mode an instruction of major 0x3C or above raises the privileged cause, with its word as TVAL and its
own index as return point, whatever its operands. -/
def Obligations.PrivilegedInstructions : Prop :=
  ∀ i h l s site k, i.wf = true → encode i = [h, l] → 0x3C ≤ h.toNat / 2 ^ 9 % 64 → s.cur = .tile site k →
    (s.slot s.cur).sys = false → s.mayIssue = true →
    exec i s = .next (s.takeTrap .privileged (ofN (h.toNat * 65536 + l.toNat)) (s.slot s.cur).pc)

/-- R281 to R285, R310: taking a trap. A slot of a tile in USER mode saves the return point in EPC, the operand in TVAL and the
code, ASYNC, RES and SLOT in CAUSE, clears the cause's PEND bit, and goes to SYS mode at index 0, whose first instruction issues
8 cycles later; every other register of it, every other slot and the memory stay. In SYS mode the trap is a double fault. A core
saves IE in PIE, clears IE and continues at index 0x0010. -/
def Obligations.TrapEntry : Prop :=
  (∀ (s : State) (site : Nat) (k : Fin 8) (c : Cause) (tv : Word) (ret : Half), s.cur = .tile site k →
    let s1 := s.advance s.cur (s.slot s.cur).lastDue
    s1.awaitsResult s.cur = false →
    ((s.slot s.cur).sys = false → ((s.tile site).guarded = false ∨ c.isAsync = true ∨ c = .brk ∨ c = .counter) →
      s.takeTrap c tv ret = s1.enterTile site k c tv ret)
    ∧ ((s.slot s.cur).sys = true → c ≠ .restore → s.takeTrap c tv ret = s1.doubleFault site k c tv ret))
  ∧ (∀ (s : State) (site : Nat) (k : Fin 8) (c : Cause) (tv : Word) (ret : Half),
    let sl := (s.tile site).slots[k]
    let u := ((s.enterTile site k c tv ret).tile site).slots[k]
    u.epc = ret ∧ u.tval = tv ∧ u.cause.toNat = c.code + c.isAsync.toNat * 2 ^ 8 + sl.res.toNat * 2 ^ 9 + k.val * 2 ^ 10
    ∧ u.sys = true ∧ u.pc = 0 ∧ u.readyAt = s.cycle + 8
    ∧ (∀ b : Fin 6, u.pend.getLsbD b.val = (sl.pend.getLsbD b.val && !decide (c.pendBit = some b)))
    ∧ u.n = sl.n ∧ u.sn = sl.sn ∧ u.q = sl.q ∧ u.sq = sl.sq ∧ u.vq = sl.vq ∧ u.m1 = sl.m1 ∧ u.m2 = sl.m2 ∧ u.m3 = sl.m3
    ∧ u.lr = sl.lr ∧ u.lc0 = sl.lc0 ∧ u.lc1 = sl.lc1 ∧ u.vt = sl.vt ∧ u.rnd = sl.rnd ∧ u.fstat = sl.fstat
    ∧ ((s.enterTile site k c tv ret).tile site).spad = (s.tile site).spad
    ∧ ∀ j, j ≠ k → ((s.enterTile site k c tv ret).tile site).slots[j] = (s.tile site).slots[j])
  ∧ (∀ (s : State) (site : Nat) (k : Fin 8) (c : Cause) (tv : Word) (ret : Half),
    let u := s.doubleFault site k c tv ret
    (u.tile site).stop = true ∧ (u.tile site).faulted = true ∧ (u.tile site).slots[k].wait = .dead
    ∧ u.flue = s.flue ++ [(causeWord c.code c.isAsync (s.tile site).slots[k].res k true).setWidth 64, tv, ret.setWidth 64].map
      fun v => { src := site, dst := stokerCode (regionOf site), type := 0x03, tag := 31, payload := v })
  ∧ ∀ (s : State) (c : Cause) (tv : Word) (ret : Half), s.cur.isCore = true →
    let x := s.core s.cur
    let u := (s.takeTrap c tv ret).core s.cur
    u.pie = x.ie ∧ u.ie = false ∧ u.th.epc = ret ∧ u.th.tval = tv ∧ u.th.pc = 0x0010
    ∧ u.th.cause.toNat = c.code + c.isAsync.toNat * 2 ^ 8 ∧ u.mem = x.mem

/-- R62, R63: the checks of a pointer in a tile, in the order of the table, for an access of n bytes aligned to n bytes. The
private alias and a vtile's scratchpad take offsets below 128 KiB; a vtile number beyond the launch is unmapped, with the number
as TVAL; HBM takes 48 address bits; SPACE 3 with index 0 is the host aperture,
and any other index is a fault. -/
def Obligations.PointerChecks : Prop :=
  ∀ s p n, n ∈ [1, 2, 4, 8] → s.cur.isCore = false →
    let a := p.toNat % 2 ^ 56
    let vt := a / 2 ^ 32
    let off := a % 2 ^ 32
    let run := placeOf anySpace p n n s
    (p.toNat / 2 ^ 56 % 4 = 2 →
      (131072 < a + n → run = .error (.trap .bounds p))
      ∧ (a + n ≤ 131072 → a % n ≠ 0 → run = .error (.trap .alignment p))
      ∧ (a + n ≤ 131072 → a % n = 0 → run = .ok (.priv a, s)))
    ∧ (p.toNat / 2 ^ 56 % 4 = 1 →
      (131072 < off + n → run = .error (.trap .bounds p))
      ∧ (off + n ≤ 131072 → (s.launch (s.tile s.cur.site).name.1).pkt.vtiles ≤ vt → run = .error (.trap .unmapped (ofN vt)))
      ∧ (off + n ≤ 131072 → vt < (s.launch (s.tile s.cur.site).name.1).pkt.vtiles → off % n ≠ 0 →
        run = .error (.trap .alignment p))
      ∧ (off + n ≤ 131072 → vt < (s.launch (s.tile s.cur.site).name.1).pkt.vtiles → off % n = 0 →
        run = .ok (.vtile vt off, s)))
    ∧ (p.toNat / 2 ^ 56 % 4 = 0 →
      (2 ^ 48 ≤ a → run = .error (.trap .hbm p))
      ∧ (a < 2 ^ 48 → a % n ≠ 0 → run = .error (.trap .alignment p))
      ∧ (a < 2 ^ 48 → a % n = 0 → run = .ok (.hbm a, s)))
    ∧ (p.toNat / 2 ^ 56 % 4 = 3 →
      (a < 2 ^ 48 → a % n = 0 → run = .ok (.aperture 0 a, s))
      ∧ (2 ^ 48 ≤ a → run = .error (.trap .hbm p))
      ∧ (a < 2 ^ 48 → a % n ≠ 0 → run = .error (.trap .alignment p)))

/-- R38 to R41, R135, R141: where a result goes. A push makes every older entry one age older and the result the youngest; a
discarded result changes nothing; a named register reads as the result, at once for latency 1, after the latency otherwise, and
a read before that waits; every other named register stays. -/
def Obligations.ResultsLand : Prop :=
  ∀ (s : State) (lam : Nat) (d : Dst) (v : Word),
    let sl := s.slot s.cur
    let u := s.withResult lam 0 d v
    let x := u.slot s.cur
    (d = .discard → x = sl)
    ∧ (d = .push → x.queue[0].val = v ∧ x.queue[0].pend = 0 ∧ x.queue[0].ready = (if lam ≤ 1 then 0 else s.cycle + lam)
      ∧ ∀ i : Fin 15, x.queue[i.succ] = sl.queue[i.castSucc])
    ∧ ∀ k, d = .n k →
      (lam ≤ 1 → readNamed k u = .ok (v, u) ∧ ∀ j, j ≠ k → x.n[j] = sl.n[j] ∧ x.sn[j] = sl.sn[j])
      ∧ (1 < lam → sl.flights = [] → (sl.sys = true ∨ sl.nfull.getLsbD k.val = true) →
        x.n = sl.n ∧ x.sn = sl.sn
        ∧ ∃ w, awaitNamed k u = .ok ((), w) ∧ readNamed k w = .ok (v, w) ∧ s.cycle + lam ≤ w.cycle)

/-- The frame of the register-only instructions (R38, R39): the integer, field, pointer, immediate, literal, conditional and
floating-point instructions, fused ones and 16-bit forms among them, that complete change their destination, the program counter and loop levels, what results issued earlier land in,
and what their sources consume; every byte of memory and every other register stays. -/
def Obligations.RegisterOnlyFrame : Prop :=
  ∀ s u d, d.legal = true →
    ((∃ r ∈ intRows ++ divRows ++ fieldRows, ∃ stl a b w, s.admits (opA r.major r.sub stl d.code a.code b.code) ∧
        read2 a b s.opened = .ok w ∧ exec (r.make stl d a b) s = .next u)
      ∨ (∃ r ∈ fpRows2, ∃ stl a b w, s.admits (opA 0x0F r.sub stl d.code a.code b.code) ∧
        read2 a b s.opened = .ok w ∧ exec (r.make stl d a b) s = .next u)
      ∨ (∃ r ∈ unaryRows, ∃ stl a w, s.admits (opA r.major r.sub stl d.code a.code 0) ∧
        read1 a s.opened = .ok w ∧ exec (r.make stl d a) s = .next u)
      ∨ (∃ r ∈ fpRows1, ∃ stl a w, s.admits (opA 0x0F r.sub stl d.code a.code 0) ∧
        read1 a s.opened = .ok w ∧ exec (r.make stl d a) s = .next u)
      ∨ (∃ r ∈ fmaRows, ∃ stl a b c w, s.admits (opF 0x10 r.sub stl d.code a.code b.code c) ∧
        read3 a b (.q (Fin.ofNat 16 c.toNat)) s.opened = .ok w ∧ exec (r.make stl d a b c) s = .next u)
      ∨ (∃ r ∈ immRows ++ shiftRows, ∃ stl a i w, (i.toNat < 64 ∨ r.major < 7 ∨ 9 < r.major) ∧
        s.admits (opI r.major stl d.code a.code i) ∧ read1 a s.opened = .ok w ∧ exec (r.make stl d a i) s = .next u)
      ∨ (∃ stl k, s.admits (opL 0x0C stl d.code k) ∧ exec (.limm stl d k) s = .next u)
      ∨ (∃ stl r k s1 w, d = .n r ∧ s.admits (opL 0x0D stl d.code k) ∧ awaitNamed r s.opened = .ok ((), s1) ∧
        readNamed r s1 = .ok w ∧ exec (.limh stl (.n r) k) s = .next u)
      ∨ (∃ stl a b s1 s2 x w, awaitOld d s.opened = .ok ((), s1) ∧ read2 a b s1 = .ok (x, s2) ∧ readOld d s2 = .ok w ∧
        (s.admits (opA 0x01 12 stl d.code a.code b.code) ∧ exec (.cmov stl d a b) s = .next u
          ∨ s.admits (opA 0x02 7 stl d.code a.code b.code) ∧ exec (.ins stl d a b) s = .next u))
      ∨ (d = .push ∧ ∃ r ∈ shortRows, ∃ a b w,
        s.admits (op16 r.major r.sub (r.op * 2048 + a.code * 64 + b.code * 2 + r.low)) ∧
        read2 a.toSrc b.toSrc s.opened = .ok w ∧ exec (r.make a b) s = .next u)
      ∨ (d = .push ∧ ∃ (a : Src5) (w : Word × State), read1 a.toSrc s.opened = .ok w ∧
        (s.admits (op16 0x00 3 (0x2800 + a.code * 64)) ∧ exec (.cMov a) s = .next u
          ∨ ∃ i, s.admits (op16 0x03 0 (0x3000 + a.code * 64 + i.toNat)) ∧ exec (.cAddi a i) s = .next u
            ∨ s.admits (op16 0x07 0 (0x4000 + a.code * 64 + i.toNat)) ∧ exec (.cShli a i) s = .next u
            ∨ s.admits (op16 0x08 0 (0x4800 + a.code * 64 + i.toNat)) ∧ exec (.cShri a i) s = .next u))
      ∨ (d = .push ∧ ∃ i, s.admits (op16 0x0C 0 (0x3800 + i.toNat)) ∧ exec (.cLimm i) s = .next u)) →
    s.registerFrame u d

/-- The frame of the scalar accesses (R97, R101, R105): an access on the own banks changes no byte of the scratchpad but those
that it stores to, at the address that its own operands give, and a load none; one that travels changes no byte of any memory as
it issues, to another tile, to rim memory or to an aperture; one of a core, in its local memory, in rim memory or in host memory, changes
no byte but those it stores to. The registers of the slot stay but its destination. -/
def Obligations.AccessFrame : Prop :=
  ∀ i f, accessShape i = some f → f.dst.legal = true → ∀ s p m r pl t, s.admits f.op →
    f.args s.opened = .ok ((p, m), t) → f.rule t = .ok (r, t) → placeOf r p (f.bytes p) (f.bytes p) t = .ok (pl, t) →
    inPhase t = .ok (false, t) → accessHeld f pl t = .ok ((), t) →
    (∀ off u b h w, pl = .priv off → ownTurn m off t = .ok ((), u) → (u.tile u.cur.site).perform m off = .ok b h →
      exec i s = .next w → s.bytesFrame w (m.writes off) ∧ (s.slot s.cur).frame (w.slot s.cur) f.dst
        ∧ ∀ x, x ≠ s.cur.site → w.tile x = s.tile x)
    ∧ (∀ dst u w,
      ((∃ vt off, pl = .vtile vt off ∧ dst = .vtile (t.tile t.cur.site).name.1 vt)
        ∨ (∃ va, pl = .hbm va ∧ dst = .rim ∧
          t.translates (t.launch (t.tile t.cur.site).name.1).asid (m.reads va ++ m.writes va) (m.writes va) = true)
        ∨ (∃ x off, pl = .aperture x off ∧ dst = .rim ∧ t.cur.isCore = false ∧
          t.hostInside (t.launch (t.tile t.cur.site).name.1).part (m.reads off ++ m.writes off) = true)) →
      remoteAccess m p dst (landingOf f.dst) f.wants t = .ok ((), u) → exec i s = .next w →
      s.bytesFrame w [] ∧ (s.slot s.cur).frame (w.slot s.cur) f.dst ∧ w.hbm = s.hbm ∧ w.host = s.host
        ∧ ∀ x, x ≠ s.cur.site → w.tile x = s.tile x)
    ∧ (∀ a w, pl = .phys a → hbmEccHit t.hbmEcc (fun x => x) (m.reads a) = false → exec i s = .next w →
      w.tiles = s.tiles ∧ w.host = s.host ∧ (w.core s.cur).mem = (s.core s.cur).mem ∧ (s.slot s.cur).frame (w.slot s.cur) f.dst
        ∧ ∀ x, (∀ z ∈ m.writes a, x < z.1 ∨ z.1 + z.2 ≤ x) → Memory.get w.hbm x = Memory.get s.hbm x)
    ∧ (∀ x off w, pl = .aperture x off → t.cur.isCore = true → exec i s = .next w →
      w.tiles = s.tiles ∧ w.hbm = s.hbm ∧ (w.core s.cur).mem = (s.core s.cur).mem ∧ (s.slot s.cur).frame (w.slot s.cur) f.dst
        ∧ ∀ y, (∀ z ∈ m.writes off, y < z.1 ∨ z.1 + z.2 ≤ y) → Memory.get w.host y = Memory.get s.host y)
    ∧ (∀ a w, pl = .coreLocal a → exec i s = .next w →
      w.tiles = s.tiles ∧ w.hbm = s.hbm ∧ w.host = s.host ∧ (s.slot s.cur).frame (w.slot s.cur) f.dst
        ∧ ∀ x, (∀ z ∈ m.writes a, x < z.1 ∨ z.1 + z.2 ≤ x) →
          Memory.get (w.core s.cur).mem x = Memory.get (s.core s.cur).mem x)

/-! ### Completion -/

/-- R168, R260, R261, R263 to R266, R287, R403: LOOP with both levels free and a count, GRES in the surrogate stage, GEND of an
accepted check with nothing left to issue, GQRY in a guarded launch, GWIN with a window of whole lines, TRAP, BRK and the short
BRK where no result is waited for, RDTB with nothing outstanding, TRMARK with a source that is there, and ERET with mode 0
complete. -/
def Claim.ControlFormsComplete : Prop :=
  (∀ stl c o s x t, s.admits (opL 0x17 stl c.code o) → read1 c s.opened = .ok (x, t) → 2 ≤ o.toInt →
    (t.slot t.cur).lc0.count.toNat = 0 → (t.slot t.cur).lc1.count.toNat = 0 → x.toNat % 2 ^ 32 ≠ 0 →
    ∃ u, exec (.loop stl c o) s = .next u ∧ u.cur = t.cur ∧ (u.slot u.cur).lc0.count.toNat = x.toNat % 2 ^ 32
      ∧ (u.slot u.cur).lc0.stop = movedPc (t.slot t.cur).pc o.toNat
      ∧ (u.slot u.cur).pc = movedPc (t.slot t.cur).pc 2)
  ∧ (∀ stl s, s.admits (opA 0x3A 0 stl 0 0 0) → (s.opened.tile s.opened.cur.site).guard.stage = .surrogate →
    ∃ u, exec (.gres stl) s = .next u ∧ (u.tile u.cur.site).guard.stage = .check)
  ∧ (∀ stl s, s.admits (opA 0x3A 1 stl 0 0 0) →
    let t := s.opened.tile s.opened.cur.site
    t.guard.stage = .check → t.guard.caught = [] →
    residualReason t.gresid (s.opened.launch t.name.1).pkt.gtol = none →
    ∃ u, exec (.gend stl) s = .next (finish (opA 0x3A 1 stl 0 0 0) .seq u) ∧ u = s.opened.acceptPhase s.opened.cur.site)
  ∧ (∀ stl d s, d.legal = true → s.admits (opA 0x3A 2 stl d.code 0 0) →
    let t := s.opened.tile s.opened.cur.site
    (s.opened.launch t.name.1).pkt.guarded = true →
    ∃ v, exec (.gqry stl d) s = .next (finish (opA 0x3A 2 stl d.code 0 0) .seq (s.opened.withResult 1 0 d v))
      ∧ v.toNat % 256 = t.guard.stage.code)
  ∧ (∀ stl a b s x y t, s.admits (opA 0x3A 3 stl 0 a.code b.code) → read2 a b s.opened = .ok ((x, y), t) →
    let c := t.tile t.cur.site
    let l := t.launch c.name.1
    c.guarded = true → x.toNat % 128 = 0 → y.toNat % 128 = 0 → y.toNat ≠ 0 → x.toNat + y.toNat ≤ 131072 →
    (x.toNat + y.toNat ≤ l.pkt.guardbase * 128 ∨ (l.pkt.guardbase + l.pkt.guardsize) * 128 ≤ x.toNat) →
    ∃ u, exec (.gwin stl a b) s = .next u ∧ (u.tile u.cur.site).guard.window = some (x.toNat, y.toNat))
  ∧ (∀ (i : Instr) (o : Op) (c : Cause) (b : BitVec 6),
    (∃ stl, i = .trap stl b ∧ o = opA 0x3B 0 stl 0 0 b.toNat ∧ c = .trap)
      ∨ (∃ stl, i = .brk stl b ∧ o = opA 0x3B 1 stl 0 0 b.toNat ∧ c = .brk)
      ∨ (i = .brk16 ∧ o = op16 0x3B 1 5 ∧ c = .brk ∧ b = 0) →
    ∀ s, s.admits o → s.opened.trapWaits c = false →
      ∃ u : State, exec i s = .next (u.takeTrap c (ofN b.toNat) ((s.opened.slot s.opened.cur).next o.len).pc) ∧ u.cur = s.opened.cur)
  ∧ (∀ stl d s, d.legal = true → s.admits (opA 0x3B 2 stl d.code 0 0) →
    (∀ f ∈ (s.opened.slot s.opened.cur).flights, f.due ≠ none) →
    ∃ u : State, exec (.rdtb stl d) s = .next (finish (opA 0x3B 2 stl d.code 0 0) .seq (u.withResult 1 0 d u.tb)) ∧ u.cur = s.opened.cur)
  ∧ (∀ stl a (b : BitVec 6) s v t, s.admits (opA 0x3B 3 stl 0 a.code b.toNat) → read1 a s.opened = .ok (v, t) →
    ∃ u, exec (.trmark stl a b) s = .next (finish (opA 0x3B 3 stl 0 a.code b.toNat) .seq u) ∧ u.cur = t.cur)
  ∧ (∀ stl (b : BitVec 6) s, s.admits (opA 0x3C 0 stl 0 0 b.toNat) → b.toNat = 0 →
    ∃ u, exec (.eret stl b) s = .next u ∧ u.cur = s.opened.cur
      ∧ (u.slot u.cur).pc = (s.opened.slot s.opened.cur).epc
      ∧ (u.cur.isCore = false → (u.slot u.cur).sys = false)
      ∧ (u.cur.isCore = true → (u.core u.cur).ie = (s.opened.core s.opened.cur).pie))

/-- R20, R24, R27, R35, R121, R141, R170, R172, R208, R209, R225, R227, R229, R230: the steps of a tile, its matrix engine and
its copy engine complete: an aged head, a dispatch, the start of resident threads, a trap entry, a retirement, the end of a
YIELD, a fixed-latency result, a BARWAIT that its own bank's word ends, a matrix grant, a free matrix engine, a write of MSLOT,
the landing of a piece of a copy, the error, the follow-on and the completion of a job, and the fetch and the arrival of a stream's
element. -/
def Claim.BackgroundFormsComplete : Prop :=
  (∀ site iq s, (s.tile site).iqs[iq].aged = none → (s.tile site).iqs[iq].msgs ≠ [] →
    (s.tile site).iqs[iq].since + 4096 ≤ s.cycle →
    ∃ t, exec (.headAged site iq) s = .next t ∧ (t.tile site).iqs[iq].aged = some ((s.tile site).iqs[iq].since + 4096))
  ∧ (∀ site s i k m rest, s.mayDispatch site = true → (s.launch (s.tile site).name.1).replaying = false →
    (s.tile site).pick s.cycle = some i → (List.finRange 8).find? (s.tile site).activationFree = some k →
    (s.tile site).iqs[i].msgs = m :: rest →
    ∃ t, exec (.dispatch site) s = .next t ∧ (t.tile site).slots[k].thread = true ∧ (t.tile site).slots[k].msg = some m)
  ∧ (∀ site s, (s.tile site).fresh = true → (s.tile site).pdone = true → (s.tile site).occ.isSome = true →
    ∃ t, exec (.residentThreadStart site) s = .next t ∧ (t.tile site).fresh = false)
  ∧ (∀ site k s, s.pendingAt (.tile site k) = true → ∃ t, exec (.trapEntry site k) s = .next t ∧ t = s.takePending site k)
  ∧ (∀ site s, (s.tile site).slots[(0 : Fin 8)].thread = true → (s.tile site).slots[(0 : Fin 8)].sys = false →
    (s.tile site).slots[(0 : Fin 8)].wait = .donef → (s.tile site).stop = false → s.halted = false →
    s.retireReady site 0 = true →
    ∃ t, exec (.vtileRetire site) s = .next t
      ∧ t = (s.advance (.tile site 0) (s.tile site).slots[(0 : Fin 8)].lastDue).retireVtile site)
  ∧ (∀ site k s c m, (s.tile site).slots[k].yieldAt = some (c, m) → c + 8 ≤ s.cycle →
    ∃ t, exec (.yieldTimeout site k) s = .next t ∧ (t.tile site).slots[k].yieldAt = none)
  ∧ (∀ who s, (∃ f ∈ (s.slot who).flights, f.due ≠ none) →
    ∃ n, exec (.fixedLatencyCompletion who) s = .next (s.advance who n)
      ∧ (∃ f ∈ (s.slot who).flights, f.due = some n) ∧ ∀ f ∈ (s.slot who).flights, ∀ d, f.due = some d → n ≤ d)
  ∧ (∀ site k s stl d a b p ph off t u b' h,
    let s1 : State := { s with cur := .tile site k }
    (s.tile site).slots[k].sys = false → (s.tile site).slots[k].wait = .barwait → s.pendingAt (.tile site k) = false →
    s.barwaitAt (.tile site k) = some (stl, d, a, b) → d.legal = true → s1.admits (opA 0x18 11 stl d.code a.code b.code) →
    read2 a b s1.opened = .ok ((p, ph), t) → placeOf atomicSpace p 8 8 t = .ok (.priv off, t) →
    accessGate false (.priv off) t = .ok ((), t) → ownTurn (.load 8 false) off t = .ok ((), u) →
    (u.tile u.cur.site).perform (.load 8 false) off = .ok b' h → (ofN h.val).toNat / 2 ^ 63 ≠ ph.toNat % 2 →
    ∃ w : State, exec (.barwaitProbe site k) s
      = .next { finish (opA 0x18 11 stl d.code a.code b.code) .seq (w.withResult 1 0 d (ofN h.val)) with cur := s.cur }
      ∧ w.cur = u.cur)
  ∧ (∀ site s k t, s.halted = false → (s.tile site).mfree ≤ s.cycle → s.pickMatrix site = some (k, t) →
    (s.followReady site k = true → ∃ u, exec (.matrixGrant site) s = .next u ∧ u = (s.setTile site t).runFollow site k)
    ∧ ∀ c s4 u n fl,
      let s1 : State := { s.setTile site t with cur := .tile site k }
      s.followReady site k = false → (t.slots[k].mheld).bind matrixOf = some c → s1.admits c.op →
      fenceGate true true s1.opened = .ok ((), s1.opened) → awaitSources c s1.opened = .ok ((), s4) →
      matrixEffect c (read1 c.s) s4 = .ok ((n, fl), u) →
      ∃ w, exec (.matrixGrant site) s = .next { finish c.op .seq w with cur := s.cur } ∧ (w.slot w.cur).mheld = none)
  ∧ (∀ site s, ∃ t, exec (.matrixEngineFree site) s = .next t ∧ (s.tile site).mfree ≤ t.cycle)
  ∧ (∀ site v s, ∃ t, exec (.mslotWrite site v) s = .next t ∧ (t.tile site).mslot = v ∧ (t.tile site).mptr = 0)
  ∧ (∀ site ticket s j before, (s.tile site).findJob ticket = some (j, before) →
    (j.written = false → (s.halted = false ∨ j.moved % j.rowLen ≠ 0) →
      (∀ u, s.copyPiece site j before = .ok u () → ∃ t, exec (.copyLineLanding site ticket) s = .next t ∧ t = u)
      ∧ ∀ bits u b, s.copyPiece site j before = .fails u b →
        ∃ x, exec (.copyJobError site ticket bits) s = .next (u.setJob site x) ∧ x.failed = true ∧ x.follow = .none)
    ∧ (j.written = true → j.failed = false → j.follow = .waiting →
      ∃ x, exec (.followOnCommand site ticket) s = .next (s.setJob site x) ∧ x.follow = .ready)
    ∧ (j.written = true → j.out = 0 → (j.follow = .none ∨ j.follow = .finished) →
      (j.bar = none → ∃ t, exec (.copyJobCompletion site ticket) s = .next t ∧ t = s.finishJob site j)
      ∧ ∀ off t r, j.bar = some off → s.jobReleased site j = true →
        ({ s.tile site with fe := markFull (s.tile site).fe j.marked } : Tile).perform .barArrive off = .ok t r →
        ∃ u, exec (.copyJobCompletion site ticket) s = .next u ∧ u = (s.setTile site t).finishJob site j))
  ∧ (∀ site k s b, (s.tile site).streams[k] = some b → b.failed = false →
    (s.halted = false → b.asked < b.count → b.asked < b.next + 4 →
      ∃ t, exec (.streamFetch site k) s = .next t ∧ (t.tile site).streams[k] = some { b with asked := b.asked + 1 })
    ∧ ∀ u v,
      let e := b.next + b.landed.length
      b.out = 0 → e < b.asked → s.streamData site b = .ok u v → streamEcc s site b e = false →
      ∃ t x, exec (.streamElementArrival site k) s = .next t
        ∧ (t.tile site).streams[k] = some { b with landed := b.landed ++ [x], part := (0, 0, 0) } ∧ x.1 = BitVec.ofNat 4096 v)

/-- The claims ControlFormsComplete and BackgroundFormsComplete together. -/
def Obligations.EngineAndControlFormsComplete : Prop := Claim.ControlFormsComplete ∧ Claim.BackgroundFormsComplete

end
end

