-- ==== Sys2Proof/Laws/Memory.lean ====
section
/-! SUPPORT. Laws of tables and memories: reading after writing, and that every operation keeps the canonical form. -/

namespace Sys2Proof.Machine

/-! ### Tables -/

/-- A row read back after it is written. -/
@[simp] theorem Table.get?_put_same {α : Type} (t : Table α) (k : Nat) (v : α) : Table.get? (Table.put t k v) k = some v := by
  induction t with
  | nil => simp [Table.put, Table.get?]
  | cons r t ih =>
    obtain ⟨j, w⟩ := r
    simp only [Table.put]
    split
    · simp [Table.get?]
    · split
      · simp [Table.get?]
      · rename_i h; simp only [Table.get?, h]; simpa using ih

/-- A row other than the one written stays. -/
theorem Table.get?_put_other {α : Type} (t : Table α) (k j : Nat) (v : α) (h : j ≠ k) :
    Table.get? (Table.put t k v) j = Table.get? t j := by
  induction t with
  | nil => simp [Table.put, Table.get?, Ne.symm h]
  | cons r t ih =>
    obtain ⟨i, w⟩ := r
    simp only [Table.put]
    split
    · simp [Table.get?, Ne.symm h]
    · split
      · rename_i hi
        have : i = k := by simpa using hi
        subst this
        simp [Table.get?, Ne.symm h]
      · simp only [Table.get?]
        split
        · rfl
        · exact ih

/-- A row read back with a default. -/
@[simp] theorem Table.getD_put_same {α : Type} (t : Table α) (k : Nat) (v d : α) : Table.getD (Table.put t k v) k d = v := by
  simp [Table.getD]

/-- A row other than the one written, with a default. -/
theorem Table.getD_put_other {α : Type} (t : Table α) (k j : Nat) (v d : α) (h : j ≠ k) :
    Table.getD (Table.put t k v) j d = Table.getD t j d := by
  simp [Table.getD, Table.get?_put_other t k j v h]

/-! ### Bytes -/

/-- No cell of a list has an address. -/
theorem Memory.get_eq_zero (m : Memory) (a : Nat) (h : ∀ c ∈ m, c.1 ≠ a) : Memory.get m a = 0 := by
  induction m with
  | nil => rfl
  | cons c m ih =>
    simp only [Memory.get]
    have hc : c.1 ≠ a := h c (by simp)
    simp only [beq_iff_eq, hc, if_false]
    exact ih fun d hd => h d (by simp [hd])

/-- A byte of joined lists, where the first has no cell for it. -/
theorem Memory.get_append_right (m n : Memory) (a : Nat) (h : ∀ c ∈ m, c.1 ≠ a) : Memory.get (m ++ n) a = Memory.get n a := by
  induction m with
  | nil => rfl
  | cons c m ih =>
    have hc : c.1 ≠ a := h c (by simp)
    simp only [List.cons_append, Memory.get, beq_iff_eq, hc, if_false]
    exact ih fun d hd => h d (by simp [hd])

/-- A byte of joined lists, where the second has no cell for it. -/
theorem Memory.get_append_left (m n : Memory) (a : Nat) (h : ∀ c ∈ n, c.1 ≠ a) : Memory.get (m ++ n) a = Memory.get m a := by
  induction m with
  | nil => simpa [Memory.get] using Memory.get_eq_zero n a h
  | cons c m ih => simp only [List.cons_append, Memory.get, ih]

/-- A byte of the cells that a test keeps. -/
theorem Memory.get_filter (m : Memory) (p : Host.Cell → Bool) (a : Nat) (h : ∀ c, c.1 = a → p c = true) :
    Memory.get (m.filter p) a = Memory.get m a := by
  induction m with
  | nil => rfl
  | cons c m ih =>
    by_cases hc : c.1 = a
    · simp [Memory.get, h c hc, hc]
    · by_cases hp : p c = true
      · simp [Memory.get, hp, hc, ih]
      · have hp' : p c = false := by simpa using hp
        rw [List.filter_cons_of_neg (by simp [hp'])]
        simp [Memory.get, hc, ih]

/-- The addresses of written cells. -/
theorem Memory.cells_range (a n v : Nat) : ∀ c ∈ Memory.cells a n v, a ≤ c.1 ∧ c.1 < a + n := by
  induction n generalizing a v with
  | zero => simp [Memory.cells]
  | succ n ih =>
    intro c hc
    simp only [Memory.cells] at hc
    split at hc
    · have := ih (a + 1) (v / 256) c hc; omega
    · rcases List.mem_cons.mp hc with rfl | hc
      · simp
      · have := ih (a + 1) (v / 256) c hc; omega

/-- A byte of the written cells. -/
theorem Memory.get_cells (a n v i : Nat) (h : i < n) : Memory.get (Memory.cells a n v) (a + i) = BitVec.ofNat 8 (v / 256 ^ i) := by
  induction n generalizing a v i with
  | zero => omega
  | succ n ih =>
    have hz : ∀ x, ∀ c ∈ Memory.cells (a + 1) n x, c.1 ≠ a := by
      intro x c hc; have := Memory.cells_range _ _ _ c hc; omega
    cases i with
    | zero =>
      simp only [Memory.cells, Nat.add_zero, pow_zero, Nat.div_one]
      split
      · rename_i h0
        rw [Memory.get_eq_zero _ _ (hz _)]
        apply BitVec.eq_of_toNat_eq
        simp_all
      · simp [Memory.get]
    | succ i =>
      have e : a + (i + 1) = a + 1 + i := by omega
      have hp : v / 256 ^ (i + 1) = v / 256 / 256 ^ i := by rw [Nat.div_div_eq_div_mul, pow_succ']
      simp only [Memory.cells]
      split
      · rw [e, hp]; exact ih _ _ _ (by omega)
      · rw [hp]
        simp only [Memory.get]
        have : ¬ a = a + (i + 1) := by omega
        simp only [beq_iff_eq, this, if_false]
        rw [e]; exact ih _ _ _ (by omega)

/-- A byte inside a write. -/
theorem Memory.get_write_inside (m : Memory) (a n v i : Nat) (h : i < n) :
    Memory.get (Memory.write m a n v) (a + i) = BitVec.ofNat 8 (v / 256 ^ i) := by
  have hl : ∀ c ∈ m.filter (fun c => Nat.blt c.1 a), c.1 ≠ a + i := by
    intro c hc; have := (List.mem_filter.mp hc).2; simp at this; omega
  have hr : ∀ c ∈ m.filter (fun c => Nat.ble (a + n) c.1), c.1 ≠ a + i := by
    intro c hc; have := (List.mem_filter.mp hc).2; simp at this; omega
  rw [Memory.write, Memory.get_append_right _ _ _ hl, Memory.get_append_left _ _ _ hr, Memory.get_cells a n v i h]

/-- A byte outside a write stays. -/
theorem Memory.get_write_outside (m : Memory) (a n v b : Nat) (h : b < a ∨ a + n ≤ b) :
    Memory.get (Memory.write m a n v) b = Memory.get m b := by
  have hc : ∀ c ∈ Memory.cells a n v, c.1 ≠ b := by
    intro c hc; have := Memory.cells_range _ _ _ c hc; omega
  rcases h with h | h
  · have hr : ∀ c ∈ m.filter (fun c => Nat.ble (a + n) c.1), c.1 ≠ b := by
      intro c hc; have := (List.mem_filter.mp hc).2; simp at this; omega
    rw [Memory.write, Memory.get_append_left]
    · exact Memory.get_filter _ _ _ fun c e => by simp [e, h]
    · intro c hm; rcases List.mem_append.mp hm with hm | hm
      · exact hc c hm
      · exact hr c hm
  · have hl : ∀ c ∈ m.filter (fun c => Nat.blt c.1 a), c.1 ≠ b := by
      intro c hc; have := (List.mem_filter.mp hc).2; simp at this; omega
    rw [Memory.write, Memory.get_append_right _ _ _ hl, Memory.get_append_right _ _ _ hc]
    exact Memory.get_filter _ _ _ fun c e => by simp [e, h]

/-! ### The canonical form -/

/-- The canonical form as order and bounds. -/
theorem Memory.wfFrom_iff (lo : Nat) (m : Memory) :
    Memory.wfFrom lo m = true ↔ m.Pairwise (fun c d => c.1 < d.1) ∧ ∀ c ∈ m, lo ≤ c.1 ∧ c.2 ≠ 0 := by
  induction m generalizing lo with
  | nil => simp [Memory.wfFrom]
  | cons c m ih =>
    simp only [Memory.wfFrom, Bool.and_eq_true, bne_iff_ne, ne_eq, ih, List.pairwise_cons, List.mem_cons, Nat.ble_eq]
    constructor
    · rintro ⟨⟨hl, hc⟩, hp, hm⟩
      refine ⟨⟨fun d hd => ?_, hp⟩, ?_⟩
      · have := (hm d hd).1; omega
      · rintro d (rfl | hd)
        · exact ⟨hl, hc⟩
        · have := hm d hd; exact ⟨by omega, this.2⟩
    · rintro ⟨⟨hlt, hp⟩, hm⟩
      refine ⟨⟨(hm c (Or.inl rfl)).1, (hm c (Or.inl rfl)).2⟩, hp, fun d hd => ?_⟩
      have := hlt d hd
      exact ⟨by omega, (hm d (Or.inr hd)).2⟩

/-- The canonical form of a whole memory. -/
theorem Memory.wf_iff (m : Memory) : Memory.wf m = true ↔ m.Pairwise (fun c d => c.1 < d.1) ∧ ∀ c ∈ m, c.2 ≠ 0 := by
  simp [Memory.wf, Memory.wfFrom_iff]

/-- Cells that a test keeps are in canonical form. -/
theorem Memory.wf_filter (m : Memory) (p : Host.Cell → Bool) (h : Memory.wf m = true) : Memory.wf (m.filter p) = true := by
  rw [Memory.wf_iff] at *
  exact ⟨h.1.filter p, fun c hc => h.2 c (List.mem_filter.mp hc).1⟩

/-- Lists in canonical form, the first below the second, joined. -/
theorem Memory.wf_append (m n : Memory) (hm : Memory.wf m = true) (hn : Memory.wf n = true)
    (h : ∀ c ∈ m, ∀ d ∈ n, c.1 < d.1) : Memory.wf (m ++ n) = true := by
  rw [Memory.wf_iff] at *
  refine ⟨List.pairwise_append.mpr ⟨hm.1, hn.1, h⟩, fun c hc => ?_⟩
  rcases List.mem_append.mp hc with hc | hc
  · exact hm.2 c hc
  · exact hn.2 c hc

/-- Written cells are in canonical form. -/
theorem Memory.wf_cells (a n v : Nat) : Memory.wf (Memory.cells a n v) = true := by
  induction n generalizing a v with
  | zero => rfl
  | succ n ih =>
    simp only [Memory.cells]
    split
    · exact ih _ _
    · rename_i hv
      have := ih (a + 1) (v / 256)
      rw [Memory.wf_iff] at *
      refine ⟨List.pairwise_cons.mpr ⟨fun d hd => ?_, this.1⟩, ?_⟩
      · have := Memory.cells_range _ _ _ d hd; simp; omega
      · rintro c hc
        rcases List.mem_cons.mp hc with rfl | hc
        · intro e
          have := congrArg BitVec.toNat e
          simp only [BitVec.toNat_ofNat] at this
          simp at hv this
          omega
        · exact this.2 c hc

/-- A write keeps the canonical form. -/
theorem Memory.wf_write (m : Memory) (a n v : Nat) (h : Memory.wf m = true) : Memory.wf (Memory.write m a n v) = true := by
  refine Memory.wf_append _ _ (Memory.wf_filter _ _ h)
    (Memory.wf_append _ _ (Memory.wf_cells a n v) (Memory.wf_filter _ _ h) ?_) ?_
  · intro c hc d hd
    have := Memory.cells_range _ _ _ c hc
    have hd := (List.mem_filter.mp hd).2
    simp at hd; omega
  · intro c hc d hd
    have hc := (List.mem_filter.mp hc).2
    simp at hc
    rcases List.mem_append.mp hd with hd | hd
    · have := Memory.cells_range _ _ _ d hd; omega
    · have hd := (List.mem_filter.mp hd).2; simp at hd; omega

/-- A copy from a memory in canonical form keeps the canonical form. -/
theorem Memory.wf_copyIn (m : Memory) (a : Nat) (src : Memory) (b n : Nat) (h : Memory.wf m = true) (hs : Memory.wf src = true) :
    Memory.wf (Memory.copyIn m a src b n) = true := by
  have hmid : Memory.wf ((src.filter fun c => Nat.ble b c.1 && Nat.blt c.1 (b + n)).map fun c => (c.1 - b + a, c.2)) = true := by
    have hf := Memory.wf_filter src (fun c => Nat.ble b c.1 && Nat.blt c.1 (b + n)) hs
    rw [Memory.wf_iff] at *
    refine ⟨List.pairwise_map.mpr (hf.1.imp_of_mem ?_), ?_⟩
    · intro c d hc hd hcd
      have hc := (List.mem_filter.mp hc).2
      have hd := (List.mem_filter.mp hd).2
      simp at hc hd ⊢; omega
    · intro c hc
      obtain ⟨d, hd, rfl⟩ := List.mem_map.mp hc
      exact hf.2 d hd
  refine Memory.wf_append _ _ (Memory.wf_filter _ _ h) (Memory.wf_append _ _ hmid (Memory.wf_filter _ _ h) ?_) ?_
  · intro c hc d hd
    obtain ⟨e, he, rfl⟩ := List.mem_map.mp hc
    have he := (List.mem_filter.mp he).2
    have hd := (List.mem_filter.mp hd).2
    simp at he hd ⊢; omega
  · intro c hc d hd
    have hc := (List.mem_filter.mp hc).2
    simp at hc
    rcases List.mem_append.mp hd with hd | hd
    · obtain ⟨e, he, rfl⟩ := List.mem_map.mp hd
      have he := (List.mem_filter.mp he).2
      simp at he ⊢; omega
    · have hd := (List.mem_filter.mp hd).2; simp at hd; omega

/-- A slice of a memory in canonical form. -/
theorem Memory.wf_slice (m : Memory) (b n : Nat) (h : Memory.wf m = true) : Memory.wf (Memory.slice m b n) = true :=
  Memory.wf_copyIn [] 0 m b n rfl h

/-! ### Reading -/

/-- The bits of a read are those of the bytes read. -/
theorem Memory.testBit_read (m : Memory) (a n j : Nat) (h : Memory.wf m = true) :
    (Memory.read m a n).testBit j = (decide (j < 8 * n) && (Memory.get m (a + j / 8)).toNat.testBit (j % 8)) := by
  induction m with
  | nil => simp [Memory.read, Memory.get]
  | cons c m ih =>
    have hp := (Memory.wf_iff _).mp h
    have hw : Memory.wf m = true := (Memory.wf_iff m).mpr ⟨(List.pairwise_cons.mp hp.1).2, fun d hd => hp.2 d (by simp [hd])⟩
    have hne : ∀ d ∈ m, d.1 ≠ c.1 := fun d hd => by have := (List.pairwise_cons.mp hp.1).1 d hd; omega
    have hb : c.2.toNat < 2 ^ 8 := c.2.isLt
    have e : Memory.read (c :: m) a n = if Nat.ble a c.1 && Nat.blt c.1 (a + n) then
        Memory.read m a n ||| (c.2.toNat <<< (8 * (c.1 - a))) else Memory.read m a n := by simp [Memory.read]
    have hi := ih hw
    rw [e]
    by_cases hc : c.1 = a + j / 8
    · have hz : Memory.get m (a + j / 8) = 0 := Memory.get_eq_zero m _ fun d hd => by rw [← hc]; exact hne d hd
      rw [hz] at hi
      have hg : Memory.get (c :: m) (a + j / 8) = c.2 := by simp [Memory.get, hc]
      rw [hg]
      by_cases hj : j < 8 * n
      · have h1 : (Nat.ble a c.1 && Nat.blt c.1 (a + n)) = true := by simp; omega
        have h2 : 8 * (c.1 - a) ≤ j := by omega
        have h3 : j - 8 * (c.1 - a) = j % 8 := by omega
        simp [h1, Nat.testBit_or, hi, Nat.testBit_shiftLeft, h2, h3, hj]
      · have h1 : (Nat.ble a c.1 && Nat.blt c.1 (a + n)) = false := by
          have : Nat.blt c.1 (a + n) = false := by
            cases hb' : Nat.blt c.1 (a + n) with
            | false => rfl
            | true => have := Nat.blt_eq.mp hb'; omega
          simp [this]
        simp [h1, hi, hj]
    · have hg : Memory.get (c :: m) (a + j / 8) = Memory.get m (a + j / 8) := by simp [Memory.get, hc]
      rw [hg]
      split
      · rename_i h1
        simp at h1
        rw [Nat.testBit_or, hi, Nat.testBit_shiftLeft]
        have : (decide (8 * (c.1 - a) ≤ j) && c.2.toNat.testBit (j - 8 * (c.1 - a))) = false := by
          by_cases h2 : 8 * (c.1 - a) ≤ j
          · have : c.2.toNat.testBit (j - 8 * (c.1 - a)) = false := by
              apply Nat.testBit_lt_two_pow
              exact lt_of_lt_of_le hb (Nat.pow_le_pow_right (by omega) (by omega))
            simp [this]
          · simp [h2]
        simp [this]
      · exact hi

/-- A read of what was written gives it back. -/
theorem Memory.read_write_same (m : Memory) (a n v : Nat) (h : Memory.wf m = true) :
    Memory.read (Memory.write m a n v) a n = v % 256 ^ n := by
  apply Nat.eq_of_testBit_eq
  intro j
  have e : 256 ^ n = 2 ^ (8 * n) := by rw [show (256 : Nat) = 2 ^ 8 from rfl, ← pow_mul]
  rw [Memory.testBit_read _ _ _ _ (Memory.wf_write m a n v h), e, Nat.testBit_mod_two_pow]
  by_cases hj : j < 8 * n
  · have e' : 256 ^ (j / 8) = 2 ^ (8 * (j / 8)) := by rw [show (256 : Nat) = 2 ^ 8 from rfl, ← pow_mul]
    rw [Memory.get_write_inside m a n v (j / 8) (by omega), BitVec.toNat_ofNat, e', Nat.testBit_mod_two_pow,
      Nat.testBit_div_two_pow]
    have h1 : j % 8 < 8 := by omega
    have h2 : j % 8 + 8 * (j / 8) = j := by omega
    simp [hj, h1, h2]
  · simp [hj]

/-- A read beside a write gives what it gave before. -/
theorem Memory.read_write_disjoint (m : Memory) (a n v b k : Nat) (h : Memory.wf m = true) (hd : b + k ≤ a ∨ a + n ≤ b) :
    Memory.read (Memory.write m a n v) b k = Memory.read m b k := by
  apply Nat.eq_of_testBit_eq
  intro j
  rw [Memory.testBit_read _ _ _ _ (Memory.wf_write m a n v h), Memory.testBit_read _ _ _ _ h]
  by_cases hj : j < 8 * k
  · rw [Memory.get_write_outside m a n v _ (by omega)]
  · simp [hj]

end Sys2Proof.Machine
end

