-- ==== Sys2Proof/Laws/State.lean ====
section
/-! SUPPORT. What each update of the state leaves: one lemma for each field and update. -/

namespace Sys2Proof.Machine

/-! ### A tile replaced -/

@[simp] theorem State.setTile_cycle (s : State) (x : Nat) (t : Tile) : (s.setTile x t).cycle = s.cycle := rfl
@[simp] theorem State.setTile_tbOff (s : State) (x : Nat) (t : Tile) : (s.setTile x t).tbOff = s.tbOff := rfl
@[simp] theorem State.setTile_sched (s : State) (x : Nat) (t : Tile) : (s.setTile x t).sched = s.sched := rfl
@[simp] theorem State.setTile_cur (s : State) (x : Nat) (t : Tile) : (s.setTile x t).cur = s.cur := rfl
@[simp] theorem State.setTile_freeCtr (s : State) (x : Nat) (t : Tile) : (s.setTile x t).freeCtr = s.freeCtr := rfl
@[simp] theorem State.setTile_collier (s : State) (x : Nat) (t : Tile) : (s.setTile x t).collier = s.collier := rfl
@[simp] theorem State.setTile_stokers (s : State) (x : Nat) (t : Tile) : (s.setTile x t).stokers = s.stokers := rfl
@[simp] theorem State.setTile_hbm (s : State) (x : Nat) (t : Tile) : (s.setTile x t).hbm = s.hbm := rfl
@[simp] theorem State.setTile_hbmEcc (s : State) (x : Nat) (t : Tile) : (s.setTile x t).hbmEcc = s.hbmEcc := rfl
@[simp] theorem State.setTile_keyed (s : State) (x : Nat) (t : Tile) : (s.setTile x t).keyed = s.keyed := rfl
@[simp] theorem State.setTile_host (s : State) (x : Nat) (t : Tile) : (s.setTile x t).host = s.host := rfl
@[simp] theorem State.setTile_fabric (s : State) (x : Nat) (t : Tile) : (s.setTile x t).fabric = s.fabric := rfl
@[simp] theorem State.setTile_acks (s : State) (x : Nat) (t : Tile) : (s.setTile x t).acks = s.acks := rfl
@[simp] theorem State.setTile_rings (s : State) (x : Nat) (t : Tile) : (s.setTile x t).rings = s.rings := rfl
@[simp] theorem State.setTile_flue (s : State) (x : Nat) (t : Tile) : (s.setTile x t).flue = s.flue := rfl
@[simp] theorem State.setTile_permits (s : State) (x : Nat) (t : Tile) : (s.setTile x t).permits = s.permits := rfl
@[simp] theorem State.setTile_linkWait (s : State) (x : Nat) (t : Tile) : (s.setTile x t).linkWait = s.linkWait := rfl
@[simp] theorem State.setTile_launches (s : State) (x : Nat) (t : Tile) : (s.setTile x t).launches = s.launches := rfl
@[simp] theorem State.setTile_tags (s : State) (x : Nat) (t : Tile) : (s.setTile x t).tags = s.tags := rfl
@[simp] theorem State.setTile_created (s : State) (x : Nat) (t : Tile) : (s.setTile x t).created = s.created := rfl
@[simp] theorem State.setTile_children (s : State) (x : Nat) (t : Tile) : (s.setTile x t).children = s.children := rfl
@[simp] theorem State.setTile_tally (s : State) (x : Nat) (t : Tile) : (s.setTile x t).tally = s.tally := rfl
@[simp] theorem State.setTile_retiring (s : State) (x : Nat) (t : Tile) : (s.setTile x t).retiring = s.retiring := rfl
@[simp] theorem State.setTile_queues (s : State) (x : Nat) (t : Tile) : (s.setTile x t).queues = s.queues := rfl
@[simp] theorem State.setTile_pendings (s : State) (x : Nat) (t : Tile) : (s.setTile x t).pendings = s.pendings := rfl
@[simp] theorem State.setTile_watchdogs (s : State) (x : Nat) (t : Tile) : (s.setTile x t).watchdogs = s.watchdogs := rfl
@[simp] theorem State.setTile_lastMapped (s : State) (x : Nat) (t : Tile) : (s.setTile x t).lastMapped = s.lastMapped := rfl
@[simp] theorem State.setTile_passes (s : State) (x : Nat) (t : Tile) : (s.setTile x t).passes = s.passes := rfl
@[simp] theorem State.setTile_refills (s : State) (x : Nat) (t : Tile) : (s.setTile x t).refills = s.refills := rfl
@[simp] theorem State.setTile_buckets (s : State) (x : Nat) (t : Tile) : (s.setTile x t).buckets = s.buckets := rfl
@[simp] theorem State.setTile_partitions (s : State) (x : Nat) (t : Tile) : (s.setTile x t).partitions = s.partitions := rfl
@[simp] theorem State.setTile_asidPart (s : State) (x : Nat) (t : Tile) : (s.setTile x t).asidPart = s.asidPart := rfl
@[simp] theorem State.setTile_asidTable (s : State) (x : Nat) (t : Tile) : (s.setTile x t).asidTable = s.asidTable := rfl
@[simp] theorem State.setTile_directory (s : State) (x : Nat) (t : Tile) : (s.setTile x t).directory = s.directory := rfl
@[simp] theorem State.setTile_images (s : State) (x : Nat) (t : Tile) : (s.setTile x t).images = s.images := rfl
@[simp] theorem State.setTile_moves (s : State) (x : Nat) (t : Tile) : (s.setTile x t).moves = s.moves := rfl
@[simp] theorem State.setTile_evring (s : State) (x : Nat) (t : Tile) : (s.setTile x t).evring = s.evring := rfl
@[simp] theorem State.setTile_evdrop (s : State) (x : Nat) (t : Tile) : (s.setTile x t).evdrop = s.evdrop := rfl
@[simp] theorem State.setTile_evcoal (s : State) (x : Nat) (t : Tile) : (s.setTile x t).evcoal = s.evcoal := rfl
@[simp] theorem State.setTile_dbbad (s : State) (x : Nat) (t : Tile) : (s.setTile x t).dbbad = s.dbbad := rfl
@[simp] theorem State.setTile_msix (s : State) (x : Nat) (t : Tile) : (s.setTile x t).msix = s.msix := rfl
@[simp] theorem State.setTile_errorOrder (s : State) (x : Nat) (t : Tile) : (s.setTile x t).errorOrder = s.errorOrder := rfl
@[simp] theorem State.setTile_thermal (s : State) (x : Nat) (t : Tile) : (s.setTile x t).thermal = s.thermal := rfl
@[simp] theorem State.setTile_snsWarn (s : State) (x : Nat) (t : Tile) : (s.setTile x t).snsWarn = s.snsWarn := rfl
@[simp] theorem State.setTile_snsCrit (s : State) (x : Nat) (t : Tile) : (s.setTile x t).snsCrit = s.snsCrit := rfl
@[simp] theorem State.setTile_alert (s : State) (x : Nat) (t : Tile) : (s.setTile x t).alert = s.alert := rfl
@[simp] theorem State.setTile_shipped (s : State) (x : Nat) (t : Tile) : (s.setTile x t).shipped = s.shipped := rfl
@[simp] theorem State.setTile_retirements (s : State) (x : Nat) (t : Tile) : (s.setTile x t).retirements = s.retirements := rfl
@[simp] theorem State.setTile_readmits (s : State) (x : Nat) (t : Tile) : (s.setTile x t).readmits = s.readmits := rfl
@[simp] theorem State.setTile_replaceReq (s : State) (x : Nat) (t : Tile) : (s.setTile x t).replaceReq = s.replaceReq := rfl
@[simp] theorem State.setTile_peers (s : State) (x : Nat) (t : Tile) : (s.setTile x t).peers = s.peers := rfl
@[simp] theorem State.setTile_rxuBusy (s : State) (x : Nat) (t : Tile) : (s.setTile x t).rxuBusy = s.rxuBusy := rfl
@[simp] theorem State.setTile_rxu (s : State) (x : Nat) (t : Tile) : (s.setTile x t).rxu = s.rxu := rfl
@[simp] theorem State.setTile_halted (s : State) (x : Nat) (t : Tile) : (s.setTile x t).halted = s.halted := rfl
@[simp] theorem State.setTile_haltDriven (s : State) (x : Nat) (t : Tile) : (s.setTile x t).haltDriven = s.haltDriven := rfl
@[simp] theorem State.setTile_haltIds (s : State) (x : Nat) (t : Tile) : (s.setTile x t).haltIds = s.haltIds := rfl
@[simp] theorem State.setTile_haltAt (s : State) (x : Nat) (t : Tile) : (s.setTile x t).haltAt = s.haltAt := rfl
@[simp] theorem State.setTile_speig (s : State) (x : Nat) (t : Tile) : (s.setTile x t).speig = s.speig := rfl
@[simp] theorem State.setTile_speigTag (s : State) (x : Nat) (t : Tile) : (s.setTile x t).speigTag = s.speigTag := rfl
@[simp] theorem State.setTile_engineId (s : State) (x : Nat) (t : Tile) : (s.setTile x t).engineId = s.engineId := rfl
@[simp] theorem State.setTile_crossed (s : State) (x : Nat) (t : Tile) : (s.setTile x t).crossed = s.crossed := rfl
@[simp] theorem State.setTile_image (s : State) (x : Nat) (t : Tile) : (s.setTile x t).image = s.image := rfl
@[simp] theorem State.setTile_trace (s : State) (x : Nat) (t : Tile) : (s.setTile x t).trace = s.trace := rfl
@[simp] theorem State.setTile_owner (s : State) (x : Nat) (t : Tile) : (s.setTile x t).owner = s.owner := rfl
@[simp] theorem State.setTile_ownerKey (s : State) (x : Nat) (t : Tile) : (s.setTile x t).ownerKey = s.ownerKey := rfl
@[simp] theorem State.setTile_serial (s : State) (x : Nat) (t : Tile) : (s.setTile x t).serial = s.serial := rfl
@[simp] theorem State.setTile_boot (s : State) (x : Nat) (t : Tile) : (s.setTile x t).boot = s.boot := rfl
@[simp] theorem State.setTile_bootFailed (s : State) (x : Nat) (t : Tile) : (s.setTile x t).bootFailed = s.bootFailed := rfl
@[simp] theorem State.setTile_untrained (s : State) (x : Nat) (t : Tile) : (s.setTile x t).untrained = s.untrained := rfl
@[simp] theorem State.setTile_lockerr (s : State) (x : Nat) (t : Tile) : (s.setTile x t).lockerr = s.lockerr := rfl
@[simp] theorem State.setTile_aer (s : State) (x : Nat) (t : Tile) : (s.setTile x t).aer = s.aer := rfl
@[simp] theorem State.setTile_sysImage (s : State) (x : Nat) (t : Tile) : (s.setTile x t).sysImage = s.sysImage := rfl
@[simp] theorem State.tile_setTile_same (s : State) (x : Nat) (t : Tile) : (s.setTile x t).tile x = t := by
  simp [State.tile, State.setTile]
theorem State.tile_setTile_other (s : State) (x y : Nat) (t : Tile) (h : y ≠ x) : (s.setTile x t).tile y = s.tile y := by
  simp [State.tile, State.setTile, Table.getD_put_other _ _ _ _ _ h]

/-! ### A launch replaced -/

@[simp] theorem State.setLaunch_cycle (s : State) (x : Nat) (l : Launch) : (s.setLaunch x l).cycle = s.cycle := rfl
@[simp] theorem State.setLaunch_tbOff (s : State) (x : Nat) (l : Launch) : (s.setLaunch x l).tbOff = s.tbOff := rfl
@[simp] theorem State.setLaunch_sched (s : State) (x : Nat) (l : Launch) : (s.setLaunch x l).sched = s.sched := rfl
@[simp] theorem State.setLaunch_cur (s : State) (x : Nat) (l : Launch) : (s.setLaunch x l).cur = s.cur := rfl
@[simp] theorem State.setLaunch_freeCtr (s : State) (x : Nat) (l : Launch) : (s.setLaunch x l).freeCtr = s.freeCtr := rfl
@[simp] theorem State.setLaunch_tiles (s : State) (x : Nat) (l : Launch) : (s.setLaunch x l).tiles = s.tiles := rfl
@[simp] theorem State.setLaunch_collier (s : State) (x : Nat) (l : Launch) : (s.setLaunch x l).collier = s.collier := rfl
@[simp] theorem State.setLaunch_stokers (s : State) (x : Nat) (l : Launch) : (s.setLaunch x l).stokers = s.stokers := rfl
@[simp] theorem State.setLaunch_hbm (s : State) (x : Nat) (l : Launch) : (s.setLaunch x l).hbm = s.hbm := rfl
@[simp] theorem State.setLaunch_hbmEcc (s : State) (x : Nat) (l : Launch) : (s.setLaunch x l).hbmEcc = s.hbmEcc := rfl
@[simp] theorem State.setLaunch_keyed (s : State) (x : Nat) (l : Launch) : (s.setLaunch x l).keyed = s.keyed := rfl
@[simp] theorem State.setLaunch_host (s : State) (x : Nat) (l : Launch) : (s.setLaunch x l).host = s.host := rfl
@[simp] theorem State.setLaunch_fabric (s : State) (x : Nat) (l : Launch) : (s.setLaunch x l).fabric = s.fabric := rfl
@[simp] theorem State.setLaunch_acks (s : State) (x : Nat) (l : Launch) : (s.setLaunch x l).acks = s.acks := rfl
@[simp] theorem State.setLaunch_rings (s : State) (x : Nat) (l : Launch) : (s.setLaunch x l).rings = s.rings := rfl
@[simp] theorem State.setLaunch_flue (s : State) (x : Nat) (l : Launch) : (s.setLaunch x l).flue = s.flue := rfl
@[simp] theorem State.setLaunch_permits (s : State) (x : Nat) (l : Launch) : (s.setLaunch x l).permits = s.permits := rfl
@[simp] theorem State.setLaunch_linkWait (s : State) (x : Nat) (l : Launch) : (s.setLaunch x l).linkWait = s.linkWait := rfl
@[simp] theorem State.setLaunch_tags (s : State) (x : Nat) (l : Launch) : (s.setLaunch x l).tags = s.tags := rfl
@[simp] theorem State.setLaunch_created (s : State) (x : Nat) (l : Launch) : (s.setLaunch x l).created = s.created := rfl
@[simp] theorem State.setLaunch_children (s : State) (x : Nat) (l : Launch) : (s.setLaunch x l).children = s.children := rfl
@[simp] theorem State.setLaunch_tally (s : State) (x : Nat) (l : Launch) : (s.setLaunch x l).tally = s.tally := rfl
@[simp] theorem State.setLaunch_retiring (s : State) (x : Nat) (l : Launch) : (s.setLaunch x l).retiring = s.retiring := rfl
@[simp] theorem State.setLaunch_queues (s : State) (x : Nat) (l : Launch) : (s.setLaunch x l).queues = s.queues := rfl
@[simp] theorem State.setLaunch_pendings (s : State) (x : Nat) (l : Launch) : (s.setLaunch x l).pendings = s.pendings := rfl
@[simp] theorem State.setLaunch_watchdogs (s : State) (x : Nat) (l : Launch) : (s.setLaunch x l).watchdogs = s.watchdogs := rfl
@[simp] theorem State.setLaunch_lastMapped (s : State) (x : Nat) (l : Launch) : (s.setLaunch x l).lastMapped = s.lastMapped := rfl
@[simp] theorem State.setLaunch_passes (s : State) (x : Nat) (l : Launch) : (s.setLaunch x l).passes = s.passes := rfl
@[simp] theorem State.setLaunch_refills (s : State) (x : Nat) (l : Launch) : (s.setLaunch x l).refills = s.refills := rfl
@[simp] theorem State.setLaunch_buckets (s : State) (x : Nat) (l : Launch) : (s.setLaunch x l).buckets = s.buckets := rfl
@[simp] theorem State.setLaunch_partitions (s : State) (x : Nat) (l : Launch) : (s.setLaunch x l).partitions = s.partitions := rfl
@[simp] theorem State.setLaunch_asidPart (s : State) (x : Nat) (l : Launch) : (s.setLaunch x l).asidPart = s.asidPart := rfl
@[simp] theorem State.setLaunch_asidTable (s : State) (x : Nat) (l : Launch) : (s.setLaunch x l).asidTable = s.asidTable := rfl
@[simp] theorem State.setLaunch_directory (s : State) (x : Nat) (l : Launch) : (s.setLaunch x l).directory = s.directory := rfl
@[simp] theorem State.setLaunch_images (s : State) (x : Nat) (l : Launch) : (s.setLaunch x l).images = s.images := rfl
@[simp] theorem State.setLaunch_moves (s : State) (x : Nat) (l : Launch) : (s.setLaunch x l).moves = s.moves := rfl
@[simp] theorem State.setLaunch_evring (s : State) (x : Nat) (l : Launch) : (s.setLaunch x l).evring = s.evring := rfl
@[simp] theorem State.setLaunch_evdrop (s : State) (x : Nat) (l : Launch) : (s.setLaunch x l).evdrop = s.evdrop := rfl
@[simp] theorem State.setLaunch_evcoal (s : State) (x : Nat) (l : Launch) : (s.setLaunch x l).evcoal = s.evcoal := rfl
@[simp] theorem State.setLaunch_dbbad (s : State) (x : Nat) (l : Launch) : (s.setLaunch x l).dbbad = s.dbbad := rfl
@[simp] theorem State.setLaunch_msix (s : State) (x : Nat) (l : Launch) : (s.setLaunch x l).msix = s.msix := rfl
@[simp] theorem State.setLaunch_errorOrder (s : State) (x : Nat) (l : Launch) : (s.setLaunch x l).errorOrder = s.errorOrder := rfl
@[simp] theorem State.setLaunch_thermal (s : State) (x : Nat) (l : Launch) : (s.setLaunch x l).thermal = s.thermal := rfl
@[simp] theorem State.setLaunch_snsWarn (s : State) (x : Nat) (l : Launch) : (s.setLaunch x l).snsWarn = s.snsWarn := rfl
@[simp] theorem State.setLaunch_snsCrit (s : State) (x : Nat) (l : Launch) : (s.setLaunch x l).snsCrit = s.snsCrit := rfl
@[simp] theorem State.setLaunch_alert (s : State) (x : Nat) (l : Launch) : (s.setLaunch x l).alert = s.alert := rfl
@[simp] theorem State.setLaunch_shipped (s : State) (x : Nat) (l : Launch) : (s.setLaunch x l).shipped = s.shipped := rfl
@[simp] theorem State.setLaunch_retirements (s : State) (x : Nat) (l : Launch) : (s.setLaunch x l).retirements = s.retirements := rfl
@[simp] theorem State.setLaunch_readmits (s : State) (x : Nat) (l : Launch) : (s.setLaunch x l).readmits = s.readmits := rfl
@[simp] theorem State.setLaunch_replaceReq (s : State) (x : Nat) (l : Launch) : (s.setLaunch x l).replaceReq = s.replaceReq := rfl
@[simp] theorem State.setLaunch_peers (s : State) (x : Nat) (l : Launch) : (s.setLaunch x l).peers = s.peers := rfl
@[simp] theorem State.setLaunch_rxuBusy (s : State) (x : Nat) (l : Launch) : (s.setLaunch x l).rxuBusy = s.rxuBusy := rfl
@[simp] theorem State.setLaunch_rxu (s : State) (x : Nat) (l : Launch) : (s.setLaunch x l).rxu = s.rxu := rfl
@[simp] theorem State.setLaunch_halted (s : State) (x : Nat) (l : Launch) : (s.setLaunch x l).halted = s.halted := rfl
@[simp] theorem State.setLaunch_haltDriven (s : State) (x : Nat) (l : Launch) : (s.setLaunch x l).haltDriven = s.haltDriven := rfl
@[simp] theorem State.setLaunch_haltIds (s : State) (x : Nat) (l : Launch) : (s.setLaunch x l).haltIds = s.haltIds := rfl
@[simp] theorem State.setLaunch_haltAt (s : State) (x : Nat) (l : Launch) : (s.setLaunch x l).haltAt = s.haltAt := rfl
@[simp] theorem State.setLaunch_speig (s : State) (x : Nat) (l : Launch) : (s.setLaunch x l).speig = s.speig := rfl
@[simp] theorem State.setLaunch_speigTag (s : State) (x : Nat) (l : Launch) : (s.setLaunch x l).speigTag = s.speigTag := rfl
@[simp] theorem State.setLaunch_engineId (s : State) (x : Nat) (l : Launch) : (s.setLaunch x l).engineId = s.engineId := rfl
@[simp] theorem State.setLaunch_crossed (s : State) (x : Nat) (l : Launch) : (s.setLaunch x l).crossed = s.crossed := rfl
@[simp] theorem State.setLaunch_image (s : State) (x : Nat) (l : Launch) : (s.setLaunch x l).image = s.image := rfl
@[simp] theorem State.setLaunch_trace (s : State) (x : Nat) (l : Launch) : (s.setLaunch x l).trace = s.trace := rfl
@[simp] theorem State.setLaunch_owner (s : State) (x : Nat) (l : Launch) : (s.setLaunch x l).owner = s.owner := rfl
@[simp] theorem State.setLaunch_ownerKey (s : State) (x : Nat) (l : Launch) : (s.setLaunch x l).ownerKey = s.ownerKey := rfl
@[simp] theorem State.setLaunch_serial (s : State) (x : Nat) (l : Launch) : (s.setLaunch x l).serial = s.serial := rfl
@[simp] theorem State.setLaunch_boot (s : State) (x : Nat) (l : Launch) : (s.setLaunch x l).boot = s.boot := rfl
@[simp] theorem State.setLaunch_bootFailed (s : State) (x : Nat) (l : Launch) : (s.setLaunch x l).bootFailed = s.bootFailed := rfl
@[simp] theorem State.setLaunch_untrained (s : State) (x : Nat) (l : Launch) : (s.setLaunch x l).untrained = s.untrained := rfl
@[simp] theorem State.setLaunch_lockerr (s : State) (x : Nat) (l : Launch) : (s.setLaunch x l).lockerr = s.lockerr := rfl
@[simp] theorem State.setLaunch_aer (s : State) (x : Nat) (l : Launch) : (s.setLaunch x l).aer = s.aer := rfl
@[simp] theorem State.setLaunch_sysImage (s : State) (x : Nat) (l : Launch) : (s.setLaunch x l).sysImage = s.sysImage := rfl
@[simp] theorem State.launch_setLaunch_same (s : State) (x : Nat) (l : Launch) : (s.setLaunch x l).launch x = l := by
  simp [State.launch, State.setLaunch]
@[simp] theorem State.setLaunch_tile (s : State) (x : Nat) (l : Launch) (y : Nat) : (s.setLaunch x l).tile y = s.tile y := rfl
@[simp] theorem State.setTile_launch (s : State) (x : Nat) (t : Tile) (y : Nat) : (s.setTile x t).launch y = s.launch y := rfl
@[simp] theorem State.setTile_stoker (s : State) (x : Nat) (t : Tile) (y : Nat) : (s.setTile x t).stoker y = s.stoker y := rfl
@[simp] theorem State.setTile_tb (s : State) (x : Nat) (t : Tile) : (s.setTile x t).tb = s.tb := rfl

/-! ### A core replaced -/

@[simp] theorem State.setCore_cycle (s : State) (a : Agent) (c : Core) : (s.setCore a c).cycle = s.cycle := by
  cases a <;> rfl
@[simp] theorem State.setCore_tbOff (s : State) (a : Agent) (c : Core) : (s.setCore a c).tbOff = s.tbOff := by
  cases a <;> rfl
@[simp] theorem State.setCore_sched (s : State) (a : Agent) (c : Core) : (s.setCore a c).sched = s.sched := by
  cases a <;> rfl
@[simp] theorem State.setCore_cur (s : State) (a : Agent) (c : Core) : (s.setCore a c).cur = s.cur := by
  cases a <;> rfl
@[simp] theorem State.setCore_freeCtr (s : State) (a : Agent) (c : Core) : (s.setCore a c).freeCtr = s.freeCtr := by
  cases a <;> rfl
@[simp] theorem State.setCore_tiles (s : State) (a : Agent) (c : Core) : (s.setCore a c).tiles = s.tiles := by
  cases a <;> rfl
@[simp] theorem State.setCore_hbm (s : State) (a : Agent) (c : Core) : (s.setCore a c).hbm = s.hbm := by
  cases a <;> rfl
@[simp] theorem State.setCore_hbmEcc (s : State) (a : Agent) (c : Core) : (s.setCore a c).hbmEcc = s.hbmEcc := by
  cases a <;> rfl
@[simp] theorem State.setCore_keyed (s : State) (a : Agent) (c : Core) : (s.setCore a c).keyed = s.keyed := by
  cases a <;> rfl
@[simp] theorem State.setCore_host (s : State) (a : Agent) (c : Core) : (s.setCore a c).host = s.host := by
  cases a <;> rfl
@[simp] theorem State.setCore_fabric (s : State) (a : Agent) (c : Core) : (s.setCore a c).fabric = s.fabric := by
  cases a <;> rfl
@[simp] theorem State.setCore_acks (s : State) (a : Agent) (c : Core) : (s.setCore a c).acks = s.acks := by
  cases a <;> rfl
@[simp] theorem State.setCore_rings (s : State) (a : Agent) (c : Core) : (s.setCore a c).rings = s.rings := by
  cases a <;> rfl
@[simp] theorem State.setCore_flue (s : State) (a : Agent) (c : Core) : (s.setCore a c).flue = s.flue := by
  cases a <;> rfl
@[simp] theorem State.setCore_permits (s : State) (a : Agent) (c : Core) : (s.setCore a c).permits = s.permits := by
  cases a <;> rfl
@[simp] theorem State.setCore_linkWait (s : State) (a : Agent) (c : Core) : (s.setCore a c).linkWait = s.linkWait := by
  cases a <;> rfl
@[simp] theorem State.setCore_launches (s : State) (a : Agent) (c : Core) : (s.setCore a c).launches = s.launches := by
  cases a <;> rfl
@[simp] theorem State.setCore_tags (s : State) (a : Agent) (c : Core) : (s.setCore a c).tags = s.tags := by
  cases a <;> rfl
@[simp] theorem State.setCore_created (s : State) (a : Agent) (c : Core) : (s.setCore a c).created = s.created := by
  cases a <;> rfl
@[simp] theorem State.setCore_children (s : State) (a : Agent) (c : Core) : (s.setCore a c).children = s.children := by
  cases a <;> rfl
@[simp] theorem State.setCore_tally (s : State) (a : Agent) (c : Core) : (s.setCore a c).tally = s.tally := by
  cases a <;> rfl
@[simp] theorem State.setCore_retiring (s : State) (a : Agent) (c : Core) : (s.setCore a c).retiring = s.retiring := by
  cases a <;> rfl
@[simp] theorem State.setCore_queues (s : State) (a : Agent) (c : Core) : (s.setCore a c).queues = s.queues := by
  cases a <;> rfl
@[simp] theorem State.setCore_pendings (s : State) (a : Agent) (c : Core) : (s.setCore a c).pendings = s.pendings := by
  cases a <;> rfl
@[simp] theorem State.setCore_watchdogs (s : State) (a : Agent) (c : Core) : (s.setCore a c).watchdogs = s.watchdogs := by
  cases a <;> rfl
@[simp] theorem State.setCore_lastMapped (s : State) (a : Agent) (c : Core) : (s.setCore a c).lastMapped = s.lastMapped := by
  cases a <;> rfl
@[simp] theorem State.setCore_passes (s : State) (a : Agent) (c : Core) : (s.setCore a c).passes = s.passes := by
  cases a <;> rfl
@[simp] theorem State.setCore_refills (s : State) (a : Agent) (c : Core) : (s.setCore a c).refills = s.refills := by
  cases a <;> rfl
@[simp] theorem State.setCore_buckets (s : State) (a : Agent) (c : Core) : (s.setCore a c).buckets = s.buckets := by
  cases a <;> rfl
@[simp] theorem State.setCore_partitions (s : State) (a : Agent) (c : Core) : (s.setCore a c).partitions = s.partitions := by
  cases a <;> rfl
@[simp] theorem State.setCore_asidPart (s : State) (a : Agent) (c : Core) : (s.setCore a c).asidPart = s.asidPart := by
  cases a <;> rfl
@[simp] theorem State.setCore_asidTable (s : State) (a : Agent) (c : Core) : (s.setCore a c).asidTable = s.asidTable := by
  cases a <;> rfl
@[simp] theorem State.setCore_directory (s : State) (a : Agent) (c : Core) : (s.setCore a c).directory = s.directory := by
  cases a <;> rfl
@[simp] theorem State.setCore_images (s : State) (a : Agent) (c : Core) : (s.setCore a c).images = s.images := by
  cases a <;> rfl
@[simp] theorem State.setCore_moves (s : State) (a : Agent) (c : Core) : (s.setCore a c).moves = s.moves := by
  cases a <;> rfl
@[simp] theorem State.setCore_evring (s : State) (a : Agent) (c : Core) : (s.setCore a c).evring = s.evring := by
  cases a <;> rfl
@[simp] theorem State.setCore_evdrop (s : State) (a : Agent) (c : Core) : (s.setCore a c).evdrop = s.evdrop := by
  cases a <;> rfl
@[simp] theorem State.setCore_evcoal (s : State) (a : Agent) (c : Core) : (s.setCore a c).evcoal = s.evcoal := by
  cases a <;> rfl
@[simp] theorem State.setCore_dbbad (s : State) (a : Agent) (c : Core) : (s.setCore a c).dbbad = s.dbbad := by
  cases a <;> rfl
@[simp] theorem State.setCore_msix (s : State) (a : Agent) (c : Core) : (s.setCore a c).msix = s.msix := by
  cases a <;> rfl
@[simp] theorem State.setCore_errorOrder (s : State) (a : Agent) (c : Core) : (s.setCore a c).errorOrder = s.errorOrder := by
  cases a <;> rfl
@[simp] theorem State.setCore_thermal (s : State) (a : Agent) (c : Core) : (s.setCore a c).thermal = s.thermal := by
  cases a <;> rfl
@[simp] theorem State.setCore_snsWarn (s : State) (a : Agent) (c : Core) : (s.setCore a c).snsWarn = s.snsWarn := by
  cases a <;> rfl
@[simp] theorem State.setCore_snsCrit (s : State) (a : Agent) (c : Core) : (s.setCore a c).snsCrit = s.snsCrit := by
  cases a <;> rfl
@[simp] theorem State.setCore_alert (s : State) (a : Agent) (c : Core) : (s.setCore a c).alert = s.alert := by
  cases a <;> rfl
@[simp] theorem State.setCore_shipped (s : State) (a : Agent) (c : Core) : (s.setCore a c).shipped = s.shipped := by
  cases a <;> rfl
@[simp] theorem State.setCore_retirements (s : State) (a : Agent) (c : Core) : (s.setCore a c).retirements = s.retirements := by
  cases a <;> rfl
@[simp] theorem State.setCore_readmits (s : State) (a : Agent) (c : Core) : (s.setCore a c).readmits = s.readmits := by
  cases a <;> rfl
@[simp] theorem State.setCore_replaceReq (s : State) (a : Agent) (c : Core) : (s.setCore a c).replaceReq = s.replaceReq := by
  cases a <;> rfl
@[simp] theorem State.setCore_peers (s : State) (a : Agent) (c : Core) : (s.setCore a c).peers = s.peers := by
  cases a <;> rfl
@[simp] theorem State.setCore_rxuBusy (s : State) (a : Agent) (c : Core) : (s.setCore a c).rxuBusy = s.rxuBusy := by
  cases a <;> rfl
@[simp] theorem State.setCore_rxu (s : State) (a : Agent) (c : Core) : (s.setCore a c).rxu = s.rxu := by
  cases a <;> rfl
@[simp] theorem State.setCore_halted (s : State) (a : Agent) (c : Core) : (s.setCore a c).halted = s.halted := by
  cases a <;> rfl
@[simp] theorem State.setCore_haltDriven (s : State) (a : Agent) (c : Core) : (s.setCore a c).haltDriven = s.haltDriven := by
  cases a <;> rfl
@[simp] theorem State.setCore_haltIds (s : State) (a : Agent) (c : Core) : (s.setCore a c).haltIds = s.haltIds := by
  cases a <;> rfl
@[simp] theorem State.setCore_haltAt (s : State) (a : Agent) (c : Core) : (s.setCore a c).haltAt = s.haltAt := by
  cases a <;> rfl
@[simp] theorem State.setCore_speig (s : State) (a : Agent) (c : Core) : (s.setCore a c).speig = s.speig := by
  cases a <;> rfl
@[simp] theorem State.setCore_speigTag (s : State) (a : Agent) (c : Core) : (s.setCore a c).speigTag = s.speigTag := by
  cases a <;> rfl
@[simp] theorem State.setCore_engineId (s : State) (a : Agent) (c : Core) : (s.setCore a c).engineId = s.engineId := by
  cases a <;> rfl
@[simp] theorem State.setCore_crossed (s : State) (a : Agent) (c : Core) : (s.setCore a c).crossed = s.crossed := by
  cases a <;> rfl
@[simp] theorem State.setCore_image (s : State) (a : Agent) (c : Core) : (s.setCore a c).image = s.image := by
  cases a <;> rfl
@[simp] theorem State.setCore_trace (s : State) (a : Agent) (c : Core) : (s.setCore a c).trace = s.trace := by
  cases a <;> rfl
@[simp] theorem State.setCore_owner (s : State) (a : Agent) (c : Core) : (s.setCore a c).owner = s.owner := by
  cases a <;> rfl
@[simp] theorem State.setCore_ownerKey (s : State) (a : Agent) (c : Core) : (s.setCore a c).ownerKey = s.ownerKey := by
  cases a <;> rfl
@[simp] theorem State.setCore_serial (s : State) (a : Agent) (c : Core) : (s.setCore a c).serial = s.serial := by
  cases a <;> rfl
@[simp] theorem State.setCore_boot (s : State) (a : Agent) (c : Core) : (s.setCore a c).boot = s.boot := by
  cases a <;> rfl
@[simp] theorem State.setCore_bootFailed (s : State) (a : Agent) (c : Core) : (s.setCore a c).bootFailed = s.bootFailed := by
  cases a <;> rfl
@[simp] theorem State.setCore_untrained (s : State) (a : Agent) (c : Core) : (s.setCore a c).untrained = s.untrained := by
  cases a <;> rfl
@[simp] theorem State.setCore_lockerr (s : State) (a : Agent) (c : Core) : (s.setCore a c).lockerr = s.lockerr := by
  cases a <;> rfl
@[simp] theorem State.setCore_aer (s : State) (a : Agent) (c : Core) : (s.setCore a c).aer = s.aer := by
  cases a <;> rfl
@[simp] theorem State.setCore_sysImage (s : State) (a : Agent) (c : Core) : (s.setCore a c).sysImage = s.sysImage := by
  cases a <;> rfl

/-! ### A slot replaced -/

@[simp] theorem State.setSlot_cycle (s : State) (a : Agent) (x : Slot) : (s.setSlot a x).cycle = s.cycle := by
  cases a <;> rfl
@[simp] theorem State.setSlot_tbOff (s : State) (a : Agent) (x : Slot) : (s.setSlot a x).tbOff = s.tbOff := by
  cases a <;> rfl
@[simp] theorem State.setSlot_sched (s : State) (a : Agent) (x : Slot) : (s.setSlot a x).sched = s.sched := by
  cases a <;> rfl
@[simp] theorem State.setSlot_cur (s : State) (a : Agent) (x : Slot) : (s.setSlot a x).cur = s.cur := by
  cases a <;> rfl
@[simp] theorem State.setSlot_freeCtr (s : State) (a : Agent) (x : Slot) : (s.setSlot a x).freeCtr = s.freeCtr := by
  cases a <;> rfl
@[simp] theorem State.setSlot_hbm (s : State) (a : Agent) (x : Slot) : (s.setSlot a x).hbm = s.hbm := by
  cases a <;> rfl
@[simp] theorem State.setSlot_hbmEcc (s : State) (a : Agent) (x : Slot) : (s.setSlot a x).hbmEcc = s.hbmEcc := by
  cases a <;> rfl
@[simp] theorem State.setSlot_keyed (s : State) (a : Agent) (x : Slot) : (s.setSlot a x).keyed = s.keyed := by
  cases a <;> rfl
@[simp] theorem State.setSlot_host (s : State) (a : Agent) (x : Slot) : (s.setSlot a x).host = s.host := by
  cases a <;> rfl
@[simp] theorem State.setSlot_fabric (s : State) (a : Agent) (x : Slot) : (s.setSlot a x).fabric = s.fabric := by
  cases a <;> rfl
@[simp] theorem State.setSlot_acks (s : State) (a : Agent) (x : Slot) : (s.setSlot a x).acks = s.acks := by
  cases a <;> rfl
@[simp] theorem State.setSlot_rings (s : State) (a : Agent) (x : Slot) : (s.setSlot a x).rings = s.rings := by
  cases a <;> rfl
@[simp] theorem State.setSlot_flue (s : State) (a : Agent) (x : Slot) : (s.setSlot a x).flue = s.flue := by
  cases a <;> rfl
@[simp] theorem State.setSlot_permits (s : State) (a : Agent) (x : Slot) : (s.setSlot a x).permits = s.permits := by
  cases a <;> rfl
@[simp] theorem State.setSlot_linkWait (s : State) (a : Agent) (x : Slot) : (s.setSlot a x).linkWait = s.linkWait := by
  cases a <;> rfl
@[simp] theorem State.setSlot_launches (s : State) (a : Agent) (x : Slot) : (s.setSlot a x).launches = s.launches := by
  cases a <;> rfl
@[simp] theorem State.setSlot_tags (s : State) (a : Agent) (x : Slot) : (s.setSlot a x).tags = s.tags := by
  cases a <;> rfl
@[simp] theorem State.setSlot_created (s : State) (a : Agent) (x : Slot) : (s.setSlot a x).created = s.created := by
  cases a <;> rfl
@[simp] theorem State.setSlot_children (s : State) (a : Agent) (x : Slot) : (s.setSlot a x).children = s.children := by
  cases a <;> rfl
@[simp] theorem State.setSlot_tally (s : State) (a : Agent) (x : Slot) : (s.setSlot a x).tally = s.tally := by
  cases a <;> rfl
@[simp] theorem State.setSlot_retiring (s : State) (a : Agent) (x : Slot) : (s.setSlot a x).retiring = s.retiring := by
  cases a <;> rfl
@[simp] theorem State.setSlot_queues (s : State) (a : Agent) (x : Slot) : (s.setSlot a x).queues = s.queues := by
  cases a <;> rfl
@[simp] theorem State.setSlot_pendings (s : State) (a : Agent) (x : Slot) : (s.setSlot a x).pendings = s.pendings := by
  cases a <;> rfl
@[simp] theorem State.setSlot_watchdogs (s : State) (a : Agent) (x : Slot) : (s.setSlot a x).watchdogs = s.watchdogs := by
  cases a <;> rfl
@[simp] theorem State.setSlot_lastMapped (s : State) (a : Agent) (x : Slot) : (s.setSlot a x).lastMapped = s.lastMapped := by
  cases a <;> rfl
@[simp] theorem State.setSlot_passes (s : State) (a : Agent) (x : Slot) : (s.setSlot a x).passes = s.passes := by
  cases a <;> rfl
@[simp] theorem State.setSlot_refills (s : State) (a : Agent) (x : Slot) : (s.setSlot a x).refills = s.refills := by
  cases a <;> rfl
@[simp] theorem State.setSlot_buckets (s : State) (a : Agent) (x : Slot) : (s.setSlot a x).buckets = s.buckets := by
  cases a <;> rfl
@[simp] theorem State.setSlot_partitions (s : State) (a : Agent) (x : Slot) : (s.setSlot a x).partitions = s.partitions := by
  cases a <;> rfl
@[simp] theorem State.setSlot_asidPart (s : State) (a : Agent) (x : Slot) : (s.setSlot a x).asidPart = s.asidPart := by
  cases a <;> rfl
@[simp] theorem State.setSlot_asidTable (s : State) (a : Agent) (x : Slot) : (s.setSlot a x).asidTable = s.asidTable := by
  cases a <;> rfl
@[simp] theorem State.setSlot_directory (s : State) (a : Agent) (x : Slot) : (s.setSlot a x).directory = s.directory := by
  cases a <;> rfl
@[simp] theorem State.setSlot_images (s : State) (a : Agent) (x : Slot) : (s.setSlot a x).images = s.images := by
  cases a <;> rfl
@[simp] theorem State.setSlot_moves (s : State) (a : Agent) (x : Slot) : (s.setSlot a x).moves = s.moves := by
  cases a <;> rfl
@[simp] theorem State.setSlot_evring (s : State) (a : Agent) (x : Slot) : (s.setSlot a x).evring = s.evring := by
  cases a <;> rfl
@[simp] theorem State.setSlot_evdrop (s : State) (a : Agent) (x : Slot) : (s.setSlot a x).evdrop = s.evdrop := by
  cases a <;> rfl
@[simp] theorem State.setSlot_evcoal (s : State) (a : Agent) (x : Slot) : (s.setSlot a x).evcoal = s.evcoal := by
  cases a <;> rfl
@[simp] theorem State.setSlot_dbbad (s : State) (a : Agent) (x : Slot) : (s.setSlot a x).dbbad = s.dbbad := by
  cases a <;> rfl
@[simp] theorem State.setSlot_msix (s : State) (a : Agent) (x : Slot) : (s.setSlot a x).msix = s.msix := by
  cases a <;> rfl
@[simp] theorem State.setSlot_errorOrder (s : State) (a : Agent) (x : Slot) : (s.setSlot a x).errorOrder = s.errorOrder := by
  cases a <;> rfl
@[simp] theorem State.setSlot_thermal (s : State) (a : Agent) (x : Slot) : (s.setSlot a x).thermal = s.thermal := by
  cases a <;> rfl
@[simp] theorem State.setSlot_snsWarn (s : State) (a : Agent) (x : Slot) : (s.setSlot a x).snsWarn = s.snsWarn := by
  cases a <;> rfl
@[simp] theorem State.setSlot_snsCrit (s : State) (a : Agent) (x : Slot) : (s.setSlot a x).snsCrit = s.snsCrit := by
  cases a <;> rfl
@[simp] theorem State.setSlot_alert (s : State) (a : Agent) (x : Slot) : (s.setSlot a x).alert = s.alert := by
  cases a <;> rfl
@[simp] theorem State.setSlot_shipped (s : State) (a : Agent) (x : Slot) : (s.setSlot a x).shipped = s.shipped := by
  cases a <;> rfl
@[simp] theorem State.setSlot_retirements (s : State) (a : Agent) (x : Slot) : (s.setSlot a x).retirements = s.retirements := by
  cases a <;> rfl
@[simp] theorem State.setSlot_readmits (s : State) (a : Agent) (x : Slot) : (s.setSlot a x).readmits = s.readmits := by
  cases a <;> rfl
@[simp] theorem State.setSlot_replaceReq (s : State) (a : Agent) (x : Slot) : (s.setSlot a x).replaceReq = s.replaceReq := by
  cases a <;> rfl
@[simp] theorem State.setSlot_peers (s : State) (a : Agent) (x : Slot) : (s.setSlot a x).peers = s.peers := by
  cases a <;> rfl
@[simp] theorem State.setSlot_rxuBusy (s : State) (a : Agent) (x : Slot) : (s.setSlot a x).rxuBusy = s.rxuBusy := by
  cases a <;> rfl
@[simp] theorem State.setSlot_rxu (s : State) (a : Agent) (x : Slot) : (s.setSlot a x).rxu = s.rxu := by
  cases a <;> rfl
@[simp] theorem State.setSlot_halted (s : State) (a : Agent) (x : Slot) : (s.setSlot a x).halted = s.halted := by
  cases a <;> rfl
@[simp] theorem State.setSlot_haltDriven (s : State) (a : Agent) (x : Slot) : (s.setSlot a x).haltDriven = s.haltDriven := by
  cases a <;> rfl
@[simp] theorem State.setSlot_haltIds (s : State) (a : Agent) (x : Slot) : (s.setSlot a x).haltIds = s.haltIds := by
  cases a <;> rfl
@[simp] theorem State.setSlot_haltAt (s : State) (a : Agent) (x : Slot) : (s.setSlot a x).haltAt = s.haltAt := by
  cases a <;> rfl
@[simp] theorem State.setSlot_speig (s : State) (a : Agent) (x : Slot) : (s.setSlot a x).speig = s.speig := by
  cases a <;> rfl
@[simp] theorem State.setSlot_speigTag (s : State) (a : Agent) (x : Slot) : (s.setSlot a x).speigTag = s.speigTag := by
  cases a <;> rfl
@[simp] theorem State.setSlot_engineId (s : State) (a : Agent) (x : Slot) : (s.setSlot a x).engineId = s.engineId := by
  cases a <;> rfl
@[simp] theorem State.setSlot_crossed (s : State) (a : Agent) (x : Slot) : (s.setSlot a x).crossed = s.crossed := by
  cases a <;> rfl
@[simp] theorem State.setSlot_image (s : State) (a : Agent) (x : Slot) : (s.setSlot a x).image = s.image := by
  cases a <;> rfl
@[simp] theorem State.setSlot_trace (s : State) (a : Agent) (x : Slot) : (s.setSlot a x).trace = s.trace := by
  cases a <;> rfl
@[simp] theorem State.setSlot_owner (s : State) (a : Agent) (x : Slot) : (s.setSlot a x).owner = s.owner := by
  cases a <;> rfl
@[simp] theorem State.setSlot_ownerKey (s : State) (a : Agent) (x : Slot) : (s.setSlot a x).ownerKey = s.ownerKey := by
  cases a <;> rfl
@[simp] theorem State.setSlot_serial (s : State) (a : Agent) (x : Slot) : (s.setSlot a x).serial = s.serial := by
  cases a <;> rfl
@[simp] theorem State.setSlot_boot (s : State) (a : Agent) (x : Slot) : (s.setSlot a x).boot = s.boot := by
  cases a <;> rfl
@[simp] theorem State.setSlot_bootFailed (s : State) (a : Agent) (x : Slot) : (s.setSlot a x).bootFailed = s.bootFailed := by
  cases a <;> rfl
@[simp] theorem State.setSlot_untrained (s : State) (a : Agent) (x : Slot) : (s.setSlot a x).untrained = s.untrained := by
  cases a <;> rfl
@[simp] theorem State.setSlot_lockerr (s : State) (a : Agent) (x : Slot) : (s.setSlot a x).lockerr = s.lockerr := by
  cases a <;> rfl
@[simp] theorem State.setSlot_aer (s : State) (a : Agent) (x : Slot) : (s.setSlot a x).aer = s.aer := by
  cases a <;> rfl
@[simp] theorem State.setSlot_sysImage (s : State) (a : Agent) (x : Slot) : (s.setSlot a x).sysImage = s.sysImage := by
  cases a <;> rfl
@[simp] theorem Tile.setSlot_occ (t : Tile) (k : Fin 8) (x : Slot) : (t.setSlot k x).occ = t.occ := rfl
@[simp] theorem Tile.setSlot_retired (t : Tile) (k : Fin 8) (x : Slot) : (t.setSlot k x).retired = t.retired := rfl
@[simp] theorem Tile.setSlot_spad (t : Tile) (k : Fin 8) (x : Slot) : (t.setSlot k x).spad = t.spad := rfl
@[simp] theorem Tile.setSlot_shadow (t : Tile) (k : Fin 8) (x : Slot) : (t.setSlot k x).shadow = t.shadow := rfl
@[simp] theorem Tile.setSlot_fe (t : Tile) (k : Fin 8) (x : Slot) : (t.setSlot k x).fe = t.fe := rfl
@[simp] theorem Tile.setSlot_eccWords (t : Tile) (k : Fin 8) (x : Slot) : (t.setSlot k x).eccWords = t.eccWords := rfl
@[simp] theorem Tile.setSlot_code (t : Tile) (k : Fin 8) (x : Slot) : (t.setSlot k x).code = t.code := rfl
@[simp] theorem Tile.setSlot_sysSeg (t : Tile) (k : Fin 8) (x : Slot) : (t.setSlot k x).sysSeg = t.sysSeg := rfl
@[simp] theorem Tile.setSlot_tregs (t : Tile) (k : Fin 8) (x : Slot) : (t.setSlot k x).tregs = t.tregs := rfl
@[simp] theorem Tile.setSlot_tcfg (t : Tile) (k : Fin 8) (x : Slot) : (t.setSlot k x).tcfg = t.tcfg := rfl
@[simp] theorem Tile.setSlot_mrow (t : Tile) (k : Fin 8) (x : Slot) : (t.setSlot k x).mrow = t.mrow := rfl
@[simp] theorem Tile.setSlot_mcol0 (t : Tile) (k : Fin 8) (x : Slot) : (t.setSlot k x).mcol0 = t.mcol0 := rfl
@[simp] theorem Tile.setSlot_mcol1 (t : Tile) (k : Fin 8) (x : Slot) : (t.setSlot k x).mcol1 = t.mcol1 := rfl
@[simp] theorem Tile.setSlot_mslot (t : Tile) (k : Fin 8) (x : Slot) : (t.setSlot k x).mslot = t.mslot := rfl
@[simp] theorem Tile.setSlot_mptr (t : Tile) (k : Fin 8) (x : Slot) : (t.setSlot k x).mptr = t.mptr := rfl
@[simp] theorem Tile.setSlot_mlast (t : Tile) (k : Fin 8) (x : Slot) : (t.setSlot k x).mlast = t.mlast := rfl
@[simp] theorem Tile.setSlot_mfree (t : Tile) (k : Fin 8) (x : Slot) : (t.setSlot k x).mfree = t.mfree := rfl
@[simp] theorem Tile.setSlot_vfree (t : Tile) (k : Fin 8) (x : Slot) : (t.setSlot k x).vfree = t.vfree := rfl
@[simp] theorem Tile.setSlot_gresid (t : Tile) (k : Fin 8) (x : Slot) : (t.setSlot k x).gresid = t.gresid := rfl
@[simp] theorem Tile.setSlot_dispFree (t : Tile) (k : Fin 8) (x : Slot) : (t.setSlot k x).dispFree = t.dispFree := rfl
@[simp] theorem Tile.setSlot_qslice (t : Tile) (k : Fin 8) (x : Slot) : (t.setSlot k x).qslice = t.qslice := rfl
@[simp] theorem Tile.setSlot_templates (t : Tile) (k : Fin 8) (x : Slot) : (t.setSlot k x).templates = t.templates := rfl
@[simp] theorem Tile.setSlot_jobs (t : Tile) (k : Fin 8) (x : Slot) : (t.setSlot k x).jobs = t.jobs := rfl
@[simp] theorem Tile.setSlot_lastTicket (t : Tile) (k : Fin 8) (x : Slot) : (t.setSlot k x).lastTicket = t.lastTicket := rfl
@[simp] theorem Tile.setSlot_xerr (t : Tile) (k : Fin 8) (x : Slot) : (t.setSlot k x).xerr = t.xerr := rfl
@[simp] theorem Tile.setSlot_streams (t : Tile) (k : Fin 8) (x : Slot) : (t.setSlot k x).streams = t.streams := rfl
@[simp] theorem Tile.setSlot_counters (t : Tile) (k : Fin 8) (x : Slot) : (t.setSlot k x).counters = t.counters := rfl
@[simp] theorem Tile.setSlot_iqs (t : Tile) (k : Fin 8) (x : Slot) : (t.setSlot k x).iqs = t.iqs := rfl
@[simp] theorem Tile.setSlot_hold (t : Tile) (k : Fin 8) (x : Slot) : (t.setSlot k x).hold = t.hold := rfl
@[simp] theorem Tile.setSlot_heldReqs (t : Tile) (k : Fin 8) (x : Slot) : (t.setSlot k x).heldReqs = t.heldReqs := rfl
@[simp] theorem Tile.setSlot_outq (t : Tile) (k : Fin 8) (x : Slot) : (t.setSlot k x).outq = t.outq := rfl
@[simp] theorem Tile.setSlot_ctrSets (t : Tile) (k : Fin 8) (x : Slot) : (t.setSlot k x).ctrSets = t.ctrSets := rfl
@[simp] theorem Tile.setSlot_names (t : Tile) (k : Fin 8) (x : Slot) : (t.setSlot k x).names = t.names := rfl
@[simp] theorem Tile.setSlot_guard (t : Tile) (k : Fin 8) (x : Slot) : (t.setSlot k x).guard = t.guard := rfl
@[simp] theorem Tile.setSlot_stop (t : Tile) (k : Fin 8) (x : Slot) : (t.setSlot k x).stop = t.stop := rfl
@[simp] theorem Tile.setSlot_nodisp (t : Tile) (k : Fin 8) (x : Slot) : (t.setSlot k x).nodisp = t.nodisp := rfl
@[simp] theorem Tile.setSlot_faulted (t : Tile) (k : Fin 8) (x : Slot) : (t.setSlot k x).faulted = t.faulted := rfl
@[simp] theorem Tile.setSlot_svq (t : Tile) (k : Fin 8) (x : Slot) : (t.setSlot k x).svq = t.svq := rfl
@[simp] theorem Tile.setSlot_ni (t : Tile) (k : Fin 8) (x : Slot) : (t.setSlot k x).ni = t.ni := rfl
@[simp] theorem Tile.setSlot_sealing (t : Tile) (k : Fin 8) (x : Slot) : (t.setSlot k x).sealing = t.sealing := rfl
@[simp] theorem Tile.setSlot_fwd (t : Tile) (k : Fin 8) (x : Slot) : (t.setSlot k x).fwd = t.fwd := rfl
@[simp] theorem Tile.setSlot_colour (t : Tile) (k : Fin 8) (x : Slot) : (t.setSlot k x).colour = t.colour := rfl
@[simp] theorem Tile.setSlot_colourCtr (t : Tile) (k : Fin 8) (x : Slot) : (t.setSlot k x).colourCtr = t.colourCtr := rfl
@[simp] theorem Tile.setSlot_quiesce (t : Tile) (k : Fin 8) (x : Slot) : (t.setSlot k x).quiesce = t.quiesce := rfl
@[simp] theorem Tile.setSlot_packMask (t : Tile) (k : Fin 8) (x : Slot) : (t.setSlot k x).packMask = t.packMask := rfl
@[simp] theorem Tile.setSlot_savedMask (t : Tile) (k : Fin 8) (x : Slot) : (t.setSlot k x).savedMask = t.savedMask := rfl
@[simp] theorem Tile.setSlot_trSeq (t : Tile) (k : Fin 8) (x : Slot) : (t.setSlot k x).trSeq = t.trSeq := rfl
@[simp] theorem Tile.setSlot_trLast (t : Tile) (k : Fin 8) (x : Slot) : (t.setSlot k x).trLast = t.trLast := rfl
@[simp] theorem Tile.setSlot_trRebase (t : Tile) (k : Fin 8) (x : Slot) : (t.setSlot k x).trRebase = t.trRebase := rfl
@[simp] theorem Tile.setSlot_trLost (t : Tile) (k : Fin 8) (x : Slot) : (t.setSlot k x).trLost = t.trLost := rfl
@[simp] theorem Tile.setSlot_sums (t : Tile) (k : Fin 8) (x : Slot) : (t.setSlot k x).sums = t.sums := rfl
@[simp] theorem Tile.setSlot_sendSeq (t : Tile) (k : Fin 8) (x : Slot) : (t.setSlot k x).sendSeq = t.sendSeq := rfl
@[simp] theorem Tile.setSlot_fresh (t : Tile) (k : Fin 8) (x : Slot) : (t.setSlot k x).fresh = t.fresh := rfl
@[simp] theorem Tile.setSlot_pdone (t : Tile) (k : Fin 8) (x : Slot) : (t.setSlot k x).pdone = t.pdone := rfl
@[simp] theorem Tile.setSlot_killSent (t : Tile) (k : Fin 8) (x : Slot) : (t.setSlot k x).killSent = t.killSent := rfl
@[simp] theorem Tile.setSlot_opening (t : Tile) (k : Fin 8) (x : Slot) : (t.setSlot k x).opening = t.opening := rfl
@[simp] theorem Tile.setSlot_freeUse (t : Tile) (k : Fin 8) (x : Slot) : (t.setSlot k x).freeUse = t.freeUse := rfl
@[simp] theorem Tile.setSlot_good (t : Tile) (k : Fin 8) (x : Slot) : (t.setSlot k x).good = t.good := rfl
@[simp] theorem Tile.setSlot_fused (t : Tile) (k : Fin 8) (x : Slot) : (t.setSlot k x).fused = t.fused := rfl
@[simp] theorem Tile.setSlot_outOfService (t : Tile) (k : Fin 8) (x : Slot) : (t.setSlot k x).outOfService = t.outOfService := rfl
@[simp] theorem Tile.setSlot_eccStops (t : Tile) (k : Fin 8) (x : Slot) : (t.setSlot k x).eccStops = t.eccStops := rfl
@[simp] theorem Tile.setSlot_bankAt (t : Tile) (k : Fin 8) (x : Slot) : (t.setSlot k x).bankAt = t.bankAt := rfl
@[simp] theorem Tile.setSlot_condemned (t : Tile) (k : Fin 8) (x : Slot) : (t.setSlot k x).condemned = t.condemned := rfl
@[simp] theorem Tile.slots_setSlot_same (t : Tile) (k : Fin 8) (x : Slot) : (t.setSlot k x).slots[k] = x := by
  simp [Tile.setSlot]
theorem Tile.slots_setSlot_other (t : Tile) (k j : Fin 8) (x : Slot) (h : j ≠ k) : (t.setSlot k x).slots[j] = t.slots[j] := by
  have : k.val ≠ j.val := fun e => h (Fin.ext e.symm)
  simp [Tile.setSlot, this]
@[simp] theorem State.slot_setSlot_same (s : State) (a : Agent) (x : Slot) : (s.setSlot a x).slot a = x := by
  cases a with
  | tile y k => simp [State.slot, State.setSlot, Tile.setSlot]
  | collier => rfl
  | stoker r => simp [State.slot, State.setSlot, State.stoker]

/-! ### Free values drawn -/

@[simp] theorem State.spend_cycle (s : State) (a : Agent) (n : Nat) : (s.spend a n).cycle = s.cycle := by
  cases a <;> rfl
@[simp] theorem State.spend_tbOff (s : State) (a : Agent) (n : Nat) : (s.spend a n).tbOff = s.tbOff := by
  cases a <;> rfl
@[simp] theorem State.spend_sched (s : State) (a : Agent) (n : Nat) : (s.spend a n).sched = s.sched := by
  cases a <;> rfl
@[simp] theorem State.spend_cur (s : State) (a : Agent) (n : Nat) : (s.spend a n).cur = s.cur := by
  cases a <;> rfl
@[simp] theorem State.spend_collier (s : State) (a : Agent) (n : Nat) : (s.spend a n).collier = s.collier := by
  cases a <;> rfl
@[simp] theorem State.spend_stokers (s : State) (a : Agent) (n : Nat) : (s.spend a n).stokers = s.stokers := by
  cases a <;> rfl
@[simp] theorem State.spend_hbm (s : State) (a : Agent) (n : Nat) : (s.spend a n).hbm = s.hbm := by
  cases a <;> rfl
@[simp] theorem State.spend_hbmEcc (s : State) (a : Agent) (n : Nat) : (s.spend a n).hbmEcc = s.hbmEcc := by
  cases a <;> rfl
@[simp] theorem State.spend_keyed (s : State) (a : Agent) (n : Nat) : (s.spend a n).keyed = s.keyed := by
  cases a <;> rfl
@[simp] theorem State.spend_host (s : State) (a : Agent) (n : Nat) : (s.spend a n).host = s.host := by
  cases a <;> rfl
@[simp] theorem State.spend_fabric (s : State) (a : Agent) (n : Nat) : (s.spend a n).fabric = s.fabric := by
  cases a <;> rfl
@[simp] theorem State.spend_acks (s : State) (a : Agent) (n : Nat) : (s.spend a n).acks = s.acks := by
  cases a <;> rfl
@[simp] theorem State.spend_rings (s : State) (a : Agent) (n : Nat) : (s.spend a n).rings = s.rings := by
  cases a <;> rfl
@[simp] theorem State.spend_flue (s : State) (a : Agent) (n : Nat) : (s.spend a n).flue = s.flue := by
  cases a <;> rfl
@[simp] theorem State.spend_permits (s : State) (a : Agent) (n : Nat) : (s.spend a n).permits = s.permits := by
  cases a <;> rfl
@[simp] theorem State.spend_linkWait (s : State) (a : Agent) (n : Nat) : (s.spend a n).linkWait = s.linkWait := by
  cases a <;> rfl
@[simp] theorem State.spend_launches (s : State) (a : Agent) (n : Nat) : (s.spend a n).launches = s.launches := by
  cases a <;> rfl
@[simp] theorem State.spend_tags (s : State) (a : Agent) (n : Nat) : (s.spend a n).tags = s.tags := by
  cases a <;> rfl
@[simp] theorem State.spend_created (s : State) (a : Agent) (n : Nat) : (s.spend a n).created = s.created := by
  cases a <;> rfl
@[simp] theorem State.spend_children (s : State) (a : Agent) (n : Nat) : (s.spend a n).children = s.children := by
  cases a <;> rfl
@[simp] theorem State.spend_tally (s : State) (a : Agent) (n : Nat) : (s.spend a n).tally = s.tally := by
  cases a <;> rfl
@[simp] theorem State.spend_retiring (s : State) (a : Agent) (n : Nat) : (s.spend a n).retiring = s.retiring := by
  cases a <;> rfl
@[simp] theorem State.spend_queues (s : State) (a : Agent) (n : Nat) : (s.spend a n).queues = s.queues := by
  cases a <;> rfl
@[simp] theorem State.spend_pendings (s : State) (a : Agent) (n : Nat) : (s.spend a n).pendings = s.pendings := by
  cases a <;> rfl
@[simp] theorem State.spend_watchdogs (s : State) (a : Agent) (n : Nat) : (s.spend a n).watchdogs = s.watchdogs := by
  cases a <;> rfl
@[simp] theorem State.spend_lastMapped (s : State) (a : Agent) (n : Nat) : (s.spend a n).lastMapped = s.lastMapped := by
  cases a <;> rfl
@[simp] theorem State.spend_passes (s : State) (a : Agent) (n : Nat) : (s.spend a n).passes = s.passes := by
  cases a <;> rfl
@[simp] theorem State.spend_refills (s : State) (a : Agent) (n : Nat) : (s.spend a n).refills = s.refills := by
  cases a <;> rfl
@[simp] theorem State.spend_buckets (s : State) (a : Agent) (n : Nat) : (s.spend a n).buckets = s.buckets := by
  cases a <;> rfl
@[simp] theorem State.spend_partitions (s : State) (a : Agent) (n : Nat) : (s.spend a n).partitions = s.partitions := by
  cases a <;> rfl
@[simp] theorem State.spend_asidPart (s : State) (a : Agent) (n : Nat) : (s.spend a n).asidPart = s.asidPart := by
  cases a <;> rfl
@[simp] theorem State.spend_asidTable (s : State) (a : Agent) (n : Nat) : (s.spend a n).asidTable = s.asidTable := by
  cases a <;> rfl
@[simp] theorem State.spend_directory (s : State) (a : Agent) (n : Nat) : (s.spend a n).directory = s.directory := by
  cases a <;> rfl
@[simp] theorem State.spend_images (s : State) (a : Agent) (n : Nat) : (s.spend a n).images = s.images := by
  cases a <;> rfl
@[simp] theorem State.spend_moves (s : State) (a : Agent) (n : Nat) : (s.spend a n).moves = s.moves := by
  cases a <;> rfl
@[simp] theorem State.spend_evring (s : State) (a : Agent) (n : Nat) : (s.spend a n).evring = s.evring := by
  cases a <;> rfl
@[simp] theorem State.spend_evdrop (s : State) (a : Agent) (n : Nat) : (s.spend a n).evdrop = s.evdrop := by
  cases a <;> rfl
@[simp] theorem State.spend_evcoal (s : State) (a : Agent) (n : Nat) : (s.spend a n).evcoal = s.evcoal := by
  cases a <;> rfl
@[simp] theorem State.spend_dbbad (s : State) (a : Agent) (n : Nat) : (s.spend a n).dbbad = s.dbbad := by
  cases a <;> rfl
@[simp] theorem State.spend_msix (s : State) (a : Agent) (n : Nat) : (s.spend a n).msix = s.msix := by
  cases a <;> rfl
@[simp] theorem State.spend_errorOrder (s : State) (a : Agent) (n : Nat) : (s.spend a n).errorOrder = s.errorOrder := by
  cases a <;> rfl
@[simp] theorem State.spend_thermal (s : State) (a : Agent) (n : Nat) : (s.spend a n).thermal = s.thermal := by
  cases a <;> rfl
@[simp] theorem State.spend_snsWarn (s : State) (a : Agent) (n : Nat) : (s.spend a n).snsWarn = s.snsWarn := by
  cases a <;> rfl
@[simp] theorem State.spend_snsCrit (s : State) (a : Agent) (n : Nat) : (s.spend a n).snsCrit = s.snsCrit := by
  cases a <;> rfl
@[simp] theorem State.spend_alert (s : State) (a : Agent) (n : Nat) : (s.spend a n).alert = s.alert := by
  cases a <;> rfl
@[simp] theorem State.spend_shipped (s : State) (a : Agent) (n : Nat) : (s.spend a n).shipped = s.shipped := by
  cases a <;> rfl
@[simp] theorem State.spend_retirements (s : State) (a : Agent) (n : Nat) : (s.spend a n).retirements = s.retirements := by
  cases a <;> rfl
@[simp] theorem State.spend_readmits (s : State) (a : Agent) (n : Nat) : (s.spend a n).readmits = s.readmits := by
  cases a <;> rfl
@[simp] theorem State.spend_replaceReq (s : State) (a : Agent) (n : Nat) : (s.spend a n).replaceReq = s.replaceReq := by
  cases a <;> rfl
@[simp] theorem State.spend_peers (s : State) (a : Agent) (n : Nat) : (s.spend a n).peers = s.peers := by
  cases a <;> rfl
@[simp] theorem State.spend_rxuBusy (s : State) (a : Agent) (n : Nat) : (s.spend a n).rxuBusy = s.rxuBusy := by
  cases a <;> rfl
@[simp] theorem State.spend_rxu (s : State) (a : Agent) (n : Nat) : (s.spend a n).rxu = s.rxu := by
  cases a <;> rfl
@[simp] theorem State.spend_halted (s : State) (a : Agent) (n : Nat) : (s.spend a n).halted = s.halted := by
  cases a <;> rfl
@[simp] theorem State.spend_haltDriven (s : State) (a : Agent) (n : Nat) : (s.spend a n).haltDriven = s.haltDriven := by
  cases a <;> rfl
@[simp] theorem State.spend_haltIds (s : State) (a : Agent) (n : Nat) : (s.spend a n).haltIds = s.haltIds := by
  cases a <;> rfl
@[simp] theorem State.spend_haltAt (s : State) (a : Agent) (n : Nat) : (s.spend a n).haltAt = s.haltAt := by
  cases a <;> rfl
@[simp] theorem State.spend_speig (s : State) (a : Agent) (n : Nat) : (s.spend a n).speig = s.speig := by
  cases a <;> rfl
@[simp] theorem State.spend_speigTag (s : State) (a : Agent) (n : Nat) : (s.spend a n).speigTag = s.speigTag := by
  cases a <;> rfl
@[simp] theorem State.spend_engineId (s : State) (a : Agent) (n : Nat) : (s.spend a n).engineId = s.engineId := by
  cases a <;> rfl
@[simp] theorem State.spend_crossed (s : State) (a : Agent) (n : Nat) : (s.spend a n).crossed = s.crossed := by
  cases a <;> rfl
@[simp] theorem State.spend_image (s : State) (a : Agent) (n : Nat) : (s.spend a n).image = s.image := by
  cases a <;> rfl
@[simp] theorem State.spend_trace (s : State) (a : Agent) (n : Nat) : (s.spend a n).trace = s.trace := by
  cases a <;> rfl
@[simp] theorem State.spend_owner (s : State) (a : Agent) (n : Nat) : (s.spend a n).owner = s.owner := by
  cases a <;> rfl
@[simp] theorem State.spend_ownerKey (s : State) (a : Agent) (n : Nat) : (s.spend a n).ownerKey = s.ownerKey := by
  cases a <;> rfl
@[simp] theorem State.spend_serial (s : State) (a : Agent) (n : Nat) : (s.spend a n).serial = s.serial := by
  cases a <;> rfl
@[simp] theorem State.spend_boot (s : State) (a : Agent) (n : Nat) : (s.spend a n).boot = s.boot := by
  cases a <;> rfl
@[simp] theorem State.spend_bootFailed (s : State) (a : Agent) (n : Nat) : (s.spend a n).bootFailed = s.bootFailed := by
  cases a <;> rfl
@[simp] theorem State.spend_untrained (s : State) (a : Agent) (n : Nat) : (s.spend a n).untrained = s.untrained := by
  cases a <;> rfl
@[simp] theorem State.spend_lockerr (s : State) (a : Agent) (n : Nat) : (s.spend a n).lockerr = s.lockerr := by
  cases a <;> rfl
@[simp] theorem State.spend_aer (s : State) (a : Agent) (n : Nat) : (s.spend a n).aer = s.aer := by
  cases a <;> rfl
@[simp] theorem State.spend_sysImage (s : State) (a : Agent) (n : Nat) : (s.spend a n).sysImage = s.sysImage := by
  cases a <;> rfl

/-! ### A tile and slot read through an update -/


end Sys2Proof.Machine
end

