-- ==== Sys2Proof/Laws/Issue.lean ====
section
/-! SUPPORT. What the issue of an instruction does, said once: where its slot may issue and its own effect is performed the
next state is that effect with the program counter moved on; where the effect waits or stops, the next state is the wait or the
entry of its cause. -/

namespace Sys2Proof.Machine

/-! ### The body monad -/

@[simp] theorem M.pure_apply {α : Type} (x : α) (s : State) : (pure x : M α) s = .ok (x, s) := rfl

@[simp] theorem M.get_apply (s : State) : (get : M State) s = .ok (s, s) := rfl

@[simp] theorem M.set_apply (t s : State) : (set t : M Unit) s = .ok ((), t) := rfl

@[simp] theorem M.modify_apply (f : State → State) (s : State) : (modify f : M Unit) s = .ok ((), f s) := rfl

@[simp] theorem M.throw_apply {α : Type} (e : Stop) (s : State) : (throw e : M α) s = .error e := rfl

/-- A bind whose first part succeeds goes on from where it left. -/
theorem M.bind_ok {α β : Type} {m : M α} {f : α → M β} {s t : State} {x : α} (h : m s = .ok (x, t)) :
    (m >>= f) s = f x t := by
  show (StateT.bind m f) s = _
  simp [StateT.bind, h, bind, Except.bind]

/-- A bind whose first part stops stops with it. -/
theorem M.bind_error {α β : Type} {m : M α} {f : α → M β} {s : State} {e : Stop} (h : m s = .error e) :
    (m >>= f) s = .error e := by
  show (StateT.bind m f) s = _
  simp [StateT.bind, h, bind, Except.bind]

/-- A requirement that holds changes nothing. -/
theorem require_ok {b : Bool} {e : Stop} (s : State) (h : b = true) : require b e s = .ok ((), s) := by
  simp [require, h]

/-- A requirement that does not hold stops. -/
theorem require_error {b : Bool} {e : Stop} (s : State) (h : b = false) : require b e s = .error e := by
  simp [require, h]

/-! ### Issue -/

/-- Before an instruction's own effect: the slot may issue, the mode admits the instruction, and time has passed to the
cycle in which the slot is ready. -/
theorem openIssue_ok {o : Op} {s : State} (may : s.mayIssue = true)
    (mode : modeCause s.cur (s.slot s.cur).sys o = none) : openIssue o s = .ok ((), s.advance s.cur s.readyCycle) := by
  unfold openIssue
  rw [M.bind_ok (M.get_apply s), M.bind_ok (require_ok s may), M.bind_ok (M.set_apply _ s), mode]
  rfl

/-- An instruction whose slot may issue, which its mode admits and whose own effect is performed, completes. -/
theorem issue_completes {o : Op} {body : M Flow} {s t : State} {fl : Flow} (may : s.mayIssue = true)
    (mode : modeCause s.cur (s.slot s.cur).sys o = none) (h : body (s.advance s.cur s.readyCycle) = .ok (fl, t)) :
    issue o body s = .next (finish o fl t) := by
  unfold issue
  rw [M.bind_ok (openIssue_ok may mode), h]

/-- What an instruction may come to: its own effect, a wait, a cause, the end of the guarded phase, or an access to storage
that does not exist. -/
theorem issue_cases (o : Op) (body : M Flow) (s : State) :
    (∃ fl t, issue o body s = .next (finish o fl t)) ∨ (∃ w, issue o body s = .next (s.hold w))
      ∨ (∃ c tv, issue o body s = .next (s.takeTrap c tv (s.slot s.cur).pc))
      ∨ issue o body s = .next (s.rejectPhase s.cur.site 3 0) ∨ ∃ f, issue o body s = .fault f := by
  unfold issue
  split
  · exact .inl ⟨_, _, rfl⟩
  · exact .inr (.inl ⟨_, rfl⟩)
  · exact .inr (.inr (.inl ⟨_, _, rfl⟩))
  · exact .inr (.inr (.inl ⟨_, _, rfl⟩))
  · exact .inr (.inr (.inr (.inl rfl)))
  · exact .inr (.inr (.inr (.inr ⟨_, rfl⟩)))

/-- The issue of an instruction is never refused. -/
theorem issue_not_refused (o : Op) (body : M Flow) (s : State) (r : Refusal) : issue o body s ≠ .refused r := by
  intro h
  rcases issue_cases o body s with ⟨_, _, e⟩ | ⟨_, e⟩ | ⟨_, _, e⟩ | e | ⟨_, e⟩ <;> rw [e] at h <;> cases h

end Sys2Proof.Machine
end

