-- ==== Sys2Proof/Laws/PerInstr.lean ====
section
/-! SUPPORT. What holds of every instruction as syntax, one lemma for each constructor. The family Encoding: the word of a
well-formed instruction fits its length, and bit 15 of its first halfword tells the length (spec/05_encoding.md R128). -/

namespace Sys2Proof.Laws

/-! ### Codes fit their fields -/

theorem src_code_lt (a : Src) : a.code < 64 := by
  cases a <;> simp only [Src.code] <;> omega
theorem src5_code_lt (a : Src5) : a.code < 32 := by
  cases a <;> simp only [Src5.code] <;> omega
theorem dst_code_lt (a : Dst) : a.code < 64 := by
  cases a <;> simp only [Dst.code] <;> omega
theorem vsrc_code_lt (a : VSrc) : a.code < 64 := by
  cases a <;> simp only [VSrc.code] <;> omega
theorem vdst_code_lt (a : VDst) : a.code < 64 := by
  cases a <;> simp only [VDst.code] <;> omega

end Sys2Proof.Laws

namespace Sys2Proof.Laws.Encoding

set_option Elab.async false

/-- A 32-bit instruction has bit 31 of its word set and fits 32 bits; a 16-bit one fits 15; a step of the module has no
word. -/
def Statement (i : Instr) : Prop :=
  (i.halfwords = 2 → 2 ^ 31 ≤ encodeWord i ∧ encodeWord i < 2 ^ 32) ∧ (i.halfwords = 1 → encodeWord i < 2 ^ 15)
    ∧ i.halfwords ≤ 2

/-- A word of a 32-bit form. -/
theorem of_long (i : Instr) (h : i.halfwords = 2) (b : 2 ^ 31 ≤ encodeWord i ∧ encodeWord i < 2 ^ 32) : Statement i := by
  exact ⟨fun _ => b, fun h1 => (by rw [h] at h1; cases h1), by omega⟩
/-- A word of a 16-bit form. -/
theorem of_short (i : Instr) (h : i.halfwords = 1) (hi : encodeWord i < 2 ^ 15) : Statement i := by
  exact ⟨fun h1 => (by rw [h] at h1; cases h1), fun _ => hi, by omega⟩
/-- A step without a word. -/
theorem of_step (i : Instr) (h : i.halfwords = 0) : Statement i := by
  simp [Statement, h]

theorem add (stl : Stl) (d : Dst) (a b : Src) : Statement (.add stl d a b) := by
  have h0 := stl.isLt
  have h1 := dst_code_lt d
  have h2 := src_code_lt a
  have h3 := src_code_lt b
  exact of_long _ rfl (by simp only [encodeWord]; omega)
theorem sub (stl : Stl) (d : Dst) (a b : Src) : Statement (.sub stl d a b) := by
  have h0 := stl.isLt
  have h1 := dst_code_lt d
  have h2 := src_code_lt a
  have h3 := src_code_lt b
  exact of_long _ rfl (by simp only [encodeWord]; omega)
theorem and (stl : Stl) (d : Dst) (a b : Src) : Statement (.and stl d a b) := by
  have h0 := stl.isLt
  have h1 := dst_code_lt d
  have h2 := src_code_lt a
  have h3 := src_code_lt b
  exact of_long _ rfl (by simp only [encodeWord]; omega)
theorem or (stl : Stl) (d : Dst) (a b : Src) : Statement (.or stl d a b) := by
  have h0 := stl.isLt
  have h1 := dst_code_lt d
  have h2 := src_code_lt a
  have h3 := src_code_lt b
  exact of_long _ rfl (by simp only [encodeWord]; omega)
theorem xor (stl : Stl) (d : Dst) (a b : Src) : Statement (.xor stl d a b) := by
  have h0 := stl.isLt
  have h1 := dst_code_lt d
  have h2 := src_code_lt a
  have h3 := src_code_lt b
  exact of_long _ rfl (by simp only [encodeWord]; omega)
theorem andn (stl : Stl) (d : Dst) (a b : Src) : Statement (.andn stl d a b) := by
  have h0 := stl.isLt
  have h1 := dst_code_lt d
  have h2 := src_code_lt a
  have h3 := src_code_lt b
  exact of_long _ rfl (by simp only [encodeWord]; omega)
theorem orn (stl : Stl) (d : Dst) (a b : Src) : Statement (.orn stl d a b) := by
  have h0 := stl.isLt
  have h1 := dst_code_lt d
  have h2 := src_code_lt a
  have h3 := src_code_lt b
  exact of_long _ rfl (by simp only [encodeWord]; omega)
theorem shl (stl : Stl) (d : Dst) (a b : Src) : Statement (.shl stl d a b) := by
  have h0 := stl.isLt
  have h1 := dst_code_lt d
  have h2 := src_code_lt a
  have h3 := src_code_lt b
  exact of_long _ rfl (by simp only [encodeWord]; omega)
theorem shr (stl : Stl) (d : Dst) (a b : Src) : Statement (.shr stl d a b) := by
  have h0 := stl.isLt
  have h1 := dst_code_lt d
  have h2 := src_code_lt a
  have h3 := src_code_lt b
  exact of_long _ rfl (by simp only [encodeWord]; omega)
theorem shra (stl : Stl) (d : Dst) (a b : Src) : Statement (.shra stl d a b) := by
  have h0 := stl.isLt
  have h1 := dst_code_lt d
  have h2 := src_code_lt a
  have h3 := src_code_lt b
  exact of_long _ rfl (by simp only [encodeWord]; omega)
theorem rot (stl : Stl) (d : Dst) (a b : Src) : Statement (.rot stl d a b) := by
  have h0 := stl.isLt
  have h1 := dst_code_lt d
  have h2 := src_code_lt a
  have h3 := src_code_lt b
  exact of_long _ rfl (by simp only [encodeWord]; omega)
theorem min (stl : Stl) (d : Dst) (a b : Src) : Statement (.min stl d a b) := by
  have h0 := stl.isLt
  have h1 := dst_code_lt d
  have h2 := src_code_lt a
  have h3 := src_code_lt b
  exact of_long _ rfl (by simp only [encodeWord]; omega)
theorem max (stl : Stl) (d : Dst) (a b : Src) : Statement (.max stl d a b) := by
  have h0 := stl.isLt
  have h1 := dst_code_lt d
  have h2 := src_code_lt a
  have h3 := src_code_lt b
  exact of_long _ rfl (by simp only [encodeWord]; omega)
theorem minu (stl : Stl) (d : Dst) (a b : Src) : Statement (.minu stl d a b) := by
  have h0 := stl.isLt
  have h1 := dst_code_lt d
  have h2 := src_code_lt a
  have h3 := src_code_lt b
  exact of_long _ rfl (by simp only [encodeWord]; omega)
theorem maxu (stl : Stl) (d : Dst) (a b : Src) : Statement (.maxu stl d a b) := by
  have h0 := stl.isLt
  have h1 := dst_code_lt d
  have h2 := src_code_lt a
  have h3 := src_code_lt b
  exact of_long _ rfl (by simp only [encodeWord]; omega)
theorem mul (stl : Stl) (d : Dst) (a b : Src) : Statement (.mul stl d a b) := by
  have h0 := stl.isLt
  have h1 := dst_code_lt d
  have h2 := src_code_lt a
  have h3 := src_code_lt b
  exact of_long _ rfl (by simp only [encodeWord]; omega)
theorem mulh (stl : Stl) (d : Dst) (a b : Src) : Statement (.mulh stl d a b) := by
  have h0 := stl.isLt
  have h1 := dst_code_lt d
  have h2 := src_code_lt a
  have h3 := src_code_lt b
  exact of_long _ rfl (by simp only [encodeWord]; omega)
theorem mulhu (stl : Stl) (d : Dst) (a b : Src) : Statement (.mulhu stl d a b) := by
  have h0 := stl.isLt
  have h1 := dst_code_lt d
  have h2 := src_code_lt a
  have h3 := src_code_lt b
  exact of_long _ rfl (by simp only [encodeWord]; omega)
theorem div (stl : Stl) (d : Dst) (a b : Src) : Statement (.div stl d a b) := by
  have h0 := stl.isLt
  have h1 := dst_code_lt d
  have h2 := src_code_lt a
  have h3 := src_code_lt b
  exact of_long _ rfl (by simp only [encodeWord]; omega)
theorem divu (stl : Stl) (d : Dst) (a b : Src) : Statement (.divu stl d a b) := by
  have h0 := stl.isLt
  have h1 := dst_code_lt d
  have h2 := src_code_lt a
  have h3 := src_code_lt b
  exact of_long _ rfl (by simp only [encodeWord]; omega)
theorem rem (stl : Stl) (d : Dst) (a b : Src) : Statement (.rem stl d a b) := by
  have h0 := stl.isLt
  have h1 := dst_code_lt d
  have h2 := src_code_lt a
  have h3 := src_code_lt b
  exact of_long _ rfl (by simp only [encodeWord]; omega)
theorem remu (stl : Stl) (d : Dst) (a b : Src) : Statement (.remu stl d a b) := by
  have h0 := stl.isLt
  have h1 := dst_code_lt d
  have h2 := src_code_lt a
  have h3 := src_code_lt b
  exact of_long _ rfl (by simp only [encodeWord]; omega)
theorem cmpeq (stl : Stl) (d : Dst) (a b : Src) : Statement (.cmpeq stl d a b) := by
  have h0 := stl.isLt
  have h1 := dst_code_lt d
  have h2 := src_code_lt a
  have h3 := src_code_lt b
  exact of_long _ rfl (by simp only [encodeWord]; omega)
theorem cmpne (stl : Stl) (d : Dst) (a b : Src) : Statement (.cmpne stl d a b) := by
  have h0 := stl.isLt
  have h1 := dst_code_lt d
  have h2 := src_code_lt a
  have h3 := src_code_lt b
  exact of_long _ rfl (by simp only [encodeWord]; omega)
theorem cmplt (stl : Stl) (d : Dst) (a b : Src) : Statement (.cmplt stl d a b) := by
  have h0 := stl.isLt
  have h1 := dst_code_lt d
  have h2 := src_code_lt a
  have h3 := src_code_lt b
  exact of_long _ rfl (by simp only [encodeWord]; omega)
theorem cmpltu (stl : Stl) (d : Dst) (a b : Src) : Statement (.cmpltu stl d a b) := by
  have h0 := stl.isLt
  have h1 := dst_code_lt d
  have h2 := src_code_lt a
  have h3 := src_code_lt b
  exact of_long _ rfl (by simp only [encodeWord]; omega)
theorem cmple (stl : Stl) (d : Dst) (a b : Src) : Statement (.cmple stl d a b) := by
  have h0 := stl.isLt
  have h1 := dst_code_lt d
  have h2 := src_code_lt a
  have h3 := src_code_lt b
  exact of_long _ rfl (by simp only [encodeWord]; omega)
theorem cmpleu (stl : Stl) (d : Dst) (a b : Src) : Statement (.cmpleu stl d a b) := by
  have h0 := stl.isLt
  have h1 := dst_code_lt d
  have h2 := src_code_lt a
  have h3 := src_code_lt b
  exact of_long _ rfl (by simp only [encodeWord]; omega)
theorem cmov (stl : Stl) (d : Dst) (a b : Src) : Statement (.cmov stl d a b) := by
  have h0 := stl.isLt
  have h1 := dst_code_lt d
  have h2 := src_code_lt a
  have h3 := src_code_lt b
  exact of_long _ rfl (by simp only [encodeWord]; omega)
theorem clz (stl : Stl) (d : Dst) (a : Src) : Statement (.clz stl d a) := by
  have h0 := stl.isLt
  have h1 := dst_code_lt d
  have h2 := src_code_lt a
  exact of_long _ rfl (by simp only [encodeWord]; omega)
theorem ctz (stl : Stl) (d : Dst) (a : Src) : Statement (.ctz stl d a) := by
  have h0 := stl.isLt
  have h1 := dst_code_lt d
  have h2 := src_code_lt a
  exact of_long _ rfl (by simp only [encodeWord]; omega)
theorem popc (stl : Stl) (d : Dst) (a : Src) : Statement (.popc stl d a) := by
  have h0 := stl.isLt
  have h1 := dst_code_lt d
  have h2 := src_code_lt a
  exact of_long _ rfl (by simp only [encodeWord]; omega)
theorem addw (stl : Stl) (d : Dst) (a b : Src) : Statement (.addw stl d a b) := by
  have h0 := stl.isLt
  have h1 := dst_code_lt d
  have h2 := src_code_lt a
  have h3 := src_code_lt b
  exact of_long _ rfl (by simp only [encodeWord]; omega)
theorem subw (stl : Stl) (d : Dst) (a b : Src) : Statement (.subw stl d a b) := by
  have h0 := stl.isLt
  have h1 := dst_code_lt d
  have h2 := src_code_lt a
  have h3 := src_code_lt b
  exact of_long _ rfl (by simp only [encodeWord]; omega)
theorem mulw (stl : Stl) (d : Dst) (a b : Src) : Statement (.mulw stl d a b) := by
  have h0 := stl.isLt
  have h1 := dst_code_lt d
  have h2 := src_code_lt a
  have h3 := src_code_lt b
  exact of_long _ rfl (by simp only [encodeWord]; omega)
theorem brev (stl : Stl) (d : Dst) (a : Src) : Statement (.brev stl d a) := by
  have h0 := stl.isLt
  have h1 := dst_code_lt d
  have h2 := src_code_lt a
  exact of_long _ rfl (by simp only [encodeWord]; omega)
theorem bswap (stl : Stl) (d : Dst) (a : Src) : Statement (.bswap stl d a) := by
  have h0 := stl.isLt
  have h1 := dst_code_lt d
  have h2 := src_code_lt a
  exact of_long _ rfl (by simp only [encodeWord]; omega)
theorem exts (stl : Stl) (d : Dst) (a b : Src) : Statement (.exts stl d a b) := by
  have h0 := stl.isLt
  have h1 := dst_code_lt d
  have h2 := src_code_lt a
  have h3 := src_code_lt b
  exact of_long _ rfl (by simp only [encodeWord]; omega)
theorem extz (stl : Stl) (d : Dst) (a b : Src) : Statement (.extz stl d a b) := by
  have h0 := stl.isLt
  have h1 := dst_code_lt d
  have h2 := src_code_lt a
  have h3 := src_code_lt b
  exact of_long _ rfl (by simp only [encodeWord]; omega)
theorem ins (stl : Stl) (d : Dst) (a b : Src) : Statement (.ins stl d a b) := by
  have h0 := stl.isLt
  have h1 := dst_code_lt d
  have h2 := src_code_lt a
  have h3 := src_code_lt b
  exact of_long _ rfl (by simp only [encodeWord]; omega)
theorem addi (stl : Stl) (d : Dst) (a : Src) (i : BitVec 10) : Statement (.addi stl d a i) := by
  have h0 := stl.isLt
  have h1 := dst_code_lt d
  have h2 := src_code_lt a
  have h3 := i.isLt
  exact of_long _ rfl (by simp only [encodeWord]; omega)
theorem andi (stl : Stl) (d : Dst) (a : Src) (i : BitVec 10) : Statement (.andi stl d a i) := by
  have h0 := stl.isLt
  have h1 := dst_code_lt d
  have h2 := src_code_lt a
  have h3 := i.isLt
  exact of_long _ rfl (by simp only [encodeWord]; omega)
theorem ori (stl : Stl) (d : Dst) (a : Src) (i : BitVec 10) : Statement (.ori stl d a i) := by
  have h0 := stl.isLt
  have h1 := dst_code_lt d
  have h2 := src_code_lt a
  have h3 := i.isLt
  exact of_long _ rfl (by simp only [encodeWord]; omega)
theorem xori (stl : Stl) (d : Dst) (a : Src) (i : BitVec 10) : Statement (.xori stl d a i) := by
  have h0 := stl.isLt
  have h1 := dst_code_lt d
  have h2 := src_code_lt a
  have h3 := i.isLt
  exact of_long _ rfl (by simp only [encodeWord]; omega)
theorem shli (stl : Stl) (d : Dst) (a : Src) (i : BitVec 10) : Statement (.shli stl d a i) := by
  have h0 := stl.isLt
  have h1 := dst_code_lt d
  have h2 := src_code_lt a
  have h3 := i.isLt
  exact of_long _ rfl (by simp only [encodeWord]; omega)
theorem shri (stl : Stl) (d : Dst) (a : Src) (i : BitVec 10) : Statement (.shri stl d a i) := by
  have h0 := stl.isLt
  have h1 := dst_code_lt d
  have h2 := src_code_lt a
  have h3 := i.isLt
  exact of_long _ rfl (by simp only [encodeWord]; omega)
theorem shrai (stl : Stl) (d : Dst) (a : Src) (i : BitVec 10) : Statement (.shrai stl d a i) := by
  have h0 := stl.isLt
  have h1 := dst_code_lt d
  have h2 := src_code_lt a
  have h3 := i.isLt
  exact of_long _ rfl (by simp only [encodeWord]; omega)
theorem cmpeqi (stl : Stl) (d : Dst) (a : Src) (i : BitVec 10) : Statement (.cmpeqi stl d a i) := by
  have h0 := stl.isLt
  have h1 := dst_code_lt d
  have h2 := src_code_lt a
  have h3 := i.isLt
  exact of_long _ rfl (by simp only [encodeWord]; omega)
theorem cmplti (stl : Stl) (d : Dst) (a : Src) (i : BitVec 10) : Statement (.cmplti stl d a i) := by
  have h0 := stl.isLt
  have h1 := dst_code_lt d
  have h2 := src_code_lt a
  have h3 := i.isLt
  exact of_long _ rfl (by simp only [encodeWord]; omega)
theorem limm (stl : Stl) (d : Dst) (k : BitVec 16) : Statement (.limm stl d k) := by
  have h0 := stl.isLt
  have h1 := dst_code_lt d
  have h2 := k.isLt
  exact of_long _ rfl (by simp only [encodeWord]; omega)
theorem limh (stl : Stl) (d : Dst) (k : BitVec 16) : Statement (.limh stl d k) := by
  have h0 := stl.isLt
  have h1 := dst_code_lt d
  have h2 := k.isLt
  exact of_long _ rfl (by simp only [encodeWord]; omega)
theorem addp (stl : Stl) (d : Dst) (a b : Src) : Statement (.addp stl d a b) := by
  have h0 := stl.isLt
  have h1 := dst_code_lt d
  have h2 := src_code_lt a
  have h3 := src_code_lt b
  exact of_long _ rfl (by simp only [encodeWord]; omega)
theorem subp (stl : Stl) (d : Dst) (a b : Src) : Statement (.subp stl d a b) := by
  have h0 := stl.isLt
  have h1 := dst_code_lt d
  have h2 := src_code_lt a
  have h3 := src_code_lt b
  exact of_long _ rfl (by simp only [encodeWord]; omega)
theorem ptag (stl : Stl) (d : Dst) (a b : Src) : Statement (.ptag stl d a b) := by
  have h0 := stl.isLt
  have h1 := dst_code_lt d
  have h2 := src_code_lt a
  have h3 := src_code_lt b
  exact of_long _ rfl (by simp only [encodeWord]; omega)
theorem ptagx (stl : Stl) (d : Dst) (a : Src) : Statement (.ptagx stl d a) := by
  have h0 := stl.isLt
  have h1 := dst_code_lt d
  have h2 := src_code_lt a
  exact of_long _ rfl (by simp only [encodeWord]; omega)
theorem pmkt (stl : Stl) (d : Dst) (a b : Src) : Statement (.pmkt stl d a b) := by
  have h0 := stl.isLt
  have h1 := dst_code_lt d
  have h2 := src_code_lt a
  have h3 := src_code_lt b
  exact of_long _ rfl (by simp only [encodeWord]; omega)
theorem pspace (stl : Stl) (d : Dst) (a b : Src) : Statement (.pspace stl d a b) := by
  have h0 := stl.isLt
  have h1 := dst_code_lt d
  have h2 := src_code_lt a
  have h3 := src_code_lt b
  exact of_long _ rfl (by simp only [encodeWord]; omega)
theorem fadd (stl : Stl) (d : Dst) (a b : Src) : Statement (.fadd stl d a b) := by
  have h0 := stl.isLt
  have h1 := dst_code_lt d
  have h2 := src_code_lt a
  have h3 := src_code_lt b
  exact of_long _ rfl (by simp only [encodeWord]; omega)
theorem fsub (stl : Stl) (d : Dst) (a b : Src) : Statement (.fsub stl d a b) := by
  have h0 := stl.isLt
  have h1 := dst_code_lt d
  have h2 := src_code_lt a
  have h3 := src_code_lt b
  exact of_long _ rfl (by simp only [encodeWord]; omega)
theorem fmul (stl : Stl) (d : Dst) (a b : Src) : Statement (.fmul stl d a b) := by
  have h0 := stl.isLt
  have h1 := dst_code_lt d
  have h2 := src_code_lt a
  have h3 := src_code_lt b
  exact of_long _ rfl (by simp only [encodeWord]; omega)
theorem fdiv (stl : Stl) (d : Dst) (a b : Src) : Statement (.fdiv stl d a b) := by
  have h0 := stl.isLt
  have h1 := dst_code_lt d
  have h2 := src_code_lt a
  have h3 := src_code_lt b
  exact of_long _ rfl (by simp only [encodeWord]; omega)
theorem fsqrt (stl : Stl) (d : Dst) (a : Src) : Statement (.fsqrt stl d a) := by
  have h0 := stl.isLt
  have h1 := dst_code_lt d
  have h2 := src_code_lt a
  exact of_long _ rfl (by simp only [encodeWord]; omega)
theorem fmin (stl : Stl) (d : Dst) (a b : Src) : Statement (.fmin stl d a b) := by
  have h0 := stl.isLt
  have h1 := dst_code_lt d
  have h2 := src_code_lt a
  have h3 := src_code_lt b
  exact of_long _ rfl (by simp only [encodeWord]; omega)
theorem fmax (stl : Stl) (d : Dst) (a b : Src) : Statement (.fmax stl d a b) := by
  have h0 := stl.isLt
  have h1 := dst_code_lt d
  have h2 := src_code_lt a
  have h3 := src_code_lt b
  exact of_long _ rfl (by simp only [encodeWord]; omega)
theorem fcmpeq (stl : Stl) (d : Dst) (a b : Src) : Statement (.fcmpeq stl d a b) := by
  have h0 := stl.isLt
  have h1 := dst_code_lt d
  have h2 := src_code_lt a
  have h3 := src_code_lt b
  exact of_long _ rfl (by simp only [encodeWord]; omega)
theorem fcmplt (stl : Stl) (d : Dst) (a b : Src) : Statement (.fcmplt stl d a b) := by
  have h0 := stl.isLt
  have h1 := dst_code_lt d
  have h2 := src_code_lt a
  have h3 := src_code_lt b
  exact of_long _ rfl (by simp only [encodeWord]; omega)
theorem fcmple (stl : Stl) (d : Dst) (a b : Src) : Statement (.fcmple stl d a b) := by
  have h0 := stl.isLt
  have h1 := dst_code_lt d
  have h2 := src_code_lt a
  have h3 := src_code_lt b
  exact of_long _ rfl (by simp only [encodeWord]; omega)
theorem fcvtif (stl : Stl) (d : Dst) (a : Src) : Statement (.fcvtif stl d a) := by
  have h0 := stl.isLt
  have h1 := dst_code_lt d
  have h2 := src_code_lt a
  exact of_long _ rfl (by simp only [encodeWord]; omega)
theorem fcvtfi (stl : Stl) (d : Dst) (a : Src) : Statement (.fcvtfi stl d a) := by
  have h0 := stl.isLt
  have h1 := dst_code_lt d
  have h2 := src_code_lt a
  exact of_long _ rfl (by simp only [encodeWord]; omega)
theorem fclass (stl : Stl) (d : Dst) (a : Src) : Statement (.fclass stl d a) := by
  have h0 := stl.isLt
  have h1 := dst_code_lt d
  have h2 := src_code_lt a
  exact of_long _ rfl (by simp only [encodeWord]; omega)
theorem fabs (stl : Stl) (d : Dst) (a : Src) : Statement (.fabs stl d a) := by
  have h0 := stl.isLt
  have h1 := dst_code_lt d
  have h2 := src_code_lt a
  exact of_long _ rfl (by simp only [encodeWord]; omega)
theorem fneg (stl : Stl) (d : Dst) (a : Src) : Statement (.fneg stl d a) := by
  have h0 := stl.isLt
  have h1 := dst_code_lt d
  have h2 := src_code_lt a
  exact of_long _ rfl (by simp only [encodeWord]; omega)
theorem fsgnj (stl : Stl) (d : Dst) (a b : Src) : Statement (.fsgnj stl d a b) := by
  have h0 := stl.isLt
  have h1 := dst_code_lt d
  have h2 := src_code_lt a
  have h3 := src_code_lt b
  exact of_long _ rfl (by simp only [encodeWord]; omega)
theorem fma (stl : Stl) (d : Dst) (a b : Src) (c : BitVec 2) : Statement (.fma stl d a b c) := by
  have h0 := stl.isLt
  have h1 := dst_code_lt d
  have h2 := src_code_lt a
  have h3 := src_code_lt b
  have h4 := c.isLt
  exact of_long _ rfl (by simp only [encodeWord]; omega)
theorem fms (stl : Stl) (d : Dst) (a b : Src) (c : BitVec 2) : Statement (.fms stl d a b c) := by
  have h0 := stl.isLt
  have h1 := dst_code_lt d
  have h2 := src_code_lt a
  have h3 := src_code_lt b
  have h4 := c.isLt
  exact of_long _ rfl (by simp only [encodeWord]; omega)
theorem fnma (stl : Stl) (d : Dst) (a b : Src) (c : BitVec 2) : Statement (.fnma stl d a b c) := by
  have h0 := stl.isLt
  have h1 := dst_code_lt d
  have h2 := src_code_lt a
  have h3 := src_code_lt b
  have h4 := c.isLt
  exact of_long _ rfl (by simp only [encodeWord]; omega)
theorem fnms (stl : Stl) (d : Dst) (a b : Src) (c : BitVec 2) : Statement (.fnms stl d a b c) := by
  have h0 := stl.isLt
  have h1 := dst_code_lt d
  have h2 := src_code_lt a
  have h3 := src_code_lt b
  have h4 := c.isLt
  exact of_long _ rfl (by simp only [encodeWord]; omega)
theorem bz (stl : Stl) (c : Src) (o : BitVec 16) : Statement (.bz stl c o) := by
  have h0 := stl.isLt
  have h1 := src_code_lt c
  have h2 := o.isLt
  exact of_long _ rfl (by simp only [encodeWord]; omega)
theorem bnz (stl : Stl) (c : Src) (o : BitVec 16) : Statement (.bnz stl c o) := by
  have h0 := stl.isLt
  have h1 := src_code_lt c
  have h2 := o.isLt
  exact of_long _ rfl (by simp only [encodeWord]; omega)
theorem bltz (stl : Stl) (c : Src) (o : BitVec 16) : Statement (.bltz stl c o) := by
  have h0 := stl.isLt
  have h1 := src_code_lt c
  have h2 := o.isLt
  exact of_long _ rfl (by simp only [encodeWord]; omega)
theorem bgez (stl : Stl) (c : Src) (o : BitVec 16) : Statement (.bgez stl c o) := by
  have h0 := stl.isLt
  have h1 := src_code_lt c
  have h2 := o.isLt
  exact of_long _ rfl (by simp only [encodeWord]; omega)
theorem br (stl : Stl) (o : BitVec 16) : Statement (.br stl o) := by
  have h0 := stl.isLt
  have h1 := o.isLt
  exact of_long _ rfl (by simp only [encodeWord]; omega)
theorem call (stl : Stl) (o : BitVec 16) : Statement (.call stl o) := by
  have h0 := stl.isLt
  have h1 := o.isLt
  exact of_long _ rfl (by simp only [encodeWord]; omega)
theorem loop (stl : Stl) (c : Src) (o : BitVec 16) : Statement (.loop stl c o) := by
  have h0 := stl.isLt
  have h1 := src_code_lt c
  have h2 := o.isLt
  exact of_long _ rfl (by simp only [encodeWord]; omega)
theorem jr (stl : Stl) (a : Src) : Statement (.jr stl a) := by
  have h0 := stl.isLt
  have h1 := src_code_lt a
  exact of_long _ rfl (by simp only [encodeWord]; omega)
theorem ret (stl : Stl) : Statement (.ret stl) := by
  have h0 := stl.isLt
  exact of_long _ rfl (by simp only [encodeWord]; omega)
theorem yield (stl : Stl) : Statement (.yield stl) := by
  have h0 := stl.isLt
  exact of_long _ rfl (by simp only [encodeWord]; omega)
theorem done (stl : Stl) : Statement (.done stl) := by
  have h0 := stl.isLt
  exact of_long _ rfl (by simp only [encodeWord]; omega)
theorem donef (stl : Stl) : Statement (.donef stl) := by
  have h0 := stl.isLt
  exact of_long _ rfl (by simp only [encodeWord]; omega)
theorem nop (stl : Stl) : Statement (.nop stl) := by
  have h0 := stl.isLt
  exact of_long _ rfl (by simp only [encodeWord]; omega)
theorem waitf (stl : Stl) (a : Src) : Statement (.waitf stl a) := by
  have h0 := stl.isLt
  have h1 := src_code_lt a
  exact of_long _ rfl (by simp only [encodeWord]; omega)
theorem femark (stl : Stl) (a : Src) : Statement (.femark stl a) := by
  have h0 := stl.isLt
  have h1 := src_code_lt a
  exact of_long _ rfl (by simp only [encodeWord]; omega)
theorem fefill (stl : Stl) (a : Src) : Statement (.fefill stl a) := by
  have h0 := stl.isLt
  have h1 := src_code_lt a
  exact of_long _ rfl (by simp only [encodeWord]; omega)
theorem fetest (stl : Stl) (d : Dst) (a : Src) : Statement (.fetest stl d a) := by
  have h0 := stl.isLt
  have h1 := dst_code_lt d
  have h2 := src_code_lt a
  exact of_long _ rfl (by simp only [encodeWord]; omega)
theorem bararr (stl : Stl) (d : Dst) (a : Src) : Statement (.bararr stl d a) := by
  have h0 := stl.isLt
  have h1 := dst_code_lt d
  have h2 := src_code_lt a
  exact of_long _ rfl (by simp only [encodeWord]; omega)
theorem barwait (stl : Stl) (d : Dst) (a b : Src) : Statement (.barwait stl d a b) := by
  have h0 := stl.isLt
  have h1 := dst_code_lt d
  have h2 := src_code_lt a
  have h3 := src_code_lt b
  exact of_long _ rfl (by simp only [encodeWord]; omega)
theorem crd (stl : Stl) (d : Dst) (i : BitVec 10) : Statement (.crd stl d i) := by
  have h0 := stl.isLt
  have h1 := dst_code_lt d
  have h2 := i.isLt
  exact of_long _ rfl (by simp only [encodeWord]; omega)
theorem cwr (stl : Stl) (a : Src) (i : BitVec 10) : Statement (.cwr stl a i) := by
  have h0 := stl.isLt
  have h1 := src_code_lt a
  have h2 := i.isLt
  exact of_long _ rfl (by simp only [encodeWord]; omega)
theorem fenceRel (stl : Stl) (g : BitVec 3) : Statement (.fenceRel stl g) := by
  have h0 := stl.isLt
  have h1 := g.isLt
  exact of_long _ rfl (by simp only [encodeWord]; omega)
theorem fenceAcq (stl : Stl) (g : BitVec 3) : Statement (.fenceAcq stl g) := by
  have h0 := stl.isLt
  have h1 := g.isLt
  exact of_long _ rfl (by simp only [encodeWord]; omega)
theorem fenceFull (stl : Stl) (g : BitVec 3) : Statement (.fenceFull stl g) := by
  have h0 := stl.isLt
  have h1 := g.isLt
  exact of_long _ rfl (by simp only [encodeWord]; omega)
theorem fenceLb (stl : Stl) : Statement (.fenceLb stl) := by
  have h0 := stl.isLt
  exact of_long _ rfl (by simp only [encodeWord]; omega)
theorem ld (stl : Stl) (d : Dst) (p : Src) (z : BitVec 2) (f : BitVec 8) : Statement (.ld stl d p z f) := by
  have h0 := stl.isLt
  have h1 := dst_code_lt d
  have h2 := src_code_lt p
  have h3 := z.isLt
  have h4 := f.isLt
  exact of_long _ rfl (by simp only [encodeWord]; omega)
theorem lds (stl : Stl) (d : Dst) (p : Src) (z : BitVec 2) (f : BitVec 8) : Statement (.lds stl d p z f) := by
  have h0 := stl.isLt
  have h1 := dst_code_lt d
  have h2 := src_code_lt p
  have h3 := z.isLt
  have h4 := f.isLt
  exact of_long _ rfl (by simp only [encodeWord]; omega)
theorem st (stl : Stl) (d p : Src) (z : BitVec 2) (f : BitVec 8) : Statement (.st stl d p z f) := by
  have h0 := stl.isLt
  have h1 := src_code_lt d
  have h2 := src_code_lt p
  have h3 := z.isLt
  have h4 := f.isLt
  exact of_long _ rfl (by simp only [encodeWord]; omega)
theorem ldx (stl : Stl) (d : Dst) (a b : Src) : Statement (.ldx stl d a b) := by
  have h0 := stl.isLt
  have h1 := dst_code_lt d
  have h2 := src_code_lt a
  have h3 := src_code_lt b
  exact of_long _ rfl (by simp only [encodeWord]; omega)
theorem stx (stl : Stl) (d a b : Src) : Statement (.stx stl d a b) := by
  have h0 := stl.isLt
  have h1 := src_code_lt d
  have h2 := src_code_lt a
  have h3 := src_code_lt b
  exact of_long _ rfl (by simp only [encodeWord]; omega)
theorem ldt (stl : Stl) (d : Dst) (a b : Src) : Statement (.ldt stl d a b) := by
  have h0 := stl.isLt
  have h1 := dst_code_lt d
  have h2 := src_code_lt a
  have h3 := src_code_lt b
  exact of_long _ rfl (by simp only [encodeWord]; omega)
theorem stf (stl : Stl) (d a b : Src) : Statement (.stf stl d a b) := by
  have h0 := stl.isLt
  have h1 := src_code_lt d
  have h2 := src_code_lt a
  have h3 := src_code_lt b
  exact of_long _ rfl (by simp only [encodeWord]; omega)
theorem aadd (stl : Stl) (d : Dst) (a b : Src) : Statement (.aadd stl d a b) := by
  have h0 := stl.isLt
  have h1 := dst_code_lt d
  have h2 := src_code_lt a
  have h3 := src_code_lt b
  exact of_long _ rfl (by simp only [encodeWord]; omega)
theorem amax (stl : Stl) (d : Dst) (a b : Src) : Statement (.amax stl d a b) := by
  have h0 := stl.isLt
  have h1 := dst_code_lt d
  have h2 := src_code_lt a
  have h3 := src_code_lt b
  exact of_long _ rfl (by simp only [encodeWord]; omega)
theorem amin (stl : Stl) (d : Dst) (a b : Src) : Statement (.amin stl d a b) := by
  have h0 := stl.isLt
  have h1 := dst_code_lt d
  have h2 := src_code_lt a
  have h3 := src_code_lt b
  exact of_long _ rfl (by simp only [encodeWord]; omega)
theorem amaxu (stl : Stl) (d : Dst) (a b : Src) : Statement (.amaxu stl d a b) := by
  have h0 := stl.isLt
  have h1 := dst_code_lt d
  have h2 := src_code_lt a
  have h3 := src_code_lt b
  exact of_long _ rfl (by simp only [encodeWord]; omega)
theorem aminu (stl : Stl) (d : Dst) (a b : Src) : Statement (.aminu stl d a b) := by
  have h0 := stl.isLt
  have h1 := dst_code_lt d
  have h2 := src_code_lt a
  have h3 := src_code_lt b
  exact of_long _ rfl (by simp only [encodeWord]; omega)
theorem aand (stl : Stl) (d : Dst) (a b : Src) : Statement (.aand stl d a b) := by
  have h0 := stl.isLt
  have h1 := dst_code_lt d
  have h2 := src_code_lt a
  have h3 := src_code_lt b
  exact of_long _ rfl (by simp only [encodeWord]; omega)
theorem aor (stl : Stl) (d : Dst) (a b : Src) : Statement (.aor stl d a b) := by
  have h0 := stl.isLt
  have h1 := dst_code_lt d
  have h2 := src_code_lt a
  have h3 := src_code_lt b
  exact of_long _ rfl (by simp only [encodeWord]; omega)
theorem axor (stl : Stl) (d : Dst) (a b : Src) : Statement (.axor stl d a b) := by
  have h0 := stl.isLt
  have h1 := dst_code_lt d
  have h2 := src_code_lt a
  have h3 := src_code_lt b
  exact of_long _ rfl (by simp only [encodeWord]; omega)
theorem aswap (stl : Stl) (d : Dst) (a b : Src) : Statement (.aswap stl d a b) := by
  have h0 := stl.isLt
  have h1 := dst_code_lt d
  have h2 := src_code_lt a
  have h3 := src_code_lt b
  exact of_long _ rfl (by simp only [encodeWord]; omega)
theorem acas (stl : Stl) (d : Dst) (a b : Src) : Statement (.acas stl d a b) := by
  have h0 := stl.isLt
  have h1 := dst_code_lt d
  have h2 := src_code_lt a
  have h3 := src_code_lt b
  exact of_long _ rfl (by simp only [encodeWord]; omega)
theorem afxadd (stl : Stl) (d : Dst) (a b : Src) : Statement (.afxadd stl d a b) := by
  have h0 := stl.isLt
  have h1 := dst_code_lt d
  have h2 := src_code_lt a
  have h3 := src_code_lt b
  exact of_long _ rfl (by simp only [encodeWord]; omega)
theorem afxrd (stl : Stl) (d : Dst) (a : Src) : Statement (.afxrd stl d a) := by
  have h0 := stl.isLt
  have h1 := dst_code_lt d
  have h2 := src_code_lt a
  exact of_long _ rfl (by simp only [encodeWord]; omega)
theorem afxset (stl : Stl) (d : Dst) (a b : Src) : Statement (.afxset stl d a b) := by
  have h0 := stl.isLt
  have h1 := dst_code_lt d
  have h2 := src_code_lt a
  have h3 := src_code_lt b
  exact of_long _ rfl (by simp only [encodeWord]; omega)
theorem aamax (stl : Stl) (d : Dst) (a b : Src) : Statement (.aamax stl d a b) := by
  have h0 := stl.isLt
  have h1 := dst_code_lt d
  have h2 := src_code_lt a
  have h3 := src_code_lt b
  exact of_long _ rfl (by simp only [encodeWord]; omega)
theorem vaadd (stl : Stl) (d : VSrc) (a b : Src) : Statement (.vaadd stl d a b) := by
  have h0 := stl.isLt
  have h1 := vsrc_code_lt d
  have h2 := src_code_lt a
  have h3 := src_code_lt b
  exact of_long _ rfl (by simp only [encodeWord]; omega)
theorem vamaxabs (stl : Stl) (d : VSrc) (a b : Src) : Statement (.vamaxabs stl d a b) := by
  have h0 := stl.isLt
  have h1 := vsrc_code_lt d
  have h2 := src_code_lt a
  have h3 := src_code_lt b
  exact of_long _ rfl (by simp only [encodeWord]; omega)
theorem vafx (stl : Stl) (d : VSrc) (a : Src) (b : VSrc) : Statement (.vafx stl d a b) := by
  have h0 := stl.isLt
  have h1 := vsrc_code_lt d
  have h2 := src_code_lt a
  have h3 := vsrc_code_lt b
  exact of_long _ rfl (by simp only [encodeWord]; omega)
theorem vamaxDrain (stl : Stl) (d : VSrc) (a : Src) : Statement (.vamaxDrain stl d a) := by
  have h0 := stl.isLt
  have h1 := vsrc_code_lt d
  have h2 := src_code_lt a
  exact of_long _ rfl (by simp only [encodeWord]; omega)
theorem vadd (stl : Stl) (d : VDst) (a b : VSrc) (m : MaskNo) : Statement (.vadd stl d a b m) := by
  have h0 := stl.isLt
  have h1 := vdst_code_lt d
  have h2 := vsrc_code_lt a
  have h3 := vsrc_code_lt b
  have h4 := m.isLt
  exact of_long _ rfl (by simp only [encodeWord]; omega)
theorem vsub (stl : Stl) (d : VDst) (a b : VSrc) (m : MaskNo) : Statement (.vsub stl d a b m) := by
  have h0 := stl.isLt
  have h1 := vdst_code_lt d
  have h2 := vsrc_code_lt a
  have h3 := vsrc_code_lt b
  have h4 := m.isLt
  exact of_long _ rfl (by simp only [encodeWord]; omega)
theorem vmul (stl : Stl) (d : VDst) (a b : VSrc) (m : MaskNo) : Statement (.vmul stl d a b m) := by
  have h0 := stl.isLt
  have h1 := vdst_code_lt d
  have h2 := vsrc_code_lt a
  have h3 := vsrc_code_lt b
  have h4 := m.isLt
  exact of_long _ rfl (by simp only [encodeWord]; omega)
theorem vmulh (stl : Stl) (d : VDst) (a b : VSrc) (m : MaskNo) : Statement (.vmulh stl d a b m) := by
  have h0 := stl.isLt
  have h1 := vdst_code_lt d
  have h2 := vsrc_code_lt a
  have h3 := vsrc_code_lt b
  have h4 := m.isLt
  exact of_long _ rfl (by simp only [encodeWord]; omega)
theorem vand (stl : Stl) (d : VDst) (a b : VSrc) (m : MaskNo) : Statement (.vand stl d a b m) := by
  have h0 := stl.isLt
  have h1 := vdst_code_lt d
  have h2 := vsrc_code_lt a
  have h3 := vsrc_code_lt b
  have h4 := m.isLt
  exact of_long _ rfl (by simp only [encodeWord]; omega)
theorem vor (stl : Stl) (d : VDst) (a b : VSrc) (m : MaskNo) : Statement (.vor stl d a b m) := by
  have h0 := stl.isLt
  have h1 := vdst_code_lt d
  have h2 := vsrc_code_lt a
  have h3 := vsrc_code_lt b
  have h4 := m.isLt
  exact of_long _ rfl (by simp only [encodeWord]; omega)
theorem vxor (stl : Stl) (d : VDst) (a b : VSrc) (m : MaskNo) : Statement (.vxor stl d a b m) := by
  have h0 := stl.isLt
  have h1 := vdst_code_lt d
  have h2 := vsrc_code_lt a
  have h3 := vsrc_code_lt b
  have h4 := m.isLt
  exact of_long _ rfl (by simp only [encodeWord]; omega)
theorem vandn (stl : Stl) (d : VDst) (a b : VSrc) (m : MaskNo) : Statement (.vandn stl d a b m) := by
  have h0 := stl.isLt
  have h1 := vdst_code_lt d
  have h2 := vsrc_code_lt a
  have h3 := vsrc_code_lt b
  have h4 := m.isLt
  exact of_long _ rfl (by simp only [encodeWord]; omega)
theorem vshl (stl : Stl) (d : VDst) (a b : VSrc) (m : MaskNo) : Statement (.vshl stl d a b m) := by
  have h0 := stl.isLt
  have h1 := vdst_code_lt d
  have h2 := vsrc_code_lt a
  have h3 := vsrc_code_lt b
  have h4 := m.isLt
  exact of_long _ rfl (by simp only [encodeWord]; omega)
theorem vshr (stl : Stl) (d : VDst) (a b : VSrc) (m : MaskNo) : Statement (.vshr stl d a b m) := by
  have h0 := stl.isLt
  have h1 := vdst_code_lt d
  have h2 := vsrc_code_lt a
  have h3 := vsrc_code_lt b
  have h4 := m.isLt
  exact of_long _ rfl (by simp only [encodeWord]; omega)
theorem vshra (stl : Stl) (d : VDst) (a b : VSrc) (m : MaskNo) : Statement (.vshra stl d a b m) := by
  have h0 := stl.isLt
  have h1 := vdst_code_lt d
  have h2 := vsrc_code_lt a
  have h3 := vsrc_code_lt b
  have h4 := m.isLt
  exact of_long _ rfl (by simp only [encodeWord]; omega)
theorem vabsd (stl : Stl) (d : VDst) (a b : VSrc) (m : MaskNo) : Statement (.vabsd stl d a b m) := by
  have h0 := stl.isLt
  have h1 := vdst_code_lt d
  have h2 := vsrc_code_lt a
  have h3 := vsrc_code_lt b
  have h4 := m.isLt
  exact of_long _ rfl (by simp only [encodeWord]; omega)
theorem vmin (stl : Stl) (d : VDst) (a b : VSrc) (m : MaskNo) : Statement (.vmin stl d a b m) := by
  have h0 := stl.isLt
  have h1 := vdst_code_lt d
  have h2 := vsrc_code_lt a
  have h3 := vsrc_code_lt b
  have h4 := m.isLt
  exact of_long _ rfl (by simp only [encodeWord]; omega)
theorem vmax (stl : Stl) (d : VDst) (a b : VSrc) (m : MaskNo) : Statement (.vmax stl d a b m) := by
  have h0 := stl.isLt
  have h1 := vdst_code_lt d
  have h2 := vsrc_code_lt a
  have h3 := vsrc_code_lt b
  have h4 := m.isLt
  exact of_long _ rfl (by simp only [encodeWord]; omega)
theorem vminu (stl : Stl) (d : VDst) (a b : VSrc) (m : MaskNo) : Statement (.vminu stl d a b m) := by
  have h0 := stl.isLt
  have h1 := vdst_code_lt d
  have h2 := vsrc_code_lt a
  have h3 := vsrc_code_lt b
  have h4 := m.isLt
  exact of_long _ rfl (by simp only [encodeWord]; omega)
theorem vmaxu (stl : Stl) (d : VDst) (a b : VSrc) (m : MaskNo) : Statement (.vmaxu stl d a b m) := by
  have h0 := stl.isLt
  have h1 := vdst_code_lt d
  have h2 := vsrc_code_lt a
  have h3 := vsrc_code_lt b
  have h4 := m.isLt
  exact of_long _ rfl (by simp only [encodeWord]; omega)
theorem vfadd (stl : Stl) (d : VDst) (a b : VSrc) (m : MaskNo) : Statement (.vfadd stl d a b m) := by
  have h0 := stl.isLt
  have h1 := vdst_code_lt d
  have h2 := vsrc_code_lt a
  have h3 := vsrc_code_lt b
  have h4 := m.isLt
  exact of_long _ rfl (by simp only [encodeWord]; omega)
theorem vfsub (stl : Stl) (d : VDst) (a b : VSrc) (m : MaskNo) : Statement (.vfsub stl d a b m) := by
  have h0 := stl.isLt
  have h1 := vdst_code_lt d
  have h2 := vsrc_code_lt a
  have h3 := vsrc_code_lt b
  have h4 := m.isLt
  exact of_long _ rfl (by simp only [encodeWord]; omega)
theorem vfmul (stl : Stl) (d : VDst) (a b : VSrc) (m : MaskNo) : Statement (.vfmul stl d a b m) := by
  have h0 := stl.isLt
  have h1 := vdst_code_lt d
  have h2 := vsrc_code_lt a
  have h3 := vsrc_code_lt b
  have h4 := m.isLt
  exact of_long _ rfl (by simp only [encodeWord]; omega)
theorem vfdiv (stl : Stl) (d : VDst) (a b : VSrc) (m : MaskNo) : Statement (.vfdiv stl d a b m) := by
  have h0 := stl.isLt
  have h1 := vdst_code_lt d
  have h2 := vsrc_code_lt a
  have h3 := vsrc_code_lt b
  have h4 := m.isLt
  exact of_long _ rfl (by simp only [encodeWord]; omega)
theorem vfmin (stl : Stl) (d : VDst) (a b : VSrc) (m : MaskNo) : Statement (.vfmin stl d a b m) := by
  have h0 := stl.isLt
  have h1 := vdst_code_lt d
  have h2 := vsrc_code_lt a
  have h3 := vsrc_code_lt b
  have h4 := m.isLt
  exact of_long _ rfl (by simp only [encodeWord]; omega)
theorem vfmax (stl : Stl) (d : VDst) (a b : VSrc) (m : MaskNo) : Statement (.vfmax stl d a b m) := by
  have h0 := stl.isLt
  have h1 := vdst_code_lt d
  have h2 := vsrc_code_lt a
  have h3 := vsrc_code_lt b
  have h4 := m.isLt
  exact of_long _ rfl (by simp only [encodeWord]; omega)
theorem vfabs (stl : Stl) (d : VDst) (a : VSrc) (m : MaskNo) : Statement (.vfabs stl d a m) := by
  have h0 := stl.isLt
  have h1 := vdst_code_lt d
  have h2 := vsrc_code_lt a
  have h3 := m.isLt
  exact of_long _ rfl (by simp only [encodeWord]; omega)
theorem vfneg (stl : Stl) (d : VDst) (a : VSrc) (m : MaskNo) : Statement (.vfneg stl d a m) := by
  have h0 := stl.isLt
  have h1 := vdst_code_lt d
  have h2 := vsrc_code_lt a
  have h3 := m.isLt
  exact of_long _ rfl (by simp only [encodeWord]; omega)
theorem vfma (stl : Stl) (d : VDst) (a b : VSrc) (c : BitVec 2) : Statement (.vfma stl d a b c) := by
  have h0 := stl.isLt
  have h1 := vdst_code_lt d
  have h2 := vsrc_code_lt a
  have h3 := vsrc_code_lt b
  have h4 := c.isLt
  exact of_long _ rfl (by simp only [encodeWord]; omega)
theorem vfms (stl : Stl) (d : VDst) (a b : VSrc) (c : BitVec 2) : Statement (.vfms stl d a b c) := by
  have h0 := stl.isLt
  have h1 := vdst_code_lt d
  have h2 := vsrc_code_lt a
  have h3 := vsrc_code_lt b
  have h4 := c.isLt
  exact of_long _ rfl (by simp only [encodeWord]; omega)
theorem vfnma (stl : Stl) (d : VDst) (a b : VSrc) (c : BitVec 2) : Statement (.vfnma stl d a b c) := by
  have h0 := stl.isLt
  have h1 := vdst_code_lt d
  have h2 := vsrc_code_lt a
  have h3 := vsrc_code_lt b
  have h4 := c.isLt
  exact of_long _ rfl (by simp only [encodeWord]; omega)
theorem vfnms (stl : Stl) (d : VDst) (a b : VSrc) (c : BitVec 2) : Statement (.vfnms stl d a b c) := by
  have h0 := stl.isLt
  have h1 := vdst_code_lt d
  have h2 := vsrc_code_lt a
  have h3 := vsrc_code_lt b
  have h4 := c.isLt
  exact of_long _ rfl (by simp only [encodeWord]; omega)
theorem vcmpeq (stl : Stl) (d : MaskNo) (a b : VSrc) (m : MaskNo) : Statement (.vcmpeq stl d a b m) := by
  have h0 := stl.isLt
  have h1 := d.isLt
  have h2 := vsrc_code_lt a
  have h3 := vsrc_code_lt b
  have h4 := m.isLt
  exact of_long _ rfl (by simp only [encodeWord]; omega)
theorem vcmplt (stl : Stl) (d : MaskNo) (a b : VSrc) (m : MaskNo) : Statement (.vcmplt stl d a b m) := by
  have h0 := stl.isLt
  have h1 := d.isLt
  have h2 := vsrc_code_lt a
  have h3 := vsrc_code_lt b
  have h4 := m.isLt
  exact of_long _ rfl (by simp only [encodeWord]; omega)
theorem vcmpltu (stl : Stl) (d : MaskNo) (a b : VSrc) (m : MaskNo) : Statement (.vcmpltu stl d a b m) := by
  have h0 := stl.isLt
  have h1 := d.isLt
  have h2 := vsrc_code_lt a
  have h3 := vsrc_code_lt b
  have h4 := m.isLt
  exact of_long _ rfl (by simp only [encodeWord]; omega)
theorem vcmple (stl : Stl) (d : MaskNo) (a b : VSrc) (m : MaskNo) : Statement (.vcmple stl d a b m) := by
  have h0 := stl.isLt
  have h1 := d.isLt
  have h2 := vsrc_code_lt a
  have h3 := vsrc_code_lt b
  have h4 := m.isLt
  exact of_long _ rfl (by simp only [encodeWord]; omega)
theorem vfcmpeq (stl : Stl) (d : MaskNo) (a b : VSrc) (m : MaskNo) : Statement (.vfcmpeq stl d a b m) := by
  have h0 := stl.isLt
  have h1 := d.isLt
  have h2 := vsrc_code_lt a
  have h3 := vsrc_code_lt b
  have h4 := m.isLt
  exact of_long _ rfl (by simp only [encodeWord]; omega)
theorem vfcmplt (stl : Stl) (d : MaskNo) (a b : VSrc) (m : MaskNo) : Statement (.vfcmplt stl d a b m) := by
  have h0 := stl.isLt
  have h1 := d.isLt
  have h2 := vsrc_code_lt a
  have h3 := vsrc_code_lt b
  have h4 := m.isLt
  exact of_long _ rfl (by simp only [encodeWord]; omega)
theorem vfcmple (stl : Stl) (d : MaskNo) (a b : VSrc) (m : MaskNo) : Statement (.vfcmple stl d a b m) := by
  have h0 := stl.isLt
  have h1 := d.isLt
  have h2 := vsrc_code_lt a
  have h3 := vsrc_code_lt b
  have h4 := m.isLt
  exact of_long _ rfl (by simp only [encodeWord]; omega)
theorem vfcmpun (stl : Stl) (d : MaskNo) (a b : VSrc) (m : MaskNo) : Statement (.vfcmpun stl d a b m) := by
  have h0 := stl.isLt
  have h1 := d.isLt
  have h2 := vsrc_code_lt a
  have h3 := vsrc_code_lt b
  have h4 := m.isLt
  exact of_long _ rfl (by simp only [encodeWord]; omega)
theorem vsel (stl : Stl) (d : VDst) (a b : VSrc) (m : MaskNo) : Statement (.vsel stl d a b m) := by
  have h0 := stl.isLt
  have h1 := vdst_code_lt d
  have h2 := vsrc_code_lt a
  have h3 := vsrc_code_lt b
  have h4 := m.isLt
  exact of_long _ rfl (by simp only [encodeWord]; omega)
theorem vbcast (stl : Stl) (d : VDst) (a : VSrc) (b : Src) (m : MaskNo) : Statement (.vbcast stl d a b m) := by
  have h0 := stl.isLt
  have h1 := vdst_code_lt d
  have h2 := vsrc_code_lt a
  have h3 := src_code_lt b
  have h4 := m.isLt
  exact of_long _ rfl (by simp only [encodeWord]; omega)
theorem vextr (stl : Stl) (d : Dst) (a : VSrc) (b : Src) (m : MaskNo) : Statement (.vextr stl d a b m) := by
  have h0 := stl.isLt
  have h1 := dst_code_lt d
  have h2 := vsrc_code_lt a
  have h3 := src_code_lt b
  have h4 := m.isLt
  exact of_long _ rfl (by simp only [encodeWord]; omega)
theorem vins (stl : Stl) (d : VDst) (a : VSrc) (b : Src) (m : MaskNo) : Statement (.vins stl d a b m) := by
  have h0 := stl.isLt
  have h1 := vdst_code_lt d
  have h2 := vsrc_code_lt a
  have h3 := src_code_lt b
  have h4 := m.isLt
  exact of_long _ rfl (by simp only [encodeWord]; omega)
theorem vperm (stl : Stl) (d : VDst) (a b : VSrc) (m : MaskNo) : Statement (.vperm stl d a b m) := by
  have h0 := stl.isLt
  have h1 := vdst_code_lt d
  have h2 := vsrc_code_lt a
  have h3 := vsrc_code_lt b
  have h4 := m.isLt
  exact of_long _ rfl (by simp only [encodeWord]; omega)
theorem vrot (stl : Stl) (d : VDst) (a : VSrc) (b : Src) (m : MaskNo) : Statement (.vrot stl d a b m) := by
  have h0 := stl.isLt
  have h1 := vdst_code_lt d
  have h2 := vsrc_code_lt a
  have h3 := src_code_lt b
  have h4 := m.isLt
  exact of_long _ rfl (by simp only [encodeWord]; omega)
theorem vcomp (stl : Stl) (d : VDst) (a : VSrc) (m : MaskNo) : Statement (.vcomp stl d a m) := by
  have h0 := stl.isLt
  have h1 := vdst_code_lt d
  have h2 := vsrc_code_lt a
  have h3 := m.isLt
  exact of_long _ rfl (by simp only [encodeWord]; omega)
theorem vexpn (stl : Stl) (d : VDst) (a : VSrc) (m : MaskNo) : Statement (.vexpn stl d a m) := by
  have h0 := stl.isLt
  have h1 := vdst_code_lt d
  have h2 := vsrc_code_lt a
  have h3 := m.isLt
  exact of_long _ rfl (by simp only [encodeWord]; omega)
theorem vredadd (stl : Stl) (d : Dst) (a : VSrc) (m : MaskNo) : Statement (.vredadd stl d a m) := by
  have h0 := stl.isLt
  have h1 := dst_code_lt d
  have h2 := vsrc_code_lt a
  have h3 := m.isLt
  exact of_long _ rfl (by simp only [encodeWord]; omega)
theorem vredmax (stl : Stl) (d : Dst) (a : VSrc) (m : MaskNo) : Statement (.vredmax stl d a m) := by
  have h0 := stl.isLt
  have h1 := dst_code_lt d
  have h2 := vsrc_code_lt a
  have h3 := m.isLt
  exact of_long _ rfl (by simp only [encodeWord]; omega)
theorem vredmin (stl : Stl) (d : Dst) (a : VSrc) (m : MaskNo) : Statement (.vredmin stl d a m) := by
  have h0 := stl.isLt
  have h1 := dst_code_lt d
  have h2 := vsrc_code_lt a
  have h3 := m.isLt
  exact of_long _ rfl (by simp only [encodeWord]; omega)
theorem vfredadd (stl : Stl) (d : Dst) (a : VSrc) (m : MaskNo) : Statement (.vfredadd stl d a m) := by
  have h0 := stl.isLt
  have h1 := dst_code_lt d
  have h2 := vsrc_code_lt a
  have h3 := m.isLt
  exact of_long _ rfl (by simp only [encodeWord]; omega)
theorem vcvt (stl : Stl) (d : VDst) (a : VSrc) (m : MaskNo) : Statement (.vcvt stl d a m) := by
  have h0 := stl.isLt
  have h1 := vdst_code_lt d
  have h2 := vsrc_code_lt a
  have h3 := m.isLt
  exact of_long _ rfl (by simp only [encodeWord]; omega)
theorem vwiden (stl : Stl) (d : VDst) (a : VSrc) (m : MaskNo) : Statement (.vwiden stl d a m) := by
  have h0 := stl.isLt
  have h1 := vdst_code_lt d
  have h2 := vsrc_code_lt a
  have h3 := m.isLt
  exact of_long _ rfl (by simp only [encodeWord]; omega)
theorem vnarrow (stl : Stl) (d : VDst) (a : VSrc) (m : MaskNo) : Statement (.vnarrow stl d a m) := by
  have h0 := stl.isLt
  have h1 := vdst_code_lt d
  have h2 := vsrc_code_lt a
  have h3 := m.isLt
  exact of_long _ rfl (by simp only [encodeWord]; omega)
theorem vround (stl : Stl) (d : VDst) (a : VSrc) (m : MaskNo) : Statement (.vround stl d a m) := by
  have h0 := stl.isLt
  have h1 := vdst_code_lt d
  have h2 := vsrc_code_lt a
  have h3 := m.isLt
  exact of_long _ rfl (by simp only [encodeWord]; omega)
theorem vfexp (stl : Stl) (d : VDst) (a : VSrc) (m : MaskNo) : Statement (.vfexp stl d a m) := by
  have h0 := stl.isLt
  have h1 := vdst_code_lt d
  have h2 := vsrc_code_lt a
  have h3 := m.isLt
  exact of_long _ rfl (by simp only [encodeWord]; omega)
theorem vflog (stl : Stl) (d : VDst) (a : VSrc) (m : MaskNo) : Statement (.vflog stl d a m) := by
  have h0 := stl.isLt
  have h1 := vdst_code_lt d
  have h2 := vsrc_code_lt a
  have h3 := m.isLt
  exact of_long _ rfl (by simp only [encodeWord]; omega)
theorem vfrecip (stl : Stl) (d : VDst) (a : VSrc) (m : MaskNo) : Statement (.vfrecip stl d a m) := by
  have h0 := stl.isLt
  have h1 := vdst_code_lt d
  have h2 := vsrc_code_lt a
  have h3 := m.isLt
  exact of_long _ rfl (by simp only [encodeWord]; omega)
theorem vfrsqrt (stl : Stl) (d : VDst) (a : VSrc) (m : MaskNo) : Statement (.vfrsqrt stl d a m) := by
  have h0 := stl.isLt
  have h1 := vdst_code_lt d
  have h2 := vsrc_code_lt a
  have h3 := m.isLt
  exact of_long _ rfl (by simp only [encodeWord]; omega)
theorem vftanh (stl : Stl) (d : VDst) (a : VSrc) (m : MaskNo) : Statement (.vftanh stl d a m) := by
  have h0 := stl.isLt
  have h1 := vdst_code_lt d
  have h2 := vsrc_code_lt a
  have h3 := m.isLt
  exact of_long _ rfl (by simp only [encodeWord]; omega)
theorem vfsigm (stl : Stl) (d : VDst) (a : VSrc) (m : MaskNo) : Statement (.vfsigm stl d a m) := by
  have h0 := stl.isLt
  have h1 := vdst_code_lt d
  have h2 := vsrc_code_lt a
  have h3 := m.isLt
  exact of_long _ rfl (by simp only [encodeWord]; omega)
theorem vfsin (stl : Stl) (d : VDst) (a : VSrc) (m : MaskNo) : Statement (.vfsin stl d a m) := by
  have h0 := stl.isLt
  have h1 := vdst_code_lt d
  have h2 := vsrc_code_lt a
  have h3 := m.isLt
  exact of_long _ rfl (by simp only [encodeWord]; omega)
theorem vfcos (stl : Stl) (d : VDst) (a : VSrc) (m : MaskNo) : Statement (.vfcos stl d a m) := by
  have h0 := stl.isLt
  have h1 := vdst_code_lt d
  have h2 := vsrc_code_lt a
  have h3 := m.isLt
  exact of_long _ rfl (by simp only [encodeWord]; omega)
theorem vamax (stl : Stl) (d : Dst) (a : VSrc) (m : MaskNo) : Statement (.vamax stl d a m) := by
  have h0 := stl.isLt
  have h1 := dst_code_lt d
  have h2 := vsrc_code_lt a
  have h3 := m.isLt
  exact of_long _ rfl (by simp only [encodeWord]; omega)
theorem vquant (stl : Stl) (d : VDst) (a : VSrc) (m : MaskNo) : Statement (.vquant stl d a m) := by
  have h0 := stl.isLt
  have h1 := vdst_code_lt d
  have h2 := vsrc_code_lt a
  have h3 := m.isLt
  exact of_long _ rfl (by simp only [encodeWord]; omega)
theorem vscale (stl : Stl) (d : VDst) (a : VSrc) (b : Src) (m : MaskNo) : Statement (.vscale stl d a b m) := by
  have h0 := stl.isLt
  have h1 := vdst_code_lt d
  have h2 := vsrc_code_lt a
  have h3 := src_code_lt b
  have h4 := m.isLt
  exact of_long _ rfl (by simp only [encodeWord]; omega)
theorem vdot (stl : Stl) (d : VDst) (a b : VSrc) (m : MaskNo) : Statement (.vdot stl d a b m) := by
  have h0 := stl.isLt
  have h1 := vdst_code_lt d
  have h2 := vsrc_code_lt a
  have h3 := vsrc_code_lt b
  have h4 := m.isLt
  exact of_long _ rfl (by simp only [encodeWord]; omega)
theorem mand (stl : Stl) (d a b m : MaskNo) : Statement (.mand stl d a b m) := by
  have h0 := stl.isLt
  have h1 := d.isLt
  have h2 := a.isLt
  have h3 := b.isLt
  have h4 := m.isLt
  exact of_long _ rfl (by simp only [encodeWord]; omega)
theorem mor (stl : Stl) (d a b m : MaskNo) : Statement (.mor stl d a b m) := by
  have h0 := stl.isLt
  have h1 := d.isLt
  have h2 := a.isLt
  have h3 := b.isLt
  have h4 := m.isLt
  exact of_long _ rfl (by simp only [encodeWord]; omega)
theorem mxor (stl : Stl) (d a b m : MaskNo) : Statement (.mxor stl d a b m) := by
  have h0 := stl.isLt
  have h1 := d.isLt
  have h2 := a.isLt
  have h3 := b.isLt
  have h4 := m.isLt
  exact of_long _ rfl (by simp only [encodeWord]; omega)
theorem mnot (stl : Stl) (d a m : MaskNo) : Statement (.mnot stl d a m) := by
  have h0 := stl.isLt
  have h1 := d.isLt
  have h2 := a.isLt
  have h3 := m.isLt
  exact of_long _ rfl (by simp only [encodeWord]; omega)
theorem mpop (stl : Stl) (d : Dst) (a m : MaskNo) : Statement (.mpop stl d a m) := by
  have h0 := stl.isLt
  have h1 := dst_code_lt d
  have h2 := a.isLt
  have h3 := m.isLt
  exact of_long _ rfl (by simp only [encodeWord]; omega)
theorem mfirst (stl : Stl) (d : Dst) (a m : MaskNo) : Statement (.mfirst stl d a m) := by
  have h0 := stl.isLt
  have h1 := dst_code_lt d
  have h2 := a.isLt
  have h3 := m.isLt
  exact of_long _ rfl (by simp only [encodeWord]; omega)
theorem msetn (stl : Stl) (d : MaskNo) (a : Src) (m : MaskNo) : Statement (.msetn stl d a m) := by
  have h0 := stl.isLt
  have h1 := d.isLt
  have h2 := src_code_lt a
  have h3 := m.isLt
  exact of_long _ rfl (by simp only [encodeWord]; omega)
theorem viota (stl : Stl) (d : VDst) (a m : MaskNo) : Statement (.viota stl d a m) := by
  have h0 := stl.isLt
  have h1 := vdst_code_lt d
  have h2 := a.isLt
  have h3 := m.isLt
  exact of_long _ rfl (by simp only [encodeWord]; omega)
theorem vgetsc (stl : Stl) (d : VDst) (a : VSrc) : Statement (.vgetsc stl d a) := by
  have h0 := stl.isLt
  have h1 := vdst_code_lt d
  have h2 := vsrc_code_lt a
  exact of_long _ rfl (by simp only [encodeWord]; omega)
theorem vsetsc (stl : Stl) (d : VDst) (a b : VSrc) : Statement (.vsetsc stl d a b) := by
  have h0 := stl.isLt
  have h1 := vdst_code_lt d
  have h2 := vsrc_code_lt a
  have h3 := vsrc_code_lt b
  exact of_long _ rfl (by simp only [encodeWord]; omega)
theorem vmov (stl : Stl) (d : VDst) (a : VSrc) : Statement (.vmov stl d a) := by
  have h0 := stl.isLt
  have h1 := vdst_code_lt d
  have h2 := vsrc_code_lt a
  exact of_long _ rfl (by simp only [encodeWord]; omega)
theorem vlanes (stl : Stl) (d : Dst) : Statement (.vlanes stl d) := by
  have h0 := stl.isLt
  have h1 := dst_code_lt d
  exact of_long _ rfl (by simp only [encodeWord]; omega)
theorem vld (stl : Stl) (d : VDst) (a b : Src) : Statement (.vld stl d a b) := by
  have h0 := stl.isLt
  have h1 := vdst_code_lt d
  have h2 := src_code_lt a
  have h3 := src_code_lt b
  exact of_long _ rfl (by simp only [encodeWord]; omega)
theorem vst (stl : Stl) (d : VSrc) (a b : Src) : Statement (.vst stl d a b) := by
  have h0 := stl.isLt
  have h1 := vsrc_code_lt d
  have h2 := src_code_lt a
  have h3 := src_code_lt b
  exact of_long _ rfl (by simp only [encodeWord]; omega)
theorem vldc (stl : Stl) (d : VDst) (a b : Src) : Statement (.vldc stl d a b) := by
  have h0 := stl.isLt
  have h1 := vdst_code_lt d
  have h2 := src_code_lt a
  have h3 := src_code_lt b
  exact of_long _ rfl (by simp only [encodeWord]; omega)
theorem vstc (stl : Stl) (d : VSrc) (a b : Src) : Statement (.vstc stl d a b) := by
  have h0 := stl.isLt
  have h1 := vsrc_code_lt d
  have h2 := src_code_lt a
  have h3 := src_code_lt b
  exact of_long _ rfl (by simp only [encodeWord]; omega)
theorem vlds (stl : Stl) (d : VDst) (a b : Src) : Statement (.vlds stl d a b) := by
  have h0 := stl.isLt
  have h1 := vdst_code_lt d
  have h2 := src_code_lt a
  have h3 := src_code_lt b
  exact of_long _ rfl (by simp only [encodeWord]; omega)
theorem vsts (stl : Stl) (d : VSrc) (a b : Src) : Statement (.vsts stl d a b) := by
  have h0 := stl.isLt
  have h1 := vsrc_code_lt d
  have h2 := src_code_lt a
  have h3 := src_code_lt b
  exact of_long _ rfl (by simp only [encodeWord]; omega)
theorem vgath (stl : Stl) (d : VDst) (a : Src) (b : VSrc) : Statement (.vgath stl d a b) := by
  have h0 := stl.isLt
  have h1 := vdst_code_lt d
  have h2 := src_code_lt a
  have h3 := vsrc_code_lt b
  exact of_long _ rfl (by simp only [encodeWord]; omega)
theorem vscat (stl : Stl) (d : VSrc) (a : Src) (b : VSrc) : Statement (.vscat stl d a b) := by
  have h0 := stl.isLt
  have h1 := vsrc_code_lt d
  have h2 := src_code_lt a
  have h3 := vsrc_code_lt b
  exact of_long _ rfl (by simp only [encodeWord]; omega)
theorem tld (stl : Stl) (x : BitVec 3) (u : Src) : Statement (.tld stl x u) := by
  have h0 := stl.isLt
  have h1 := x.isLt
  have h2 := src_code_lt u
  exact of_long _ rfl (by simp only [encodeWord]; omega)
theorem tst (stl : Stl) (y : BitVec 3) (u : Src) : Statement (.tst stl y u) := by
  have h0 := stl.isLt
  have h1 := y.isLt
  have h2 := src_code_lt u
  exact of_long _ rfl (by simp only [encodeWord]; omega)
theorem tzero (stl : Stl) (x : BitVec 3) : Statement (.tzero stl x) := by
  have h0 := stl.isLt
  have h1 := x.isLt
  exact of_long _ rfl (by simp only [encodeWord]; omega)
theorem mma (stl : Stl) (x y w : BitVec 3) (u : Src) (g : BitVec 3) : Statement (.mma stl x y w u g) := by
  have h0 := stl.isLt
  have h1 := x.isLt
  have h2 := y.isLt
  have h3 := w.isLt
  have h4 := src_code_lt u
  have h5 := g.isLt
  exact of_long _ rfl (by simp only [encodeWord]; omega)
theorem mmas (stl : Stl) (x y w : BitVec 3) (u : Src) (g : BitVec 3) : Statement (.mmas stl x y w u g) := by
  have h0 := stl.isLt
  have h1 := x.isLt
  have h2 := y.isLt
  have h3 := w.isLt
  have h4 := src_code_lt u
  have h5 := g.isLt
  exact of_long _ rfl (by simp only [encodeWord]; omega)
theorem tadd (stl : Stl) (x y w : BitVec 3) : Statement (.tadd stl x y w) := by
  have h0 := stl.isLt
  have h1 := x.isLt
  have h2 := y.isLt
  have h3 := w.isLt
  exact of_long _ rfl (by simp only [encodeWord]; omega)
theorem tcvt (stl : Stl) (x y : BitVec 3) (u : Src) : Statement (.tcvt stl x y u) := by
  have h0 := stl.isLt
  have h1 := x.isLt
  have h2 := y.isLt
  have h3 := src_code_lt u
  exact of_long _ rfl (by simp only [encodeWord]; omega)
theorem ttrans (stl : Stl) (x y : BitVec 3) : Statement (.ttrans stl x y) := by
  have h0 := stl.isLt
  have h1 := x.isLt
  have h2 := y.isLt
  exact of_long _ rfl (by simp only [encodeWord]; omega)
theorem trowv (stl : Stl) (y : BitVec 3) (u : Src) : Statement (.trowv stl y u) := by
  have h0 := stl.isLt
  have h1 := y.isLt
  have h2 := src_code_lt u
  exact of_long _ rfl (by simp only [encodeWord]; omega)
theorem tvrow (stl : Stl) (x : BitVec 3) (y : BitVec 2) (u : Src) : Statement (.tvrow stl x y u) := by
  have h0 := stl.isLt
  have h1 := x.isLt
  have h2 := y.isLt
  have h3 := src_code_lt u
  exact of_long _ rfl (by simp only [encodeWord]; omega)
theorem send (stl : Stl) (a b : Src) : Statement (.send stl a b) := by
  have h0 := stl.isLt
  have h1 := src_code_lt a
  have h2 := src_code_lt b
  exact of_long _ rfl (by simp only [encodeWord]; omega)
theorem sends (stl : Stl) (d a b : Src) : Statement (.sends stl d a b) := by
  have h0 := stl.isLt
  have h1 := src_code_lt d
  have h2 := src_code_lt a
  have h3 := src_code_lt b
  exact of_long _ rfl (by simp only [encodeWord]; omega)
theorem sendv (stl : Stl) (a : Src) (b : VSrc) : Statement (.sendv stl a b) := by
  have h0 := stl.isLt
  have h1 := src_code_lt a
  have h2 := vsrc_code_lt b
  exact of_long _ rfl (by simp only [encodeWord]; omega)
theorem senda (stl : Stl) (d a b : Src) : Statement (.senda stl d a b) := by
  have h0 := stl.isLt
  have h1 := src_code_lt d
  have h2 := src_code_lt a
  have h3 := src_code_lt b
  exact of_long _ rfl (by simp only [encodeWord]; omega)
theorem mlen (stl : Stl) (d : Dst) : Statement (.mlen stl d) := by
  have h0 := stl.isLt
  have h1 := dst_code_lt d
  exact of_long _ rfl (by simp only [encodeWord]; omega)
theorem msrc (stl : Stl) (d : Dst) : Statement (.msrc stl d) := by
  have h0 := stl.isLt
  have h1 := dst_code_lt d
  exact of_long _ rfl (by simp only [encodeWord]; omega)
theorem launch (stl : Stl) (d : Dst) (a : Src) : Statement (.launch stl d a) := by
  have h0 := stl.isLt
  have h1 := dst_code_lt d
  have h2 := src_code_lt a
  exact of_long _ rfl (by simp only [encodeWord]; omega)
theorem cntset (stl : Stl) (a b : Src) : Statement (.cntset stl a b) := by
  have h0 := stl.isLt
  have h1 := src_code_lt a
  have h2 := src_code_lt b
  exact of_long _ rfl (by simp only [encodeWord]; omega)
theorem rcap (stl : Stl) (d : Dst) (a : BitVec 6) (b : BitVec 1) : Statement (.rcap stl d a b) := by
  have h0 := stl.isLt
  have h1 := dst_code_lt d
  have h2 := a.isLt
  have h3 := b.isLt
  exact of_long _ rfl (by simp only [encodeWord]; omega)
theorem rput (stl : Stl) (a b : Src) : Statement (.rput stl a b) := by
  have h0 := stl.isLt
  have h1 := src_code_lt a
  have h2 := src_code_lt b
  exact of_long _ rfl (by simp only [encodeWord]; omega)
theorem rputv (stl : Stl) (a : Src) (b : VSrc) : Statement (.rputv stl a b) := by
  have h0 := stl.isLt
  have h1 := src_code_lt a
  have h2 := vsrc_code_lt b
  exact of_long _ rfl (by simp only [encodeWord]; omega)
theorem rputr (stl : Stl) (a b : Src) : Statement (.rputr stl a b) := by
  have h0 := stl.isLt
  have h1 := src_code_lt a
  have h2 := src_code_lt b
  exact of_long _ rfl (by simp only [encodeWord]; omega)
theorem rtake (stl : Stl) (d a : BitVec 6) : Statement (.rtake stl d a) := by
  have h0 := stl.isLt
  have h1 := d.isLt
  have h2 := a.isLt
  exact of_long _ rfl (by simp only [encodeWord]; omega)
theorem rempty (stl : Stl) (a : BitVec 6) : Statement (.rempty stl a) := by
  have h0 := stl.isLt
  have h1 := a.isLt
  exact of_long _ rfl (by simp only [encodeWord]; omega)
theorem rfull (stl : Stl) (d : Dst) (a : BitVec 6) : Statement (.rfull stl d a) := by
  have h0 := stl.isLt
  have h1 := dst_code_lt d
  have h2 := a.isLt
  exact of_long _ rfl (by simp only [encodeWord]; omega)
theorem rwait (stl : Stl) (d a : BitVec 6) : Statement (.rwait stl d a) := by
  have h0 := stl.isLt
  have h1 := d.isLt
  have h2 := a.isLt
  exact of_long _ rfl (by simp only [encodeWord]; omega)
theorem xcopy (stl : Stl) (d : Dst) (a b : Src) : Statement (.xcopy stl d a b) := by
  have h0 := stl.isLt
  have h1 := dst_code_lt d
  have h2 := src_code_lt a
  have h3 := src_code_lt b
  exact of_long _ rfl (by simp only [encodeWord]; omega)
theorem xcopym (stl : Stl) (d : Dst) (a b : Src) : Statement (.xcopym stl d a b) := by
  have h0 := stl.isLt
  have h1 := dst_code_lt d
  have h2 := src_code_lt a
  have h3 := src_code_lt b
  exact of_long _ rfl (by simp only [encodeWord]; omega)
theorem xstrm (stl : Stl) (d : BitVec 3) (a b : Src) : Statement (.xstrm stl d a b) := by
  have h0 := stl.isLt
  have h1 := d.isLt
  have h2 := src_code_lt a
  have h3 := src_code_lt b
  exact of_long _ rfl (by simp only [encodeWord]; omega)
theorem xstrmOff (stl : Stl) (d : BitVec 3) : Statement (.xstrmOff stl d) := by
  have h0 := stl.isLt
  have h1 := d.isLt
  exact of_long _ rfl (by simp only [encodeWord]; omega)
theorem xwait (stl : Stl) (d : Dst) (a : Src) : Statement (.xwait stl d a) := by
  have h0 := stl.isLt
  have h1 := dst_code_lt d
  have h2 := src_code_lt a
  exact of_long _ rfl (by simp only [encodeWord]; omega)
theorem xpoll (stl : Stl) (d : Dst) (a : Src) : Statement (.xpoll stl d a) := by
  have h0 := stl.isLt
  have h1 := dst_code_lt d
  have h2 := src_code_lt a
  exact of_long _ rfl (by simp only [encodeWord]; omega)
theorem xtdef (stl : Stl) (a b : Src) : Statement (.xtdef stl a b) := by
  have h0 := stl.isLt
  have h1 := src_code_lt a
  have h2 := src_code_lt b
  exact of_long _ rfl (by simp only [encodeWord]; omega)
theorem xdig (stl : Stl) (d : Dst) (a b : Src) : Statement (.xdig stl d a b) := by
  have h0 := stl.isLt
  have h1 := dst_code_lt d
  have h2 := src_code_lt a
  have h3 := src_code_lt b
  exact of_long _ rfl (by simp only [encodeWord]; omega)
theorem gres (stl : Stl) : Statement (.gres stl) := by
  have h0 := stl.isLt
  exact of_long _ rfl (by simp only [encodeWord]; omega)
theorem gend (stl : Stl) : Statement (.gend stl) := by
  have h0 := stl.isLt
  exact of_long _ rfl (by simp only [encodeWord]; omega)
theorem gqry (stl : Stl) (d : Dst) : Statement (.gqry stl d) := by
  have h0 := stl.isLt
  have h1 := dst_code_lt d
  exact of_long _ rfl (by simp only [encodeWord]; omega)
theorem gwin (stl : Stl) (a b : Src) : Statement (.gwin stl a b) := by
  have h0 := stl.isLt
  have h1 := src_code_lt a
  have h2 := src_code_lt b
  exact of_long _ rfl (by simp only [encodeWord]; omega)
theorem trap (stl : Stl) (b : BitVec 6) : Statement (.trap stl b) := by
  have h0 := stl.isLt
  have h1 := b.isLt
  exact of_long _ rfl (by simp only [encodeWord]; omega)
theorem brk (stl : Stl) (b : BitVec 6) : Statement (.brk stl b) := by
  have h0 := stl.isLt
  have h1 := b.isLt
  exact of_long _ rfl (by simp only [encodeWord]; omega)
theorem rdtb (stl : Stl) (d : Dst) : Statement (.rdtb stl d) := by
  have h0 := stl.isLt
  have h1 := dst_code_lt d
  exact of_long _ rfl (by simp only [encodeWord]; omega)
theorem trmark (stl : Stl) (a : Src) (b : BitVec 6) : Statement (.trmark stl a b) := by
  have h0 := stl.isLt
  have h1 := src_code_lt a
  have h2 := b.isLt
  exact of_long _ rfl (by simp only [encodeWord]; omega)
theorem eret (stl : Stl) (b : BitVec 6) : Statement (.eret stl b) := by
  have h0 := stl.isLt
  have h1 := b.isLt
  exact of_long _ rfl (by simp only [encodeWord]; omega)
theorem saveq (stl : Stl) (b : BitVec 1) : Statement (.saveq stl b) := by
  have h0 := stl.isLt
  have h1 := b.isLt
  exact of_long _ rfl (by simp only [encodeWord]; omega)
theorem restq (stl : Stl) (b : BitVec 1) : Statement (.restq stl b) := by
  have h0 := stl.isLt
  have h1 := b.isLt
  exact of_long _ rfl (by simp only [encodeWord]; omega)
theorem drain (stl : Stl) (d : Dst) (a b : Src) : Statement (.drain stl d a b) := by
  have h0 := stl.isLt
  have h1 := dst_code_lt d
  have h2 := src_code_lt a
  have h3 := src_code_lt b
  exact of_long _ rfl (by simp only [encodeWord]; omega)
theorem colr (stl : Stl) (d : Dst) (a b : Src) : Statement (.colr stl d a b) := by
  have h0 := stl.isLt
  have h1 := dst_code_lt d
  have h2 := src_code_lt a
  have h3 := src_code_lt b
  exact of_long _ rfl (by simp only [encodeWord]; omega)
theorem ncinv (stl : Stl) (d : Dst) (a b : Src) : Statement (.ncinv stl d a b) := by
  have h0 := stl.isLt
  have h1 := dst_code_lt d
  have h2 := src_code_lt a
  have h3 := src_code_lt b
  exact of_long _ rfl (by simp only [encodeWord]; omega)
theorem wdset (stl : Stl) (a b : Src) : Statement (.wdset stl a b) := by
  have h0 := stl.isLt
  have h1 := src_code_lt a
  have h2 := src_code_lt b
  exact of_long _ rfl (by simp only [encodeWord]; omega)
theorem haltt (stl : Stl) (d : Dst) (b : BitVec 6) : Statement (.haltt stl d b) := by
  have h0 := stl.isLt
  have h1 := dst_code_lt d
  have h2 := b.isLt
  exact of_long _ rfl (by simp only [encodeWord]; omega)
theorem idle (stl : Stl) : Statement (.idle stl) := by
  have h0 := stl.isLt
  exact of_long _ rfl (by simp only [encodeWord]; omega)
theorem svsend (stl : Stl) (a b : Src) : Statement (.svsend stl a b) := by
  have h0 := stl.isLt
  have h1 := src_code_lt a
  have h2 := src_code_lt b
  exact of_long _ rfl (by simp only [encodeWord]; omega)
theorem svrecv (stl : Stl) (d : Dst) (a : Src) : Statement (.svrecv stl d a) := by
  have h0 := stl.isLt
  have h1 := dst_code_lt d
  have h2 := src_code_lt a
  exact of_long _ rfl (by simp only [encodeWord]; omega)
theorem intack (stl : Stl) (d : Dst) : Statement (.intack stl d) := by
  have h0 := stl.isLt
  have h1 := dst_code_lt d
  exact of_long _ rfl (by simp only [encodeWord]; omega)
theorem prcr (stl : Stl) (d : Dst) (a : Src) : Statement (.prcr stl d a) := by
  have h0 := stl.isLt
  have h1 := dst_code_lt d
  have h2 := src_code_lt a
  exact of_long _ rfl (by simp only [encodeWord]; omega)
theorem pcwr (stl : Stl) (a b : Src) : Statement (.pcwr stl a b) := by
  have h0 := stl.isLt
  have h1 := src_code_lt a
  have h2 := src_code_lt b
  exact of_long _ rfl (by simp only [encodeWord]; omega)
theorem swpout (stl : Stl) (d : Dst) (a b : Src) : Statement (.swpout stl d a b) := by
  have h0 := stl.isLt
  have h1 := dst_code_lt d
  have h2 := src_code_lt a
  have h3 := src_code_lt b
  exact of_long _ rfl (by simp only [encodeWord]; omega)
theorem swpin (stl : Stl) (d : Dst) (a b : Src) : Statement (.swpin stl d a b) := by
  have h0 := stl.isLt
  have h1 := dst_code_lt d
  have h2 := src_code_lt a
  have h3 := src_code_lt b
  exact of_long _ rfl (by simp only [encodeWord]; omega)
theorem fwdset (stl : Stl) (a b : Src) : Statement (.fwdset stl a b) := by
  have h0 := stl.isLt
  have h1 := src_code_lt a
  have h2 := src_code_lt b
  exact of_long _ rfl (by simp only [encodeWord]; omega)
theorem resett (stl : Stl) (d : Dst) (a : Src) : Statement (.resett stl d a) := by
  have h0 := stl.isLt
  have h1 := dst_code_lt d
  have h2 := src_code_lt a
  exact of_long _ rfl (by simp only [encodeWord]; omega)
theorem thrset (stl : Stl) (a b : Src) : Statement (.thrset stl a b) := by
  have h0 := stl.isLt
  have h1 := src_code_lt a
  have h2 := src_code_lt b
  exact of_long _ rfl (by simp only [encodeWord]; omega)
theorem slotkill (stl : Stl) (a : Src) : Statement (.slotkill stl a) := by
  have h0 := stl.isLt
  have h1 := src_code_lt a
  exact of_long _ rfl (by simp only [encodeWord]; omega)
theorem nop16 : Statement (.nop16) := by
  exact of_short _ rfl (by simp only [encodeWord]; omega)
theorem done16 : Statement (.done16) := by
  exact of_short _ rfl (by simp only [encodeWord]; omega)
theorem donef16 : Statement (.donef16) := by
  exact of_short _ rfl (by simp only [encodeWord]; omega)
theorem yield16 : Statement (.yield16) := by
  exact of_short _ rfl (by simp only [encodeWord]; omega)
theorem ret16 : Statement (.ret16) := by
  exact of_short _ rfl (by simp only [encodeWord]; omega)
theorem brk16 : Statement (.brk16) := by
  exact of_short _ rfl (by simp only [encodeWord]; omega)
theorem cAdd (a b : Src5) : Statement (.cAdd a b) := by
  have h0 := src5_code_lt a
  have h1 := src5_code_lt b
  exact of_short _ rfl (by simp only [encodeWord]; omega)
theorem cSub (a b : Src5) : Statement (.cSub a b) := by
  have h0 := src5_code_lt a
  have h1 := src5_code_lt b
  exact of_short _ rfl (by simp only [encodeWord]; omega)
theorem cAnd (a b : Src5) : Statement (.cAnd a b) := by
  have h0 := src5_code_lt a
  have h1 := src5_code_lt b
  exact of_short _ rfl (by simp only [encodeWord]; omega)
theorem cOr (a b : Src5) : Statement (.cOr a b) := by
  have h0 := src5_code_lt a
  have h1 := src5_code_lt b
  exact of_short _ rfl (by simp only [encodeWord]; omega)
theorem cXor (a b : Src5) : Statement (.cXor a b) := by
  have h0 := src5_code_lt a
  have h1 := src5_code_lt b
  exact of_short _ rfl (by simp only [encodeWord]; omega)
theorem cMov (a : Src5) : Statement (.cMov a) := by
  have h0 := src5_code_lt a
  exact of_short _ rfl (by simp only [encodeWord]; omega)
theorem cAddi (a : Src5) (i : BitVec 6) : Statement (.cAddi a i) := by
  have h0 := src5_code_lt a
  have h1 := i.isLt
  exact of_short _ rfl (by simp only [encodeWord]; omega)
theorem cLimm (i : BitVec 11) : Statement (.cLimm i) := by
  have h0 := i.isLt
  exact of_short _ rfl (by simp only [encodeWord]; omega)
theorem cShli (a : Src5) (i : BitVec 6) : Statement (.cShli a i) := by
  have h0 := src5_code_lt a
  have h1 := i.isLt
  exact of_short _ rfl (by simp only [encodeWord]; omega)
theorem cShri (a : Src5) (i : BitVec 6) : Statement (.cShri a i) := by
  have h0 := src5_code_lt a
  have h1 := i.isLt
  exact of_short _ rfl (by simp only [encodeWord]; omega)
theorem cBr (o : BitVec 11) : Statement (.cBr o) := by
  have h0 := o.isLt
  exact of_short _ rfl (by simp only [encodeWord]; omega)
theorem cBz (a : Src5) (o : BitVec 6) : Statement (.cBz a o) := by
  have h0 := src5_code_lt a
  have h1 := o.isLt
  exact of_short _ rfl (by simp only [encodeWord]; omega)
theorem cBnz (a : Src5) (o : BitVec 6) : Statement (.cBnz a o) := by
  have h0 := src5_code_lt a
  have h1 := o.isLt
  exact of_short _ rfl (by simp only [encodeWord]; omega)
theorem cLd (a : Src5) (i : BitVec 6) : Statement (.cLd a i) := by
  have h0 := src5_code_lt a
  have h1 := i.isLt
  exact of_short _ rfl (by simp only [encodeWord]; omega)
theorem cSt (a : Src5) (i : BitVec 6) : Statement (.cSt a i) := by
  have h0 := src5_code_lt a
  have h1 := i.isLt
  exact of_short _ rfl (by simp only [encodeWord]; omega)
theorem fixedLatencyCompletion (who : Agent) : Statement (.fixedLatencyCompletion who) := of_step _ rfl
theorem varResultArrival (k : Nat) : Statement (.varResultArrival k) := of_step _ rfl
theorem messageArrival (k : Nat) : Statement (.messageArrival k) := of_step _ rfl
theorem countedMessageArrival (k : Nat) : Statement (.countedMessageArrival k) := of_step _ rfl
theorem headAged (site : Nat) (iq : Fin 4) : Statement (.headAged site iq) := of_step _ rfl
theorem dispatch (site : Nat) : Statement (.dispatch site) := of_step _ rfl
theorem residentThreadStart (site : Nat) : Statement (.residentThreadStart site) := of_step _ rfl
theorem registerWriteArrival (k : Nat) : Statement (.registerWriteArrival k) := of_step _ rfl
theorem heldWriteDelivery (site k : Nat) : Statement (.heldWriteDelivery site k) := of_step _ rfl
theorem remoteRequestArrival (k : Nat) : Statement (.remoteRequestArrival k) := of_step _ rfl
theorem heldRequestRelease (site k : Nat) : Statement (.heldRequestRelease site k) := of_step _ rfl
theorem trapEntry (site : Nat) (slot : Fin 8) : Statement (.trapEntry site slot) := of_step _ rfl
theorem vtileRetire (site : Nat) : Statement (.vtileRetire site) := of_step _ rfl
theorem yieldTimeout (site : Nat) (slot : Fin 8) : Statement (.yieldTimeout site slot) := of_step _ rfl
theorem matrixGrant (site : Nat) : Statement (.matrixGrant site) := of_step _ rfl
theorem matrixEngineFree (site : Nat) : Statement (.matrixEngineFree site) := of_step _ rfl
theorem mslotWrite (site : Nat) (val : Word) : Statement (.mslotWrite site val) := of_step _ rfl
theorem copyLineLanding (site ticket : Nat) : Statement (.copyLineLanding site ticket) := of_step _ rfl
theorem copyJobCompletion (site ticket : Nat) : Statement (.copyJobCompletion site ticket) := of_step _ rfl
theorem copyJobError (site ticket : Nat) (bits : BitVec 5) : Statement (.copyJobError site ticket bits) := of_step _ rfl
theorem followOnCommand (site ticket : Nat) : Statement (.followOnCommand site ticket) := of_step _ rfl
theorem streamFetch (site : Nat) (k : Fin 4) : Statement (.streamFetch site k) := of_step _ rfl
theorem streamElementArrival (site : Nat) (k : Fin 4) : Statement (.streamElementArrival site k) := of_step _ rfl
theorem sendInjection (site : Nat) : Statement (.sendInjection site) := of_step _ rfl
theorem nameCacheWalk (site idx vtile : Nat) : Statement (.nameCacheWalk site idx vtile) := of_step _ rfl
theorem parkEntryWrite (k : Nat) : Statement (.parkEntryWrite k) := of_step _ rfl
theorem parkedDelivery (site : Nat) : Statement (.parkedDelivery site) := of_step _ rfl
theorem barwaitProbe (site : Nat) (slot : Fin 8) : Statement (.barwaitProbe site slot) := of_step _ rfl
theorem doorbell (fn q tail : Nat) : Statement (.doorbell fn q tail) := of_step _ rfl
theorem kernel (q idx : Nat) (key : Word) (ptbase parkbase : Nat) : Statement (.kernel q idx key ptbase parkbase) := of_step _ rfl
theorem marker (q idx : Nat) : Statement (.marker q idx) := of_step _ rfl
theorem childLaunchPacket (k idx : Nat) (key : Word) (ptbase parkbase : Nat) : Statement (.childLaunchPacket k idx key ptbase parkbase) := of_step _ rfl
theorem launchStart (idx : Nat) : Statement (.launchStart idx) := of_step _ rfl
theorem gangPlacement (idx gang : Nat) : Statement (.gangPlacement idx gang) := of_step _ rfl
theorem preEmption (part imgbase : Nat) : Statement (.preEmption part imgbase) := of_step _ rfl
theorem summonService (part imgbase : Nat) : Statement (.summonService part imgbase) := of_step _ rfl
theorem preEmptedGangReturn (idx gang : Nat) : Statement (.preEmptedGangReturn idx gang) := of_step _ rfl
theorem qsliceExpiry (idx gang : Nat) : Statement (.qsliceExpiry idx gang) := of_step _ rfl
theorem mappingPass : Statement (.mappingPass) := of_step _ rfl
theorem bucketRefill : Statement (.bucketRefill) := of_step _ rfl
theorem watchdogExpiry (hw : Nat) : Statement (.watchdogExpiry hw) := of_step _ rfl
theorem launchCompletion (idx : Nat) : Statement (.launchCompletion idx) := of_step _ rfl
theorem pendingErrorWrite : Statement (.pendingErrorWrite) := of_step _ rfl
theorem permitTimer (region : Nat) (atCollier : Bool) : Statement (.permitTimer region atCollier) := of_step _ rfl
theorem createQueue : Statement (.createQueue) := of_step _ rfl
theorem destroyQueue : Statement (.destroyQueue) := of_step _ rfl
theorem unfreeze : Statement (.unfreeze) := of_step _ rfl
theorem flush : Statement (.flush) := of_step _ rfl
theorem setBucket : Statement (.setBucket) := of_step _ rfl
theorem setPartition (key : BitVec 512) : Statement (.setPartition key) := of_step _ rfl
theorem setEventRing : Statement (.setEventRing) := of_step _ rfl
theorem getCounters : Statement (.getCounters) := of_step _ rfl
theorem setLog : Statement (.setLog) := of_step _ rfl
theorem setPair : Statement (.setPair) := of_step _ rfl
theorem attest (sig : BitVec 512) (cert : List Byte) : Statement (.attest sig cert) := of_step _ rfl
theorem readmit (sigOk tested busy : Bool) : Statement (.readmit sigOk tested busy) := of_step _ rfl
theorem setOwner (sigOk : Bool) : Statement (.setOwner sigOk) := of_step _ rfl
theorem bindHost : Statement (.bindHost) := of_step _ rfl
theorem bindPeer : Statement (.bindPeer) := of_step _ rfl
theorem preempt (k : Nat) : Statement (.preempt k) := of_step _ rfl
theorem saved (k : Nat) : Statement (.saved k) := of_step _ rfl
theorem faultstop (k : Nat) : Statement (.faultstop k) := of_step _ rfl
theorem debugstop (k : Nat) : Statement (.debugstop k) := of_step _ rfl
theorem resume (k : Nat) : Statement (.resume k) := of_step _ rfl
theorem wdkill (k : Nat) : Statement (.wdkill k) := of_step _ rfl
theorem restore (k : Nat) : Statement (.restore k) := of_step _ rfl
theorem restored (k : Nat) : Statement (.restored k) := of_step _ rfl
theorem killed (k : Nat) : Statement (.killed k) := of_step _ rfl
theorem quiesce (k : Nat) : Statement (.quiesce k) := of_step _ rfl
theorem quiesceLanding (site : Nat) : Statement (.quiesceLanding site) := of_step _ rfl
theorem permitReturn (k : Nat) : Statement (.permitReturn k) := of_step _ rfl
theorem kill (k : Nat) : Statement (.kill k) := of_step _ rfl
theorem killdone (k : Nat) : Statement (.killdone k) := of_step _ rfl
theorem retireReport (k : Nat) : Statement (.retireReport k) := of_step _ rfl
theorem faultReport (k : Nat) : Statement (.faultReport k) := of_step _ rfl
theorem stats (k : Nat) : Statement (.stats k) := of_step _ rfl
theorem imagebad (k : Nat) : Statement (.imagebad k) := of_step _ rfl
theorem summon (k : Nat) : Statement (.summon k) := of_step _ rfl
theorem evict (k : Nat) : Statement (.evict k) := of_step _ rfl
theorem pack (k : Nat) : Statement (.pack k) := of_step _ rfl
theorem savedp (k : Nat) : Statement (.savedp k) := of_step _ rfl
theorem ncreq (k : Nat) : Statement (.ncreq k) := of_step _ rfl
theorem ncdone (k : Nat) : Statement (.ncdone k) := of_step _ rfl
theorem swapout (k : Nat) : Statement (.swapout k) := of_step _ rfl
theorem evicted (k : Nat) : Statement (.evicted k) := of_step _ rfl
theorem place (k : Nat) : Statement (.place k) := of_step _ rfl
theorem loadedp (k : Nat) : Statement (.loadedp k) := of_step _ rfl
theorem openGang (k : Nat) : Statement (.openGang k) := of_step _ rfl
theorem placed (k : Nat) : Statement (.placed k) := of_step _ rfl
theorem migrate (k : Nat) : Statement (.migrate k) := of_step _ rfl
theorem moved (k : Nat) : Statement (.moved k) := of_step _ rfl
theorem pdeliv (k : Nat) : Statement (.pdeliv k) := of_step _ rfl
theorem pdone (k : Nat) : Statement (.pdone k) := of_step _ rfl
theorem subregionUngate (region : Nat) (sub : Fin 16) : Statement (.subregionUngate region sub) := of_step _ rfl
theorem sgateWrite (region : Nat) (val : BitVec 16) : Statement (.sgateWrite region val) := of_step _ rfl
theorem thrDutyWrite (region : Nat) (val : Word) : Statement (.thrDutyWrite region val) := of_step _ rfl
theorem throttle (k : Nat) : Statement (.throttle k) := of_step _ rfl
theorem throttled (k : Nat) : Statement (.throttled k) := of_step _ rfl
theorem sensorSample (region : Nat) (temp : BitVec 12) : Statement (.sensorSample region temp) := of_step _ rfl
theorem timercmpWrite (who : Agent) (val : Word) : Statement (.timercmpWrite who val) := of_step _ rfl
theorem timerMatch (who : Agent) : Statement (.timerMatch who) := of_step _ rfl
theorem interruptEntry (who : Agent) : Statement (.interruptEntry who) := of_step _ rfl
theorem ovrhWrite (site : Nat) (slot : Fin 8) (val : Word) : Statement (.ovrhWrite site slot val) := of_step _ rfl
theorem rxuInvalidatePage (asid page : Nat) : Statement (.rxuInvalidatePage asid page) := of_step _ rfl
theorem rxuInvalidateAll (asid : Nat) : Statement (.rxuInvalidateAll asid) := of_step _ rfl
theorem rxuInvalidateDone : Statement (.rxuInvalidateDone) := of_step _ rfl
theorem captureSelect (region : Nat) (val : Word) : Statement (.captureSelect region val) := of_step _ rfl
theorem captureClear (region : Nat) : Statement (.captureClear region) := of_step _ rfl
theorem haltAcknowledge : Statement (.haltAcknowledge) := of_step _ rfl
theorem speigOpen (part : Nat) (sigOk : Bool) : Statement (.speigOpen part sigOk) := of_step _ rfl
theorem speigClose : Statement (.speigClose) := of_step _ rfl
theorem speigHalt : Statement (.speigHalt) := of_step _ rfl
theorem speigResume : Statement (.speigResume) := of_step _ rfl
theorem attach (idx : Nat) (brk stopAll : Bool) : Statement (.attach idx brk stopAll) := of_step _ rfl
theorem detach (idx : Nat) : Statement (.detach idx) := of_step _ rfl
theorem pstop (idx vtile : Nat) : Statement (.pstop idx vtile) := of_step _ rfl
theorem dstop (idx vtile : Nat) : Statement (.dstop idx vtile) := of_step _ rfl
theorem cont (idx vtile : Nat) : Statement (.cont idx vtile) := of_step _ rfl
theorem speigRead (tgt : SpeigTarget) (addr len : Nat) : Statement (.speigRead tgt addr len) := of_step _ rfl
theorem speigWrite (tgt : SpeigTarget) (addr : Nat) (data : List Byte) : Statement (.speigWrite tgt addr data) := of_step _ rfl
theorem tracecfg (region base size : Nat) : Statement (.tracecfg region base size) := of_step _ rfl
theorem capcfg (region : Nat) (val : Word) : Statement (.capcfg region val) := of_step _ rfl
theorem capread (region : Nat) : Statement (.capread region) := of_step _ rfl
theorem digestFrame (link : Fin 16) (q num : Nat) (tag : BitVec 32) (digests : List (BitVec 256)) : Statement (.digestFrame link q num tag digests) := of_step _ rfl
theorem pairTimeout (q : Nat) : Statement (.pairTimeout q) := of_step _ rfl
theorem retireTile (k : Nat) : Statement (.retireTile k) := of_step _ rfl
theorem bringUp (romOk : Bool) (unverified bad shorted unloaded untrained : List Nat) (image : List Byte) (sys : List Half) : Statement (.bringUp romOk unverified bad shorted unloaded untrained image sys) := of_step _ rfl
theorem droopStretch (region : Nat) (sub : Fin 16) : Statement (.droopStretch region sub) := of_step _ rfl
theorem droopRecovery (region : Nat) (sub : Fin 16) : Statement (.droopRecovery region sub) := of_step _ rfl
theorem peerLinkDown (link : Fin 16) : Statement (.peerLinkDown link) := of_step _ rfl
theorem lockstepMismatch : Statement (.lockstepMismatch) := of_step _ rfl
theorem hbmRequestArrival (k : Nat) : Statement (.hbmRequestArrival k) := of_step _ rfl
theorem colourAcknowledgement (k : Nat) : Statement (.colourAcknowledgement k) := of_step _ rfl

end Sys2Proof.Laws.Encoding
end

