-- ==== Sys2Proof/Tests/Slice0.lean ====
section
/-! SUPPORT. Tests: for every statement with hypotheses a state and operands that meet them (witness_<statement>), every
instruction of the encoding tables decoded from a word put together by hand from its match and its operand codes, what
well-formedness and the decoder refuse, and values of the specification's worked examples. -/

namespace Sys2Proof.Tests
open Sys2Proof.Machine
noncomputable section
set_option maxRecDepth 100000
set_option Elab.async false
set_option exponentiation.threshold 5000

/-- The stand-in launch on site 0, its resident thread in USER mode at index 0. -/
def user : State := State.reset.standIn
/-- A state with the slot of its current agent changed. -/
def with' (s : State) (f : Slot → Slot) : State := s.setSlot s.cur (f (s.slot s.cur))
/-- The slot of `user` in SYS mode. -/
def system : State := with' user fun sl => { sl with sys := true }
/-- `user` with format I32, 128 lanes, and I16 as second format. -/
def ints : State := with' user fun sl => { sl with vt := 0x802, vt2 := 0x801 }
/-- The Collier at reset. -/
def chief : State := State.reset
/-- The Stoker of region 0, running. -/
def stoker : State :=
  { State.reset with cur := .stoker 0, stokers := Table.put State.reset.stokers 0 { State.reset.stoker 0 with running := true } }

theorem user_may : user.mayIssue = true := by rfl
theorem system_may : system.mayIssue = true := by rfl
theorem ints_may : ints.mayIssue = true := by rfl
theorem chief_may : chief.mayIssue = true := by rfl
theorem stoker_may : stoker.mayIssue = true := by rfl

/-! ### Operands meet the hypotheses of the statements -/

theorem witness_IntegerArithmetic_IntegerResults : user.admits (opA 0x00 0 0 0 33 0)
    ∧ ∃ x y t, read2 (.n 1) (.q 0) user.opened = .ok ((x, y), t) := ⟨⟨user_may, rfl⟩, _, _, _, rfl⟩
theorem witness_UnaryImmediateAndOldValue_UnaryAndImmediateResults : user.admits (opA 0x01 13 0 33 33 0) ∧ user.admits (opI 0x07 0 33 33 63)
    ∧ user.admits (opI 0x07 0 33 33 64) ∧ user.admits (opL 0x0C 0 33 0x8000) ∧ user.admits (opL 0x0D 0 33 1)
    ∧ (∃ x t, read1 (.n 1) user.opened = .ok (x, t))
    ∧ ∃ s x t, awaitNamed 1 user.opened = .ok ((), s) ∧ readNamed 1 s = .ok (x, t) :=
  ⟨⟨user_may, rfl⟩, ⟨user_may, rfl⟩, ⟨user_may, rfl⟩, ⟨user_may, rfl⟩, ⟨user_may, rfl⟩, ⟨_, _, rfl⟩, _, _, _, rfl, rfl⟩
theorem witness_UnaryImmediateAndOldValue_OldValueResults : user.admits (opA 0x01 12 0 33 2 33) ∧ user.admits (opA 0x02 7 0 33 2 33)
    ∧ ∃ s1 s2 x y o t, awaitOld (.n 1) user.opened = .ok ((), s1) ∧ read2 (.q 2) (.n 1) s1 = .ok ((x, y), s2)
      ∧ readOld (.n 1) s2 = .ok (o, t) :=
  ⟨⟨user_may, rfl⟩, ⟨user_may, rfl⟩, _, _, _, _, _, _, rfl, rfl, rfl⟩
theorem witness_ShortFormResults : user.admits (op16 0x00 0 0x0824) ∧ user.admits (op16 0x08 0 0x4C7F)
    ∧ (∃ x y t, read2 (Src5.q 0).toSrc (Src5.n 2).toSrc user.opened = .ok ((x, y), t)) ∧ user.admits (op16 0x0C 0 0x3FFF) :=
  ⟨⟨user_may, rfl⟩, ⟨user_may, rfl⟩, ⟨_, _, _, rfl⟩, ⟨user_may, rfl⟩⟩
theorem witness_ScalarFloatResults : user.admits (opA 0x0F 0 0 0 33 34) ∧ user.admits (opF 0x10 3 0 0 33 34 3)
    ∧ ∃ x y z t, read3 (.n 1) (.n 2) (.q 3) user.opened = .ok ((x, y, z), t) :=
  ⟨⟨user_may, rfl⟩, ⟨user_may, rfl⟩, _, _, _, _, rfl⟩
theorem witness_VectorIntegerLanes : ints.admits (opV 0x22 0 0 0 0 0 0)
    ∧ ∃ e x y t, vecArgs2 fmtInt .push (.vq 0) (.vq 1) 0 ints.opened = .ok ((e, x, y), t) :=
  ⟨⟨ints_may, rfl⟩, _, _, _, _, rfl⟩
theorem witness_VectorFloatAndFusedLanes_VectorFloatLanes : user.admits (opV 0x26 0 0 0 0 19 2)
    ∧ (∃ e x y t, vecArgs2 fmtFloat .push (.vq 0) (.v 15) 2 user.opened = .ok ((e, x, y), t))
    ∧ ∃ e x y z t, vecArgs3 .push (.vq 0) (.vq 1) 2 user.opened = .ok ((e, x, y, z), t) :=
  ⟨⟨user_may, rfl⟩, ⟨_, _, _, _, rfl⟩, _, _, _, _, _, rfl⟩
theorem witness_VectorComparesAndReductions_VectorCompareMasks : ints.admits (opV 0x29 1 0 1 0 0 0)
    ∧ (∃ e x y t, vecArgsCmp fmtInt 1 (.vq 0) (.bcast 3) 0 ints.opened = .ok ((e, x, y), t))
    ∧ ∃ e x t, vecArgsRed fmtInt .push (.vq 0) 3 ints.opened = .ok ((e, x), t) :=
  ⟨⟨ints_may, rfl⟩, ⟨_, _, _, _, rfl⟩, _, _, _, rfl⟩
theorem witness_BranchesCallsAndReturns : (∃ f, branchShape (.bz 0 (.q 0) 0x8000) = some f ∧ user.admits f.op
      ∧ ∃ x t, read1 f.cond user.opened = .ok (x, t) ∧ f.taken x = true)
    ∧ (∃ f, branchShape (.bnz 0 (.q 0) 2) = some f ∧ user.admits f.op
      ∧ ∃ x t, read1 f.cond user.opened = .ok (x, t) ∧ f.taken x = false)
    ∧ user.admits (opL 0x16 0 16 5) ∧ user.admits (opA 0x18 0 0 0 33 0) :=
  ⟨⟨_, rfl, ⟨user_may, rfl⟩, _, _, rfl, rfl⟩, ⟨_, rfl, ⟨user_may, rfl⟩, _, _, rfl, rfl⟩, ⟨user_may, rfl⟩, ⟨user_may, rfl⟩⟩
/-- `user` with loop levels. -/
def looping (l0 l1 : LoopLevel) : State := with' user fun sl => { sl with lc0 := l0, lc1 := l1 }
theorem witness_LoopResults : user.admits (opL 0x17 0 33 2)
    ∧ (∃ x t, read1 (.const 0) user.opened = .ok (x, t) ∧ x.toNat % 2 ^ 32 ≠ 0 ∧ (t.slot t.cur).lc0.count.toNat = 0)
    ∧ (∃ x t, read1 .z (user.setTile 0 { user.tile 0 with code := [0, 0, 0] }).opened = .ok (x, t) ∧ x.toNat % 2 ^ 32 = 0
      ∧ (movedPc (t.slot t.cur).pc 2).toNat < t.codeSize t.cur)
    ∧ (∃ x t, read1 (.const 0) (looping { count := 1, stop := 9 } {}).opened = .ok (x, t)
      ∧ (t.slot t.cur).lc0.count.toNat ≠ 0 ∧ (t.slot t.cur).lc0.stop ≠ (t.slot t.cur).pc
      ∧ (t.slot t.cur).lc1.count.toNat = 0)
    ∧ ∃ x t, read1 (.const 0) (looping { count := 1, stop := 0 } {}).opened = .ok (x, t)
      ∧ (t.slot t.cur).lc0.count.toNat ≠ 0 ∧ (t.slot t.cur).lc0.stop = (t.slot t.cur).pc :=
  ⟨⟨user_may, rfl⟩, ⟨_, _, rfl, by decide, rfl⟩, ⟨_, _, rfl, by decide, by decide⟩, ⟨_, _, rfl, by decide, by decide, rfl⟩,
    _, _, rfl, by decide, rfl⟩
theorem witness_SequenceAndLoopEnd : ∀ a ∈ [0, 1, 2], ∀ b ∈ [0, 1, 2],
    ((looping { count := BitVec.ofNat 32 a, stop := 0 } { count := BitVec.ofNat 32 b, stop := 0 }).slot (.tile 0 0)).lc0.count.toNat = a
    ∧ ((looping { count := BitVec.ofNat 32 a, stop := 0 } { count := BitVec.ofNat 32 b, stop := 0 }).slot (.tile 0 0)).lc1.count.toNat = b := by
  decide
/-- `user` with a thread in slot 1 that is no resident thread. -/
def second : State := { user.setSlot (.tile 0 1) { user.slot (.tile 0 0) with res := false } with cur := .tile 0 1 }
theorem second_may : second.mayIssue = true := by rfl
theorem witness_ThreadControlResults : user.admits (opA 0x18 5 0 0 0 0) ∧ user.admits (opA 0x18 2 0 0 0 0)
    ∧ user.opened.cur = .tile 0 0 ∧ second.admits (opA 0x18 3 0 0 0 0) ∧ (second.opened.slot second.opened.cur).res = false
    ∧ user.admits (opA 0x18 4 0 0 0 0) ∧ (user.opened.slot user.opened.cur).res = true
    ∧ user.opened.retireReady 0 0 = true ∧ second.opened.retireReady 0 0 = false :=
  ⟨⟨user_may, rfl⟩, ⟨user_may, rfl⟩, rfl, ⟨second_may, rfl⟩, rfl, ⟨user_may, rfl⟩, rfl, rfl, rfl⟩
/-- `user` with a word in n1. -/
def given (w : Word) : State := with' user fun sl => { sl with n := sl.n.set 1 w }
theorem witness_ScalarAccessesComplete : ∃ f, accessShape (.st 0 (.q 0) (.n 1) 3 0) = some f
    ∧ (given 0x020000000001FFF8).admits f.op
    ∧ ∃ p m t u b h, f.args (given 0x020000000001FFF8).opened = .ok ((p, m), t) ∧ f.rule t = .ok (anySpace, t)
      ∧ placeOf anySpace p (f.bytes p) (f.bytes p) t = .ok (.priv 0x1FFF8, t) ∧ inPhase t = .ok (false, t)
      ∧ accessHeld f (.priv 0x1FFF8) t = .ok ((), t) ∧ ownTurn m 0x1FFF8 t = .ok ((), u)
      ∧ (u.tile u.cur.site).perform m 0x1FFF8 = .ok b h :=
  ⟨_, rfl, ⟨rfl, rfl⟩, _, _, _, _, _, _, rfl, rfl, rfl, rfl, rfl, rfl, rfl⟩
theorem witness_ScalarAccessesComplete_remote : ∃ f, accessShape (.ld 0 .push (.n 1) 3 0) = some f
    ∧ (given 0x0100000000000008).admits f.op
    ∧ ∃ p m t u, f.args (given 0x0100000000000008).opened = .ok ((p, m), t)
      ∧ placeOf anySpace p 8 8 t = .ok (.vtile 0 8, t) ∧ accessHeld f (.vtile 0 8) t = .ok ((), t)
      ∧ remoteAccess m p (.vtile 0 0) (landingOf f.dst) f.wants t = .ok ((), u) :=
  ⟨_, rfl, ⟨rfl, rfl⟩, _, _, _, _, rfl, rfl, rfl, rfl⟩
theorem witness_ScalarAccessesComplete_core : ∃ f, accessShape (.ld 0 .push (.n 1) 3 0) = some f
    ∧ (with' chief fun sl => { sl with sn := sl.sn.set 1 0x0200000000000008 }).admits f.op
    ∧ ∃ p m t, f.args (with' chief fun sl => { sl with sn := sl.sn.set 1 0x0200000000000008 }).opened = .ok ((p, m), t)
      ∧ placeOf anySpace p 8 8 t = .ok (.coreLocal 8, t) :=
  ⟨_, rfl, ⟨chief_may, rfl⟩, _, _, _, rfl, rfl⟩
theorem witness_PlainAccessesAtTheBanks : (user.tile 0).spad.wf = true ∧ (user.tile 0).linesFull 131064 8 = true
    ∧ (user.tile 0).eccAt 131064 8 = none ∧ ({ user.tile 0 with fe := 0 } : Tile).linesFull 0 1 = false := by
  refine ⟨rfl, ?_, rfl, ?_⟩ <;> decide
theorem witness_WaitsAndFences_WaitsComplete : (given 0x0200000000000080).admits (opA 0x18 6 0 0 33 0)
    ∧ ∃ p t u, read1 (.n 1) (given 0x0200000000000080).opened = .ok (p, t)
      ∧ placeOf privateSpace p 1 1 t = .ok (.priv 128, t) ∧ accessGate false (.priv 128) t = .ok ((), t)
      ∧ awaitVregs t = .ok ((), u) ∧ (t.tile t.cur.site).fe.getLsbD 1 = true :=
  ⟨⟨rfl, rfl⟩, _, _, _, rfl, rfl, rfl, rfl, rfl⟩
theorem witness_WaitsAndFences_WaitsComplete_barrier : (given 0x0200000000000080).admits (opA 0x18 11 0 0 33 16)
    ∧ ∃ p ph t u b h, read2 (.n 1) .z (given 0x0200000000000080).opened = .ok ((p, ph), t)
      ∧ placeOf atomicSpace p 8 8 t = .ok (.priv 128, t) ∧ accessGate false (.priv 128) t = .ok ((), t)
      ∧ ownTurn (.load 8 false) 128 t = .ok ((), u) ∧ (u.tile u.cur.site).perform (.load 8 false) 128 = .ok b h :=
  ⟨⟨rfl, rfl⟩, _, _, _, _, _, _, rfl, rfl, rfl, rfl, rfl⟩
/-- `user` with other vector control registers. -/
def lanes (vt vt2 : Word) : State := with' user fun sl => { sl with vt, vt2 }
/-- Two I32 lanes and a pointer in n1. -/
def twoLanes (p : Word) : State := with' user fun sl => { sl with vt := 0x22, n := sl.n.set 1 p }

theorem witness_VectorSelectAndPermute : ints.admits (opV 0x2B 0 0 0 0 0 0) ∧ ints.admits (opV 0x2B 2 0 0 0 2 0)
    ∧ (∃ e x y t, vecArgs2 fmtRaw .push (.vq 0) (.vq 1) 0 ints.opened = .ok ((e, x, y), t))
    ∧ (∃ e x y t, vecArgsS fmtRaw .push (.vq 0) (.const 7) 0 ints.opened = .ok ((e, x, y), t))
    ∧ (∃ e x t, vecArgs1 fmtRaw .push (.vq 0) 0 ints.opened = .ok ((e, x), t))
    ∧ ∃ e x y t, extractArgs .push (.vq 0) (.q 2) 0 ints.opened = .ok ((e, x, y), t) :=
  ⟨⟨ints_may, rfl⟩, ⟨ints_may, rfl⟩, ⟨_, _, _, _, rfl⟩, ⟨_, _, _, _, rfl⟩, ⟨_, _, _, rfl⟩, _, _, _, _, rfl⟩
theorem witness_ConversionsScalesAndDotProducts_VectorConversions :
    (∃ c t, convArgs .push (.vq 0) 0 (fun sl => decide (sl.fmt2 ≤ 8 ∧ fmtWidth sl.fmt = fmtWidth sl.fmt2)) (fun _ => [])
        (fun _ => 1) (lanes 0x802 0x804).opened = .ok (c, t) ∧ c.sl.fmt ≠ c.sl.fmt2)
    ∧ (∃ c t, convArgs (.v 14) (.vq 0) 0
        (fun sl => decide (sl.fmt2 ≤ 8 ∧ (fmtWidth sl.fmt2 / fmtWidth sl.fmt = 2 ∨ fmtWidth sl.fmt2 / fmtWidth sl.fmt = 4))
          && groupFits (.v 14) (fmtWidth sl.fmt2 / fmtWidth sl.fmt))
        (fun sl => groupDst (.v 14) (fmtWidth sl.fmt2 / fmtWidth sl.fmt)) (fun sl => fmtWidth sl.fmt2 / fmtWidth sl.fmt)
        (lanes 0x801 0x802).opened = .ok (c, t))
    ∧ (∃ c t, groupArgs .push (.vq 0) 0 fmtAny
        (fun sl => decide (sl.fmt2 ≤ 8 ∧ (fmtWidth sl.fmt / fmtWidth sl.fmt2 = 2 ∨ fmtWidth sl.fmt / fmtWidth sl.fmt2 = 4)))
        (fun sl => knLegal sl.fmt sl.blk) (fun sl => narrowing sl.fmt sl.fmt2) (lanes 0x802 0x801).opened = .ok (c, t))
    ∧ ∃ c t, groupArgs .push (.vq 0) 0 fmtFloat (fun sl => decide (isKN sl.fmt2 = true ∧ fmtWidth sl.fmt2 ≤ fmtWidth sl.fmt
        ∧ (fmtWidth sl.fmt / fmtWidth sl.fmt2 ≠ 8 ∨ ∃ k, VSrc.vq 0 = .v k)))
        (fun sl => knLegal sl.fmt2 sl.blk2) (fun _ => true) (lanes 0x804 0x2080A).opened = .ok (c, t) :=
  ⟨⟨_, _, rfl, by decide⟩, ⟨_, _, rfl⟩, ⟨_, _, rfl⟩, _, _, rfl⟩
theorem witness_ConversionsScalesAndDotProducts_VectorScaleResults : user.admits (opV 0x31 2 0 0 0 0 0)
    ∧ (∃ sl x y k t, scaleArgs .push (.vq 0) (.const 7) 0 user.opened = .ok ((sl, x, y, k), t) ∧ isKN sl.fmt = false)
    ∧ ∃ sl x y k t, scaleArgs .push (.vq 0) (.const 7) 0 (lanes 0x2080A 0).opened = .ok ((sl, x, y, k), t)
      ∧ isKN sl.fmt = true :=
  ⟨⟨user_may, rfl⟩, ⟨_, _, _, _, _, rfl, rfl⟩, _, _, _, _, _, rfl, rfl⟩
theorem witness_ConversionsScalesAndDotProducts_VectorDotResults : user.admits (opV 0x31 3 0 0 0 1 0)
    ∧ ∃ sl x y k t, dotArgs .push (.vq 0) (.vq 1) 0 (lanes 0x800 0x800).opened = .ok ((sl, x, y, k), t) :=
  ⟨⟨user_may, rfl⟩, _, _, _, _, _, rfl⟩
theorem witness_MasksAndVectorMoves_MaskResults : ints.admits (opV 0x32 0 0 1 2 3 0) ∧ ints.admits (opV 0x33 1 0 0 1 0 0)
    ∧ (∃ e x y t, maskArgs 1 2 3 0 ints.opened = .ok ((e, x, y), t))
    ∧ (∃ e n t, msetnArg 1 (.n 1) 0 ints.opened = .ok ((e, n), t))
    ∧ (∃ e x t, maskArg .push 1 0 ints.opened = .ok ((e, x), t))
    ∧ ∃ e x t, iotaArg .push 1 0 ints.opened = .ok ((e, x), t) :=
  ⟨⟨ints_may, rfl⟩, ⟨ints_may, rfl⟩, ⟨_, _, _, _, rfl⟩, ⟨_, _, _, rfl⟩, ⟨_, _, _, rfl⟩, _, _, _, rfl⟩
theorem witness_MasksAndVectorMoves_VectorMoves : user.admits (opV 0x34 2 0 0 0 0 0) ∧ user.admits (opV 0x34 3 0 0 0 0 0)
    ∧ (∃ x t, moveArg .push (.vq 0) user.opened = .ok (x, t))
    ∧ (∃ x y t, setscArgs .push (.vq 0) (.vq 1) user.opened = .ok ((x, y), t))
    ∧ ∃ t u, checkFmt fmtAny user.opened = .ok ((), t) ∧ vectorUnit 1 t = .ok ((), u) :=
  ⟨⟨user_may, rfl⟩, ⟨user_may, rfl⟩, ⟨_, _, rfl⟩, ⟨_, _, _, rfl⟩, _, _, rfl, rfl⟩
theorem witness_VectorAccessesComplete_VectorLoadsComplete : ∃ f, vloadShape (.vld 0 .push (.n 1) .z) = some f
    ∧ (twoLanes 0x0200000000000100).admits f.op
    ∧ ∃ p m t u b h, f.args (twoLanes 0x0200000000000100).opened = .ok ((p, [(.priv 0, m)]), t)
      ∧ ownTurn m 0 t = .ok ((), u) ∧ (u.tile u.cur.site).perform m 0 = .ok b h := by
  refine ⟨_, rfl, ⟨rfl, rfl⟩, ?p, ?m, ?t, ?u, ?b, ?h, ?h1, ?h2, ?h3⟩
  case h1 => rfl
  case h2 => rfl
  case h3 => rfl
theorem witness_VectorAccessesComplete_VectorStoresComplete : ∃ f, vstoreShape (.vst 0 (.vq 0) (.n 1) .z) = some f
    ∧ (twoLanes 0x0200000000000100).admits f.op
    ∧ ∃ p m t u b h, f.args (twoLanes 0x0200000000000100).opened = .ok ((p, [(.priv 0, m)]), t)
      ∧ ownTurn m 0 t = .ok ((), u) ∧ (u.tile u.cur.site).perform m 0 = .ok b h := by
  refine ⟨_, rfl, ⟨rfl, rfl⟩, ?p, ?m, ?t, ?u, ?b, ?h, ?h1, ?h2, ?h3⟩
  case h1 => rfl
  case h2 => rfl
  case h3 => rfl
theorem witness_VectorAccessesComplete_VectorConvertingAccesses_load : (twoLanes 0x1200000000000100).admits (opA 0x35 2 0 0 33 16)
    ∧ ∃ p c t u b h, vldcArgs .push (.n 1) .z (twoLanes 0x1200000000000100).opened = .ok ((p, c, some (.priv 256)), t)
      ∧ ownTurn (.vecConvert c) 256 t = .ok ((), u) ∧ (u.tile u.cur.site).perform (.vecConvert c) 256 = .ok b h := by
  refine ⟨⟨rfl, rfl⟩, ?p, ?c, ?t, ?u, ?b, ?h, ?h1, ?h2, ?h3⟩
  case h1 => rfl
  case h2 => rfl
  case h3 => rfl
theorem witness_VectorAccessesComplete_VectorConvertingAccesses_store : (twoLanes 0x1200000000000100).admits (opA 0x35 3 0 0 33 16)
    ∧ ∃ p m fl t u b h, vstcArgs (.vq 0) (.n 1) .z (twoLanes 0x1200000000000100).opened = .ok ((p, [(.priv 0, m)], fl), t)
      ∧ ownTurn m 0 t = .ok ((), u) ∧ (u.tile u.cur.site).perform m 0 = .ok b h := by
  refine ⟨⟨rfl, rfl⟩, ?p, ?m, ?fl, ?t, ?u, ?b, ?h, ?h1, ?h2, ?h3⟩
  case h1 => rfl
  case h2 => rfl
  case h3 => rfl
theorem witness_ControlRegisters_ControlRegisterReads : user.admits (opI 0x19 0 0 0 0x001) ∧ user.opened.ctlOf 1 = some 0x20004
    ∧ user.admits (opI 0x19 0 0 0 0x1FF) ∧ user.opened.ctlOf 0x1FF = none ∧ user.admits (opI 0x19 0 0 0 0x200)
    ∧ chief.admits (opI 0x19 0 0 0 0x209) ∧ (∃ v, chief.opened.coreCtlGet chief.opened.cur 0x201 = some v)
    ∧ (user.opened.slot user.opened.cur).sys = false :=
  ⟨⟨user_may, rfl⟩, by decide, ⟨user_may, rfl⟩, rfl, ⟨user_may, rfl⟩, ⟨chief_may, rfl⟩, ⟨_, rfl⟩, rfl⟩
theorem witness_ControlRegisters_ControlRegisterWrites : user.admits (opI 0x1A 0 16 33 0x006) ∧ system.admits (opI 0x1A 0 16 33 0x210)
    ∧ (∃ v t o, read1 (.n 1) user.opened = .ok (v, t) ∧ t.cur.isCore = false ∧ t.ctlOf 6 = some o)
    ∧ ∃ v t o, read1 (.n 1) system.opened = .ok (v, t) ∧ t.cur.isCore = false ∧ t.ctlOf 0x210 = some o :=
  ⟨⟨user_may, rfl⟩, ⟨system_may, rfl⟩, ⟨_, _, _, rfl, rfl, rfl⟩, _, _, _, rfl, rfl, rfl⟩
theorem witness_WaitsAndFences_FenceResults : user.admits (opA 0x1B 0 0 0 0 4) ∧ user.admits (opA 0x1B 3 0 0 0 1)
    ∧ user.admits (opA 0x1B 2 0 0 0 5) := ⟨⟨user_may, rfl⟩, ⟨user_may, rfl⟩, ⟨user_may, rfl⟩⟩
/-- A load of slot 0 that has not returned. -/
def outstanding : Flight :=
  { id := 1, due := none, dst := .named 2, sys := false, val := 0, vec := 0, side := 0, parts := 1, flags := 0 }
theorem witness_WaitsAndFences_FencesHold :
    (∃ f ∈ ((with' user fun sl => { sl with flights := [outstanding], fenceAcq := 2 }).slot (.tile 0 0)).flights,
      f.due = none ∧ f.id < ((with' user fun sl => { sl with flights := [outstanding], fenceAcq := 2 }).slot (.tile 0 0)).fenceAcq)
    ∧ (user.slot (.tile 0 0)).fenceAcq = 0 :=
  ⟨⟨outstanding, List.Mem.head _, rfl, by decide⟩, rfl⟩
/-- A guarded launch in its surrogate stage, with a word in n1. -/
def guarded (stage : Stage) (w : Word) : State :=
  { (given w).setTile 0 { (given w).tile 0 with guard := { stage } } with
    launches := Table.put user.launches 0 { user.launch 0 with
      pkt := { (user.launch 0).pkt with guarded := true, guardbase := 1000, guardsize := 4 } } }
theorem witness_GuardedPhaseWrites : ∃ f, accessShape (.st 0 (.q 0) (.n 1) 3 0) = some f
    ∧ (guarded .surrogate 0x0200000000000100).admits f.op
    ∧ ∃ p m t, f.args (guarded .surrogate 0x0200000000000100).opened = .ok ((p, m), t) ∧ f.rule t = .ok (anySpace, t)
      ∧ placeOf anySpace p (f.bytes p) (f.bytes p) t = .ok (.priv 256, t) ∧ inPhase t = .ok (true, t)
      ∧ (t.tile t.cur.site).guard.inWindow 256 (f.bytes p) = false :=
  ⟨_, rfl, ⟨rfl, rfl⟩, _, _, _, rfl, rfl, rfl, rfl, rfl⟩
theorem witness_GuardedPhaseWrites_captured : ∃ f, accessShape (.st 0 (.q 0) (.n 1) 3 0) = some f
    ∧ (guarded .check 0x0100000000000100).admits f.op
    ∧ ∃ p m t, f.args (guarded .check 0x0100000000000100).opened = .ok ((p, m), t)
      ∧ placeOf anySpace p (f.bytes p) (f.bytes p) t = .ok (.vtile 0 256, t) ∧ inPhase t = .ok (true, t)
      ∧ f.wants = false ∧ (t.tile t.cur.site).guard.used + guardBytes (.st 0 (.q 0) (.n 1) 3 0) (f.bytes p)
        ≤ (t.launch (t.tile t.cur.site).name.1).pkt.guardsize * 128 :=
  ⟨_, rfl, ⟨rfl, rfl⟩, _, _, _, rfl, rfl, rfl, rfl, by decide⟩
/-- `user` with tile registers of one I32 element. -/
def matrices : State := user.setTile 0 { user.tile 0 with tcfg := Vector.replicate 8 530 }
theorem witness_MatrixCommands_MatrixCommandsComplete : ∃ c, matrixOf (.tzero 0 0) = some c ∧ matrices.admits c.op ∧
    let s1 := matrices.opened
    let s2 := s1.setSlot s1.cur { s1.slot s1.cur with mheld := some (.tzero 0 0) }
    (s1.tile 0).mfree ≤ s1.cycle ∧ ∃ t u n fl, s2.pickMatrix 0 = some (0, t) ∧ s2.followReady 0 0 = false
      ∧ (s2.setTile 0 t).admits c.op ∧ fenceGate true true (s2.setTile 0 t).opened = .ok ((), (s2.setTile 0 t).opened)
      ∧ matrixEffect c (read1 c.s) (s2.setTile 0 t).opened = .ok ((n, fl), u) := by
  refine ⟨_, rfl, ⟨rfl, rfl⟩, by decide, ?t, ?u, ?n, ?fl, ?h1, ?h2, ⟨?h3, ?h4⟩, ?h5, ?h6⟩
  case h1 => rfl
  case h2 => rfl
  case h3 => rfl
  case h4 => rfl
  case h5 => rfl
  case h6 => rfl
theorem witness_MatrixCommands_MatrixCommandsHeld :
    (matrices.setTile 0 { matrices.tile 0 with mfree := 1 }).opened.cycle
      < ((matrices.setTile 0 { matrices.tile 0 with mfree := 1 }).opened.tile 0).mfree := by decide
/-- `user` with one register of I32 and the others of I8. -/
def mixed : Tile := { user.tile 0 with tcfg := (Vector.replicate 8 528).set 0 530 }
theorem witness_MatrixElementResults : (mixed.cfg 0).valid = true ∧ (mixed.cfg 1).valid = true
    ∧ isKN (mixed.cfg 0).fmt = false ∧ (mixed.cfg 0).fmt = 2 ∧ (mixed.cfg 1).fmt = 0 ∧ (mixed.cfg 1).rows = (mixed.cfg 0).rows
    ∧ (mixed.cfg 1).cols = (mixed.cfg 0).cols ∧ user.cur.isCore = false := by decide
/-- `user` with words in n1 and n2. -/
def given2 (v w : Word) : State := with' user fun sl => { sl with n := (sl.n.set 1 v).set 2 w }
theorem witness_MessagesLaunchesAndCounters_SendsComplete : (given2 0x200200 0x0200000000000000).admits (opA 0x37 0 0 0 33 34)
    ∧ ∃ h ws t, sendArgs (.n 1) (.n 2) (given2 0x200200 0x0200000000000000).opened = .ok ((h, ws), t)
      ∧ sendFree t = .ok ((), t) :=
  ⟨⟨rfl, rfl⟩, _, _, _, rfl, rfl⟩
theorem witness_MessagesLaunchesAndCounters_SendsComplete_addressed :
    let s := with' (given2 0x8000200000 0x0100000000000000) fun sl => { sl with n := sl.n.set 3 0x0200000000000000 }
    s.admits (opA 0x37 3 0 35 33 34)
    ∧ ∃ h vt ws t, sendaArgs (.n 3) (.n 1) (.n 2) s.opened = .ok ((h, vt, ws), t) ∧ sendFree t = .ok ((), t) :=
  ⟨⟨rfl, rfl⟩, _, _, _, _, rfl, rfl⟩
theorem witness_MessagesLaunchesAndCounters_MessageRegisterResults : user.admits (opA 0x37 4 0 0 0 0) ∧ user.admits (opA 0x37 5 0 0 0 0) :=
  ⟨⟨user_may, rfl⟩, ⟨user_may, rfl⟩⟩
theorem witness_MessagesLaunchesAndCounters_LaunchAndCounterResults : (given 0x0200000000000000).admits (opA 0x37 6 0 0 33 0)
    ∧ (∃ bytes t, launchArg .push (.n 1) (given 0x0200000000000000).opened = .ok (bytes, t) ∧ inPhase t = .ok (false, t)
      ∧ releaseGate t = .ok ((), t))
    ∧ (given2 63 0x3E00000001).admits (opA 0x37 7 0 0 33 34)
    ∧ (∃ i v t, read2 (.n 1) (.n 2) (given2 63 0x3E00000001).opened = .ok ((i, v), t) ∧ i.toNat ≤ 63
      ∧ v.toNat / 2 ^ 32 % 64 ≠ 63 ∧ inPhase t = .ok (false, t) ∧ fenceGate true false t = .ok ((), t))
    ∧ ∃ i v t, read2 (.n 1) (.n 2) (given2 64 0).opened = .ok ((i, v), t) ∧ 63 < i.toNat :=
  ⟨⟨rfl, rfl⟩, ⟨_, _, rfl, rfl, rfl⟩, ⟨rfl, rfl⟩, ⟨_, _, _, rfl, by decide, by decide, rfl, rfl⟩, _, _, _, rfl, by decide⟩
theorem witness_RemoteRegisters_RegisterCapabilityResults : user.admits (opA 0x38 0 0 0 47 1)
    ∧ (∃ t, checkReg 47 user.opened = .ok ((), t))
    ∧ (∃ c v t, read2 (.n 1) (.n 2) user.opened = .ok ((c, v), t) ∧ checkCap c false t = .ok ((), t)
      ∧ sendFree t = .ok ((), t) ∧ releaseGate t = .ok ((), t))
    ∧ ∃ c v sd t, rputvArgs (.n 1) (.vq 0) (given 0x1000000000).opened = .ok ((c, v, sd), t) ∧ sendFree t = .ok ((), t) :=
  ⟨⟨user_may, rfl⟩, ⟨_, rfl⟩, ⟨_, _, _, rfl, rfl, rfl, rfl⟩, _, _, _, _, rfl, rfl⟩
theorem witness_RemoteRegisters_RegisterTakingResults : user.admits (opA 0x38 4 0 0 31 0)
    ∧ (∃ t u v, takeArgs 0 31 user.opened = .ok ((), t) ∧ awaitNamed 31 t = .ok ((), u) ∧ readNamed 31 u = .ok (v, u))
    ∧ (∃ t u x v, takeArgs 0 32 user.opened = .ok ((), t) ∧ awaitVSrc (.v 0) t = .ok ((), u)
      ∧ readVSrc (.v 0) u = .ok (v, x))
    ∧ ∃ t, takeArgs 0 31 (with' user fun sl => { sl with nfull := 0 }).opened = .ok ((), t)
      ∧ (t.slot t.cur).nfull.getLsbD 31 = false :=
  ⟨⟨user_may, rfl⟩, ⟨_, _, _, rfl, rfl, rfl⟩, ⟨_, _, _, _, rfl, rfl, rfl⟩, _, rfl, rfl⟩
/-- `user` with templates of 8 bytes from offset 0 to offset 128, and a word in n1. -/
def copies (w : Word) : State :=
  (given w).setTile 0 { (given w).tile 0 with templates := Vector.replicate 64 0x802000000000000800200000000000000#256 }
theorem witness_CopyJobs_CopyJobsStart : (copies 63).admits (opA 0x39 0 0 0 33 16)
    ∧ ∃ ti off t, read2 (.n 1) .z (copies 63).opened = .ok ((ti, off), t) ∧ ti.toNat ≤ 63 ∧
      let g := geometry (t.tile t.cur.site).templates[(Fin.ofNat 64 ti.toNat : Fin 64)] off
      checkJobEarly g false t = .ok ((), t) ∧ checkJobLate g t = .ok ((), t) ∧ inPhase t = .ok (false, t)
      ∧ (t.tile t.cur.site).jobs.length < 16 ∧ fenceGate true true t = .ok ((), t) :=
  ⟨⟨rfl, rfl⟩, _, _, _, rfl, by decide, rfl, rfl, rfl, by decide, rfl⟩
/-- `copies` with a job started. -/
def copying : State := (copies 1).setTile 0 (((copies 1).tile 0).startJob 0 0 (geometry ((copies 1).tile 0).templates[0] 0) false none)
theorem witness_CopyWaitsTemplatesAndStreams_CopyWaitResults :
    (∃ v t, read1 (.n 1) (copies 1).opened = .ok (v, t) ∧ (t.tile t.cur.site).lastTicket.toNat = 0)
    ∧ ∃ v t, read1 (.n 1) copying.opened = .ok (v, t) ∧ v.toNat % 2 ^ 32 = (t.tile t.cur.site).lastTicket.toNat
      ∧ (t.tile t.cur.site).jobs.length = 1 :=
  ⟨⟨_, _, rfl, rfl⟩, _, _, rfl, by decide, by decide⟩
theorem witness_CopyWaitsTemplatesAndStreams_TemplateAndStreamResults :
    let s := given2 63 0x0200000000000020
    s.admits (opA 0x39 5 0 0 33 34)
    ∧ (∃ i p t u b h, read2 (.n 1) (.n 2) s.opened = .ok ((i, p), t) ∧ i.toNat ≤ 63
      ∧ placeOf templateSpace p 32 8 t = .ok (.priv 32, t) ∧ accessGate false (.priv 32) t = .ok ((), t)
      ∧ ownTurn (.xtdef i.toNat) 32 t = .ok ((), u) ∧ (u.tile u.cur.site).perform (.xtdef i.toNat) 32 = .ok b h)
    ∧ (copies 63).admits (opA 0x39 2 0 3 33 16)
    ∧ (∃ i o t, read2 (.n 1) .z (copies 63).opened = .ok ((i, o), t) ∧
      let g := geometry (t.tile t.cur.site).templates[(Fin.ofNat 64 i.toNat : Fin 64)] o
      g.rowLen ≠ 0 ∧ g.reserved = 0 ∧ g.conv = false ∧ g.bar = none ∧ g.rowLen * g.rows % 8 = 0)
    ∧ user.admits (opA 0x39 2 0 8 0 0) :=
  ⟨⟨rfl, rfl⟩, ⟨_, _, _, _, _, _, rfl, by decide, rfl, rfl, rfl, rfl⟩, ⟨rfl, rfl⟩,
    ⟨_, _, _, rfl, by decide, by decide, by decide, by decide, by decide⟩, ⟨user_may, rfl⟩⟩
theorem witness_GuardedPhase_GuardedPhaseResults : (guarded .surrogate 0).admits (opA 0x3A 0 0 0 0 0)
    ∧ ((guarded .surrogate 0).opened.tile (guarded .surrogate 0).opened.cur.site).guard.stage = .surrogate
    ∧ (guarded .check 0).admits (opA 0x3A 1 0 0 0 0)
    ∧ ((guarded .check 0).opened.tile (guarded .check 0).opened.cur.site).guard.stage = .check
    ∧ residualReason ((guarded .check 0).tile 0).gresid ((guarded .check 0).launch 0).pkt.gtol = none
    ∧ residualReason 0x3F800000 0 = some 1 ∧ residualReason 0x7FC00000 0 = some 2 :=
  ⟨⟨rfl, rfl⟩, rfl, ⟨rfl, rfl⟩, rfl, by decide, by decide, by decide⟩
theorem witness_GuardedPhase_GuardQueryAndWindow : (guarded .check 0).admits (opA 0x3A 2 0 0 0 0)
    ∧ ((guarded .check 0).launch 0).pkt.guarded = true
    ∧ (∃ x y t, read2 .z (.const 7) user.opened = .ok ((x, y), t) ∧ (t.tile t.cur.site).guarded = false)
    ∧ ∃ x y t, read2 .z (.n 1) (guarded .check 0x1F400).opened = .ok ((x, y), t) ∧ (t.tile t.cur.site).guarded = true
      ∧ x.toNat % 128 = 0 ∧ y.toNat % 128 = 0 ∧ y.toNat ≠ 0 ∧ x.toNat + y.toNat ≤ 131072
      ∧ x.toNat + y.toNat ≤ (t.launch (t.tile t.cur.site).name.1).pkt.guardbase * 128 :=
  ⟨⟨rfl, rfl⟩, rfl, ⟨_, _, _, rfl, rfl⟩, _, _, _, rfl, rfl, by decide, by decide, by decide, by decide, by decide⟩
theorem witness_TrapsReturnsAndTrace_TrapAndTraceResults : user.admits (opA 0x3B 0 0 0 0 63) ∧ user.admits (opA 0x3B 1 0 0 0 0)
    ∧ user.admits (op16 0x3B 1 5) ∧ user.admits (opA 0x3B 2 0 0 0 0)
    ∧ (∀ f ∈ (user.opened.slot user.opened.cur).flights, f.due ≠ none)
    ∧ ∃ v t, read1 (.n 1) user.opened = .ok (v, t) ∧ t.cur = .tile 0 0 :=
  ⟨⟨user_may, rfl⟩, ⟨user_may, rfl⟩, ⟨user_may, rfl⟩, ⟨user_may, rfl⟩, by decide, _, _, rfl, rfl⟩
theorem witness_TrapsReturnsAndTrace_ReturnFromTrap : system.admits (opA 0x3C 0 0 0 0 0) ∧ system.admits (opA 0x3C 0 0 0 0 1)
    ∧ system.admits (opA 0x3C 0 0 0 0 2) ∧ chief.admits (opA 0x3C 0 0 0 0 0) ∧ chief.opened.cur.isCore = true
    ∧ system.opened.cur = .tile 0 0 ∧ ((system.opened.launch (system.opened.tile 0).name.1).handler 63).toNat = 0xFFFF
    ∧ ((system.setLaunch 0 { system.launch 0 with handlers := List.replicate 64 9 }).launch 0 |>.handler 63).toNat ≠ 0xFFFF :=
  ⟨⟨system_may, rfl⟩, ⟨system_may, rfl⟩, ⟨system_may, rfl⟩, ⟨chief_may, rfl⟩, rfl, rfl, by decide, by decide⟩
/-- `system` in its system routine at an index, on a cause. -/
def inRoutine (cause : BitVec 14) (pc : Half) : State := with' system fun sl => { sl with cause, pc }
theorem witness_TrapsReturnsAndTrace_RoutineResults :
    let entry (s : State) := s.setLaunch 0 { s.launch 0 with handlers := List.replicate 64 9 }
    let held := (inRoutine 14 0).setLaunch 0 { system.launch 0 with held := true }
    let told := (inRoutine 19 4).setTile 0 { (inRoutine 19 4).tile 0 with svq := [⟨stokerCode 0, 0, 5, 0, 0⟩] }
    (inRoutine 17 0).cur = .tile 0 0 ∧ (inRoutine 17 0).mayIssue = true ∧ held.mayIssue = true ∧ (held.launch 0).held = true
    ∧ (held.slot held.cur).cause.toNat % 256 = 14 ∧ (held.launch 0).blockReserved = false
    ∧ told.mayIssue = true ∧ (told.opened.takeMessage.map fun x => x.1.type) = some 5
    ∧ (inRoutine 19 4).opened.takeMessage.isNone = true ∧ (system.opened.slot system.opened.cur).pend.getLsbD 2 = false
    ∧ ((with' (inRoutine 19 4) fun sl => { sl with pend := 4 }).opened.slot (.tile 0 0)).pend.getLsbD 2 = true
    ∧ (inRoutine 14 0).mayIssue = true ∧ ((inRoutine 14 0).launch 0).held = false ∧ ((inRoutine 14 0).launch 0).handler 63 = 0xFFFF
    ∧ (entry (inRoutine 16 0)).mayIssue = true ∧ ((entry (inRoutine 16 0)).launch 0).handler 63 = 9 := by
  refine ⟨rfl, rfl, rfl, rfl, ?_, rfl, rfl, rfl, rfl, ?_, ?_, rfl, rfl, ?_, rfl, ?_⟩ <;> decide
/-- `system` with the record of a thread at the place of slot 0's record. -/
def recorded : State :=
  let l := system.launch 0
  system.setTile 0 ((system.tile 0).saveRecord (l.pkt.recordAt 0) 0)
theorem witness_SaveAndRestoreResults : system.admits (opA 0x3C 1 0 0 0 0) ∧ system.admits (opA 0x3C 2 0 0 0 0)
    ∧ system.admits (opA 0x3C 1 0 0 0 1) ∧ (system.launch 0).blockReserved = false
    ∧ ((recorded.tile 0).recThread ((recorded.launch 0).pkt.recordAt 0)) = true
    ∧ ((system.tile 0).recThread ((system.launch 0).pkt.recordAt 0)) = false :=
  ⟨⟨system_may, rfl⟩, ⟨system_may, rfl⟩, ⟨system_may, rfl⟩, rfl, by decide, by decide⟩
theorem witness_SaveAndRestoreResults_block :
    let s := recorded.setLaunch 0 { recorded.launch 0 with code := [0xEC00, 0x0002] }
    s.admits (opA 0x3C 1 0 0 0 1) ∧ s.admits (opA 0x3C 2 0 0 0 1) ∧ (s.launch 0).blockReserved = true
      ∧ (s.tile 0).matrixBusy s.cycle = false ∧ (s.tile 0).recThread ((s.launch 0).pkt.recordAt 0) = true := by
  refine ⟨⟨rfl, rfl⟩, ⟨rfl, rfl⟩, ?_, ?_, ?_⟩ <;> decide
/-- The Stoker with words in n1 and n2 of its bank. -/
def stokes (v w : Word) : State := with' stoker fun sl => { sl with sn := (sl.sn.set 1 v).set 2 w }
theorem witness_StokerInstructions_StokerFabricResults : (stokes 15 0x0200000000000000).admits (opA 0x3C 3 0 0 33 34)
    ∧ (∃ c p map t, read2 (.n 1) (.n 2) (stokes 15 0x0200000000000000).opened = .ok ((c, p), t) ∧ c.toNat ≤ 15
      ∧ mapArg p t = .ok (map, t) ∧ ∀ r ∈ t.selected map, r.2.inFlight c.toNat = 0)
    ∧ (∃ x c site t, read2 (.n 1) (.n 2) (stokes 0 15).opened = .ok ((x, c), t) ∧ siteArg x t = .ok (site, t)
      ∧ c.toNat ≤ 15)
    ∧ ∃ key p map t, read2 (.n 1) (.n 2) (stokes 0x1000000 0x0200000000000000).opened = .ok ((key, p), t)
      ∧ mapArg p t = .ok (map, t) ∧ key.toNat % 2 ^ 24 % 2 ^ (key.toNat / 2 ^ 24 % 32) = 0
      ∧ t.sentUnder ((t.selected map).map (·.1)) 0 0 1 = false :=
  ⟨⟨rfl, rfl⟩, ⟨_, _, _, _, rfl, by decide, rfl, by decide⟩, ⟨_, _, _, _, rfl, rfl, by decide⟩, _, _, _, _, rfl, rfl, by decide,
    by decide⟩
/-- The Collier with words in n1 and n2 of its bank. -/
def chiefs (v w : Word) : State := with' chief fun sl => { sl with sn := (sl.sn.set 1 v).set 2 w }
theorem witness_CollierAndSlotControl_CollierControlResults : (chiefs 511 1).admits (opA 0x3C 6 0 0 33 34)
    ∧ (∃ q x t, read2 (.n 1) (.n 2) (chiefs 511 1).opened = .ok ((q, x), t) ∧ q.toNat ≤ 511)
    ∧ (∃ q x t, read2 (.n 1) (.n 2) (chiefs 512 0).opened = .ok ((q, x), t) ∧ 511 < q.toNat)
    ∧ chief.admits (opA 0x3C 7 0 0 0 1) ∧ chief.admits (opA 0x3C 7 0 0 0 2)
    ∧ ∃ id t, reserve (landingOf .push) 1 chief.opened = .ok (id, t) :=
  ⟨⟨rfl, rfl⟩, ⟨_, _, _, rfl, by decide⟩, ⟨_, _, _, rfl, by decide⟩, ⟨chief_may, rfl⟩, ⟨chief_may, rfl⟩, _, _, rfl⟩
theorem witness_SupervisorAndInterruptInstructions_SupervisorMessageResults : chief.admits (opA 0x3C 8 0 0 0 0) ∧ chief.opened.idleEnds = false
    ∧ ({ chief with collier := { chief.collier with iedge := 4, iena := 4 } } : State).opened.idleEnds = true
    ∧ (chiefs 0x1040000 7).admits (opA 0x3C 9 0 0 33 34)
    ∧ (∃ h v t u, read2 (.n 1) (.n 2) (chiefs 0x1040000 7).opened = .ok ((h, v), t) ∧ h.toNat / 2 ^ 28 % 2 ^ 20 = 0
      ∧ destOk t.cur (h.toNat % 2 ^ 20) = true ∧ svsendGate (h.toNat / 2 ^ 20 % 256) t = .ok ((), t) ∧ t.sendFlue t.cur h v = some u)
    ∧ ∃ p t, read1 (.n 1) (chiefs 0x0200000000000000 0).opened = .ok (p, t)
      ∧ placeOf privateSpace p 16 8 t = .ok (.coreLocal 0, t) ∧ t.takeMessage = none :=
  ⟨⟨chief_may, rfl⟩, rfl, rfl, ⟨rfl, rfl⟩, ⟨_, _, _, _, rfl, by decide, by decide, rfl, rfl⟩, _, _, rfl, rfl, rfl⟩
theorem witness_SupervisorAndInterruptInstructions_InterruptAndPeerRegisterResults : chief.admits (opA 0x3C 11 0 0 0 0)
    ∧ (∀ k, k < 7 → (chief.opened.ipend chief.opened.cur &&& (chief.opened.core chief.opened.cur).iena).getLsbD k = false)
    ∧ (let s : State := { chief with collier := { chief.collier with iedge := 0x24, iena := 0x7F } }
      (s.ipend .collier &&& s.collier.iena).getLsbD 2 = true)
    ∧ system.admits (opA 0x3C 12 0 0 33 0) ∧ system.admits (opA 0x3C 13 0 0 33 34)
    ∧ ((system.tile 0).slots[(0 : Fin 8)]).sys = true ∧ ((system.tile 0).slots[(1 : Fin 8)]).thread = false
    ∧ (∃ w, ((system.tile 0).slots[(0 : Fin 8)]).ctlGet 0 0 = some w)
    ∧ ∃ x, ((system.tile 0).slots[(0 : Fin 8)]).ctlSet 0 5 = some x :=
  ⟨⟨chief_may, rfl⟩, by decide, by decide, ⟨system_may, rfl⟩, ⟨system_may, rfl⟩, rfl, rfl, ⟨_, rfl⟩, _, rfl⟩
theorem witness_StokerInstructions_StokerTileResults : (stokes 0 0x1000).admits (opA 0x3C 14 0 0 33 34)
    ∧ (∃ x t, swapArgs (.n 1) (.n 2) (stokes 0 0x1000).opened = .ok (x, t))
    ∧ (∃ x y site new t, read2 (.n 1) (.n 2) (stokes 0 1).opened = .ok ((x, y), t) ∧ siteArg x t = .ok (site, t)
      ∧ y.toNat ≠ 2 ^ 64 - 1 ∧ siteArg y t = .ok (new, t))
    ∧ (∃ x y site t, read2 (.n 1) (.const 7) (stokes 0 1).opened = .ok ((x, y), t) ∧ siteArg x t = .ok (site, t)
      ∧ y.toNat = 2 ^ 64 - 1)
    ∧ ∃ m d t, read2 (.n 1) (.n 2) (stokes 0xFFFF 16).opened = .ok ((m, d), t) ∧ t.cur = .stoker 0 ∧ 1 ≤ d.toNat
      ∧ d.toNat ≤ 16 :=
  ⟨⟨rfl, rfl⟩, ⟨_, _, rfl⟩, ⟨_, _, _, _, _, rfl, rfl, by decide, rfl⟩, ⟨_, _, _, _, rfl, rfl, by decide⟩, _, _, _, rfl, rfl,
    by decide, by decide⟩
theorem witness_CollierAndSlotControl_SlotKillResults : system.admits (opA 0x3D 3 0 0 33 0)
    ∧ (∃ v t, read1 (.const 0) system.opened = .ok (v, t) ∧ t.cur = .tile 0 0 ∧ v.toNat % 8 = 1)
    ∧ ∃ v t, read1 .z system.opened = .ok (v, t) ∧ t.cur = .tile 0 0 ∧ v.toNat % 8 = 0
      ∧ (t.tile 0).slots[(0 : Fin 8)].thread = true ∧ (t.tile 0).slots[(0 : Fin 8)].res = true ∧ (t.tile 0).stop = false :=
  ⟨⟨system_may, rfl⟩, ⟨_, _, rfl, rfl, by decide⟩, _, _, rfl, rfl, by decide, rfl, rfl, rfl⟩

/-! ### Events meet the hypotheses of the statements -/

/-- A packet at site 0, from slot 0 of the vtile that stands there and to it. -/
def parcel (b : Body) : Packet :=
  { src := ⟨0, 0, 0⟩, id := 1, site := 0, tc := 4, colour := 0, dst := .vtile 0 0, hop := .site 0, body := b, ts := 0, seq := 0,
    pc := 0, cyc := 0, walked := false, counts := true, sys := false }
/-- The stand-in launch with one packet in the fabric. -/
def posted (p : Packet) : State := { user with fabric := [p] }
/-- A message of one word with PRIO 0 and class 0. -/
def letter : Packet := parcel (.message 0x1000000 [5])
/-- `s` with its interface in a mode and its name another. -/
def mode (s : State) (ni : NiMode) : State := s.setTile 0 { s.tile 0 with ni }
/-- `user` with a handler of class 0 at index 4. -/
def handling : State :=
  user.setLaunch 0 { user.launch 0 with
    handlers := (List.replicate 64 0xFFFF).set 0 4, pkt := { (user.launch 0).pkt with handlers := true } }

theorem arrives_letter : (posted letter).arrives 0 letter 0 0 0 := ⟨rfl, rfl, rfl, rfl, rfl, rfl, rfl⟩
theorem witness_PacketsArrive_there : (arrivalRows[1]).2 letter = true ∧ (posted letter).arrives 0 letter 0 0 0
    ∧ ((posted letter).tile 0).ni = .direct ∧ (∃ t, (posted letter).accept 0 letter false = some t)
    ∧ (mode (posted letter) .sealed).arrives 0 letter 0 0 0
    ∧ (∃ t, (mode (posted letter) .sealed).accept 0 letter false = some t)
    ∧ ((mode (posted letter) .spill).tile 0).ni = .spill := by
  refine ⟨rfl, arrives_letter, rfl, ?_, ⟨rfl, rfl, rfl, rfl, rfl, rfl, rfl⟩, ?_, rfl⟩ <;> exact ⟨_, rfl⟩
theorem witness_PacketsArrive_elsewhere :
    (({ posted letter with launches := [] } : State).isLive 0 = false)
    ∧ (posted { letter with hop := .gone }).hasTurn 0 { letter with hop := .gone } = true
    ∧ (let s := (posted letter).setTile 0 { (posted letter).tile 0 with fwd := some 1 }
      (s.tile 0).occ = some (0, 0) ∧ (s.tile 0).fwd = some 1 ∧ s.isLive 0 = true)
    ∧ ((posted { letter with hop := .site 1 }).tile 1).occ ≠ some (0, 0)
    ∧ (posted { letter with hop := .site 1 }).vtRetired 0 0 = false
    ∧ (let s := posted { letter with hop := .site 1 }
      (s.setLaunch 0 { s.launch 0 with gangs := [{ (s.launch 0).gang 0 with retiredVts := [0] }] }).vtRetired 0 0 = true) := by
  refine ⟨rfl, rfl, ⟨rfl, rfl, rfl⟩, ?_, rfl, ?_⟩ <;> decide
theorem witness_PacketsAccepted_MessagesAccepted_dropped : (posted letter).arrivesDirect 0 letter 0 0 0
    ∧ hdrKind 0x1000000 ≠ 1 ∧ ((posted letter).launch 0).pkt.handlers = false := ⟨⟨arrives_letter, rfl⟩, by decide, rfl⟩
theorem witness_PacketsAccepted_MessagesAccepted_queued :
    let s : State := { handling with fabric := [letter] }
    s.arrivesDirect 0 letter 0 0 0 ∧ (s.launch 0).pkt.handlers = true ∧ (s.launch 0).handler (hdrClass 0x1000000) ≠ 0xFFFF
      ∧ (s.launch 0).replaying = false ∧ (s.tile 0).queueRoom (Fin.ofNat 4 (hdrPrio 0x1000000)) 1 := by
  refine ⟨⟨⟨rfl, rfl, rfl, rfl, rfl, rfl, rfl⟩, rfl⟩, rfl, ?_, rfl, ?_, ?_⟩ <;> decide
/-- A counted message for CTR 2 with a DEC. -/
def counted (dec : Nat) : Packet := parcel (.message (BitVec.ofNat 64 (2 ^ 38 + 2 * 2 ^ 32 + dec * 2 ^ 24)) [])
/-- A state with COUNT 3 at CTR 2 in which it arrives. -/
def counting (dec : Nat) : State :=
  let s : State := { handling with fabric := [counted dec] }
  s.setTile 0 { s.tile 0 with counters := (s.tile 0).counters.set 2 { count := 3, cls := 0 } }
theorem witness_PacketsAccepted_MessagesAccepted_counted :
    (∀ d ∈ [0, 2, 3, 4], (counting d).arrivesDirect 0 (counted d) 0 0 0)
    ∧ hdrKind (BitVec.ofNat 64 (2 ^ 38 + 2 * 2 ^ 32 + 2 * 2 ^ 24)) = 1
    ∧ ((counting 2).launch 0).replaying = false ∧ (((counting 2).tile 0).counters[(2 : Fin 64)]).count.toNat = 3
    ∧ (((counting 4).tile 0).slots[(0 : Fin 8)]).pend.getLsbD 4 = false
    ∧ ∃ u, (counting 3).acceptDirect 0 (counted 3) (BitVec.ofNat 64 (2 ^ 38 + 2 * 2 ^ 32 + 3 * 2 ^ 24)) [] 0 false = some u := by
  refine ⟨?_, by decide, rfl, rfl, rfl, _, rfl⟩
  simp only [List.forall_mem_cons]
  exact ⟨⟨⟨rfl, rfl, rfl, rfl, rfl, rfl, rfl⟩, rfl⟩, ⟨⟨rfl, rfl, rfl, rfl, rfl, rfl, rfl⟩, rfl⟩,
    ⟨⟨rfl, rfl, rfl, rfl, rfl, rfl, rfl⟩, rfl⟩, ⟨⟨rfl, rfl, rfl, rfl, rfl, rfl, rfl⟩, rfl⟩, by simp⟩
/-- A register write to n1 of slot 0 of vtile 0, with a mode and a generation. -/
def writing (q : Nat) (gen : Nat) : Packet :=
  parcel (.regWrite (BitVec.ofNat 64 (q * 2 ^ 18 + gen * 2 ^ 19 + 2 ^ 31)) 7 0 0 false)
theorem arrives_writing (q gen : Nat) : (posted (writing q gen)).arrivesDirect 0 (writing q gen) 0 0 0 :=
  ⟨⟨rfl, rfl, rfl, rfl, rfl, rfl, rfl⟩, rfl⟩
/-- A request of another vtile: a read of the word at 64. -/
def asking : Packet := parcel (.request (.load 8 false) 0x0100000000000040 true)
theorem witness_PacketsAccepted_WritesRepliesAndRequestsAccepted : (posted (writing 0 1)).arrivesDirect 0 (writing 0 1) 0 0 0
    ∧ (posted (parcel (.reply 7 0 0))).arrivesDirect 0 (parcel (.reply 7 0 0)) 0 0 0
    ∧ (posted (parcel (.errorReply .bounds 7 0))).arrivesDirect 0 (parcel (.errorReply .bounds 7 0)) 0 0 0
    ∧ (posted asking).arrivesDirect 0 asking 0 0 0
    ∧ ((posted asking).tile 0).heldReqs.any (fun h => h.src == asking.src) = false
    ∧ ((posted asking).tile 0).heldReqs.length < 16
    ∧ (∃ u, (posted asking).performAt 0 asking (.load 8 false) 0x0100000000000040 true = some u)
    ∧ ({ (posted asking).tile 0 with heldReqs := [asking] } : Tile).heldReqs.any (fun h => h.src == asking.src) = true :=
  ⟨arrives_writing 0 1, ⟨⟨rfl, rfl, rfl, rfl, rfl, rfl, rfl⟩, rfl⟩, ⟨⟨rfl, rfl, rfl, rfl, rfl, rfl, rfl⟩, rfl⟩,
    ⟨⟨rfl, rfl, rfl, rfl, rfl, rfl, rfl⟩, rfl⟩, rfl, by decide, ⟨_, rfl⟩, by decide⟩
theorem witness_PacketsAccepted_WritesRepliesAndRequestsAccepted_write :
    let s := posted (writing 0 1)
    let c := BitVec.ofNat 64 (2 ^ 19 + 2 ^ 31)
    let sl := (s.tile 0).slots[(0 : Fin 8)]
    sl.thread = true ∧ sl.recorded = false ∧ (s.launch 0).replaying = false ∧ sl.gen = c.extractLsb' 19 12
      ∧ (Fin.ofNat 8 (bitsOf c.toNat 39 37) : Fin 8) = 0 ∧ capReg c = 1
      ∧ (s.tile 0).occupied (s.launch 0) 0 1 = true
      ∧ ({ s.tile 0 with slots := (s.tile 0).slots.set 0 { sl with nfull := 0 } } : Tile).occupied (s.launch 0) 0 1 = false
      ∧ (BitVec.ofNat 64 (2 ^ 18 + 2 ^ 19 + 2 ^ 31)).getLsbD 18 = true ∧ (s.tile 0).hold.length < 4
      ∧ (BitVec.ofNat 64 (2 * 2 ^ 19 + 2 ^ 31)).extractLsb' 19 12 ≠ sl.gen := by
  refine ⟨rfl, rfl, rfl, ?_, ?_, ?_, ?_, ?_, ?_, ?_, ?_⟩ <;> decide
/-- A queue-mode write that waits for n1 of slot 0. -/
def waiting (s : State) : State :=
  with' (s.setTile 0 { s.tile 0 with hold := [{ slot := 0, reg := 1, gen := 1, val := 7, vec := 0, side := 0, src := ⟨0, 0, 0⟩, release := false }] })
    fun sl => { sl with nfull := 0 }
/-- A read of HBM that the rim performs, at a page that its translation unit knows. -/
def rimRead : Packet := { parcel (.request (.load 8 false) 0x40 true) with dst := .rim }
/-- The rim's translation unit with page 0 of ASID 0 at frame 0x100000. -/
def paged (s : State) : State := { s with rxu := [((0, 0), (0x100000, true, false, 0))] }
/-- A packet in an interface that waits for its name. -/
def nameless : State :=
  user.setTile 0 { user.tile 0 with outq := [{ letter with hop := .unresolved }], colourCtr := Vector.replicate 16 0 }
/-- A packet in an interface that may go. -/
def leaving : State := user.setTile 0 { user.tile 0 with outq := [letter] }
/-- A packet whose target is absent. -/
def absent : Packet := { letter with hop := .ring 0 0 }
theorem witness_NetworkSteps_held : (((waiting user).tile 0).hold[0]?.isSome = true)
    ∧ ((waiting user).tile 0).occupied ((waiting user).launch ((waiting user).tile 0).name.1) 0 1 = false
    ∧ (let s := user.setTile 0 { user.tile 0 with heldReqs := [asking] }
      (s.tile 0).heldReqs[0]? = some asking
        ∧ ∃ u, s.performAt 0 asking (.load 8 false) 0x0100000000000040 true = some u)
    ∧ (posted rimRead).hasTurn 0 rimRead = true ∧ (posted rimRead).isLive rimRead.src.idx = true
    ∧ (∃ u r, (paged (posted rimRead)).performRim rimRead (.load 8 false) 0x40 = some (u, .ok r))
    ∧ ∃ u c, (posted rimRead).performRim rimRead (.load 8 false) 0x40 = some (u, .error c) := by
  refine ⟨rfl, ?_, ⟨rfl, _, rfl⟩, rfl, rfl, ⟨_, _, rfl⟩, _, _, rfl⟩
  decide
theorem witness_NetworkSteps_moves :
    (∃ p, ((nameless.tile 0).outq ++ nameless.fabric).find? (fun p => p.waitsFor 0 0 0) = some p)
    ∧ (∃ p k, (leaving.tile 0).outq.zipIdx.find? (fun x => leaving.mayInject (leaving.tile 0) x.2 x.1) = some (p, k))
    ∧ (∃ u, (posted absent).park 0 0 absent none = some u) ∧ (posted absent).hasTurn 0 absent = true
    ∧ (let s := mode user .delivering
      (s.tile 0).occ = some (0, 0) ∧ (s.tile 0).ni = .delivering
        ∧ (s.ring 0 0).entries.zipIdx.find? (fun e => e.1.1.dst == .vtile 0 0) = none)
    ∧ ({ user with acks := [(0, 0, 0)] } : State).acks[0]? = some (0, 0, 0) :=
  ⟨⟨_, rfl⟩, ⟨_, _, rfl⟩, ⟨_, rfl⟩, rfl, ⟨rfl, rfl, rfl⟩, rfl⟩
theorem witness_NetworkSteps_parked :
    let s := (mode user .delivering).storeRing 0 0 { ((mode user .delivering).ring 0 0) with entries := [(letter, 0)] }
    (∃ e i, (s.ring 0 0).entries.zipIdx.find? (fun e => e.1.1.dst == .vtile 0 0) = some (e, i)
      ∧ ∃ u, s.accept 0 e.1 true = some u) := ⟨_, _, rfl, _, rfl⟩
/-- An activation's message at the head of input queue 2. -/
def note : Msg :=
  { hdr := 0x1000000, words := [5], srcVt := 0, srcSlot := 0, tc := 4, kind := 0, ts := 0, cls := 0, off := 0, seq := 0,
    accepted := 0, transit := 0, parked := false }
/-- `handling` with a message in input queue 2 and cycle 5000. -/
def queueing : State :=
  { handling.setTile 0 { handling.tile 0 with iqs := (handling.tile 0).iqs.set 2 { msgs := [note] } } with cycle := 5000 }
/-- `user` with a pending debug cause. -/
def pending : State := with' user fun sl => { sl with pend := 0x08 }
/-- A resident vtile whose thread 0 has executed DONEF. -/
def finished : State := with' user fun sl => { sl with wait := .donef }
/-- A thread that waits in BARWAIT. -/
def standing : State := with' (user.setTile 0 { user.tile 0 with code := [0xB000, 0x000B] }) fun sl => { sl with wait := .barwait }
theorem witness_TileSteps_queue : (queueing.tile 0).iqs[(2 : Fin 4)].aged = none
    ∧ (queueing.tile 0).iqs[(2 : Fin 4)].msgs ≠ [] ∧ (queueing.tile 0).iqs[(2 : Fin 4)].since + 4096 ≤ queueing.cycle
    ∧ queueing.mayDispatch 0 = true ∧ (queueing.launch (queueing.tile 0).name.1).replaying = false
    ∧ (queueing.tile 0).pick queueing.cycle = some 2
    ∧ (∃ k, (List.finRange 8).find? (queueing.tile 0).activationFree = some k)
    ∧ (queueing.tile 0).iqs[(2 : Fin 4)].msgs = note :: [] := by
  refine ⟨rfl, ?_, ?_, rfl, rfl, rfl, ⟨_, rfl⟩, rfl⟩ <;> decide
/-- A tile whose vtile may start. -/
def opened0 : State := user.setTile 0 { user.tile 0 with fresh := true, pdone := true }
theorem witness_TileSteps_threads :
    ((opened0.tile 0).fresh = true ∧ (opened0.tile 0).pdone = true ∧ (opened0.tile 0).occ.isSome = true)
    ∧ pending.pendingAt (.tile 0 0) = true
    ∧ (finished.tile 0).slots[(0 : Fin 8)].thread = true ∧ (finished.tile 0).slots[(0 : Fin 8)].sys = false
    ∧ (finished.tile 0).slots[(0 : Fin 8)].wait = .donef ∧ (finished.tile 0).stop = false ∧ finished.halted = false
    ∧ finished.retireReady 0 0 = true
    ∧ ((with' user fun sl => { sl with yieldAt := some (0, 0) }).tile 0).slots[(0 : Fin 8)].yieldAt = some (0, 0)
    ∧ (user.withResult 3 0 (.n 1) 7).slot user.cur ≠ user.slot user.cur
    ∧ ((user.withResult 3 0 (.n 1) 7).slot user.cur).flights.filterMap (·.due) = 3 :: [] := by
  refine ⟨⟨rfl, rfl, rfl⟩, rfl, rfl, rfl, rfl, rfl, rfl, rfl, rfl, ?_, rfl⟩
  intro h
  have := congrArg (fun x : Slot => x.flights.length) h
  exact absurd this (by decide)
theorem witness_TileSteps_barwait : (standing.tile 0).slots[(0 : Fin 8)].wait = .barwait
    ∧ standing.pendingAt (.tile 0 0) = false
    ∧ ∃ stl d a b, standing.barwaitAt (.tile 0 0) = some (stl, d, a, b) := by
  refine ⟨rfl, rfl, 0, Dst.ofCode 0, .q 0, .q 0, ?_⟩
  decide
/-- A thread that holds TZERO. -/
def zeroing : State := with' matrices fun sl => { sl with mheld := some (.tzero 0 0) }
theorem witness_TileSteps_matrix : zeroing.halted = false ∧ (zeroing.tile 0).mfree ≤ zeroing.cycle
    ∧ ∃ t c u, zeroing.pickMatrix 0 = some (0, t) ∧ zeroing.followReady 0 0 = false
      ∧ (t.slots[(0 : Fin 8)].mheld).bind matrixOf = some c
      ∧ issue c.op (matrixBody c) { zeroing.setTile 0 t with cur := .tile 0 0 } = .next u := by
  refine ⟨rfl, by decide, ?t, ?c, ?u, ?h1, ?h2, ?h3, ?h4⟩
  case h1 => rfl
  case h2 => rfl
  case h3 => rfl
  case h4 => rfl
/-- A job of 8 bytes from offset 0 to offset 128. -/
def job : CopyJob :=
  { ticket := 1, slot := 0, digest := false, src := 0x0200000000000000, dst := 0x0200000000000080, rowLen := 8, rows := 1,
    sstride := 8, dstride := 8, conv := false, bar := none, moved := 0, marked := [], failed := false, follow := .none,
    followWord := 0, followS := 0, colour := 0, bits := 0, since := 0, issued := 0 }
/-- The same after its last byte. -/
def jobEnd : CopyJob := { job with moved := 8 }
/-- A state with one job. -/
def working (j : CopyJob) : State := user.setTile 0 { user.tile 0 with jobs := [j] }
/-- A job from a page of HBM without a translation. -/
def badJob : CopyJob := { job with src := 0x0000000000000000 }
/-- A stream of two scalar elements in the scratchpad, one of them asked for. -/
def stream : StreamBinding :=
  { src := 0x0200000000000000, rowLen := 16, rows := 1, sstride := 0, wide := false, next := 0, landed := [], asked := 1,
    failed := false }
/-- `user` with it bound. -/
def streamer : State := user.setTile 0 { user.tile 0 with streams := (user.tile 0).streams.set 0 (some stream) }
theorem witness_CopyEngineSteps_jobs :
    (∃ b, ((working job).tile 0).findJob 1 = some (job, b)) ∧ job.written = false ∧ (working job).halted = false
    ∧ (∃ u, (working job).copyPiece 0 job [] = .ok u ())
    ∧ (∃ u bits, (working badJob).copyPiece 0 badJob [] = .fails u bits) ∧ badJob.written = false
    ∧ jobEnd.written = true ∧ jobEnd.failed = false ∧ { jobEnd with follow := .waiting }.written = true
    ∧ jobEnd.follow = .none ∧ jobEnd.bar = none
    ∧ ∃ t r, (user.tile 0).perform .barArrive 64 = .ok t r := by
  refine ⟨⟨_, rfl⟩, by decide, rfl, ⟨_, rfl⟩, ⟨_, _, rfl⟩, by decide, by decide, rfl, by decide, rfl, rfl, _, _, rfl⟩
/-- A job from the host aperture, whose host part has bound no window. -/
def portJob : CopyJob := { job with src := 0x0300000000000000 }
theorem witness_CopyEngineSteps_streams :
    (streamer.tile 0).streams[(0 : Fin 4)] = some stream ∧ stream.failed = false ∧ stream.asked < stream.count ∧ stream.asked < stream.next + 4
      ∧ stream.next + stream.landed.length < stream.asked ∧ ptrSpace portJob.src = 3
      ∧ ∃ u v, streamer.streamData 0 stream = .ok u v := by
  refine ⟨rfl, rfl, by decide, by decide, by decide, by decide, _, _, rfl⟩
/-- Host memory with a packet's bytes at an address: pairs of an offset and a byte. -/
def placed (base : Nat) (bs : List (Nat × Byte)) : Memory := bs.foldl (fun m b => Memory.write m (base + b.1) 1 b.2.toNat) []
/-- A queue of a host, ring of 16 entries at 0x10000, mapped, with one unread entry. -/
def queue5 : Queue :=
  { base := 0x10000, log := 4, headptr := 0x8000, fn := 0, bucket := 0, part := 0, asid := 0, head := 0, tail := 1,
    state := .active, slot := some 1, mappedAt := 0, olog := {}, pair := {} }
/-- A module with that queue, a partition of region 0, a page for the code and a packet at the head. -/
def offering (bs : List (Nat × Byte)) : State :=
  { State.reset with
    queues := Table.put [] 5 queue5, partitions := Table.put [] 0 { regions := 1 }
    host := placed 0x10000 bs, rxu := [((0, 0), (0x100000, true, false, 0))]
    hbm := placed 0x100000 [(0, 0x4E), (1, 0x5A), (2, 0x59), (3, 0x4B), (4, 1), (8, 1)] }
/-- A launch packet of one vtile with one resident slot. -/
def plainPacket : List (Nat × Byte) := [(0, 1), (0x1D, 1)]
theorem witness_QueuesAndPeriods_QueueSteps_doorbell : Table.get? (offering []).queues 5 = some queue5
    ∧ queue5.unread ≤ (2 % 2 ^ 17 + 2 ^ 17 - queue5.head) % 2 ^ 17 ∧ (2 % 2 ^ 17 + 2 ^ 17 - queue5.head) % 2 ^ 17 ≤ 2 ^ queue5.log
    ∧ 2 ^ queue5.log < (17 % 2 ^ 17 + 2 ^ 17 - queue5.head) % 2 ^ 17 ∧ Table.get? (offering []).queues 6 = none := by
  refine ⟨rfl, ?_, ?_, ?_, rfl⟩ <;> decide
theorem witness_QueuesAndPeriods_QueueSteps_kernel :
    (∃ v, (offering plainPacket).offers 5 queue5 v ∧ (readPacket v).kind ≠ 2
      ∧ (offering plainPacket).kernelReason 5 queue5 (readPacket v) false 64 128 = none
      ∧ ∃ i, (offering plainPacket).readImageAt queue5.asid (readPacket v).code = some i)
    ∧ (offering plainPacket).freeIndex 65535
    ∧ (∃ v r, (offering []).offers 5 queue5 v ∧ (readPacket v).kind ≠ 2
      ∧ (offering []).kernelReason 5 queue5 (readPacket v) false 64 128 = some r)
    ∧ ∃ v, (offering [(0, 2)]).offers 5 queue5 v ∧ (readPacket v).kind = 2 := by
  refine ⟨⟨_, ⟨rfl, rfl, rfl⟩, ?_, ?_, ?_⟩, ⟨by decide, rfl⟩, ⟨_, 10, ⟨rfl, rfl, rfl⟩, ?_, ?_⟩, _, ⟨rfl, rfl, rfl⟩, ?_⟩
  · decide +kernel
  · decide +kernel
  · exact ⟨_, rfl⟩
  · decide +kernel
  · decide +kernel
  · decide +kernel
/-- `offering` with a started launch of queue 5 at index 0 and a child copy of it. -/
def bearing : State :=
  { (offering plainPacket).setLaunch 0 { Launch.standIn with queue := 5 } with
    children := [{ parent := 0, bytes := natToBytes 128 (1 + 2 ^ 11 + 2 ^ 232) }] }
theorem witness_QueuesAndPeriods_QueueSteps_child : (∃ c, bearing.children[0]? = some c ∧ c.parent = 0
      ∧ bearing.kernelReason 5 queue5 (readPacket (bytesToNat c.bytes)) true 64 128 = none)
    ∧ bearing.freeIndex 1 ∧ (∃ l, Table.get? bearing.launches 0 = some l ∧ l.killed = none)
    ∧ Table.get? bearing.queues 5 = some queue5 := by
  refine ⟨⟨_, rfl, rfl, ?_⟩, ⟨by decide, rfl⟩, ⟨_, rfl, rfl⟩, rfl⟩
  decide +kernel
/-- The stand-in launch with its gang retired and its tile empty. -/
def ended : State :=
  { user with tiles := [], launches := Table.put [] 0 { Launch.standIn with gangs := [{ state := .retired, retiredVts := [0] }] } }
theorem witness_QueuesAndPeriods_QueueSteps_completion : ended.completeReady 0 = true
    ∧ (ended.setLaunch 0 { ended.launch 0 with killed := some (4, 0) }).killReady 0 = true
    ∧ (let s := { offering [(0, 2)] with launches := Table.put [] 0 { Launch.standIn with
          queue := 5, started := none, gangs := [], pkt := { kind := 2 } } }
      s.mayStart 0 = true)
    ∧ user.completeReady 0 = false := by
  refine ⟨?_, ?_, ?_, ?_⟩ <;> decide +kernel
/-- `user` with a watchdog that covers its launch and has run out. -/
def guarded0 : State := { user with watchdogs := Table.put [] 1 { deadline := some 0, covers := some 0 } }
theorem witness_QueuesAndPeriods_QueueSteps_watchdog : (Table.getD guarded0.watchdogs 1 {}).deadline = some 0
    ∧ (Table.getD guarded0.watchdogs 1 {}).covers = some 0 ∧ guarded0.halted = false ∧ 0 ≤ guarded0.tb.toNat
    ∧ guarded0.completeReady 0 = false := by
  refine ⟨rfl, rfl, rfl, by decide, ?_⟩
  decide +kernel
/-- A module after bring-up, much later. -/
def later : State := { offering [] with boot := 7, cycle := 100000000 }
/-- A pending error. -/
def trouble : PendingError := { type := 2, status := 2, reason := 10, tag := 0, info := 0, count := 0, orTypes := 0, order := 0, hwq := 1, tick := 0 }
theorem witness_QueuesAndPeriods_PeriodicSteps : later.halted = false ∧ 1000 * (later.refills + 1) ≤ later.tb.toNat ∧ 7 ≤ later.boot
    ∧ 1000000 * (later.passes + 1) ≤ later.tb.toNat
    ∧ (let s : State := { later with pendings := [(5, trouble)], evring := { on := true, log := 6 } }
      s.ringFull = false ∧ s.pendings = [] ++ (5, trouble) :: [])
    ∧ (let s := later.setLink 3 { later.link 3 with owedByCollier := 1, owedByStoker := 1 }
      (s.link 3).owedByCollier ≠ 0 ∧ (s.link 3).owedSinceCollier + 2000 ≤ s.tb.toNat ∧ (s.link 3).owedByStoker ≠ 0
        ∧ (s.link 3).owedSinceStoker + 2000 ≤ s.tb.toNat) := by
  refine ⟨?_, ?_, ?_, ?_, ⟨?_, ?_⟩, ?_, ?_, ?_, ?_⟩ <;> decide +kernel
/-- Launches of queue 5 at PRIO 1, in a partition of region 0, with its first gang in a state. -/
def inQueue (started : Option Nat) (gangs : List Gang) : Launch :=
  { Launch.standIn with queue := 5, started, gangs, pkt := { Launch.standIn.pkt with prio := 1 } }
/-- A module with one launch. -/
def launched (started : Option Nat) (gangs : List Gang) : State :=
  { offering [] with launches := [(0, inQueue started gangs)] }
theorem witness_PlacementSteps_start :
    (∃ l, (launched none [{}]).head 0 = some (0, l)) ∧ ((launched none [{}]).launch 0).part = 0
    ∧ (launched none [{}]).headTurn 0 ((launched none [{}]).launch 0) = true
    ∧ ((launched none [{}]).placementOf 0 0).isSome = true := by
  refine ⟨⟨_, rfl⟩, rfl, ?_, ?_⟩ <;> decide +kernel
theorem witness_PlacementSteps_gang :
    (launched (some 0) [{}]).row5 0 0 = true ∧ (launched (some 0) [{}]).first5 0 0 = true
    ∧ (launched (some 0) [{}]).noSummons 0 = true ∧ (launched (some 0) [{}]).head 0 = none
    ∧ (launched (some 0) [{}]).returning 0 = [] ∧ ((launched (some 0) [{}]).placementOf 0 0).isSome = true := by
  refine ⟨?_, ?_, ?_, ?_, ?_, ?_⟩ <;> decide +kernel
/-- One resident launch on site 0, one that waits with no free tile in its partition and a better PRIO. -/
def crowded : State :=
  { launched (some 0) [{ state := .resident, sites := [(0, 0)] }] with
    partitions := Table.put [] 0 { regions := 0, summons := [(1, 0)] }
    launches := [(0, inQueue (some 0) [{ state := .resident, sites := [(0, 0)] }]),
      (1, { inQueue none [{}] with order := 1, pkt := { Launch.standIn.pkt with prio := 0 } })] }
theorem witness_PlacementSteps_evict : crowded.halted = false ∧ (∃ l, crowded.head 0 = some (1, l) ∧ l.pkt.prio = 0)
    ∧ crowded.evicting 0 = false ∧ crowded.placementOf 1 0 = none
    ∧ crowded.victim 0 4096 (fun x _ => Nat.blt 0 x.pkt.prio) = some (0, 0) ∧ crowded.imageRoom 0 0 4096 = true
    ∧ (Table.getD crowded.partitions 0 {}).summons = (1, 0) :: [] ∧ crowded.isLive 1 = true
    ∧ ((crowded.launch 1).gang 0).state = .unplaced
    ∧ crowded.victim (crowded.launch 1).part 4096 (fun x g => Nat.blt (crowded.launch 1).pkt.prio x.pkt.prio
        || (x.pkt.prio == (crowded.launch 1).pkt.prio && !x.pkt.keepalive && crowded.sliceOver g)) = some (0, 0) := by
  refine ⟨rfl, ⟨_, rfl, rfl⟩, ?_, ?_, ?_, ?_, ?_, ?_, ?_, ?_⟩ <;> decide +kernel
/-- A gang that an eviction for pre-emption made absent. -/
def away : State := launched (some 0) [{ state := .absent, preempted := some 7 }]
theorem witness_PlacementSteps_return : (1, 7, 0, 0) ∈ away.returning 0
    ∧ (∀ y ∈ away.returning 0, 7 ≤ y.2.1) ∧ away.heads 0 = [] ∧ away.noSummons 0 = true ∧ (away.placementOf 0 0).isSome = true
    ∧ (∀ y ∈ away.returning 0, y.2.2 = (0, 0) → y = (1, 7, 0, 0))
    ∧ ((user.launch 0).gang 0).state = .resident ∧ user.sliceOver ((user.launch 0).gang 0) = true := by
  refine ⟨?_, ?_, ?_, ?_, ?_, ?_, ?_, ?_⟩ <;> decide +kernel
/-- A state with an admin command at the head of queue 0. -/
def commanded (op : Nat) : State :=
  { State.reset with
    queues := Table.put [] 0 { queue5 with slot := some 0 }
    host := placed 0x10000 [(0, 0x10), (1, BitVec.ofNat 8 op)] }
theorem witness_AdminCommands : ∀ op ∈ List.range' 1 15, ∃ t v, (commanded op).commands op t v := by
  have h : ∀ op ∈ List.range' 1 15,
      packetBits (Memory.read (commanded op).host 0x10000 128) 0 7 0 = 0x10
      ∧ adminBad (Memory.read (commanded op).host 0x10000 128) = false
      ∧ adminOp (Memory.read (commanded op).host 0x10000 128) = op := by decide +kernel
  intro op hop
  obtain ⟨h1, h2, h3⟩ := h op hop
  exact ⟨_, _, { queue5 with slot := some 0 }, ⟨rfl, rfl, rfl⟩, h1, h2, h3, rfl⟩
/-- `user` with one message on the Flue or the command links. -/
def mailed (s : State) (src dst type : Nat) (payload : Word) : State :=
  { s with flue := [{ src, dst, type, tag := 0, payload }] }
theorem receives_mailed (s : State) (src dst type : Nat) (payload : Word) (h : dst < 0x40000 ↔ toTile type = true) :
    ∃ t, (mailed s src dst type payload).receives 0 type { src, dst, type, tag := 0, payload } t :=
  ⟨_, rfl, rfl, h, by simp, rfl⟩
/-- FAULTSTOP is three messages. -/
def stopping : State :=
  { user with flue := [{ src := 0, dst := stokerCode 0, type := 3, tag := 0, payload := 11 },
    { src := 0, dst := stokerCode 0, type := 3, tag := 0, payload := 0 },
    { src := 0, dst := stokerCode 0, type := 3, tag := 0, payload := 4 }] }
theorem witness_StopAndKillMessages_tile :
    (∃ t, (mailed user (stokerCode 0) 0 0x01 0).receives 0 0x01 ⟨stokerCode 0, 0, 0x01, 0, 0⟩ t
      ∧ ((t.tile 0).occ.map (·.1)) = some 0)
    ∧ (∃ t, (mailed user (stokerCode 0) 1 0x01 0).receives 0 0x01 ⟨stokerCode 0, 1, 0x01, 0, 0⟩ t
      ∧ ((t.tile 1).occ.map (·.1)) ≠ some 0)
    ∧ (∃ t, (mailed user (stokerCode 0) 0 0x05 0).receives 0 0x05 ⟨stokerCode 0, 0, 0x05, 0, 0⟩ t ∧ (t.tile 0).svq.length < 8)
    ∧ (∃ t, (mailed user (stokerCode 0) 0 0x06 0).receives 0 0x06 ⟨stokerCode 0, 0, 0x06, 0, 0⟩ t
      ∧ ∀ j : Fin 8, ¬((t.tile 0).slots[j].thread = true ∧ (t.tile 0).slots[j].wait = .dead))
    ∧ (∃ t tv pc, stopping.receives 0 0x03 ⟨0, stokerCode 0, 3, 0, 11⟩ t
      ∧ (t.flue.filter fun x => x.type == 0x03 && x.src == 0 && x.dst == stokerCode 0) = [tv, pc]
      ∧ (t.tile 0).occ = some (0, 0)) :=
  ⟨⟨_, ⟨rfl, rfl, by decide, by simp, rfl⟩, rfl⟩, ⟨_, ⟨rfl, rfl, by decide, by simp, rfl⟩, by decide⟩, ⟨_, ⟨rfl, rfl, by decide, by simp, rfl⟩, by decide⟩,
    ⟨_, ⟨rfl, rfl, by decide, by simp, rfl⟩, by decide⟩, _, _, _, ⟨rfl, rfl, by decide, by simp, rfl⟩, rfl, rfl⟩
/-- A tile whose vtile QUIESCE stops. -/
def quiet : State := user.setTile 0 { user.tile 0 with quiesce := true }
/-- A tile that every thread has left as killed. -/
def killedTile : State :=
  user.setTile 0 { user.tile 0 with killSent := true, savedMask := 1 }
theorem witness_StopAndKillMessages_stoker :
    (quiet.tile 0).quiesce = true
    ∧ (∀ j : Fin 8, (quiet.tile 0).slots[j].thread = false ∨ (quiet.tile 0).slots[j].res = true)
    ∧ (∃ t, (mailed user (stokerCode 0) collierCode 0x44 0).receives 0 0x44 ⟨stokerCode 0, collierCode, 0x44, 0, 0⟩ t
      ∧ (Table.get? t.launches 0).isSome = true)
    ∧ (let s := mailed user collierCode (stokerCode 0) 0x41 0
      ∃ x ∈ (s.rowsOf 0).filter fun x => (x.2.occ.map (·.1)) == some 0, x.2.killSent = false)
    ∧ (let s := mailed killedTile collierCode (stokerCode 0) 0x41 0
      (∀ x ∈ (s.rowsOf 0).filter fun x => (x.2.occ.map (·.1)) == some 0, x.2.killSent = true ∧ x.2.killed = true)
        ∧ s.sentUnder ((s.rowsOf 0).map (·.1)) 0 0 24 = false)
    ∧ (∃ t l, (mailed user (stokerCode 0) collierCode 0x42 0).receives 0 0x42 ⟨stokerCode 0, collierCode, 0x42, 0, 0⟩ t
      ∧ Table.get? t.launches 0 = some l) := by
  refine ⟨rfl, by decide, ⟨_, ⟨rfl, rfl, by decide, by simp, rfl⟩, rfl⟩, ?_, ⟨?_, ?_⟩, _, _, ⟨rfl, rfl, by decide, by simp, rfl⟩, rfl⟩ <;> decide +kernel
/-- `user` with its gang changed. -/
def ganged (g : Gang) : State := user.setLaunch 0 { user.launch 0 with gangs := [g] }
/-- A gang at a step, on site 0, with region 0 awaited or not. -/
def step' (state : GangState) (phase : Nat) (awaiting : List Nat) : Gang := { state, phase, awaiting, sites := [(0, 0)] }
/-- The same with a message from region 0 to the Collier. -/
def toC (g : Gang) (type : Nat) (payload : Word) : State := mailed (ganged g) (stokerCode 0) collierCode type payload
/-- The same with a message from the Collier to region 0. -/
def toS (g : Gang) (type : Nat) (payload : Word) : State := mailed (ganged g) collierCode (stokerCode 0) type payload
/-- The same with the tile of site 0 stopped. -/
def stopped (s : State) : State := s.setTile 0 { s.tile 0 with stop := true }
theorem witness_EvictionMessages_summon :
    (∃ t, (toC { state := .absent } 0x60 0).receives 0 0x60 ⟨stokerCode 0, collierCode, 0x60, 0, 0⟩ t
      ∧ t.isLive 0 = true ∧ ((t.launch 0).gang 0).state = .absent
      ∧ (0, 0) ∉ (Table.getD t.partitions (t.launch 0).part {}).summons)
    ∧ (∃ t, (toC (step' .saving 1 []) 0x60 0).receives 0 0x60 ⟨stokerCode 0, collierCode, 0x60, 0, 0⟩ t
      ∧ t.isLive 0 = true ∧ ((t.launch 0).gang 0).state = .saving)
    ∧ (∃ t, (toC (step' .resident 0 []) 0x60 0).receives 0 0x60 ⟨stokerCode 0, collierCode, 0x60, 0, 0⟩ t
      ∧ t.isLive 0 = true ∧ ((t.launch 0).gang 0).state = .resident) :=
  ⟨⟨_, ⟨rfl, rfl, by decide, by simp, rfl⟩, rfl, rfl, by decide⟩, ⟨_, ⟨rfl, rfl, by decide, by simp, rfl⟩, rfl, rfl⟩, _, ⟨rfl, rfl, by decide, by simp, rfl⟩, rfl,
    rfl⟩
theorem witness_EvictionMessages_steps :
    (∃ t, (mailed (ganged (step' .saving 1 [0])) 0 (stokerCode 0) 0x02 0).receives 0 0x02 ⟨0, stokerCode 0, 0x02, 0, 0⟩ t
      ∧ (t.tile 0).occ = some (0, 0) ∧ ((t.launch 0).gang ((t.launch 0).gangOf 0)).state = .saving)
    ∧ (∃ t, (toC (step' .saving 1 [0]) 0x62 0).receives 0 0x62 ⟨stokerCode 0, collierCode, 0x62, 0, 0⟩ t
      ∧ t.gangIn 0 0 1 = true ∧ (((t.answered 0 0 0).launch 0).gang 0).awaiting = [])
    ∧ (∃ t, (toC (step' .saving 1 [0, 1]) 0x62 0).receives 0 0x62 ⟨stokerCode 0, collierCode, 0x62, 0, 0⟩ t
      ∧ t.gangIn 0 0 1 = true ∧ (((t.answered 0 0 0).launch 0).gang 0).awaiting ≠ [])
    ∧ (let s := toS (step' .saving 2 [0]) 0x63 0
      s.sentUnder ((s.rowsOf 0).map (·.1)) 0 0 0 = false)
    ∧ (∃ t, (toC (step' .saving 2 [0]) 0x64 0).receives 0 0x64 ⟨stokerCode 0, collierCode, 0x64, 0, 0⟩ t ∧ t.isLive 0 = true
      ∧ (((t.answered 0 0 0).launch 0).gang 0).awaiting = [] ∧ (((t.answered 0 0 0).launch 0).gang 0).phase = 2
      ∧ (((t.answered 0 0 0).launch 0).gang 0).state = .saving ∧ (((t.answered 0 0 0).launch 0).gang 0).regions ≠ [])
    ∧ (∃ t, (toC (step' .loading 5 [0]) 0x64 0).receives 0 0x64 ⟨stokerCode 0, collierCode, 0x64, 0, 0⟩ t ∧ t.isLive 0 = true
      ∧ (((t.answered 0 0 0).launch 0).gang 0).awaiting = [] ∧ (((t.answered 0 0 0).launch 0).gang 0).phase = 5
      ∧ (((t.answered 0 0 0).launch 0).gang 0).state = .loading)
    ∧ (let s := stopped (toS (step' .flushing 3 [0]) 0x65 0)
      s.gangIn 0 0 3 = true ∧ ∀ x ∈ ((s.launch 0).gang 0).inRegion 0, (s.tile x.2).drained = true ∧ (s.tile x.2).quiescent s.cycle = true)
    ∧ ∃ t, (toC (step' .flushing 3 [0]) 0x66 0).receives 0 0x66 ⟨stokerCode 0, collierCode, 0x66, 0, 0⟩ t
      ∧ t.gangIn 0 0 3 = true := by
  refine ⟨⟨_, ⟨rfl, rfl, by decide, by simp, rfl⟩, rfl, rfl⟩, ⟨_, ⟨rfl, rfl, by decide, by simp, rfl⟩, rfl, rfl⟩,
    ⟨_, ⟨rfl, rfl, by decide, by simp, rfl⟩, rfl, by decide⟩, ?_, ⟨_, ⟨rfl, rfl, by decide, by simp, rfl⟩, rfl, rfl, rfl, rfl, by decide⟩,
    ⟨_, ⟨rfl, rfl, by decide, by simp, rfl⟩, rfl, rfl, rfl, rfl⟩, ⟨?_, ?_⟩, _, ⟨rfl, rfl, by decide, by simp, rfl⟩, rfl⟩ <;> decide +kernel
/-- A migration of vtile 0 from site 0 to site 1. -/
def moving (phase : Nat) : State := { user with moves := [{ idx := 0, vt := 0, old := 0, new := 1, phase }] }
/-- A tile whose every expected slot has reported. -/
def reporting (s : State) (site : Nat) : State := s.setTile site { s.tile site with packMask := some 0, savedMask := 0 }
theorem witness_SwapInMessages_load :
    ((toS (step' .loading 4 [0]) 0x67 0).gangIn 0 0 4 = true
      ∧ ∀ x ∈ (((toS (step' .loading 4 [0]) 0x67 0).launch 0).gang 0).inRegion 0,
        (toS (step' .loading 4 [0]) 0x67 0).gatedAt x.2 = false)
    ∧ (∃ t, (mailed (ganged (step' .loading 4 [0])) 0 (stokerCode 0) 0x08 0).receives 0 0x08 ⟨0, stokerCode 0, 0x08, 0, 0⟩ t
      ∧ (t.setTile 0 { t.tile 0 with savedMask := 1 }).gangAt 0 = some (0, 0))
    ∧ (∃ t, (toC (step' .loading 4 [0]) 0x68 0).receives 0 0x68 ⟨stokerCode 0, collierCode, 0x68, 0, 0⟩ t
      ∧ t.gangIn 0 0 4 = true ∧ (((t.answered 0 0 0).launch 0).gang 0).awaiting = [])
    ∧ (∃ t, (toC (step' .loading 4 [0, 1]) 0x68 0).receives 0 0x68 ⟨stokerCode 0, collierCode, 0x68, 0, 0⟩ t
      ∧ t.gangIn 0 0 4 = true ∧ (((t.answered 0 0 0).launch 0).gang 0).awaiting ≠ [])
    ∧ (∃ t, (toS (step' .loading 6 [0]) 0x69 0).receives 0 0x69 ⟨collierCode, stokerCode 0, 0x69, 0, 0⟩ t ∧ t.gangIn 0 0 6 = true)
    ∧ (∃ t, (toC (step' .loading 6 [0]) 0x6A 0).receives 0 0x6A ⟨stokerCode 0, collierCode, 0x6A, 0, 0⟩ t
      ∧ t.gangIn 0 0 6 = true ∧ (((t.answered 0 0 0).launch 0).gang 0).awaiting = []
      ∧ (((t.answered 0 0 0).launch 0).gang 0).retiredVts.length ≠ (((t.answered 0 0 0).launch 0).gangSize 0)) := by
  refine ⟨⟨?_, ?_⟩, ⟨_, ⟨rfl, rfl, by decide, by simp, rfl⟩, rfl⟩, ⟨_, ⟨rfl, rfl, by decide, by simp, rfl⟩, rfl, rfl⟩,
    ⟨_, ⟨rfl, rfl, by decide, by simp, rfl⟩, rfl, by decide⟩, ⟨_, ⟨rfl, rfl, by decide, by simp, rfl⟩, rfl⟩, _, ⟨rfl, rfl, by decide, by simp, rfl⟩, rfl, rfl,
    by decide⟩ <;> decide +kernel
/-- The tile of a gang that waits for PDONE. -/
def opening : State :=
  let s := ganged (step' .loading 6 [0])
  s.setTile 0 { s.tile 0 with opening := true }
theorem witness_SwapInMessages_open :
    (∃ t, (mailed opening 0 (stokerCode 0) 0x71 0).receives 0 0x71 ⟨0, stokerCode 0, 0x71, 0, 0⟩ t ∧ (t.tile 0).opening = true
        ∧ t.moves.find? (fun x => x.new == 0) = none ∧ t.gangAt 0 = some (0, 0))
    ∧ (∃ x, (moving 2).moves.find? (fun x => x.idx == 0 && x.vt == 0) = some x ∧ (moving 2).moves.find? (fun x => x.new == 1) = some x) :=
  ⟨⟨_, ⟨rfl, rfl, by decide, by simp, rfl⟩, rfl, rfl, rfl⟩, _, rfl, rfl⟩
theorem witness_SwapInMessages_migrate :
    (user.moves.find? (fun x => x.idx == 0 && x.vt == 0) = none ∧ ((user.launch 0).gang 0).sites.find? (fun x => x.1 == 0) = some (0, 0)
      ∧ (user.launch 0).gangOf 0 = 0 ∧ ((user.launch 0).gang 0).state = .resident ∧ ((user.launch 0).gang 0).phase = 0 ∧ regionOf 0 = regionOfCode (stokerCode 0)
        ∧ regionOf 1 = regionOfCode (stokerCode 0) ∧ user.isFree 1 = true)
    ∧ (∃ x, (moving 0).moves.find? (fun x => x.idx == 0 && x.vt == 0) = some x ∧ x.phase = 0)
    ∧ ((stopped (reporting (moving 0) 0)).tile 0).reported = true ∧ ((stopped (reporting (moving 0) 0)).tile 0).drained = true
    ∧ ((stopped (reporting (moving 0) 0)).tile 0).quiescent 0 = true ∧ ((reporting (moving 1) 1).tile 1).reported = true
    ∧ (∃ t, (mailed user (stokerCode 0) collierCode 0x6C 0).receives 0 0x6C ⟨stokerCode 0, collierCode, 0x6C, 0, 0⟩ t
      ∧ t.isLive 0 = true) := by
  refine ⟨⟨?_, ?_, ?_, ?_, ?_, ?_, ?_, ?_⟩, ⟨_, rfl, rfl⟩, ?_, ?_, ?_, ?_, _, ⟨rfl, rfl, by decide, by simp, rfl⟩, rfl⟩ <;> decide +kernel
/-- Region 3 about to cross WARN. -/
def warm : State := State.reset.setTherm 3 { State.reset.therm 3 with temp := 0x54F, valid := true }
/-- A gang to be placed in a gated sub-region. -/
def gated : State :=
  { ganged (step' .loading 4 [0]) with stokers := Table.put user.stokers 0 { user.stoker 0 with sgate := 1 } }
theorem witness_WaferTimersAndInterrupts_WaferSteps : State.reset.boot = 0 ∧ State.reset.bootFailed = false
    ∧ (gated.placingIn 0 0 = true ∧ (gated.stoker 0).sgate.getLsbD 0 = true)
    ∧ (State.reset.stoker 0).stretch.getLsbD 0 = false ∧ (State.reset.link 0).toStoker ≠ 0
    ∧ 1 ≤ (16 : Word).toNat % 32 ∧ (16 : Word).toNat % 32 ≤ 16
    ∧ (warm.therm 3).temp.toNat < warm.snsWarn.toNat ∧ warm.snsWarn.toNat ≤ (0x550 : BitVec 12).toNat
    ∧ warm.alert.getLsbD 3 = false ∧ State.reset.rxuBusy = false
    ∧ ({ user with haltDriven := true } : State).haltDriven = true := by
  refine ⟨rfl, rfl, ⟨?_, ?_⟩, ?_, ?_, ?_, ?_, ?_, ?_, ?_, ?_, rfl⟩ <;> decide +kernel
/-- The Collier with its timer armed and source 4 pending and enabled. -/
def alarmed : State :=
  { chief with collier := { chief.collier with timerArmed := true, running := true, ie := true, iedge := 0x14, iena := 0x10 } }
theorem witness_WaferTimersAndInterrupts_TimerAndInterruptSteps :
    (alarmed.collier.timerArmed = true ∧ alarmed.collier.timercmp.toNat ≤ alarmed.tb.toNat)
    ∧ (Agent.collier.isCore = true ∧ (alarmed.core .collier).running = true ∧ (alarmed.core .collier).ie = true
      ∧ alarmed.ipend .collier &&& (alarmed.core .collier).iena ≠ 0) := by
  refine ⟨⟨?_, ?_⟩, ?_, ?_, ?_, ?_⟩ <;> decide +kernel
/-- The session of partition 0. -/
def session : State := { user with speig := { session := some 0 } }
/-- A pair of queues. -/
def paired : State :=
  { State.reset with
    queues := Table.put [] 5 { queue5 with pair := { enabled := true, mine := some (0, 0, [], 0) } }
    peers := Table.put [] 0 { up := true, paired := true } }
theorem witness_SpeigAndPairing : State.reset.speig.session = none ∧ session.speig.session = some 0 ∧ session.inPart 0 0 = true
    ∧ session.occupied 0 0 = some 0 ∧ ((with' session fun sl => { sl with sys := true, wait := .idle }).tile 0).isStopped = true
    ∧ ((with' session fun sl => { sl with sys := true, wait := .idle }).peek 0 (.spad 0 0) 126976 4096 = some 0)
    ∧ ({ session with partitions := Table.put [] 0 { regions := 1 } } : State).regionIn 0 0 = true
    ∧ (∃ x, Table.get? paired.queues 5 = some x ∧ x.pair.enabled = true ∧ x.pair.link = 0
      ∧ x.pair.mine = some (0, 0, [], 0) ∧ 0 ≤ paired.tb.toNat)
    ∧ (Table.getD paired.peers 0 {}).up = true ∧ (Table.getD paired.peers 0 {}).paired = true := by
  refine ⟨rfl, rfl, ?_, ?_, ?_, ?_, ?_, ⟨_, rfl, rfl, rfl, rfl, by decide⟩, rfl, rfl⟩ <;> decide +kernel
/-! ### The general statements -/

/-- `user` about to run NOP. -/
def noping : State := user.setTile 0 { user.tile 0 with code := [0x8000 + 0x3000, 0x0005, 0x0824] }
/-- R415: a chain segment in test mode holds the 64 tiles of its row of the region, and no other; a slot of theirs may not issue. -/
theorem test_test_mode :
    ((State.testMode noping 0 1 true).tile 512).outOfService = true ∧ ((State.testMode noping 0 1 true).tile 575).outOfService = true
    ∧ ((State.testMode noping 0 1 true).tile 576).outOfService = false ∧ ((State.testMode noping 0 1 true).tile 0).outOfService = false
    ∧ ({ State.testMode noping 0 0 true with cur := .tile 0 0 } : State).mayIssue = false := by decide

/-- R418, R424: a link that has trained reads UP and is not paired. -/
theorem test_peer_link_up :
    (Table.getD (State.peerLinkUp noping 3).peers 3 {}).up = true ∧ (Table.getD (State.peerLinkUp noping 3).peers 3 {}).paired = false
    ∧ (Table.getD (State.peerLinkUp noping 3).peers 2 {}).up = false := by decide

theorem witness_DecodeOfEncode : (Instr.ld 0 (.n 31) (.q 15) 3 (BitVec.ofInt 8 (-128))).wf = true
    ∧ (Instr.ld 0 (.n 31) (.q 15) 3 (BitVec.ofInt 8 (-128))).isEvent = false := by decide
theorem witness_MemoryFormKept : noping.memoriesWf = true ∧ ∃ t, step noping = .next t := ⟨by decide, _, rfl⟩
theorem witness_StepRunsDecodedInstruction : noping.sched = [] ∧ noping.pendingAt noping.cur = false
    ∧ noping.interrupted noping.cur = false ∧ (noping.slot noping.cur).pc.toNat + 1 < noping.codeSize noping.cur
    ∧ decode [noping.codeHalf noping.cur 0, noping.codeHalf noping.cur 1] = .ok (.nop 0, [])
    ∧ decode [noping.codeHalf noping.cur 2] = .ok (.cAdd (.q 0) (.n 2), [])
    ∧ (Instr.headAged 0 0).isEvent = true ∧ noping.lockerr = false ∧ byCollier .mappingPass = true := by
  refine ⟨rfl, rfl, rfl, ?_, ?_, ?_, rfl, rfl, rfl⟩ <;> decide
theorem witness_PrivilegedInstructions : (Instr.eret 0 0).wf = true ∧ (∃ h l, encode (.eret 0 0) = [h, l] ∧ 0x3C ≤ h.toNat / 2 ^ 9 % 64)
    ∧ user.cur = .tile 0 0 ∧ (user.slot user.cur).sys = false ∧ user.mayIssue = true :=
  ⟨by decide, ⟨_, _, rfl, by decide⟩, rfl, rfl, user_may⟩
theorem witness_TrapEntry : user.cur = .tile 0 0
    ∧ (user.advance user.cur (user.slot user.cur).lastDue).awaitsResult user.cur = false
    ∧ (user.slot user.cur).sys = false ∧ (user.tile 0).guarded = false
    ∧ (system.slot system.cur).sys = true ∧ (system.advance system.cur (system.slot system.cur).lastDue).awaitsResult system.cur = false
    ∧ Cause.bounds ≠ .restore ∧ (guarded .exact 0).cur = .tile 0 0 ∧ Cause.brk.isAsync = false ∧ chief.cur.isCore = true := by
  refine ⟨rfl, rfl, rfl, rfl, rfl, rfl, ?_, rfl, rfl, rfl⟩
  decide
theorem witness_PointerChecks_private : 8 ∈ [1, 2, 4, 8] ∧ user.cur.isCore = false
    ∧ (0x020000000001FFF8 : Word).toNat / 2 ^ 56 % 4 = 2 ∧ (0x020000000001FFF8 : Word).toNat % 2 ^ 56 + 8 = 131072
    ∧ 131072 < (0x020000000001FFF9 : Word).toNat % 2 ^ 56 + 8
    ∧ (0x020000000001FFF7 : Word).toNat % 2 ^ 56 + 8 ≤ 131072 ∧ (0x020000000001FFF7 : Word).toNat % 2 ^ 56 % 8 ≠ 0 := by decide
theorem witness_PointerChecks_vtile : (user.launch (user.tile user.cur.site).name.1).pkt.vtiles = 1
    ∧ (0x010000000001FFF8 : Word).toNat / 2 ^ 56 % 4 = 1 ∧ (0x010000000001FFF8 : Word).toNat % 2 ^ 56 / 2 ^ 32 = 0
    ∧ (0x010000000001FFF8 : Word).toNat % 2 ^ 32 + 8 = 131072 ∧ (0x010000010001FFF8 : Word).toNat % 2 ^ 56 / 2 ^ 32 = 1 := by
  decide
theorem witness_PointerChecks_rim : (0x0000FFFFFFFFFFF8 : Word).toNat / 2 ^ 56 % 4 = 0
    ∧ (0x0000FFFFFFFFFFF8 : Word).toNat % 2 ^ 56 < 2 ^ 48 ∧ 2 ^ 48 ≤ (0x0001000000000000 : Word).toNat % 2 ^ 56
    ∧ (0x0300FFFFFFFFFFF8 : Word).toNat / 2 ^ 56 % 4 = 3 ∧ (0x0300FFFFFFFFFFF8 : Word).toNat % 2 ^ 56 < 2 ^ 48
    ∧ 2 ^ 48 ≤ (0x0301000000000000 : Word).toNat % 2 ^ 56 ∧ (0x0000FFFFFFFFFFF9 : Word).toNat % 2 ^ 56 % 8 ≠ 0 := by decide
theorem witness_ResultsLand : (user.slot user.cur).flights = [] ∧ (user.slot user.cur).nfull.getLsbD 31 = true
    ∧ 1 < 3 := ⟨rfl, rfl, by decide⟩
theorem witness_RegisterOnlyFrame : ∃ r ∈ intRows ++ divRows ++ fieldRows, Dst.push.legal = true
    ∧ user.admits (opA r.major r.sub 0 Dst.push.code 33 0) ∧ (∃ w, read2 (.n 1) (.q 0) user.opened = .ok w)
    ∧ ∃ u, exec (r.make 0 .push (.n 1) (.q 0)) user = .next u :=
  ⟨intRows[0], .head _, rfl, ⟨user_may, rfl⟩, ⟨_, rfl⟩, _, rfl⟩
theorem witness_IntegerArithmetic_DivisionResults : ∃ r ∈ divRows, Dst.push.legal = true ∧ user.admits (opA r.major r.sub 7 Dst.push.code 33 16)
    ∧ ∃ x y t, read2 (.n 1) .z user.opened = .ok ((x, y), t) := ⟨divRows[0], .head _, rfl, ⟨user_may, rfl⟩, _, _, _, rfl⟩
theorem witness_ReadModifyWriteAndVectorAtomics_ReadModifyWriteAtTheBanks : (user.tile 0).spad.wf = true ∧ (user.tile 0).linesFull 131056 16 = true
    ∧ (user.tile 0).eccAt 131056 16 = none ∧ ({ user.tile 0 with fe := 0 } : Tile).linesFull 0 4 = false
    ∧ 4 ∈ [4, 8] ∧ AtomKind.add ≠ .umax := by
  refine ⟨rfl, ?_, rfl, ?_, ?_, ?_⟩ <;> decide
theorem witness_AccessFrame : ∃ f, accessShape (.st 0 (.q 0) (.n 1) 3 0) = some f ∧ f.dst.legal = true
    ∧ (∃ w, exec (.st 0 (.q 0) (.n 1) 3 0) (given 0x020000000001FFF8) = .next w)
    ∧ (∃ w, exec (.ld 0 .push (.n 1) 3 0) (given 0x0100000000000008) = .next w)
    ∧ ∃ w, exec (.ld 0 .push (.n 1) 3 0) (with' chief fun sl => { sl with sn := sl.sn.set 1 0x0200000000000008 }) = .next w :=
  ⟨_, rfl, rfl, ⟨_, rfl⟩, ⟨_, rfl⟩, _, rfl⟩
theorem witness_AtomicsAndBarrierValues : (32 = 32 ∨ 32 = 64) ∧ 2 ^ 32 - 1 < 2 ^ 32 := by decide

/-! ### Engine and control forms, and the clauses of the steps -/

theorem witness_EngineAndControlFormsComplete_ControlFormsComplete :
    (user.admits (opL 0x17 0 33 2) ∧ (∃ x t, read1 (.const 0) user.opened = .ok (x, t) ∧ 2 ≤ (2 : BitVec 16).toInt
      ∧ (t.slot t.cur).lc0.count.toNat = 0 ∧ (t.slot t.cur).lc1.count.toNat = 0 ∧ x.toNat % 2 ^ 32 ≠ 0))
    ∧ ((guarded .surrogate 0).admits (opA 0x3A 0 0 0 0 0)
      ∧ ((guarded .surrogate 0).opened.tile (guarded .surrogate 0).opened.cur.site).guard.stage = .surrogate)
    ∧ ((guarded .check 0).admits (opA 0x3A 1 0 0 0 0) ∧
      let t := (guarded .check 0).opened.tile (guarded .check 0).opened.cur.site
      t.guard.stage = .check ∧ t.guard.caught = []
        ∧ residualReason t.gresid ((guarded .check 0).opened.launch t.name.1).pkt.gtol = none)
    ∧ ((guarded .check 0).admits (opA 0x3A 2 0 0 0 0)
      ∧ ((guarded .check 0).opened.launch ((guarded .check 0).opened.tile 0).name.1).pkt.guarded = true)
    ∧ (∃ x y t, read2 .z (.n 1) (guarded .check 0x1F400).opened = .ok ((x, y), t) ∧
      (guarded .check 0x1F400).admits (opA 0x3A 3 0 0 16 33) ∧ (t.tile t.cur.site).guarded = true
      ∧ x.toNat % 128 = 0 ∧ y.toNat % 128 = 0 ∧ y.toNat ≠ 0 ∧ x.toNat + y.toNat ≤ 131072
      ∧ x.toNat + y.toNat ≤ (t.launch (t.tile t.cur.site).name.1).pkt.guardbase * 128)
    ∧ (user.admits (opA 0x3B 0 0 0 0 63) ∧ user.opened.trapWaits .trap = false)
    ∧ (user.admits (opA 0x3B 1 0 0 0 0) ∧ user.admits (op16 0x3B 1 5) ∧ user.opened.trapWaits .brk = false)
    ∧ (user.admits (opA 0x3B 2 0 0 0 0) ∧ ∀ f ∈ (user.opened.slot user.opened.cur).flights, f.due ≠ none)
    ∧ (user.admits (opA 0x3B 3 0 0 33 0) ∧ ∃ v t, read1 (.n 1) user.opened = .ok (v, t))
    ∧ system.admits (opA 0x3C 0 0 0 0 0) ∧ chief.admits (opA 0x3C 0 0 0 0 0) :=
  ⟨⟨⟨user_may, rfl⟩, _, _, rfl, by decide, rfl, rfl, by decide⟩, ⟨⟨rfl, rfl⟩, rfl⟩, ⟨⟨rfl, rfl⟩, rfl, rfl, by decide⟩,
    ⟨⟨rfl, rfl⟩, rfl⟩, ⟨_, _, _, rfl, ⟨rfl, rfl⟩, rfl, by decide, by decide, by decide, by decide, by decide⟩,
    ⟨⟨user_may, rfl⟩, rfl⟩, ⟨⟨user_may, rfl⟩, ⟨user_may, rfl⟩, rfl⟩, ⟨⟨user_may, rfl⟩, by decide⟩,
    ⟨⟨user_may, rfl⟩, _, _, rfl⟩, ⟨system_may, rfl⟩, chief_may, rfl⟩
/-- A thread that waits in BARWAIT of the barrier at 128 of its own bank for the end of phase 1. -/
def atBarrier : State :=
  with' ((given 0x0200000000000080).setTile 0 { (given 0x0200000000000080).tile 0 with
      code := encode (.barwait 0 .push (.n 1) (.const 0)) }) fun sl => { sl with wait := .barwait }
theorem atBarrier_at : atBarrier.barwaitAt (.tile 0 0) = some (0, .push, .n 1, .const 0) := by decide +kernel
theorem witness_TileSteps_barwait_own :
    (atBarrier.tile 0).slots[(0 : Fin 8)].sys = false ∧ (atBarrier.tile 0).slots[(0 : Fin 8)].wait = .barwait
    ∧ atBarrier.pendingAt (.tile 0 0) = false ∧ atBarrier.barwaitAt (.tile 0 0) = some (0, .push, .n 1, .const 0)
    ∧ ({ atBarrier with cur := .tile 0 0 } : State).admits (opA 0x18 11 0 Dst.push.code 33 17)
    ∧ ∃ p ph t u b h, read2 (.n 1) (.const 0) ({ atBarrier with cur := .tile 0 0 } : State).opened = .ok ((p, ph), t)
      ∧ placeOf atomicSpace p 8 8 t = .ok (.priv 128, t) ∧ accessGate false (.priv 128) t = .ok ((), t)
      ∧ ownTurn (.load 8 false) 128 t = .ok ((), u) ∧ (u.tile u.cur.site).perform (.load 8 false) 128 = .ok b h
      ∧ (ofN h.val).toNat / 2 ^ 63 ≠ ph.toNat % 2 :=
  ⟨rfl, rfl, rfl, atBarrier_at, ⟨rfl, rfl⟩, _, _, _, _, _, _, rfl, rfl, rfl, rfl, rfl, by decide⟩
/-- A thread that waits for a barrier in HBM, with what its probe found. -/
def atFarBarrier (probe : Option Probe) : State :=
  with' atBarrier fun sl => { sl with n := sl.n.set 1 0x80, probe }
theorem witness_TileSteps_barwait_far :
    (∃ p ph pl t, ({ atFarBarrier (some { id := 1, sent := 0, value := some 0 }) with cur := .tile 0 0 } : State).admits
        (opA 0x18 11 0 Dst.push.code 33 17)
      ∧ read2 (.n 1) (.const 0) ({ atFarBarrier (some { id := 1, sent := 0, value := some 0 }) with cur := .tile 0 0 } : State).opened
        = .ok ((p, ph), t)
      ∧ placeOf atomicSpace p 8 8 t = .ok (pl, t) ∧ accessGate false pl t = .ok ((), t) ∧ (∀ off, pl ≠ .priv off)
      ∧ (t.slot t.cur).probe = some { id := 1, sent := 0, value := some 0 } ∧ (0 : Word).toNat / 2 ^ 63 ≠ ph.toNat % 2)
    ∧ (∃ p ph pl t, read2 (.n 1) (.const 0) ({ atFarBarrier none with cur := .tile 0 0 } : State).opened = .ok ((p, ph), t)
      ∧ placeOf atomicSpace p 8 8 t = .ok (pl, t) ∧ accessGate false pl t = .ok ((), t) ∧ (∀ off, pl ≠ .priv off)
      ∧ ((atFarBarrier none).tile 0).slots[(0 : Fin 8)].probeDue (atFarBarrier none).cycle ph = true
      ∧ ∃ s2, sendProbe p ph pl { atFarBarrier none with cur := .tile 0 0 } = .ok ((), s2))
    ∧ barwaitBody .push (.n 1) (.const 0) ({ atFarBarrier none with cur := .tile 0 0 } : State).opened = .error (.wait .barwait)
    ∧ ((atFarBarrier (some { id := 1, sent := 0 })).tile 0).slots[(0 : Fin 8)].probeDue 0 1 = false :=
  ⟨⟨_, _, _, _, ⟨rfl, rfl⟩, rfl, rfl, rfl, by simp, rfl, by decide⟩,
    ⟨_, _, _, _, rfl, rfl, rfl, by simp, by decide, _, rfl⟩, rfl, by decide⟩
theorem witness_TileSteps_matrix_granted : ∃ t c s4 u n fl, zeroing.pickMatrix 0 = some (0, t) ∧ zeroing.followReady 0 0 = false
      ∧ (t.slots[(0 : Fin 8)].mheld).bind matrixOf = some c ∧
      let s1 : State := { zeroing.setTile 0 t with cur := .tile 0 0 }
      s1.admits c.op ∧ fenceGate true true s1.opened = .ok ((), s1.opened)
      ∧ awaitSources c s1.opened = .ok ((), s4) ∧ matrixEffect c (read1 c.s) s4 = .ok ((n, fl), u) := by
  refine ⟨?t, ?c, ?s4, ?u, ?n, ?fl, ?h1, ?h2, ?h3, ⟨?h4, ?h5⟩, ?h6, ?h7, ?h8⟩
  case h1 => rfl
  case h2 => rfl
  case h3 => rfl
  case h4 => rfl
  case h5 => rfl
  case h6 => rfl
  case h7 => rfl
  case h8 => rfl
/-- A job with a barrier at 64, after its last byte. -/
def barJob : CopyJob := { jobEnd with bar := some 64, issued := 5 }
theorem witness_EngineAndControlFormsComplete_BackgroundFormsComplete :
    ((∃ b, ((working job).tile 0).findJob 1 = some (job, b)) ∧ job.written = false ∧ (working job).halted = false
      ∧ (∃ u, (working job).copyPiece 0 job [] = .ok u ()) ∧ ∃ u b, (working badJob).copyPiece 0 badJob [] = .fails u b)
    ∧ ((∃ b, ((working { jobEnd with follow := .waiting }).tile 0).findJob 1 = some ({ jobEnd with follow := .waiting }, b))
      ∧ { jobEnd with follow := .waiting }.written = true ∧ { jobEnd with follow := .waiting }.failed = false)
    ∧ ((∃ b, ((working barJob).tile 0).findJob 1 = some (barJob, b)) ∧ barJob.written = true ∧ barJob.follow = .none
      ∧ (working barJob).jobReleased 0 barJob = true
      ∧ ∃ t r, ({ (working barJob).tile 0 with fe := markFull ((working barJob).tile 0).fe barJob.marked } : Tile).perform .barArrive 64
          = .ok t r)
    ∧ ((with' (working barJob) fun sl => { sl with flights := [outstanding] }).jobReleased 0 barJob = false)
    ∧ ((streamer.tile 0).streams[(0 : Fin 4)] = some stream ∧ stream.failed = false ∧ stream.asked < stream.count
      ∧ stream.asked < stream.next + 4 ∧ stream.next + stream.landed.length < stream.asked
      ∧ streamEcc streamer 0 stream 0 = false)
    ∧ (user.withResult 3 0 (.n 1) 7).slot (.tile 0 0) ≠ user.slot (.tile 0 0) := by
  refine ⟨⟨⟨_, rfl⟩, by decide, rfl, ⟨_, rfl⟩, _, _, rfl⟩, ⟨⟨_, rfl⟩, by decide, rfl⟩,
    ⟨⟨_, rfl⟩, by decide, rfl, by decide, _, _, rfl⟩, by decide, ⟨rfl, rfl, by decide, by decide, by decide, by decide⟩, ?_⟩
  intro h
  have := congrArg (fun x : Slot => x.flights.length) h
  exact absurd this (by decide)
/-- The stream with wide elements. -/
def wideStream : StreamBinding := { stream with wide := true, rowLen := 1024 }
/-- `user` with it bound and the scratchpad's first scale word uncorrectable. -/
def eccStreamer : State :=
  user.setTile 0 { user.tile 0 with streams := (user.tile 0).streams.set 0 (some wideStream), eccWords := [16384] }
theorem witness_CopyEngineSteps_faults :
    (eccStreamer.tile 0).streams[(0 : Fin 4)] = some wideStream ∧ streamEcc eccStreamer 0 wideStream 0 = true
    ∧ (∃ u v, eccStreamer.streamData 0 wideStream = .ok u v)
    ∧ (∃ u b, user.streamData 0 { stream with src := badJob.src } = .fails u b)
    ∧ ({ job with moved := 4 } : CopyJob).moved % job.rowLen ≠ 0 := by
  refine ⟨rfl, by decide +kernel, ⟨_, _, rfl⟩, ⟨_, _, rfl⟩, by decide⟩
theorem witness_NetworkSteps_clauses :
    ((waiting user).tile 0).slots[(0 : Fin 8)].thread = true ∧ ((waiting user).tile 0).slots[(0 : Fin 8)].recorded = false
    ∧ (let s := user.setTile 0 { user.tile 0 with heldReqs := [asking] }
      s.heldBehind 0 ((s.tile 0).heldReqs.take 0) asking = false)
    ∧ (Table.get? (posted rimRead).launches rimRead.src.idx).isSome = true
    ∧ nameless.mayWalk 0 0 0 = true
    ∧ (posted absent).toRetired absent = false ∧ (posted absent).isLive 0 = true
    ∧ (let s := (posted absent).setLaunch 0 { user.launch 0 with gangs := [{ (user.launch 0).gang 0 with retiredVts := [0] }] }
      s.toRetired absent = true)
    ∧ (let s := mode user .delivering
      s.deliverable 0 { (s.ring 0 0) with entries := [(letter, 0)] } = [] ++ (letter, 0) :: [])
    ∧ (let s := mode user .delivering
      let p : Packet := { letter with dst := .vtile 0 1 }
      (∀ x ∈ s.deliverable 0 { (s.ring 0 0) with entries := [(p, 0)] }, s.accept 0 x.1 true = none)) := by
  refine ⟨rfl, rfl, ?_, rfl, ?_, ?_, rfl, ?_, ?_, ?_⟩ <;> decide +kernel
/-- `guarded` in the check with one captured access. -/
def captured (c : Captured) : State :=
  (guarded .check 0).setTile 0 { (guarded .check 0).tile 0 with guard := { stage := .check, caught := [c] } }
theorem witness_GuardedPhase_GuardedPhaseResults_captured :
    ((captured (.cntset 3 7)).admits (opA 0x3A 1 0 0 0 0)) ∧ ((captured (.cntset 3 7)).opened.tile 0).guard.caught = .cntset 3 7 :: []
    ∧ (∃ u, ((captured (.cntset 3 7)).opened.openBuffer 0).releaseCaptured (.cntset 3 7) = some u)
    ∧ (with' (captured (.cntset 3 7)) fun sl => { sl with fenceAcq := 2, flights := [outstanding] }).releaseCaptured (.cntset 3 7) = none :=
  ⟨⟨rfl, rfl⟩, rfl, ⟨_, rfl⟩, rfl⟩
theorem witness_TrapsReturnsAndTrace_TrapAndTraceResults_waits :
    let s := with' (posted (parcel (.reply 7 0 0))) fun sl => { sl with flights := [outstanding] }
    s.admits (opA 0x3B 0 0 0 0 63) ∧ s.opened.trapWaits .trap = true := ⟨⟨rfl, rfl⟩, rfl⟩
theorem witness_MessagesLaunchesAndCounters_LaunchAndCounterResults_behind :
    let s := (given2 63 1).setTile 0 { (given2 63 1).tile 0 with outq := [letter] }
    s.admits (opA 0x37 7 0 0 33 34)
    ∧ (∃ i v t, read2 (.n 1) (.n 2) s.opened = .ok ((i, v), t) ∧ i.toNat ≤ 63 ∧ v.toNat / 2 ^ 32 % 64 ≠ 63
      ∧ inPhase t = .ok (false, t) ∧ fenceGate true false t = .ok ((), t)
      ∧ ∃ p ∈ (t.tile t.cur.site).outq, p.src.slot = t.cur.slotNo)
    ∧ ∀ p ∈ ((given2 63 1).tile 0).outq, p.src.slot ≠ (given2 63 1).cur.slotNo :=
  ⟨⟨rfl, rfl⟩, ⟨_, _, _, rfl, by decide, by decide, rfl, rfl, letter, .head _, rfl⟩, by decide⟩
theorem witness_LoopResults_ends :
    (∃ x t, read1 .z user.opened = .ok (x, t) ∧ x.toNat % 2 ^ 32 = 0
      ∧ t.codeSize t.cur ≤ (movedPc (t.slot t.cur).pc 0x7FFF).toNat)
    ∧ (0x8000 : BitVec 16).toInt < 2 ∧ 2 ≤ (0x7FFF : BitVec 16).toInt := ⟨⟨_, _, rfl, by decide, by decide⟩, by decide, by decide⟩
theorem witness_MatrixCommands_MatrixCommandsComplete_sources : ∃ c s4, matrixOf (.tzero 0 0) = some c
    ∧ awaitSources c matrices.opened = .ok ((), s4) := ⟨_, _, rfl, rfl⟩
/-- `copies` with 16 jobs. -/
def busy : State := (copies 63).setTile 0 { (copies 63).tile 0 with jobs := List.replicate 16 job }
theorem witness_CopyJobs_CopyJobsStart_full : busy.admits (opA 0x39 0 0 0 33 16) ∧ (busy.opened.tile 0).jobs.length = 16 :=
  ⟨⟨rfl, rfl⟩, rfl⟩
/-- `bearing` with a marker for its child. -/
def bearingMarker : State := { bearing with children := [{ parent := 0, bytes := natToBytes 128 2 }] }
theorem witness_QueuesAndPeriods_QueueSteps_childMarker :
    (∃ c, bearingMarker.children[0]? = some c ∧ (∀ x ∈ bearingMarker.children.take 0, x.parent ≠ c.parent)
      ∧ (readPacket (bytesToNat c.bytes)).kind = 2)
    ∧ (∃ c, bearing.children[0]? = some c ∧ (readPacket (bytesToNat c.bytes)).kind ≠ 2)
    ∧ bearingMarker.freeIndex 1 ∧ (bearingMarker.launch 0).killed = none := by
  refine ⟨⟨_, rfl, by simp, ?_⟩, ⟨_, rfl, ?_⟩, ⟨by decide, rfl⟩, rfl⟩ <;> decide +kernel
theorem witness_QueuesAndPeriods_QueueSteps_covered :
    let s : State := { bearing with watchdogs := Table.put [] 1 { deadline := some 0, covers := some 0 } }
    s.covered 1 0 = true ∧ s.completeReady 0 = false ∧ s.halted = false := by
  refine ⟨?_, ?_, rfl⟩ <;> decide +kernel
theorem witness_PacketsArrive_forced :
    let s := (posted letter).setLaunch 0 { user.launch 0 with
      forced := true, logSeg := some 0, pkt := { (user.launch 0).pkt with handlers := true, det := true } }
    s.arrives 0 letter 0 0 0 ∧ (s.tile 0).ni = .direct ∧ s.forcedArrival 0 letter = true :=
  ⟨⟨rfl, rfl, rfl, rfl, rfl, rfl, rfl⟩, rfl, rfl⟩
theorem witness_SaveAndRestoreResults_ecc :
    (∀ i, i < 384 → ((recorded.launch 0).pkt.recordAt 0) / 8 + i ∉ (recorded.tile 0).eccWords)
    ∧ (let base := (recorded.launch 0).pkt.recordAt 0
      let s := recorded.setTile 0 { recorded.tile 0 with eccWords := [base / 8 + 3] }
      s.admits (opA 0x3C 2 0 0 0 0) ∧ base / 8 + 3 ∈ (s.tile 0).eccWords ∧ ∀ j, j < 3 → base / 8 + j ∉ (s.tile 0).eccWords) := by
  refine ⟨fun i _ => ?_, ⟨rfl, rfl⟩, List.Mem.head _, fun j hj h => ?_⟩
  · exact List.not_mem_nil
  · exact absurd (Nat.add_left_cancel (List.mem_singleton.1 h)) (by omega)
/-- The Stoker of region 0 with RESUME for tile 0 in n1 with 4 messages of its own unsent, the tile's queue being full. -/
def crammed : State :=
  let m : FlueMsg := { src := stokerCode 0, dst := 0, type := 5, tag := 0, payload := 0 }
  let s : State := { stokes 0x500000 0 with flue := List.replicate 4 m }
  s.setTile 0 { s.tile 0 with svq := List.replicate 8 m }
theorem witness_SupervisorAndInterruptInstructions_SupervisorMessageResults_full :
    (chiefs 0x1040000 7).maySend (agentCode .collier) = true ∧ crammed.maySend (agentCode crammed.cur) = false
    ∧ crammed.admits (opA 0x3C 9 0 0 33 34)
    ∧ ∃ h v t, read2 (.n 1) (.n 2) crammed.opened = .ok ((h, v), t) ∧ h.toNat / 2 ^ 28 % 2 ^ 20 = 0
      ∧ destOk t.cur (h.toNat % 2 ^ 20) = true ∧ svsendGate (h.toNat / 2 ^ 20 % 256) t = .ok ((), t) := by
  refine ⟨?_, ?_, ⟨rfl, rfl⟩, _, _, _, rfl, ?_, ?_, rfl⟩ <;> decide +kernel
theorem witness_PlacementSteps_return_may :
    (away.placementOf 0 0).isSome = true ∧ (∀ r ∈ away.heads 0, 1 ≤ r.2.pkt.prio) ∧ (∃ y ∈ away.returning 0, y = (1, 7, 0, 0)) := by
  refine ⟨?_, ?_, ?_⟩ <;> decide +kernel
theorem witness_EvictionMessages_failures :
    (∃ t, (toC (step' .saving 1 [0]) 0x62 (2 ^ 40)).receives 0 0x62 ⟨stokerCode 0, collierCode, 0x62, 0, 2 ^ 40⟩ t
      ∧ t.gangIn 0 0 1 = true)
    ∧ (∃ t, (toC (step' .flushing 3 [0]) 0x66 (2 ^ 40)).receives 0 0x66 ⟨stokerCode 0, collierCode, 0x66, 0, 2 ^ 40⟩ t
      ∧ t.gangIn 0 0 3 = true)
    ∧ ((2 ^ 40 : Word).getLsbD 40 = true) ∧ (0 : Word).getLsbD 40 = false :=
  ⟨⟨_, ⟨rfl, rfl, by decide, by simp, rfl⟩, rfl⟩, ⟨_, ⟨rfl, rfl, by decide, by simp, rfl⟩, rfl⟩, by decide, by decide⟩
theorem witness_PacketsAccepted_WritesRepliesAndRequestsAccepted_behind :
    let s := (posted (writing 1 1)).setTile 0 { user.tile 0 with
      hold := [{ slot := 0, reg := 1, gen := 1, val := 7, vec := 0, side := 0, src := ⟨0, 0, 0⟩, release := false }] }
    s.arrivesDirect 0 (writing 1 1) 0 0 0 ∧ ((s.tile 0).hold.any fun h => h.slot == 0 && h.reg == 1) = true
    ∧ (let t := with' (posted (writing 0 1)) fun sl => { sl with recorded := true }
      t.arrivesDirect 0 (writing 0 1) 0 0 0 ∧ ((t.tile 0).slots[(0 : Fin 8)]).recorded = true)
    ∧ (let h := (posted asking).setTile 0 { user.tile 0 with heldReqs := [asking] }
      h.arrivesDirect 0 asking 0 0 0 ∧ h.heldBehind 0 (h.tile 0).heldReqs asking = true)
    ∧ (posted asking).heldBehind 0 ((posted asking).tile 0).heldReqs asking = false := by
  refine ⟨⟨⟨rfl, rfl, rfl, rfl, rfl, rfl, rfl⟩, rfl⟩, ?_, ⟨⟨⟨rfl, rfl, rfl, rfl, rfl, rfl, rfl⟩, rfl⟩, rfl⟩,
    ⟨⟨⟨rfl, rfl, rfl, rfl, rfl, rfl, rfl⟩, rfl⟩, ?_⟩, ?_⟩ <;> decide

/-! ### Further clauses -/

theorem witness_ReadModifyWriteAndVectorAtomics_lists : (user.tile 0).linesFull 131056 4 = true ∧ (user.tile 0).eccAt 131056 4 = none
    ∧ (user.tile 0).linesFull 131070 2 = true ∧ (user.tile 0).eccAt 131070 2 = none := by
  refine ⟨?_, ?_, ?_, ?_⟩ <;> decide
theorem witness_ControlRegisters_ControlRegisterWrites_special :
    (system.admits (opI 0x1A 0 16 33 0x205) ∧ system.opened.cur.isCore = false ∧ (system.opened.slot system.opened.cur).sys = true
      ∧ ∃ v t, read1 (.n 1) system.opened = .ok (v, t) ∧ t.cur.isCore = false)
    ∧ (user.admits (opI 0x1A 0 16 33 0x200) ∧ (user.opened.slot user.opened.cur).sys = false ∧ 0x200 ≤ (0x200 : BitVec 10).toNat)
    ∧ (user.admits (opI 0x1A 0 16 33 0x1FF) ∧ user.opened.ctlOf (0x1FF : BitVec 10).toNat = none)
    ∧ (chief.admits (opI 0x1A 0 16 33 0x1FF) ∧ chief.opened.cur.isCore = true
      ∧ chief.opened.coreCtlGet chief.opened.cur (0x1FF : BitVec 10).toNat = none) :=
  ⟨⟨⟨system_may, rfl⟩, rfl, rfl, _, _, rfl, rfl⟩, ⟨⟨user_may, rfl⟩, rfl, by decide⟩, ⟨⟨user_may, rfl⟩, rfl⟩,
    ⟨chief_may, rfl⟩, rfl, rfl⟩
theorem witness_ControlRegisters_CoreRegisterWrites :
    (∀ i ∈ [0x380#10, 0x388, 6, 7, 0x38A, 0x381, 0x382, 0x37F, 0x390], (chiefs 0x10 0).admits (opI 0x1A 0 16 33 i))
    ∧ (∃ v t, read1 (.n 1) (chiefs 0x10 0).opened = .ok (v, t) ∧ (chiefs 0x10 0).opened.cur = t.cur ∧ t.cur = .collier
      ∧ 0 < v.toNat % 32 ∧ v.toNat % 32 ≤ 16 ∧ (t.link 63).toStoker ≠ 0 ∧ t.rxuBusy = false
      ∧ ((t.setLink 63 { t.link 63 with toStoker := 0 }).link 63).toStoker = 0)
    ∧ (∃ r ∈ coreRows .collier, r.index = 0x380) ∧ coreReadOnly .collier 0x388 ∧ coreReadOnly (.stoker 0) 0x3D3
    ∧ (stokes 1 0).admits (opI 0x1A 0 16 33 0x300) ∧ (stokes 1 0).admits (opI 0x1A 0 16 33 0x3C0)
    ∧ (∃ v t, read1 (.n 1) (stokes 1 0).opened = .ok (v, t) ∧ (stokes 1 0).opened.cur = t.cur ∧ t.cur = .stoker 0)
    ∧ ({ chiefs 0 0 with rxuBusy := true } : State).rxuBusy = true := by
  refine ⟨?_, ⟨_, _, rfl, rfl, rfl, by decide, by decide, by decide, rfl, by decide⟩, ⟨ctlPlain 0x380 12, ?_, rfl⟩, ?_, ?_, ⟨rfl, rfl⟩,
    ⟨rfl, rfl⟩, ⟨_, _, rfl, rfl, rfl⟩, rfl⟩
  · intro i hi
    simp only [List.mem_cons, List.not_mem_nil, or_false] at hi
    rcases hi with rfl | rfl | rfl | rfl | rfl | rfl | rfl | rfl | rfl <;> exact ⟨rfl, rfl⟩
  · simp [coreRows]
  · exact .inr (.inl ⟨rfl, by decide⟩)
  · exact .inr (.inr ⟨⟨0, rfl⟩, by decide⟩)
theorem witness_WaitsAndFences_FenceResults_scopes : ∀ g ∈ [5#3, 6, 7], ∀ m ∈ [0, 1, 2], user.admits (opA 0x1B m 0 0 0 g.toNat) := by
  intro g hg m hm
  simp only [List.mem_cons, List.not_mem_nil, or_false] at hg hm
  rcases hg with rfl | rfl | rfl <;> rcases hm with rfl | rfl | rfl <;> exact ⟨user_may, rfl⟩
theorem witness_WaitsAndFences_FencesHold_register :
    let sl := (user.withVResult 6 0 (.v 1) 0 0).slot (.tile 0 0)
    ∃ f ∈ sl.flights, f.inPad = true ∧ f.lands sl.flights user.cycle = false ∧ f.id < sl.nextId :=
  ⟨_, .head _, rfl, by decide, by decide⟩
/-- `guarded` with a private window of the line at 256, or with a full buffer. -/
def windowed (used : Nat) (w : Word) : State :=
  (guarded .check w).setTile 0 { (guarded .check w).tile 0 with guard := { stage := .check, window := some (256, 128), used } }
theorem witness_GuardedPhaseWrites_window : ∃ f, accessShape (.st 0 (.q 0) (.n 1) 3 0) = some f
    ∧ (windowed 0 0x0200000000000178).admits f.op
    ∧ ∃ p m t u b h, f.args (windowed 0 0x0200000000000178).opened = .ok ((p, m), t) ∧ f.rule t = .ok (anySpace, t)
      ∧ placeOf anySpace p (f.bytes p) (f.bytes p) t = .ok (.priv 376, t) ∧ inPhase t = .ok (true, t)
      ∧ (t.tile t.cur.site).guard.inWindow 376 (f.bytes p) = true ∧ accessHeld f (.priv 376) t = .ok ((), t)
      ∧ ownTurn m 376 t = .ok ((), u) ∧ (u.tile u.cur.site).perform m 376 = .ok b h :=
  ⟨_, rfl, ⟨rfl, rfl⟩, _, _, _, _, _, _, rfl, rfl, rfl, rfl, rfl, rfl, rfl, rfl⟩
theorem witness_GuardedPhaseWrites_full : ∃ f, accessShape (.st 0 (.q 0) (.n 1) 3 0) = some f
    ∧ (windowed 512 0x0100000000000100).admits f.op
    ∧ ∃ p m t, f.args (windowed 512 0x0100000000000100).opened = .ok ((p, m), t)
      ∧ placeOf anySpace p (f.bytes p) (f.bytes p) t = .ok (.vtile 0 256, t) ∧ inPhase t = .ok (true, t)
      ∧ f.wants = false ∧ (t.launch (t.tile t.cur.site).name.1).pkt.guardsize * 128
        < (t.tile t.cur.site).guard.used + guardBytes (.st 0 (.q 0) (.n 1) 3 0) (f.bytes p) :=
  ⟨_, rfl, ⟨rfl, rfl⟩, _, _, _, rfl, rfl, rfl, rfl, by decide⟩
theorem witness_RemoteRegisters_RegisterTakingResults_waits :
    (let s := with' user (fun sl => { sl with nfull := 0 });
      s.admits (opA 0x38 7 0 0 31 0) ∧ ∃ t, takeArgs 0 31 s.opened = .ok ((), t) ∧ (t.slot t.cur).sys = false
        ∧ (t.slot t.cur).nfull.getLsbD 31 = false)
    ∧ (let s := user.setTile 0 { user.tile 0 with fe := 0 }
      s.admits (opA 0x38 4 0 0 32 0) ∧ s.admits (opA 0x38 7 0 0 32 0)
      ∧ ∃ t u, takeArgs 0 32 s.opened = .ok ((), t) ∧ fenceGate false true t = .ok ((), t) ∧ awaitVregs t = .ok ((), u)
        ∧ (u.tile u.cur.site).linesFull (vregOffset (t.launch (t.tile t.cur.site).name.1) t.cur.slotNo 0) 512 = false) :=
  ⟨⟨⟨rfl, rfl⟩, _, rfl, rfl, rfl⟩, ⟨rfl, rfl⟩, ⟨rfl, rfl⟩, _, _, rfl, rfl, rfl, by decide⟩
theorem witness_CopyWaitsTemplatesAndStreams_CopyWaitResults_notIssued : (copies 1).admits (opA 0x39 3 0 0 33 0)
    ∧ (copies 1).admits (opA 0x39 4 0 0 33 0)
    ∧ ∃ v t, read1 (.n 1) (copies 1).opened = .ok (v, t) ∧ v.toNat ≠ 0 ∧ (t.tile t.cur.site).lastTicket.toNat = 0 :=
  ⟨⟨rfl, rfl⟩, ⟨rfl, rfl⟩, _, _, rfl, by decide, rfl⟩
theorem witness_CopyWaitsTemplatesAndStreams_TemplateAndStreamResults_far :
    let s := user.setTile 0 { user.tile 0 with
      templates := Vector.replicate 64 (8 * 2 ^ 128 + 0x0200000000000080 * 2 ^ 64 + 0x0100000100000000 : BitVec 256) }
    s.admits (opA 0x39 2 0 0 16 16) ∧ ∃ i o t, read2 .z .z s.opened = .ok ((i, o), t) ∧ i.toNat ≤ 63 ∧
      let g := geometry (t.tile t.cur.site).templates[(Fin.ofNat 64 i.toNat : Fin 64)] o
      g.rowLen ≠ 0 ∧ g.reserved = 0 ∧ g.conv = false ∧ g.bar = none ∧ g.rowLen * g.rows % 8 = 0
      ∧ g.src.toNat / 2 ^ 56 % 4 = 1 ∧ (t.launch (t.tile t.cur.site).name.1).pkt.vtiles ≤ g.src.toNat / 2 ^ 32 % 2 ^ 24 :=
  ⟨⟨rfl, rfl⟩, _, _, _, rfl, by decide, by decide, by decide, by decide, by decide, by decide, by decide, by decide⟩
/-- `guarded` in the check with a residual. -/
def residual (r : BitVec 32) : State :=
  (guarded .check 0).setTile 0 { (guarded .check 0).tile 0 with gresid := r, guard := { stage := .check } }
theorem witness_GuardedPhase_GuardedPhaseResults_residuals :
    (residual 0).admits (opA 0x3A 1 0 0 0 0) ∧ (residual 0x7FC00000).admits (opA 0x3A 1 0 0 0 0)
    ∧ (residual 0x3F800000).admits (opA 0x3A 1 0 0 0 0)
    ∧ cmpVal (floatVal 4 0) (floatVal 4 ((residual 0).opened.launch 0).pkt.gtol.toNat) = some .eq
    ∧ (∃ q, floatVal 4 ((residual 0x7FC00000).opened.tile 0).gresid.toNat = .nan q)
    ∧ cmpVal (floatVal 4 (0x3F800000 % 2 ^ 31)) (floatVal 4 ((residual 0x3F800000).opened.launch 0).pkt.gtol.toNat) = some .gt := by
  refine ⟨⟨rfl, rfl⟩, ⟨rfl, rfl⟩, ⟨rfl, rfl⟩, ?_, ⟨_, rfl⟩, ?_⟩ <;> decide
theorem witness_GuardedPhase_RejectedPhase :
    let s := guarded .surrogate 0
    s.cur = .tile 0 0 ∧ ((s.advance s.cur (s.slot s.cur).lastDue).tile 0).slots[(0 : Fin 8)].sys = false
    ∧ ((s.advance s.cur (s.slot s.cur).lastDue).tile 0).guard.stage = .surrogate
    ∧ ((s.advance s.cur (s.slot s.cur).lastDue).tile 0).guard.used ≠ 1
    ∧ Cause.bounds ∉ [.overwrite, .preempt, .wdkill, .debug, .restore, .brk, .counter] := by
  refine ⟨rfl, rfl, rfl, ?_, ?_⟩ <;> decide
/-- A trace record on its way to the rim. -/
def traced : Packet := { parcel (.trace 0) with dst := .rim, colour := 15 }
theorem witness_NetworkSteps_trace : (posted traced).fabric[0]? = some traced ∧ traced.dst = .rim
    ∧ (posted traced).hasTurn 0 traced = true := ⟨rfl, rfl, rfl⟩
theorem witness_PlacementSteps_wants :
    ((launched none [{}]).launch 0).wantsTiles = true ∧ (launched none [{}]).replayTurn 0 = true
    ∧ (∃ l, crowded.head 0 = some (1, l) ∧ l.wantsTiles = true) := by
  refine ⟨?_, ?_, ⟨_, rfl, ?_⟩⟩ <;> decide +kernel
theorem witness_EvictionMessages_emptyGang :
    let s := toC { state := .saving, phase := 2, awaiting := [0] } 0x64 0
    ∃ t, s.receives 0 0x64 ⟨stokerCode 0, collierCode, 0x64, 0, 0⟩ t ∧ t.isLive 0 = true
      ∧ (((t.answered 0 0 0).launch 0).gang 0).awaiting = [] ∧ (((t.answered 0 0 0).launch 0).gang 0).phase = 2
      ∧ (((t.answered 0 0 0).launch 0).gang 0).state = .saving ∧ (((t.answered 0 0 0).launch 0).gang 0).regions = [] :=
  ⟨_, ⟨rfl, rfl, by decide, by simp, rfl⟩, rfl, rfl, rfl, rfl, rfl⟩
theorem witness_SwapInMessages_migrate_ends :
    let gone := (moving 0).setTile 0 { (moving 0).tile 0 with occ := none }
    let fused := (stopped (reporting (moving 0) 0)).setTile 0 { (stopped (reporting (moving 0) 0)).tile 0 with fused := true }
    (gone.tile 0).occ ≠ some (0, 0) ∧ (fused.tile 0).occ = some (0, 0)
    ∧ (fused.carryOver { idx := 0, vt := 0, old := 0, new := 1, phase := 0 }).2 = false := by
  refine ⟨?_, rfl, ?_⟩ <;> decide +kernel
theorem witness_WaferTimersAndInterrupts_WaferSteps_edges :
    (State.reset.setLink 0 { State.reset.link 0 with toStoker := 0 } |>.link 0).toStoker = 0 ∧ 16 < (17 : Word).toNat % 32
    ∧ (1 : Word).getLsbD 0 = true ∧ (0 : Word).getLsbD 0 = false ∧ ({ State.reset with rxuBusy := true } : State).rxuBusy = true
    ∧ (0x54F : BitVec 12).toNat < warm.snsWarn.toNat := by
  refine ⟨?_, ?_, ?_, ?_, rfl, ?_⟩ <;> decide +kernel
theorem witness_WaferTimersAndInterrupts_TimerAndInterruptSteps_due :
    let due (s : State) (a : Agent) : Bool :=
      (s.core a).timerArmed && decide ((s.core a).timercmp.toNat ≤ s.tb.toNat) && decide ((s.core a).timerAt < s.tb.toNat)
    due { alarmed with tbOff := 5 } .collier = true ∧ due chief .collier = false
    ∧ due { stoker with tbOff := 5, stokers := Table.put stoker.stokers 0 { stoker.stoker 0 with timerArmed := true } } (.stoker 0) = true
    := by decide +kernel
theorem witness_SpeigAndPairing_refused :
    session.inPart 0 7 = false ∧ session.occupied 0 7 = none ∧ session.partOf 3 ≠ some 0 ∧ session.regionIn 0 5 = false
    ∧ (session.tile 0).isStopped = false := by
  refine ⟨?_, ?_, ?_, ?_, ?_⟩ <;> decide +kernel
theorem witness_SpeigAndPairing_break :
    let s := mailed ((with' user fun sl => { sl with cause := 14 }).setLaunch 0 { user.launch 0 with held := true, stopAll := true }) 0
      (stokerCode 0) 0x02 0
    ∃ t, s.receives 0 0x02 ⟨0, stokerCode 0, 0x02, 0, 0⟩ t ∧ (t.tile 0).occ = some (0, 0) ∧ (t.launch 0).held = true
      ∧ ((t.launch 0).gang ((t.launch 0).gangOf 0)).state ≠ .saving ∧ (∀ x ∈ t.moves, x.old ≠ 0)
      ∧ ((t.tile 0).slots[(0 : Fin 8)].cause.toNat % 256 = 14) :=
  ⟨_, ⟨rfl, rfl, by decide, by simp, rfl⟩, rfl, rfl, by decide, by decide, by decide⟩
theorem witness_StepRunsDecodedInstruction_schedule : (Instr.headAged 0 0).isEvent = true ∧ noping.bootFailed = false
    ∧ byCollier (.headAged 0 0) = false ∧ noping.cur = .tile 0 0 ∧ chief.cur.isCore = true
    ∧ ({ noping with sched := [.selfTestFails 3] } : State).sched = .selfTestFails 3 :: []
    ∧ ({ noping with sched := [.routine 0 0] } : State).sched = .routine 0 0 :: [] := ⟨rfl, rfl, rfl, rfl, rfl, rfl, rfl⟩
theorem witness_RegisterOnlyFrame_forms :
    (∃ r ∈ fpRows1, user.admits (opA 0x0F r.sub 0 Dst.push.code 33 0) ∧ (∃ w, read1 (.n 1) user.opened = .ok w)
      ∧ ∃ u, exec (r.make 0 .push (.n 1)) user = .next u)
    ∧ (∃ r ∈ fmaRows, user.admits (opF 0x10 r.sub 0 Dst.push.code 33 34 3) ∧ (∃ w, read3 (.n 1) (.n 2) (.q 3) user.opened = .ok w)
      ∧ ∃ u, exec (r.make 0 .push (.n 1) (.n 2) 3) user = .next u)
    ∧ (∃ r ∈ immRows ++ shiftRows, (63 : BitVec 10).toNat < 64 ∧ user.admits (opI r.major 0 Dst.push.code 33 63)
      ∧ ∃ u, exec (r.make 0 .push (.n 1) 63) user = .next u)
    ∧ (user.admits (opL 0x0D 0 (Dst.n 1).code 1) ∧ ∃ u, exec (.limh 0 (.n 1) 1) user = .next u)
    ∧ (user.admits (opA 0x01 12 0 Dst.push.code 33 16) ∧ (∃ u, exec (.cmov 0 .push (.n 1) .z) user = .next u)
      ∧ ∃ u, exec (.ins 0 .push (.n 1) .z) user = .next u)
    ∧ (∃ r ∈ shortRows, user.admits (op16 r.major r.sub (r.op * 2048 + (Src5.q 0).code * 64 + (Src5.n 2).code * 2 + r.low))
      ∧ ∃ u, exec (r.make (.q 0) (.n 2)) user = .next u)
    ∧ (user.admits (op16 0x00 3 (0x2800 + (Src5.q 0).code * 64)) ∧ ∃ u, exec (.cMov (.q 0)) user = .next u)
    ∧ ∃ u, exec (.cLimm 5) user = .next u :=
  ⟨⟨fpRows1[0], .head _, ⟨user_may, rfl⟩, ⟨_, rfl⟩, _, rfl⟩, ⟨fmaRows[0], .head _, ⟨user_may, rfl⟩, ⟨_, rfl⟩, _, rfl⟩,
    ⟨immRows[0], .head _, by decide, ⟨user_may, rfl⟩, _, rfl⟩, ⟨⟨user_may, rfl⟩, _, rfl⟩, ⟨⟨user_may, rfl⟩, ⟨_, rfl⟩, _, rfl⟩,
    ⟨shortRows[0], .head _, ⟨user_may, rfl⟩, _, rfl⟩, ⟨⟨user_may, rfl⟩, _, rfl⟩, _, rfl⟩
/-- `given` with page 0 of ASID 0 and a host window of partition 0. -/
def mapped (w : Word) : State :=
  { paged (given w) with partitions := Table.put [] 0 { regions := 1, hostBound := true, hostBase := 0, hostLen := 4096 } }
theorem witness_AccessFrame_places : ∃ f, accessShape (.ld 0 .push (.n 1) 3 0) = some f
    ∧ (∃ p m t u, f.args (mapped 0x40).opened = .ok ((p, m), t) ∧ placeOf anySpace p 8 8 t = .ok (.hbm 0x40, t)
      ∧ t.translates (t.launch (t.tile t.cur.site).name.1).asid (m.reads 0x40 ++ m.writes 0x40) (m.writes 0x40) = true
      ∧ remoteAccess m p .rim (landingOf f.dst) f.wants t = .ok ((), u))
    ∧ (∃ p m t u, f.args (mapped 0x0300000000000040).opened = .ok ((p, m), t) ∧ placeOf anySpace p 8 8 t = .ok (.aperture 0 0x40, t)
      ∧ t.hostInside (t.launch (t.tile t.cur.site).name.1).part (m.reads 0x40 ++ m.writes 0x40) = true
      ∧ remoteAccess m p .rim (landingOf f.dst) f.wants t = .ok ((), u))
    ∧ (∃ p m t, f.args (chiefs 0x40 0).opened = .ok ((p, m), t) ∧ placeOf anySpace p 8 8 t = .ok (.phys 0x40, t)
      ∧ hbmEccHit t.hbmEcc (fun x => x) (m.reads 0x40) = false)
    ∧ ∃ p m t, f.args (chiefs 0x0300000000000040 0).opened = .ok ((p, m), t) ∧ placeOf anySpace p 8 8 t = .ok (.aperture 0 0x40, t)
      ∧ t.cur.isCore = true :=
  ⟨_, rfl, ⟨_, _, _, _, rfl, rfl, by decide +kernel, rfl⟩, ⟨_, _, _, _, rfl, rfl, by decide +kernel, rfl⟩, ⟨_, _, _, rfl, rfl, by decide⟩,
    _, _, _, rfl, rfl, rfl⟩

/-- A vtile on the move from site 0, whose gang has an image at 32 MiB and whose code lies behind a cached page. -/
def departing : State :=
  let s := stopped (reporting (moving 0) 0)
  { s with
    directory := 0, hbm := placed 0x100000 [(0, 0x4E), (1, 0x5A), (2, 0x59), (3, 0x4B), (4, 1), (8, 1)]
    rxu := [((0, 0), (0x100000, true, false, 0))]
    launches := Table.put s.launches 0 { s.launch 0 with gangs := (s.launch 0).gangs.map fun g => { g with image := 0x2000000 } } }
/-- Its tile as SWPOUT finds it. -/
def settled : State := departing.settleAt 0 8
/-- The rim memory of the saved image but for its free bytes. -/
def filled : Memory :=
  let t := settled.tile 0
  let m := Memory.copyIn settled.hbm 0x2000000 t.spad 0 131072
  let m := Memory.copyIn m (0x2000000 + 0x20000) t.shadow 0 4096
  let m := Memory.write m (0x2000000 + 0x21000) 12288 0
  let m := writeFields m 0x2000000 (queueFields t)
  let m := writeFields m 0x2000000 (bufferFields t)
  writeFields m 0x2000000
    [(0x23000, 128, t.fe.toNat),
     (0x23080, 512, packWords (t.counters.toList.map fun c => BitVec.ofNat 64 (c.count.toNat + c.cls.toNat * 2 ^ 32))),
     (0x23280, 2048, t.templates.toList.foldr (fun w acc => w.toNat + acc * 2 ^ 256) 0)]
theorem filled_wf : Memory.wf filled = true := by decide +kernel
/-- The migration of that vtile. -/
def departure : Move := { idx := 0, vt := 0, old := 0, new := 1, phase := 0 }
theorem departing_image : (departing.launch 0).moveImage 0 0 = 0x2000000 := by decide +kernel
theorem departing_swapOut : departing.swapOut 0 0x2000000
    = ((({ settled.sealedFor (some 0) (unitsIn 0x2000000 imageBytes) with
        hbm := (settled.tile 0).writeImage settled.hbm 0x2000000 settled.freeCtr
        hbmEcc := clearEcc settled.hbmEcc 0x2000000 imageBytes
        images := Table.put settled.images 0x2000000 (settled.tile 0).rest
        freeCtr := settled.freeCtr + 896 } : State).setTile 0 { settled.tile 0 with ni := .spill }), 0) := by
  have c1 : settled.powered 0 = true := by decide +kernel
  have c2 : (settled.tile 0).quiescent settled.cycle = true := by decide +kernel
  have c3 : Nat.ble (0x2000000 + imageBytes) Config.hbmBytes = true := by decide +kernel
  have c4 : (settled.tile 0).occ = some (0, 0) := by decide +kernel
  have c5 : (settled.launch 0).part = 0 := by decide +kernel
  unfold State.swapOut
  simp only [show departing.settleAt 0 8 = settled from rfl, c1, c2, c3, c4, Option.map_some, c5]
  rfl
theorem departing_status : (departing.swapOut 0 0x2000000).2 = 0 := by rw [departing_swapOut]
theorem departing_hbm : ∃ v, (departing.swapOut 0 0x2000000).1.hbm = Memory.write filled 0x2023A80 896 v := by
  rw [departing_swapOut]
  exact ⟨bytesToNat ((List.range 896).map fun i => Config.freeByte (settled.freeCtr + i)), by simp [Tile.writeImage, filled, writeFields]⟩
theorem read_filled (v b k : Nat) (h : b + k ≤ 0x2023A80) : Memory.read (Memory.write filled 0x2023A80 896 v) b k = Memory.read filled b k :=
  Memory.read_write_disjoint _ _ _ _ _ _ filled_wf (.inl h)
/-- The code image that the Stoker finds. -/
def movedImage : Image :=
  { header := Memory.read filled 0x100000 160, code := halves (Memory.read filled 0x1000A0 2) 1
    handlers := halves (Memory.read filled 0x100000 160 / 2 ^ 256) 64 }
theorem departing_loads : ∃ i, (departing.swapOut 0 0x2000000).1.loadImage 0 = some i := by
  obtain ⟨v, hv⟩ := departing_hbm
  generalize hs : (departing.swapOut 0 0x2000000).1 = s at hv
  have hd : s.directory = 0 := by rw [← hs]; decide +kernel
  have hr : s.rxu = [((0, 0), (0x100000, true, false, 0))] := by rw [← hs]; decide +kernel
  have he : s.hbmEcc = [] := by rw [← hs]; decide +kernel
  have hl : (s.launch 0).pkt = (departing.launch 0).pkt := by rw [← hs]; rfl
  have page : s.page? 0 0 = some { frame := 0x100000, writable := true, shadowed := false, shadow := 0 } := by
    simp [State.page?, State.cachedPage, hr]
  have d0 : s.hbm64 0 = 0 := by
    rw [State.hbm64, hv, read_filled _ _ _ (by decide)]; decide +kernel
  have d24 : s.hbm64 24 = 0 := by
    rw [State.hbm64, hv, read_filled _ _ _ (by decide)]; decide +kernel
  have r0 : Memory.read s.hbm 0x100000 160 = Memory.read filled 0x100000 160 := by rw [hv, read_filled _ _ _ (by decide)]
  have r1 : Memory.read s.hbm 0x1000A0 2 = Memory.read filled 0x1000A0 2 := by rw [hv, read_filled _ _ _ (by decide)]
  have v0 : s.readVirtual 0 0 160 = some (Memory.read filled 0x100000 160) := by
    rw [← r0]
    simp [State.readVirtual, State.translates, pagesOf, page, hbmEccHit, he, readVia, State.physical]
  have v1 : s.readVirtual 0 160 2 = some (Memory.read filled 0x1000A0 2) := by
    rw [← r1]
    simp [State.readVirtual, State.translates, pagesOf, page, hbmEccHit, he, readVia, State.physical]
  have n1 : bitsOf (Memory.read filled 0x100000 160) 79 64 = 1 := by decide +kernel
  have im : s.readImageAt 0 0 = some movedImage := by
    have a0 : ptrAddr 0#64 = 0 := by decide
    have p0 : ptrSpace 0#64 = 0 := by decide
    simp [State.readImageAt, a0, p0, v0, v1, n1, movedImage]
  have b0 : bitsOf 0 47 32 = 0 := by decide
  have ok : movedImage.ok (departing.launch 0).pkt = true := by decide +kernel
  refine ⟨movedImage, ?_⟩
  unfold State.loadImage
  simp only [hd, Nat.mul_zero, Nat.add_zero, Nat.zero_add, d0, d24, b0]
  change ((s.readImageAt 0 0).filter _) = _
  rw [im, hl, Option.filter_some, ok]
  rfl
/-- A migration whose image is written and loaded. -/
theorem witness_SwapInMessages_migrate_carried : departing.moves.head? = some departure ∧ (departing.tile 0).occ = some (0, 0)
    ∧ (departing.tile 0).reported = true ∧ (departing.tile 0).drained = true
    ∧ (departing.tile 0).quiescent departing.cycle = true ∧ (departing.carryOver departure).2 = true := by
  obtain ⟨i, hi⟩ := departing_loads
  have h : ((departing.swapOut 0 0x2000000).1.swapIn 1 0x2000000).2 = 0 := by
    generalize hs : (departing.swapOut 0 0x2000000).1 = s at hi
    have c1 : s.powered 1 = true := by rw [← hs]; decide +kernel
    have c2 : (s.tile 1).quiescent s.cycle = true := by rw [← hs]; decide +kernel
    have c3 : s.imageOk 0x2000000 = true := by rw [← hs]; decide +kernel
    have c4 : s.assigned 1 = some (0, 0) := by rw [← hs]; decide +kernel
    simp [State.swapIn, c1, c2, c3, c4, hi]
  have e : (departing.launch departure.idx).moveImage departure.idx departure.vt = 0x2000000 := departing_image
  refine ⟨by decide +kernel, by decide +kernel, by decide +kernel, by decide +kernel, by decide +kernel, ?_⟩
  simp only [State.carryOver, e, show departure.old = 0 from rfl, show departure.new = 1 from rfl, departing_status, h]
  rfl

/-! ### Decoding: each instruction of the encoding tables, by a word put together from its match and its operand codes -/

/-- R128 to R138, R144: words of the encoding tables. -/
theorem test_decode_integer_1 : ∀ r ∈ ([
    (32, 0x8169C5D0, .add 5 (.n 9) (.n 17) (.const 5)),
    (32, 0x8169C5D1, .sub 5 (.n 9) (.n 17) (.const 5)),
    (32, 0x8169C5D2, .and 5 (.n 9) (.n 17) (.const 5)),
    (32, 0x8169C5D3, .or 5 (.n 9) (.n 17) (.const 5)),
    (32, 0x8169C5D4, .xor 5 (.n 9) (.n 17) (.const 5)),
    (32, 0x8169C5D5, .andn 5 (.n 9) (.n 17) (.const 5)),
    (32, 0x8169C5D6, .orn 5 (.n 9) (.n 17) (.const 5)),
    (32, 0x8169C5D7, .shl 5 (.n 9) (.n 17) (.const 5)),
    (32, 0x8169C5D8, .shr 5 (.n 9) (.n 17) (.const 5)),
    (32, 0x8169C5D9, .shra 5 (.n 9) (.n 17) (.const 5)),
    (32, 0x8169C5DA, .rot 5 (.n 9) (.n 17) (.const 5)),
    (32, 0x8169C5DB, .min 5 (.n 9) (.n 17) (.const 5)),
    (32, 0x8169C5DC, .max 5 (.n 9) (.n 17) (.const 5)),
    (32, 0x8169C5DD, .minu 5 (.n 9) (.n 17) (.const 5)),
    (32, 0x8169C5DE, .maxu 5 (.n 9) (.n 17) (.const 5)),
    (32, 0x8169C5DF, .mul 5 (.n 9) (.n 17) (.const 5))] : List (Nat × Nat × Instr)),
    decodeTableWord r.1 r.2.1 = some r.2.2 := by decide +kernel
/-- R128 to R138, R144: words of the encoding tables. -/
theorem test_decode_integer_2 : ∀ r ∈ ([
    (32, 0x8369C5D0, .mulh 5 (.n 9) (.n 17) (.const 5)),
    (32, 0x8369C5D1, .mulhu 5 (.n 9) (.n 17) (.const 5)),
    (32, 0x8369C5D2, .div 5 (.n 9) (.n 17) (.const 5)),
    (32, 0x8369C5D3, .divu 5 (.n 9) (.n 17) (.const 5)),
    (32, 0x8369C5D4, .rem 5 (.n 9) (.n 17) (.const 5)),
    (32, 0x8369C5D5, .remu 5 (.n 9) (.n 17) (.const 5)),
    (32, 0x8369C5D6, .cmpeq 5 (.n 9) (.n 17) (.const 5)),
    (32, 0x8369C5D7, .cmpne 5 (.n 9) (.n 17) (.const 5)),
    (32, 0x8369C5D8, .cmplt 5 (.n 9) (.n 17) (.const 5)),
    (32, 0x8369C5D9, .cmpltu 5 (.n 9) (.n 17) (.const 5)),
    (32, 0x8369C5DA, .cmple 5 (.n 9) (.n 17) (.const 5)),
    (32, 0x8369C5DB, .cmpleu 5 (.n 9) (.n 17) (.const 5)),
    (32, 0x8369C5DC, .cmov 5 (.n 9) (.n 17) (.const 5)),
    (32, 0x8369C40D, .clz 5 (.n 9) (.n 17)),
    (32, 0x8369C40E, .ctz 5 (.n 9) (.n 17)),
    (32, 0x8369C40F, .popc 5 (.n 9) (.n 17))] : List (Nat × Nat × Instr)),
    decodeTableWord r.1 r.2.1 = some r.2.2 := by decide +kernel
/-- R128 to R138, R144: words of the encoding tables. -/
theorem test_decode_integer_3 : ∀ r ∈ ([
    (32, 0x8569C5D0, .addw 5 (.n 9) (.n 17) (.const 5)),
    (32, 0x8569C5D1, .subw 5 (.n 9) (.n 17) (.const 5)),
    (32, 0x8569C5D2, .mulw 5 (.n 9) (.n 17) (.const 5)),
    (32, 0x8569C403, .brev 5 (.n 9) (.n 17)),
    (32, 0x8569C404, .bswap 5 (.n 9) (.n 17)),
    (32, 0x8569C5D5, .exts 5 (.n 9) (.n 17) (.const 5)),
    (32, 0x8569C5D6, .extz 5 (.n 9) (.n 17) (.const 5)),
    (32, 0x8569C5D7, .ins 5 (.n 9) (.n 17) (.const 5)),
    (32, 0x9D69C5D0, .addp 5 (.n 9) (.n 17) (.const 5)),
    (32, 0x9D69C5D1, .subp 5 (.n 9) (.n 17) (.const 5)),
    (32, 0x9D69C5D2, .ptag 5 (.n 9) (.n 17) (.const 5)),
    (32, 0x9D69C403, .ptagx 5 (.n 9) (.n 17)),
    (32, 0x9D69C5D4, .pmkt 5 (.n 9) (.n 17) (.const 5)),
    (32, 0x9D69C5D5, .pspace 5 (.n 9) (.n 17) (.const 5))] : List (Nat × Nat × Instr)),
    decodeTableWord r.1 r.2.1 = some r.2.2 := by decide +kernel
/-- R128 to R138, R144: words of the encoding tables. -/
theorem test_decode_immediate : ∀ r ∈ ([
    (32, 0x8769C69B, .addi 5 (.n 9) (.n 17) 667#10),
    (32, 0x8969C69B, .andi 5 (.n 9) (.n 17) 667#10),
    (32, 0x8B69C69B, .ori 5 (.n 9) (.n 17) 667#10),
    (32, 0x8D69C69B, .xori 5 (.n 9) (.n 17) 667#10),
    (32, 0x8F69C69B, .shli 5 (.n 9) (.n 17) 667#10),
    (32, 0x9169C69B, .shri 5 (.n 9) (.n 17) 667#10),
    (32, 0x9369C69B, .shrai 5 (.n 9) (.n 17) 667#10),
    (32, 0x9569C69B, .cmpeqi 5 (.n 9) (.n 17) 667#10),
    (32, 0x9769C69B, .cmplti 5 (.n 9) (.n 17) 667#10),
    (32, 0x9969029B, .limm 5 (.n 9) 667#16),
    (32, 0x9B69029B, .limh 5 (.n 9) 667#16)] : List (Nat × Nat × Instr)),
    decodeTableWord r.1 r.2.1 = some r.2.2 := by decide +kernel
/-- R128 to R138, R144: words of the encoding tables. -/
theorem test_decode_float_1 : ∀ r ∈ ([
    (32, 0x9F69C5D0, .fadd 5 (.n 9) (.n 17) (.const 5)),
    (32, 0x9F69C5D1, .fsub 5 (.n 9) (.n 17) (.const 5)),
    (32, 0x9F69C5D2, .fmul 5 (.n 9) (.n 17) (.const 5)),
    (32, 0x9F69C5D3, .fdiv 5 (.n 9) (.n 17) (.const 5)),
    (32, 0x9F69C404, .fsqrt 5 (.n 9) (.n 17)),
    (32, 0x9F69C5D5, .fmin 5 (.n 9) (.n 17) (.const 5)),
    (32, 0x9F69C5D6, .fmax 5 (.n 9) (.n 17) (.const 5)),
    (32, 0x9F69C5D7, .fcmpeq 5 (.n 9) (.n 17) (.const 5)),
    (32, 0x9F69C5D8, .fcmplt 5 (.n 9) (.n 17) (.const 5)),
    (32, 0x9F69C5D9, .fcmple 5 (.n 9) (.n 17) (.const 5)),
    (32, 0x9F69C40A, .fcvtif 5 (.n 9) (.n 17)),
    (32, 0x9F69C40B, .fcvtfi 5 (.n 9) (.n 17)),
    (32, 0x9F69C40C, .fclass 5 (.n 9) (.n 17)),
    (32, 0x9F69C40D, .fabs 5 (.n 9) (.n 17)),
    (32, 0x9F69C40E, .fneg 5 (.n 9) (.n 17)),
    (32, 0x9F69C5DF, .fsgnj 5 (.n 9) (.n 17) (.const 5))] : List (Nat × Nat × Instr)),
    decodeTableWord r.1 r.2.1 = some r.2.2 := by decide +kernel
/-- R128 to R138, R144: words of the encoding tables. -/
theorem test_decode_float_2 : ∀ r ∈ ([
    (32, 0xA169C5D3, .fma 5 (.n 9) (.n 17) (.const 5) 3#2),
    (32, 0xA169C5D7, .fms 5 (.n 9) (.n 17) (.const 5) 3#2),
    (32, 0xA169C5DB, .fnma 5 (.n 9) (.n 17) (.const 5) 3#2),
    (32, 0xA169C5DF, .fnms 5 (.n 9) (.n 17) (.const 5) 3#2)] : List (Nat × Nat × Instr)),
    decodeTableWord r.1 r.2.1 = some r.2.2 := by decide +kernel
/-- R128 to R138, R144: words of the encoding tables. -/
theorem test_decode_control_1 : ∀ r ∈ ([
    (32, 0xA343029B, .bz 5 (.q 3) 667#16),
    (32, 0xA543029B, .bnz 5 (.q 3) 667#16),
    (32, 0xA743029B, .bltz 5 (.q 3) 667#16),
    (32, 0xA943029B, .bgez 5 (.q 3) 667#16),
    (32, 0xAB50029B, .br 5 667#16),
    (32, 0xAD50029B, .call 5 667#16),
    (32, 0xAF43029B, .loop 5 (.q 3) 667#16),
    (32, 0xB140C400, .jr 5 (.n 17)),
    (32, 0xB1400001, .ret 5),
    (32, 0xB1400002, .yield 5),
    (32, 0xB1400003, .done 5),
    (32, 0xB1400004, .donef 5),
    (32, 0xB1400005, .nop 5),
    (32, 0xB140C406, .waitf 5 (.n 17)),
    (32, 0xB140C407, .femark 5 (.n 17)),
    (32, 0xB140C408, .fefill 5 (.n 17))] : List (Nat × Nat × Instr)),
    decodeTableWord r.1 r.2.1 = some r.2.2 := by decide +kernel
/-- R128 to R138, R144: words of the encoding tables. -/
theorem test_decode_control_2 : ∀ r ∈ ([
    (32, 0xB169C409, .fetest 5 (.n 9) (.n 17)),
    (32, 0xB169C40A, .bararr 5 (.n 9) (.n 17)),
    (32, 0xB169C5DB, .barwait 5 (.n 9) (.n 17) (.const 5)),
    (32, 0xB369029B, .crd 5 (.n 9) 667#10),
    (32, 0xB550C69B, .cwr 5 (.n 17) 667#10),
    (32, 0xB7400030, .fenceRel 5 3#3),
    (32, 0xB7400031, .fenceAcq 5 3#3),
    (32, 0xB7400032, .fenceFull 5 3#3),
    (32, 0xB7400013, .fenceLb 5)] : List (Nat × Nat × Instr)),
    decodeTableWord r.1 r.2.1 = some r.2.2 := by decide +kernel
/-- R128 to R138, R144: words of the encoding tables. -/
theorem test_decode_memory : ∀ r ∈ ([
    (32, 0xB969879B, .ld 5 (.n 9) (.n 1) 3#2 155#8),
    (32, 0xBB69879B, .lds 5 (.n 9) (.n 1) 3#2 155#8),
    (32, 0xBD7E879B, .st 5 (.n 30) (.n 1) 3#2 155#8),
    (32, 0xBF69C5D0, .ldx 5 (.n 9) (.n 17) (.const 5)),
    (32, 0xBF7EC5D1, .stx 5 (.n 30) (.n 17) (.const 5)),
    (32, 0xBF69C5D2, .ldt 5 (.n 9) (.n 17) (.const 5)),
    (32, 0xBF7EC5D3, .stf 5 (.n 30) (.n 17) (.const 5))] : List (Nat × Nat × Instr)),
    decodeTableWord r.1 r.2.1 = some r.2.2 := by decide +kernel
/-- R128 to R138, R144: words of the encoding tables. -/
theorem test_decode_atomic_1 : ∀ r ∈ ([
    (32, 0xC169C5D0, .aadd 5 (.n 9) (.n 17) (.const 5)),
    (32, 0xC169C5D1, .amax 5 (.n 9) (.n 17) (.const 5)),
    (32, 0xC169C5D2, .amin 5 (.n 9) (.n 17) (.const 5)),
    (32, 0xC169C5D3, .amaxu 5 (.n 9) (.n 17) (.const 5)),
    (32, 0xC169C5D4, .aminu 5 (.n 9) (.n 17) (.const 5)),
    (32, 0xC169C5D5, .aand 5 (.n 9) (.n 17) (.const 5)),
    (32, 0xC169C5D6, .aor 5 (.n 9) (.n 17) (.const 5)),
    (32, 0xC169C5D7, .axor 5 (.n 9) (.n 17) (.const 5)),
    (32, 0xC169C5D8, .aswap 5 (.n 9) (.n 17) (.const 5)),
    (32, 0xC169C5D9, .acas 5 (.n 9) (.n 17) (.const 5)),
    (32, 0xC169C5DA, .afxadd 5 (.n 9) (.n 17) (.const 5)),
    (32, 0xC169C40B, .afxrd 5 (.n 9) (.n 17)),
    (32, 0xC169C5DC, .afxset 5 (.n 9) (.n 17) (.const 5)),
    (32, 0xC169C5DD, .aamax 5 (.n 9) (.n 17) (.const 5)),
    (32, 0xC35CC5D0, .vaadd 5 (.v 12) (.n 17) (.const 5)),
    (32, 0xC35CC5D1, .vamaxabs 5 (.v 12) (.n 17) (.const 5))] : List (Nat × Nat × Instr)),
    decodeTableWord r.1 r.2.1 = some r.2.2 := by decide +kernel
/-- R128 to R138, R144: words of the encoding tables. -/
theorem test_decode_atomic_2 : ∀ r ∈ ([
    (32, 0xC35CC572, .vafx 5 (.v 12) (.n 17) (.v 7)),
    (32, 0xC35CC403, .vamaxDrain 5 (.v 12) (.n 17))] : List (Nat × Nat × Instr)),
    decodeTableWord r.1 r.2.1 = some r.2.2 := by decide +kernel
/-- R128 to R138, R144: words of the encoding tables. -/
theorem test_decode_vectorInteger : ∀ r ∈ ([
    (32, 0xC55A0978, .vadd 5 (.v 10) (.vq 2) (.v 7) 2),
    (32, 0xC55A0979, .vsub 5 (.v 10) (.vq 2) (.v 7) 2),
    (32, 0xC55A097A, .vmul 5 (.v 10) (.vq 2) (.v 7) 2),
    (32, 0xC55A097B, .vmulh 5 (.v 10) (.vq 2) (.v 7) 2),
    (32, 0xC75A0978, .vand 5 (.v 10) (.vq 2) (.v 7) 2),
    (32, 0xC75A0979, .vor 5 (.v 10) (.vq 2) (.v 7) 2),
    (32, 0xC75A097A, .vxor 5 (.v 10) (.vq 2) (.v 7) 2),
    (32, 0xC75A097B, .vandn 5 (.v 10) (.vq 2) (.v 7) 2),
    (32, 0xC95A0978, .vshl 5 (.v 10) (.vq 2) (.v 7) 2),
    (32, 0xC95A0979, .vshr 5 (.v 10) (.vq 2) (.v 7) 2),
    (32, 0xC95A097A, .vshra 5 (.v 10) (.vq 2) (.v 7) 2),
    (32, 0xC95A097B, .vabsd 5 (.v 10) (.vq 2) (.v 7) 2),
    (32, 0xCB5A0978, .vmin 5 (.v 10) (.vq 2) (.v 7) 2),
    (32, 0xCB5A0979, .vmax 5 (.v 10) (.vq 2) (.v 7) 2),
    (32, 0xCB5A097A, .vminu 5 (.v 10) (.vq 2) (.v 7) 2),
    (32, 0xCB5A097B, .vmaxu 5 (.v 10) (.vq 2) (.v 7) 2)] : List (Nat × Nat × Instr)),
    decodeTableWord r.1 r.2.1 = some r.2.2 := by decide +kernel
/-- R128 to R138, R144: words of the encoding tables. -/
theorem test_decode_vectorFloat : ∀ r ∈ ([
    (32, 0xCD5A0978, .vfadd 5 (.v 10) (.vq 2) (.v 7) 2),
    (32, 0xCD5A0979, .vfsub 5 (.v 10) (.vq 2) (.v 7) 2),
    (32, 0xCD5A097A, .vfmul 5 (.v 10) (.vq 2) (.v 7) 2),
    (32, 0xCD5A097B, .vfdiv 5 (.v 10) (.vq 2) (.v 7) 2),
    (32, 0xCF5A0978, .vfmin 5 (.v 10) (.vq 2) (.v 7) 2),
    (32, 0xCF5A0979, .vfmax 5 (.v 10) (.vq 2) (.v 7) 2),
    (32, 0xCF5A080A, .vfabs 5 (.v 10) (.vq 2) 2),
    (32, 0xCF5A080B, .vfneg 5 (.v 10) (.vq 2) 2),
    (32, 0xD15A0973, .vfma 5 (.v 10) (.vq 2) (.v 7) 3#2),
    (32, 0xD15A0977, .vfms 5 (.v 10) (.vq 2) (.v 7) 3#2),
    (32, 0xD15A097B, .vfnma 5 (.v 10) (.vq 2) (.v 7) 3#2),
    (32, 0xD15A097F, .vfnms 5 (.v 10) (.vq 2) (.v 7) 3#2)] : List (Nat × Nat × Instr)),
    decodeTableWord r.1 r.2.1 = some r.2.2 := by decide +kernel
/-- R128 to R138, R144: words of the encoding tables. -/
theorem test_decode_vectorCompare : ∀ r ∈ ([
    (32, 0xD3410978, .vcmpeq 5 1 (.vq 2) (.v 7) 2),
    (32, 0xD3410979, .vcmplt 5 1 (.vq 2) (.v 7) 2),
    (32, 0xD341097A, .vcmpltu 5 1 (.vq 2) (.v 7) 2),
    (32, 0xD341097B, .vcmple 5 1 (.vq 2) (.v 7) 2),
    (32, 0xD5410978, .vfcmpeq 5 1 (.vq 2) (.v 7) 2),
    (32, 0xD5410979, .vfcmplt 5 1 (.vq 2) (.v 7) 2),
    (32, 0xD541097A, .vfcmple 5 1 (.vq 2) (.v 7) 2),
    (32, 0xD541097B, .vfcmpun 5 1 (.vq 2) (.v 7) 2)] : List (Nat × Nat × Instr)),
    decodeTableWord r.1 r.2.1 = some r.2.2 := by decide +kernel
/-- R128 to R138, R144: words of the encoding tables. -/
theorem test_decode_vectorMove : ∀ r ∈ ([
    (32, 0xD75A0978, .vsel 5 (.v 10) (.vq 2) (.v 7) 2),
    (32, 0xD75A09D9, .vbcast 5 (.v 10) (.vq 2) (.const 5) 2),
    (32, 0xD76909DA, .vextr 5 (.n 9) (.vq 2) (.const 5) 2),
    (32, 0xD75A09DB, .vins 5 (.v 10) (.vq 2) (.const 5) 2),
    (32, 0xD95A0978, .vperm 5 (.v 10) (.vq 2) (.v 7) 2),
    (32, 0xD95A09D9, .vrot 5 (.v 10) (.vq 2) (.const 5) 2),
    (32, 0xD95A080A, .vcomp 5 (.v 10) (.vq 2) 2),
    (32, 0xD95A080B, .vexpn 5 (.v 10) (.vq 2) 2)] : List (Nat × Nat × Instr)),
    decodeTableWord r.1 r.2.1 = some r.2.2 := by decide +kernel
/-- R128 to R138, R144: words of the encoding tables. -/
theorem test_decode_vectorReduce_1 : ∀ r ∈ ([
    (32, 0xDB690808, .vredadd 5 (.n 9) (.vq 2) 2),
    (32, 0xDB690809, .vredmax 5 (.n 9) (.vq 2) 2),
    (32, 0xDB69080A, .vredmin 5 (.n 9) (.vq 2) 2),
    (32, 0xDB69080B, .vfredadd 5 (.n 9) (.vq 2) 2),
    (32, 0xDD5A0808, .vcvt 5 (.v 10) (.vq 2) 2),
    (32, 0xDD5A0809, .vwiden 5 (.v 10) (.vq 2) 2),
    (32, 0xDD5A080A, .vnarrow 5 (.v 10) (.vq 2) 2),
    (32, 0xDD5A080B, .vround 5 (.v 10) (.vq 2) 2),
    (32, 0xDF5A0808, .vfexp 5 (.v 10) (.vq 2) 2),
    (32, 0xDF5A0809, .vflog 5 (.v 10) (.vq 2) 2),
    (32, 0xDF5A080A, .vfrecip 5 (.v 10) (.vq 2) 2),
    (32, 0xDF5A080B, .vfrsqrt 5 (.v 10) (.vq 2) 2),
    (32, 0xE15A0808, .vftanh 5 (.v 10) (.vq 2) 2),
    (32, 0xE15A0809, .vfsigm 5 (.v 10) (.vq 2) 2),
    (32, 0xE15A080A, .vfsin 5 (.v 10) (.vq 2) 2),
    (32, 0xE15A080B, .vfcos 5 (.v 10) (.vq 2) 2)] : List (Nat × Nat × Instr)),
    decodeTableWord r.1 r.2.1 = some r.2.2 := by decide +kernel
/-- R128 to R138, R144: words of the encoding tables. -/
theorem test_decode_vectorReduce_2 : ∀ r ∈ ([
    (32, 0xE3690808, .vamax 5 (.n 9) (.vq 2) 2),
    (32, 0xE35A0809, .vquant 5 (.v 10) (.vq 2) 2),
    (32, 0xE35A09DA, .vscale 5 (.v 10) (.vq 2) (.const 5) 2),
    (32, 0xE35A097B, .vdot 5 (.v 10) (.vq 2) (.v 7) 2)] : List (Nat × Nat × Instr)),
    decodeTableWord r.1 r.2.1 = some r.2.2 := by decide +kernel
/-- R128 to R138, R144: words of the encoding tables. -/
theorem test_decode_mask : ∀ r ∈ ([
    (32, 0xE5410838, .mand 5 1 2 3 2),
    (32, 0xE5410839, .mor 5 1 2 3 2),
    (32, 0xE541083A, .mxor 5 1 2 3 2),
    (32, 0xE541080B, .mnot 5 1 2 2),
    (32, 0xE7690808, .mpop 5 (.n 9) 2 2),
    (32, 0xE7690809, .mfirst 5 (.n 9) 2 2),
    (32, 0xE741C40A, .msetn 5 1 (.n 17) 2),
    (32, 0xE75A080B, .viota 5 (.v 10) 2 2),
    (32, 0xE95A0800, .vgetsc 5 (.v 10) (.vq 2)),
    (32, 0xE95A0971, .vsetsc 5 (.v 10) (.vq 2) (.v 7)),
    (32, 0xE95A0802, .vmov 5 (.v 10) (.vq 2)),
    (32, 0xE9690003, .vlanes 5 (.n 9))] : List (Nat × Nat × Instr)),
    decodeTableWord r.1 r.2.1 = some r.2.2 := by decide +kernel
/-- R128 to R138, R144: words of the encoding tables. -/
theorem test_decode_vectorMemory : ∀ r ∈ ([
    (32, 0xEB5AC5D0, .vld 5 (.v 10) (.n 17) (.const 5)),
    (32, 0xEB5CC5D1, .vst 5 (.v 12) (.n 17) (.const 5)),
    (32, 0xEB5AC5D2, .vldc 5 (.v 10) (.n 17) (.const 5)),
    (32, 0xEB5CC5D3, .vstc 5 (.v 12) (.n 17) (.const 5)),
    (32, 0xEB5AC5D4, .vlds 5 (.v 10) (.n 17) (.const 5)),
    (32, 0xEB5CC5D5, .vsts 5 (.v 12) (.n 17) (.const 5)),
    (32, 0xEB5AC576, .vgath 5 (.v 10) (.n 17) (.v 7)),
    (32, 0xEB5CC577, .vscat 5 (.v 12) (.n 17) (.v 7))] : List (Nat × Nat × Instr)),
    decodeTableWord r.1 r.2.1 = some r.2.2 := by decide +kernel
/-- R128 to R138, R144: words of the encoding tables. -/
theorem test_decode_matrix : ∀ r ∈ ([
    (32, 0xED581080, .tld 5 3#3 (.n 1)),
    (32, 0xED431081, .tst 5 3#3 (.n 1)),
    (32, 0xED580002, .tzero 5 3#3),
    (32, 0xED5B70B3, .mma 5 3#3 3#3 3#3 (.n 1) 3#3),
    (32, 0xED5B70B4, .mmas 5 3#3 3#3 3#3 (.n 1) 3#3),
    (32, 0xED5B6005, .tadd 5 3#3 3#3 3#3),
    (32, 0xED5B1086, .tcvt 5 3#3 3#3 (.n 1)),
    (32, 0xED5B0007, .ttrans 5 3#3 3#3),
    (32, 0xED431088, .trowv 5 3#3 (.n 1)),
    (32, 0xED5B1089, .tvrow 5 3#3 3#2 (.n 1))] : List (Nat × Nat × Instr)),
    decodeTableWord r.1 r.2.1 = some r.2.2 := by decide +kernel
/-- R128 to R138, R144: words of the encoding tables. -/
theorem test_decode_message : ∀ r ∈ ([
    (32, 0xEF40C5D0, .send 5 (.n 17) (.const 5)),
    (32, 0xEF7EC5D1, .sends 5 (.n 30) (.n 17) (.const 5)),
    (32, 0xEF40C572, .sendv 5 (.n 17) (.v 7)),
    (32, 0xEF7EC5D3, .senda 5 (.n 30) (.n 17) (.const 5)),
    (32, 0xEF690004, .mlen 5 (.n 9)),
    (32, 0xEF690005, .msrc 5 (.n 9)),
    (32, 0xEF69C406, .launch 5 (.n 9) (.n 17)),
    (32, 0xEF40C5D7, .cntset 5 (.n 17) (.const 5))] : List (Nat × Nat × Instr)),
    decodeTableWord r.1 r.2.1 = some r.2.2 := by decide +kernel
/-- R128 to R138, R144: words of the encoding tables. -/
theorem test_decode_register : ∀ r ∈ ([
    (32, 0xF1696C10, .rcap 5 (.n 9) 27#6 1#1),
    (32, 0xF140C5D1, .rput 5 (.n 17) (.const 5)),
    (32, 0xF140C572, .rputv 5 (.n 17) (.v 7)),
    (32, 0xF140C5D3, .rputr 5 (.n 17) (.const 5)),
    (32, 0xF15B6C04, .rtake 5 27#6 27#6),
    (32, 0xF1406C05, .rempty 5 27#6),
    (32, 0xF1696C06, .rfull 5 (.n 9) 27#6),
    (32, 0xF15B6C07, .rwait 5 27#6 27#6)] : List (Nat × Nat × Instr)),
    decodeTableWord r.1 r.2.1 = some r.2.2 := by decide +kernel
/-- R128 to R138, R144: words of the encoding tables. -/
theorem test_decode_copy : ∀ r ∈ ([
    (32, 0xF369C5D0, .xcopy 5 (.n 9) (.n 17) (.const 5)),
    (32, 0xF369C5D1, .xcopym 5 (.n 9) (.n 17) (.const 5)),
    (32, 0xF343C5D2, .xstrm 5 3#3 (.n 17) (.const 5)),
    (32, 0xF34B0002, .xstrmOff 5 3#3),
    (32, 0xF369C403, .xwait 5 (.n 9) (.n 17)),
    (32, 0xF369C404, .xpoll 5 (.n 9) (.n 17)),
    (32, 0xF340C5D5, .xtdef 5 (.n 17) (.const 5)),
    (32, 0xF369C5D6, .xdig 5 (.n 9) (.n 17) (.const 5))] : List (Nat × Nat × Instr)),
    decodeTableWord r.1 r.2.1 = some r.2.2 := by decide +kernel
/-- R128 to R138, R144: words of the encoding tables. -/
theorem test_decode_guard : ∀ r ∈ ([
    (32, 0xF5400000, .gres 5),
    (32, 0xF5400001, .gend 5),
    (32, 0xF5690002, .gqry 5 (.n 9)),
    (32, 0xF540C5D3, .gwin 5 (.n 17) (.const 5))] : List (Nat × Nat × Instr)),
    decodeTableWord r.1 r.2.1 = some r.2.2 := by decide +kernel
/-- R128 to R138, R144: words of the encoding tables. -/
theorem test_decode_system_1 : ∀ r ∈ ([
    (32, 0xF74001B0, .trap 5 27#6),
    (32, 0xF74001B1, .brk 5 27#6),
    (32, 0xF7690002, .rdtb 5 (.n 9)),
    (32, 0xF740C5B3, .trmark 5 (.n 17) 27#6),
    (32, 0xF94001B0, .eret 5 27#6),
    (32, 0xF9400011, .saveq 5 1#1),
    (32, 0xF9400012, .restq 5 1#1),
    (32, 0xF969C5D3, .drain 5 (.n 9) (.n 17) (.const 5)),
    (32, 0xF969C5D4, .colr 5 (.n 9) (.n 17) (.const 5)),
    (32, 0xF969C5D5, .ncinv 5 (.n 9) (.n 17) (.const 5)),
    (32, 0xF940C5D6, .wdset 5 (.n 17) (.const 5)),
    (32, 0xF96901B7, .haltt 5 (.n 9) 27#6),
    (32, 0xF9400008, .idle 5),
    (32, 0xF940C5D9, .svsend 5 (.n 17) (.const 5)),
    (32, 0xF969C40A, .svrecv 5 (.n 9) (.n 17)),
    (32, 0xF969000B, .intack 5 (.n 9))] : List (Nat × Nat × Instr)),
    decodeTableWord r.1 r.2.1 = some r.2.2 := by decide +kernel
/-- R128 to R138, R144: words of the encoding tables. -/
theorem test_decode_system_2 : ∀ r ∈ ([
    (32, 0xF969C40C, .prcr 5 (.n 9) (.n 17)),
    (32, 0xF940C5DD, .pcwr 5 (.n 17) (.const 5)),
    (32, 0xF969C5DE, .swpout 5 (.n 9) (.n 17) (.const 5)),
    (32, 0xF969C5DF, .swpin 5 (.n 9) (.n 17) (.const 5)),
    (32, 0xFB40C5D0, .fwdset 5 (.n 17) (.const 5)),
    (32, 0xFB69C401, .resett 5 (.n 9) (.n 17)),
    (32, 0xFB40C5D2, .thrset 5 (.n 17) (.const 5)),
    (32, 0xFB40C403, .slotkill 5 (.n 17))] : List (Nat × Nat × Instr)),
    decodeTableWord r.1 r.2.1 = some r.2.2 := by decide +kernel
/-- R128 to R138, R144: words of the encoding tables. -/
theorem test_decode_short_1 : ∀ r ∈ ([
    (16, 0x0000, .nop16),
    (16, 0x0001, .done16),
    (16, 0x0002, .donef16),
    (16, 0x0003, .yield16),
    (16, 0x0004, .ret16),
    (16, 0x0005, .brk16),
    (16, 0x0D96, .cAdd (.n 6) (.q 11)),
    (16, 0x1596, .cSub (.n 6) (.q 11)),
    (16, 0x1D96, .cAnd (.n 6) (.q 11)),
    (16, 0x2596, .cOr (.n 6) (.q 11)),
    (16, 0x2597, .cXor (.n 6) (.q 11)),
    (16, 0x2D80, .cMov (.n 6)),
    (16, 0x359B, .cAddi (.n 6) 27#6),
    (16, 0x3A9B, .cLimm 667#11),
    (16, 0x459B, .cShli (.n 6) 27#6),
    (16, 0x4D9B, .cShri (.n 6) 27#6)] : List (Nat × Nat × Instr)),
    decodeTableWord r.1 r.2.1 = some r.2.2 := by decide +kernel
/-- R128 to R138, R144: words of the encoding tables. -/
theorem test_decode_short_2 : ∀ r ∈ ([
    (16, 0x529B, .cBr 667#11),
    (16, 0x5D9B, .cBz (.n 6) 27#6),
    (16, 0x659B, .cBnz (.n 6) 27#6),
    (16, 0x6D9B, .cLd (.n 6) 27#6),
    (16, 0x759B, .cSt (.n 6) 27#6)] : List (Nat × Nat × Instr)),
    decodeTableWord r.1 r.2.1 = some r.2.2 := by decide +kernel

/-! ### Well-formedness refuses what does not exist -/

theorem wf_refuses_dst : (Instr.add 0 (.ill 0) (.q 0) (.q 1)).wf = false ∧ (Instr.add 0 (.ill 40) (.q 0) (.q 1)).wf = false
    ∧ (Instr.add 0 (.ill 5) (.q 0) (.q 1)).wf = true := by decide
theorem wf_refuses_vsrc : (Instr.vadd 0 .push (.ill 2) (.vq 0) 0).wf = false ∧ (Instr.vadd 0 .push (.vq 0) (.ill 48) 0).wf = false
    ∧ (Instr.vadd 0 .push (.ill 4) (.ill 38) 0).wf = true := by decide
theorem wf_refuses_vdst : (Instr.vadd 0 (.ill 0) (.vq 0) (.vq 1) 0).wf = false ∧ (Instr.vadd 0 (.ill 16) (.vq 0) (.vq 1) 0).wf = false
    ∧ (Instr.vadd 0 (.ill 63) (.vq 0) (.vq 1) 0).wf = true := by decide
theorem wf_refuses_site : (Instr.dispatch 262144).wf = false ∧ (Instr.dispatch 262143).wf = true := by decide
theorem wf_refuses_region : (Instr.captureClear 64).wf = false ∧ (Instr.captureClear 63).wf = true := by decide
theorem wf_refuses_partition : (Instr.speigOpen 64 true).wf = false ∧ (Instr.preEmption 0 281474976710656).wf = false
    ∧ (Instr.preEmption 63 0).wf = true := by decide
theorem wf_refuses_queue : (Instr.pairTimeout 65536).wf = false ∧ (Instr.doorbell 64 0 0).wf = false
    ∧ (Instr.doorbell 63 65535 0).wf = true := by decide
theorem wf_refuses_index : (Instr.launchStart 65536).wf = false ∧ (Instr.pstop 0 16777216).wf = false
    ∧ (Instr.pstop 65535 16777215).wf = true := by decide
theorem wf_refuses_slot : (Instr.watchdogExpiry 512).wf = false ∧ (Instr.watchdogExpiry 511).wf = true := by decide
theorem wf_refuses_agent : (Instr.timerMatch (.stoker 64)).wf = false ∧ (Instr.fixedLatencyCompletion (.tile 262144 0)).wf = false
    ∧ (Instr.timerMatch .collier).wf = true := by decide

/-! ### Words that stand for no instruction -/

/-- R137, R138, R144: majors 0x3E and 0x3F, an unassigned minor, a reserved field that is not zero. -/
theorem test_decode_refuses : decodeTableWord 32 0xFC000000 = none ∧ decodeTableWord 32 0xFE000000 = none
    ∧ decodeTableWord 32 0xB000000C = none ∧ decodeTableWord 32 0xB0000015 = none ∧ decodeTableWord 16 0x0801 = none := by decide

/-! ### Values of the specification's worked examples -/

/-- The state after a step, or the reset state. -/
def nextOf : Result → State
  | .next t => t
  | _ => State.reset
/-- R159. -/
theorem test_exts : ((nextOf (exec (.exts 0 (.n 7) (.n 1) (.n 2)) (given2 0xF00000 0x814))).slot user.cur).n[7] = 0xF
    ∧ ((nextOf (exec (.exts 0 (.n 7) (.n 1) (.n 2)) (given2 0xF00000 0x43C))).slot user.cur).n[7] = 0 := by decide +kernel
/-- R16: the identifier of vtile 45. -/
theorem test_wid : ({ widths := [4, 4, 8, 0, 0, 0], extents := [8, 4, 2, 0, 0, 0], widbase := 0x1000000000000000 } : Packet128).wid 45
    = 0x1000000000000115 := by decide +kernel
/-- R433: 2.0 by −0 in E4M3. -/
theorem test_e4m3_division_by_zero : (floatDiv 7 ⟨0, 0, false⟩ 0x40 0x80) = (0xFE, 0x16) := by decide +kernel
/-- R95: a cell set with s = 160, 0.1 three times and −0.1 once. -/
theorem test_fixed_point_cell :
    cellRead (cellAdd (cellAdd (cellAdd (cellAdd (cellSet 0 160) 0x3DCCCCCD) 0x3DCCCCCD) 0xBDCCCCCD) 0x3DCCCCCD) = 0x3E4CCCCD := by
  decide +kernel
/-- R121. -/
theorem test_bararr : barrierArrive 0x200000001 = 0x8000000200000000 := by decide +kernel
/-- R270: FSQRT of 3.0. -/
theorem test_fsqrt : (floatSqrt 4 ⟨0, 0, false⟩ 0x40400000).1 = 0x3FDDB3D7 := by decide +kernel
/-- R133: the branch of `c.bnz q0, -4` at index 30. -/
theorem test_c_bnz : decodeTableWord 16 0x603C = some (.cBnz (.q 0) (BitVec.ofInt 6 (-4)))
    ∧ ((nextOf (exec (.cBnz (.q 0) (BitVec.ofInt 6 (-4)))
        (with' user fun sl => { sl with pc := 30, q := sl.q.set 0 { val := 1 } }))).slot user.cur).pc = 26 := by decide +kernel
/-- R63, R281, R310: a misaligned LD.D in slot 5. -/
theorem test_alignment_trap :
    let s : State := { user.setSlot (.tile 0 5) { user.slot (.tile 0 0) with res := false, pc := 140, n := (Vector.replicate 32 0).set 3 0x0200000000000104 }
      with cur := .tile 0 5 }
    let u := (nextOf (exec (.ld 0 .push (.n 3) 3 0) s)).slot (.tile 0 5)
    u.epc = 0x8C ∧ u.cause = 0x1409 ∧ u.tval = 0x0200000000000104 ∧ u.sys = true ∧ u.pc = 0 := by decide +kernel
/-- R241: the fields of the example's headers. -/
theorem test_header : hdrVt 0x90400A00600 = 9 ∧ hdrClass 0x90400A00600 = 4 ∧ hdrPrio 0x90400A00600 = 2 ∧ hdrLen 0x90400A00600 = 3
    ∧ hdrKind 0x94501200000 = 1 ∧ hdrClass 0x94501200000 = 5 ∧ hdrDec 0x94501200000 = 1 := by decide +kernel
/-- R191: the tree sum of 2^24, 1, 1 and 1, and NX. -/
theorem test_vfredadd :
    redTree { fmt := 4, lanes := 128, width := 32, active := 0xF, v := 4, rounding := rne }
      (0x4B800000 + 0x3F800000 * (2 ^ 32 + 2 ^ 64 + 2 ^ 96)) = (0x4B800001, 0x10) := by decide +kernel
/-- R272: the two `brk` rows. Without a session the vtile stops, as the class-63 entry is absent; under one it saves itself and goes on. -/
theorem test_brk :
    ((nextOf ((inRoutine 14 0).routineStep 0 0)).tile 0).stop = true
    ∧ (let t := nextOf (State.routineStep ((inRoutine 14 0).setLaunch 0 { system.launch 0 with held := true }) 0 0)
      (t.tile 0).stop = false ∧ (t.tile 0).recThread ((t.launch 0).pkt.recordAt 0) = true) := by decide +kernel

end

end Sys2Proof.Tests
end

section
/-! SUPPORT. Running the body of an instruction: each part of a body applied to a state, and what an admitted instruction comes to
when its own effect is performed or stops. -/

namespace Sys2Proof.Machine

/-! ### Bodies applied to a state -/

/-- A sequence runs its second part from where the first one left, and stops with it. -/
theorem M.bind_apply {α β : Type} (m : M α) (f : α → M β) (s : State) :
    (m >>= f) s = (m s).bind fun r => f r.1 r.2 := rfl

@[simp] theorem M.ok_bind {α β : Type} (r : α × State) (f : α × State → Except Stop (β × State)) :
    (Except.ok r : Except Stop (α × State)).bind f = f r := rfl

@[simp] theorem M.error_bind {α β : Type} (e : Stop) (f : α × State → Except Stop (β × State)) :
    (Except.error e : Except Stop (α × State)).bind f = .error e := rfl

/-- A value mapped over a body's answer. -/
theorem M.map_apply {α β : Type} (f : α → β) (m : M α) (s : State) :
    (f <$> m) s = (m s).bind fun r => .ok (f r.1, r.2) := rfl

/-- A choice between two bodies, applied. -/
theorem M.ite_apply {α : Type} (c : Prop) [Decidable c] (m n : M α) (s : State) :
    (if c then m else n) s = if c then m s else n s := by
  split <;> rfl

@[simp] theorem require_true (e : Stop) : require true e = pure () := rfl

@[simp] theorem require_false (e : Stop) : require false e = throw e := rfl

@[simp] theorem getSlot_apply (s : State) : getSlot s = .ok (s.slot s.cur, s) := rfl

@[simp] theorem putSlot_apply (x : Slot) (s : State) : putSlot x s = .ok ((), s.setSlot s.cur x) := rfl

@[simp] theorem modSlot_apply (f : Slot → Slot) (s : State) :
    modSlot f s = .ok ((), s.setSlot s.cur (f (s.slot s.cur))) := rfl

@[simp] theorem getTile_apply (s : State) : getTile s = .ok (s.tile s.cur.site, s) := rfl

@[simp] theorem modTile_apply (f : Tile → Tile) (s : State) :
    modTile f s = .ok ((), s.setTile s.cur.site (f (s.tile s.cur.site))) := rfl

@[simp] theorem getLaunch_apply (s : State) : getLaunch s = .ok (s.launch (s.tile s.cur.site).name.1, s) := rfl

@[simp] theorem deliver_apply (d : Dst) (v : Word) (s : State) : deliver d v s = .ok ((), s.withResult 1 0 d v) := rfl

@[simp] theorem acquireHere_apply (s : State) :
    acquireHere s = .ok ((), s.setSlot s.cur { s.slot s.cur with fenceAcq := (s.slot s.cur).nextId }) := rfl

/-- A legal destination passes its check. -/
theorem checkDst_legal {d : Dst} (h : d.legal = true) : checkDst d = pure () := by
  cases d with
  | ill k => cases h
  | _ => rfl

/-! ### Issue of an admitted instruction -/

section
variable {o : Op} {body : M Flow} {s : State}

/-- Before the effect of an admitted instruction the machine stands in the opened state. -/
theorem State.admits.openIssue (h : s.admits o) : openIssue o s = .ok ((), s.opened) := openIssue_ok h.1 h.2

/-- An admitted instruction whose effect is performed completes. -/
theorem State.admits.issue_ok {fl : Flow} {t : State} (h : s.admits o) (hb : body s.opened = .ok (fl, t)) :
    issue o body s = .next (finish o fl t) := issue_completes h.1 h.2 hb

/-- An admitted instruction whose effect waits holds its slot. -/
theorem State.admits.issue_wait {w : Wait} (h : s.admits o) (hb : body s.opened = .error (.wait w)) :
    issue o body s = .next (s.hold w) := by
  unfold issue
  rw [M.bind_ok h.openIssue, hb]

/-- An admitted instruction whose effect raises a cause takes it. -/
theorem State.admits.issue_trap {c : Cause} {tv : Word} (h : s.admits o) (hb : body s.opened = .error (.trap c tv)) :
    issue o body s = .next (s.takeTrap c tv (s.slot s.cur).pc) := by
  unfold issue
  rw [M.bind_ok h.openIssue, hb]

/-- An admitted instruction whose effect raises a cause of its own word takes it with the word as TVAL. -/
theorem State.admits.issue_word {c : Cause} (h : s.admits o) (hb : body s.opened = .error (.word c)) :
    issue o body s = .next (s.takeTrap c (ofN o.word) (s.slot s.cur).pc) := by
  unfold issue
  rw [M.bind_ok h.openIssue, hb]
  rfl

end

end Sys2Proof.Machine
end

section
/-! SUPPORT. Settles O11: thread control. -/

namespace Sys2Proof.Machine

/-- YIELD at a core has no effect. -/
theorem yieldBody_core {s : State} (h : s.cur.isCore = true) : yieldBody s = .ok (.seq, s) := by
  unfold yieldBody
  rw [M.bind_ok (M.get_apply s)]
  cases hc : s.cur with
  | tile site k => simp [hc, Agent.isCore] at h
  | _ => rfl

/-- YIELD at a tile's slot notes the cycle and the slots that are ready. -/
theorem yieldBody_tile {s : State} {site : Nat} {k : Fin 8} (h : s.cur = .tile site k) :
    yieldBody s = .ok (.seq, s.setSlot s.cur
      { s.slot s.cur with yieldAt := some (s.cycle, readyMask (s.tile site) k s.cycle) }) := by
  unfold yieldBody
  rw [M.bind_ok (M.get_apply s), h]
  simp [M.bind_apply, h]

/-- DONE ends a thread. -/
theorem doneBody_ends {s : State} {site : Nat} {k : Fin 8} (h : s.cur = .tile site k)
    (hr : ¬ (k = 0 ∧ (s.slot s.cur).res = true)) : doneBody s = .ok (.ended, s.endThread site k) := by
  have hb : (!(k == 0 && (s.slot (.tile site k)).res)) = true := by simpa [h, ← imp_iff_not_or] using hr
  unfold doneBody
  rw [M.bind_ok (M.get_apply s), h]
  simp [M.bind_apply, M.map_apply, hb]

/-- DONE is illegal in the resident thread of slot 0. -/
theorem doneBody_illegal {s : State} {site : Nat} {k : Fin 8} (h : s.cur = .tile site k)
    (hr : k = 0 ∧ (s.slot s.cur).res = true) : doneBody s = .error (.word .illegalInstruction) := by
  have hb : (!(k == 0 && (s.slot (.tile site k)).res)) = false := by simpa [h] using hr
  unfold doneBody
  rw [M.bind_ok (M.get_apply s), h]
  simp [M.bind_apply, M.map_apply, hb]

/-- DONEF retires the vtile of a resident thread of slot 0 once R24 lets it. -/
theorem donefBody_retires {s : State} {site : Nat} {k : Fin 8} (h : s.cur = .tile site k)
    (hr : k = 0 ∧ (s.slot s.cur).res = true) (hready : s.retireReady site k = true) :
    donefBody s = .ok (.ended, (s.advance s.cur (s.slot s.cur).lastDue).retireVtile site) := by
  have hb : (k == 0 && (s.slot (.tile site k)).res) = true := by simpa [h] using hr
  unfold donefBody
  rw [M.bind_ok (M.get_apply s), h]
  simp [M.bind_apply, M.map_apply, hb, hready]

/-- DONEF waits until R24 lets its vtile retire. -/
theorem donefBody_waits {s : State} {site : Nat} {k : Fin 8} (h : s.cur = .tile site k)
    (hr : k = 0 ∧ (s.slot s.cur).res = true) (hready : s.retireReady site k = false) :
    donefBody s = .error (.wait .donef) := by
  have hb : (k == 0 && (s.slot (.tile site k)).res) = true := by simpa [h] using hr
  unfold donefBody
  rw [M.bind_ok (M.get_apply s), h]
  simp [M.bind_apply, M.map_apply, hb, hready]

/-- DONEF is illegal elsewhere. -/
theorem donefBody_illegal {s : State} {site : Nat} {k : Fin 8} (h : s.cur = .tile site k)
    (hr : ¬ (k = 0 ∧ (s.slot s.cur).res = true)) : donefBody s = .error (.word .illegalInstruction) := by
  have hb : (k == 0 && (s.slot (.tile site k)).res) = false := by simpa [h] using hr
  unfold donefBody
  rw [M.bind_ok (M.get_apply s), h]
  simp [M.bind_apply, M.map_apply, hb]

/-- Settles O11: each body at the slot it runs in, in both encodings. -/
theorem threadControlResults : Obligations.ThreadControlResults := by
  refine ⟨?nop, ?yield, ?done, ?donef⟩
  case nop =>
    rintro i o (⟨stl, rfl, rfl⟩ | ⟨rfl, rfl⟩) s hs
    · exact hs.issue_ok rfl
    · exact hs.issue_ok rfl
  case yield =>
    intro i o hi s hs
    have hx : exec i s = issue o yieldBody s := by
      obtain ⟨stl, rfl, rfl⟩ | ⟨rfl, rfl⟩ := hi <;> rfl
    rw [hx]
    exact ⟨fun hc => hs.issue_ok (yieldBody_core hc), fun site k hc => hs.issue_ok (yieldBody_tile hc)⟩
  case done =>
    intro i o hi s site k hs hc
    have hx : exec i s = issue o doneBody s := by
      obtain ⟨stl, rfl, rfl⟩ | ⟨rfl, rfl⟩ := hi <;> rfl
    rw [hx]
    exact ⟨fun hr => hs.issue_ok (doneBody_ends hc hr), fun hr => hs.issue_word (doneBody_illegal hc hr)⟩
  case donef =>
    intro i o hi s site k hs hc
    have hx : exec i s = issue o donefBody s := by
      obtain ⟨stl, rfl, rfl⟩ | ⟨rfl, rfl⟩ := hi <;> rfl
    rw [hx]
    exact ⟨fun hr hready => hs.issue_ok (donefBody_retires hc hr hready),
      fun hr hready => hs.issue_wait (donefBody_waits hc hr hready), fun hr => hs.issue_word (donefBody_illegal hc hr)⟩

end Sys2Proof.Machine
end

section
/-! SUPPORT. Settles O16: WAITF, BARWAIT, FENCE and what a fence holds. -/

namespace Sys2Proof.Machine

/-! ### What holds an access -/

/-- Whether a load or atomic is out that was issued before a number. -/
theorem Slot.unreturnedBefore_iff (sl : Slot) (n : Nat) :
    sl.unreturnedBefore n = true ↔ ∃ f ∈ sl.flights, f.due = none ∧ f.id < n := by
  simp [Slot.unreturnedBefore]

/-- A fence gate lets an access issue just where the fences are open. -/
theorem fenceGate_open {store own : Bool} {s : State} (h : s.fencesOpen store own = true) :
    fenceGate store own s = .ok ((), s) := by
  unfold fenceGate
  rw [M.bind_ok (M.get_apply s), require_ok s h]

/-- A fence gate holds an access where the fences are closed. -/
theorem fenceGate_closed {store own : Bool} {s : State} (h : s.fencesOpen store own = false) :
    fenceGate store own s = .error (.wait .held) := by
  unfold fenceGate
  rw [M.bind_ok (M.get_apply s), require_error s h]

/-- The fences of a slot are closed behind REL, ACQ, FULL and LB just as R114 says. -/
theorem State.fencesOpen_eq_false_iff (s : State) (store own : Bool) :
    s.fencesOpen store own = false ↔
      (store = true ∧ (s.slot s.cur).fenceRel ≠ 0
        ∧ ((s.slot s.cur).unreturnedBefore (s.slot s.cur).fenceRel = true
          ∨ s.unperformedBefore s.cur (s.slot s.cur).fenceRel = true))
      ∨ ((s.slot s.cur).fenceAcq ≠ 0 ∧ (s.slot s.cur).unreturnedBefore (s.slot s.cur).fenceAcq = true)
      ∨ ((s.slot s.cur).fenceAll ≠ 0 ∧ s.unperformedBefore s.cur (s.slot s.cur).fenceAll = true)
      ∨ (own = true ∧ (s.slot s.cur).fenceLb ≠ 0 ∧ s.loopbackBefore s.cur (s.slot s.cur).fenceLb = true) := by
  simp only [State.fencesOpen, Bool.not_eq_false', Bool.or_eq_true, Bool.and_eq_true, bne_iff_ne, or_assoc, and_assoc, ne_eq]

/-- A write of a vector register that is still to land is an access to the own scratchpad that is not performed. -/
theorem State.padBefore_of_flight {s : State} {a : Agent} {f : Flight} {n : Nat} (hf : f ∈ (s.slot a).flights)
    (hpad : f.inPad = true) (hland : f.lands (s.slot a).flights s.cycle = false) (hid : f.id < n) :
    s.padBefore a n = true :=
  List.any_eq_true.mpr ⟨f, hf, by simp [hpad, hland, hid]⟩

theorem fencesHold : Claim.FencesHold := by
  intro store own s sl out held
  have hclosed : held ↔ s.fencesOpen store own = false := by
    simp only [held, out, sl, State.fencesOpen_eq_false_iff, Slot.unreturnedBefore_iff]
  refine ⟨fun h => fenceGate_closed (hclosed.mp h), fun h => fenceGate_open ?_, ?_⟩
  · simpa using mt hclosed.mpr h
  · intro f hf n hpad hland hid
    have hp := State.padBefore_of_flight hf hpad hland hid
    simp [State.unperformedBefore, State.loopbackBefore, hp]

/-! ### Fences -/

/-- A scope that R174 gives a meaning passes its check. -/
theorem checkScope_legal {g : BitVec 3} (h : g.toNat ≤ 4) : checkScope g = pure () := by
  simp [checkScope, Nat.ble_eq_true_of_le h]

/-- A scope of 5 to 7 is an illegal operand. -/
theorem checkScope_illegal {g : BitVec 3} (h : 5 ≤ g.toNat) : checkScope g = throw (.word .illegalOperand) := by
  have hg : Nat.ble g.toNat 4 = false := by
    rw [← Bool.not_eq_true, Nat.ble_eq]; omega
  simp [checkScope, hg]

theorem fenceResults : Claim.FenceResults := by
  intro stl g s sl put
  refine ⟨fun hg => ⟨fun hs => ?_, fun hs => ?_, fun hs => ?_⟩, fun hs => ?_, fun hg f hf hs => ?_⟩
  · exact hs.issue_ok (by simp [M.bind_apply, checkScope_legal hg]; rfl)
  · exact hs.issue_ok (by simp [M.bind_apply, checkScope_legal hg]; rfl)
  · exact hs.issue_ok (by simp [M.bind_apply, checkScope_legal hg]; rfl)
  · exact hs.issue_ok rfl
  · simp only [List.mem_cons, List.not_mem_nil, or_false] at hf
    obtain rfl | rfl | rfl := hf <;>
      exact hs.issue_word (by simp [M.bind_apply, checkScope_illegal hg])

/-! ### WAITF -/

/-- The lines of one byte are full just where the bit of its line is set. -/
theorem Tile.linesFull_one (t : Tile) (off : Nat) : t.linesFull off 1 = t.fe.getLsbD (off / 128) := by
  have h : ∀ x : BitVec 1024, x.toNat % 2 = (x.getLsbD 0).toNat := fun x => by
    rw [BitVec.getLsbD, Nat.testBit_zero]
    rcases Nat.mod_two_eq_zero_or_one x.toNat with h | h <;> simp [h]
  simp only [Tile.linesFull, Nat.add_sub_cancel, Nat.sub_self, Nat.zero_add, Nat.pow_one, h, BitVec.getLsbD_ushiftRight]
  cases t.fe.getLsbD (off / 128 + 0) <;> simp

/-! ### BARWAIT -/

/-- The wait of a BARWAIT ends where bit 63 of the word differs from bit 0 of the operand. -/
theorem phaseEnded_iff (v ph : Word) : phaseEnded v ph = true ↔ v.toNat / 2 ^ 63 ≠ ph.toNat % 2 := by
  have hv : v.toNat / 2 ^ 63 = (v.getLsbD 63).toNat := by
    rw [BitVec.getLsbD, Nat.testBit_eq_decide_div_mod_eq, Nat.mod_eq_of_lt (by omega)]
    have : v.toNat / 2 ^ 63 < 2 := by omega
    interval_cases v.toNat / 2 ^ 63 <;> rfl
  have hp : ph.toNat % 2 = (ph.getLsbD 0).toNat := by
    rw [BitVec.getLsbD, Nat.testBit_zero]
    rcases Nat.mod_two_eq_zero_or_one ph.toNat with h | h <;> simp [h]
  rw [hv, hp, phaseEnded]
  cases v.getLsbD 63 <;> cases ph.getLsbD 0 <;> simp

/-- The state after a BARWAIT has taken its word: its probe is gone, what follows waits for what has to return, and the word
is the result. -/
def State.barwaitTaken (s : State) (d : Dst) (v : Word) : State :=
  let w := s.setSlot s.cur { s.slot s.cur with probe := none }
  (w.setSlot w.cur { w.slot w.cur with fenceAcq := (w.slot w.cur).nextId }).withResult 1 0 d v

section
variable {d : Dst} {a b : Src} {p ph v : Word} {pl : Place} {s t u : State}

/-- The operands of a BARWAIT that its sources, pointer checks and fences let through. -/
theorem barwaitOperands_ok (hr : read2 a b s = .ok ((p, ph), t)) (hpl : placeOf atomicSpace p 8 8 t = .ok (pl, t))
    (hg : accessGate false pl t = .ok ((), t)) : barwaitOperands a b s = .ok ((p, ph, pl), t) := by
  unfold barwaitOperands
  simp only [M.bind_apply, M.ok_bind, hr, hpl, hg, M.pure_apply]

variable (hd : d.legal = true) (ho : barwaitOperands a b s = .ok ((p, ph, pl), t))
include hd ho

/-- A BARWAIT whose probe found a word that ends its wait takes it. -/
theorem barwaitBody_taken (hw : probedWord p pl t = .ok (some v, u)) (he : v.toNat / 2 ^ 63 ≠ ph.toNat % 2) :
    barwaitBody d a b s = .ok (.seq, u.barwaitTaken d v) := by
  unfold barwaitBody
  simp only [M.bind_apply, M.pure_apply, M.ok_bind, checkDst_legal hd, ho, hw, (phaseEnded_iff v ph).mpr he, require_true]
  rfl

/-- A BARWAIT whose word has the old phase waits. -/
theorem barwaitBody_old (hw : probedWord p pl t = .ok (some v, u)) (he : ¬ v.toNat / 2 ^ 63 ≠ ph.toNat % 2) :
    barwaitBody d a b s = .error (.wait .barwait) := by
  have hf : phaseEnded v ph = false := by rw [← Bool.not_eq_true, phaseEnded_iff]; exact he
  unfold barwaitBody
  simp only [M.bind_apply, M.pure_apply, M.ok_bind, checkDst_legal hd, ho, hw, hf, require_false]
  rfl

/-- A BARWAIT whose probe has not come back waits. -/
theorem barwaitBody_unprobed (hw : probedWord p pl t = .ok (none, u)) :
    barwaitBody d a b s = .error (.wait .barwait) := by
  unfold barwaitBody
  simp only [M.bind_apply, M.pure_apply, M.ok_bind, checkDst_legal hd, ho, hw, M.throw_apply]

/-- A BARWAIT whose probe met a fault raises it. -/
theorem barwaitBody_fault {e : Stop} (hw : probedWord p pl t = .error e) : barwaitBody d a b s = .error e := by
  unfold barwaitBody
  simp only [M.bind_apply, M.pure_apply, M.ok_bind, checkDst_legal hd, ho, hw, M.error_bind]

end

/-- An access to the own banks that has its turn is what the banks make of it. -/
theorem privAccess_ok {op : MemOp} {off : Nat} {t u : State} {b : Tile} {h : HomeResult} (p : Word)
    (ht : ownTurn op off t = .ok ((), u)) (hp : (u.tile u.cur.site).perform op off = .ok b h) :
    privAccess op p off t = .ok (h, u.setTile u.cur.site b) := by
  unfold ownTurn at ht
  unfold privAccess bankAccess
  simp only [M.bind_apply, M.get_apply, M.ok_bind] at ht ⊢
  cases ha : awaitVregs t with
  | error e => simp [ha] at ht
  | ok r =>
    simp only [ha, M.ok_bind] at ht ⊢
    cases hb : bankAction t.cur.slotNo.val r.2 with
    | error e => simp [hb] at ht
    | ok r =>
      simp only [hb, M.ok_bind] at ht ⊢
      cases hx : privExchange op off r.2 with
      | error e => simp [hx] at ht
      | ok r =>
        simp only [hx, M.ok_bind] at ht ⊢
        simp only [ht, M.ok_bind, getTile_apply, hp, M.bind_apply, modTile_apply, M.pure_apply]

/-- The probe of a word of the own banks reads it there. -/
theorem probedWord_priv {off : Nat} {p : Word} {t u : State} {b : Tile} {h : HomeResult}
    (ht : ownTurn (.load 8 false) off t = .ok ((), u))
    (hp : (u.tile u.cur.site).perform (.load 8 false) off = .ok b h) :
    probedWord p (.priv off) t = .ok (some (ofN h.val), u.setTile u.cur.site b) := by
  have ha : asBarwait (privAccess (.load 8 false) p off) t = .ok (h, u.setTile u.cur.site b) := by
    unfold asBarwait
    rw [privAccess_ok p ht hp]
  show (asBarwait (privAccess (.load 8 false) p off) >>= fun r => pure (some (BitVec.ofNat 64 r.val))) t = _
  rw [M.bind_ok ha]
  rfl

section
variable {p : Word} {pl : Place} {t : State} (hpl : ∀ off, pl ≠ .priv off)
include hpl

/-- A probe of a word elsewhere that was not sent has found nothing. -/
theorem probedWord_unsent (h : (t.slot t.cur).probe = none) : probedWord p pl t = .ok (none, t) := by
  cases pl with
  | priv off => exact absurd rfl (hpl off)
  | _ => simp only [probedWord, M.bind_apply, getSlot_apply, M.ok_bind, h, M.pure_apply]

/-- A probe of a word elsewhere that met a fault raises it. -/
theorem probedWord_fault {pr : Probe} {e : Cause × Word} (h : (t.slot t.cur).probe = some pr) (he : pr.error = some e) :
    probedWord p pl t = .error (.trap e.1 e.2) := by
  cases pl with
  | priv off => exact absurd rfl (hpl off)
  | _ => simp only [probedWord, M.bind_apply, getSlot_apply, M.ok_bind, h, he, M.throw_apply]

/-- A probe of a word elsewhere without a fault answers what has come back. -/
theorem probedWord_sent {pr : Probe} (h : (t.slot t.cur).probe = some pr) (he : pr.error = none) :
    probedWord p pl t = .ok (pr.value, t) := by
  cases pl with
  | priv off => exact absurd rfl (hpl off)
  | _ => simp only [probedWord, M.bind_apply, getSlot_apply, M.ok_bind, h, he, M.pure_apply]

end

/-- WAITF waits for its line, and completes when the line is full. -/
theorem execWaitf_eq {stl : Stl} {a : Src} {s t u : State} {p : Word} {off : Nat}
    (hs : s.admits (opA 0x18 6 stl 0 a.code 0)) (hr : read1 a s.opened = .ok (p, t))
    (hpl : placeOf privateSpace p 1 1 t = .ok (.priv off, t)) (hg : accessGate false (.priv off) t = .ok ((), t))
    (hv : awaitVregs t = .ok ((), u)) :
    exec (.waitf stl a) s
      = if (u.tile u.cur.site).fe.getLsbD (off / 128) = true then .next (finish (opA 0x18 6 stl 0 a.code 0) .seq u)
        else .next (s.hold .held) := by
  rw [← Tile.linesFull_one]
  split
  case isTrue hf =>
    exact hs.issue_ok (by simp only [M.bind_apply, M.ok_bind, hr, hpl, hg, hv, getTile_apply, hf, require_true, M.pure_apply])
  case isFalse hf =>
    exact hs.issue_wait (by
      simp only [M.bind_apply, M.ok_bind, hr, hpl, hg, hv, getTile_apply, eq_false_of_ne_true hf, require_false,
        M.throw_apply, M.error_bind])

theorem waitsComplete : Claim.WaitsComplete := by
  refine ⟨fun stl a s p off t u hs hr hpl hg hv => execWaitf_eq hs hr hpl hg hv, ?_⟩
  intro stl d a b s p ph pl t hd hs hr hpl hg ended taken
  have ho := barwaitOperands_ok hr hpl hg
  refine ⟨fun off u b' h hp ht hperf => ?_, fun hp => ⟨fun hn => ?_, fun pr hpr => ⟨fun c tv he => ?_, fun he => ⟨fun v hv hend => ?_, fun hend => ?_⟩⟩⟩⟩
  · subst hp
    have hw := probedWord_priv (p := p) ht hperf
    exact ⟨fun he => hs.issue_ok (barwaitBody_taken hd ho hw he), fun he => hs.issue_wait (barwaitBody_old hd ho hw he)⟩
  · exact hs.issue_wait (barwaitBody_unprobed hd ho (probedWord_unsent hp hn))
  · exact hs.issue_trap (barwaitBody_fault hd ho (probedWord_fault hp hpr he))
  · exact hs.issue_ok (barwaitBody_taken hd ho (hv ▸ probedWord_sent hp hpr he) hend)
  · have hw := probedWord_sent (p := p) hp hpr he
    cases hv : pr.value with
    | none => exact hs.issue_wait (barwaitBody_unprobed hd ho (hv ▸ hw))
    | some v => exact hs.issue_wait (barwaitBody_old hd ho (hv ▸ hw) (hend v hv))

/-- Settles O16: the waits, the fences and what a fence holds. -/
theorem waitsAndFences : Obligations.WaitsAndFences := ⟨waitsComplete, fenceResults, fencesHold⟩

end Sys2Proof.Machine
end

section
/-! SUPPORT. Settles O23: matrix commands at a free engine and at a busy one. -/

namespace Sys2Proof.Machine

section
variable {i : Instr} {c : MatrixCmd} {s : State} {site : Nat} {k : Fin 8}

/-- The instructions that are matrix commands. -/
theorem matrixOf_isSome_iff (i : Instr) :
    ((∃ stl x u, i = .tld stl x u) ∨ (∃ stl y u, i = .tst stl y u) ∨ (∃ stl x, i = .tzero stl x)
      ∨ (∃ stl x y w u g, i = .mma stl x y w u g) ∨ (∃ stl x y w u g, i = .mmas stl x y w u g)
      ∨ (∃ stl x y w, i = .tadd stl x y w) ∨ (∃ stl x y u, i = .tcvt stl x y u) ∨ (∃ stl x y, i = .ttrans stl x y)
      ∨ (∃ stl y u, i = .trowv stl y u) ∨ ∃ stl x y u, i = .tvrow stl x y u) ↔ (matrixOf i).isSome = true := by
  constructor
  · rintro (⟨_, _, _, rfl⟩ | ⟨_, _, _, rfl⟩ | ⟨_, _, rfl⟩ | ⟨_, _, _, _, _, _, rfl⟩ | ⟨_, _, _, _, _, _, rfl⟩
      | ⟨_, _, _, _, rfl⟩ | ⟨_, _, _, _, rfl⟩ | ⟨_, _, _, rfl⟩ | ⟨_, _, _, rfl⟩ | ⟨_, _, _, _, rfl⟩) <;> rfl
  · intro h
    unfold matrixOf at h
    split at h
    case h_11 => cases h
    all_goals simp

/-- A matrix command is issued by `matrixIssue`. -/
theorem exec_of_matrixOf (h : matrixOf i = some c) (s : State) : exec i s = matrixIssue i c s := by
  unfold matrixOf at h
  split at h
  case h_11 => cases h
  all_goals
    cases h
    rfl

/-- The state in which a matrix command stands in its slot and the free engine looks for one to grant. -/
def State.offering (s : State) (i : Instr) : State :=
  s.opened.setSlot s.opened.cur { s.opened.slot s.opened.cur with mheld := some i }

/-- A matrix command whose slot the free engine picks is issued there. -/
theorem matrixIssue_picked {t : Tile} (hc : s.cur = .tile site k) (hs : s.admits c.op)
    (hfree : (s.opened.tile site).mfree ≤ s.opened.cycle) (hpick : (s.offering i).pickMatrix site = some (k, t))
    (hfollow : (s.offering i).followReady site k = false) :
    matrixIssue i c s = issue c.op (matrixBody c) ((s.offering i).setTile site t) := by
  have hb : Nat.blt s.opened.cycle (s.opened.tile site).mfree = false := by
    rw [← Bool.not_eq_true, Nat.blt_eq]; exact not_lt.mpr hfree
  rw [State.offering] at *
  simp only [matrixIssue, hc, hs.openIssue, hb, hpick, hfollow, Bool.false_eq_true, if_false, beq_self_eq_true,
    Bool.not_false, Bool.and_self, if_true]

/-- A matrix command that meets a busy engine is held. -/
theorem matrixIssue_busy (hc : s.cur = .tile site k) (hs : s.admits c.op)
    (hbusy : s.opened.cycle < (s.opened.tile site).mfree) : matrixIssue i c s = .next ((s.offering i).hold .matrix) := by
  simp only [matrixIssue, hc, hs.openIssue, Nat.blt_eq.mpr hbusy, if_true, State.offering]

/-- A granted command: its effect, its flags when the engine is free again, and the engine busy until then. -/
theorem grantEffect_ok {rd : M Word} {u : State} {n : Nat} {fl : BitVec 6} (he : matrixEffect c rd s = .ok ((n, fl), u)) :
    grantEffect c rd s = .ok ((),
      let v := u.setSlot u.cur ((u.slot u.cur).flagsAt (u.cycle + n) fl)
      v.setTile v.cur.site { v.tile v.cur.site with mfree := v.cycle + n }) := by
  unfold grantEffect
  rw [M.bind_ok he]
  rfl

/-- A matrix command that no fence holds, whose sources are there and whose checks pass is performed. -/
theorem matrixBody_ok {s4 u : State} {n : Nat} {fl : BitVec 6} (hf : fenceGate true true s = .ok ((), s))
    (ha : awaitSources c s = .ok ((), s4)) (he : matrixEffect c (read1 c.s) s4 = .ok ((n, fl), u)) :
    matrixBody c s = .ok (.seq,
      let v := u.setSlot u.cur ((u.slot u.cur).flagsAt (u.cycle + n) fl)
      let w := v.setTile v.cur.site { v.tile v.cur.site with mfree := v.cycle + n }
      w.setSlot w.cur { w.slot w.cur with mheld := none }) := by
  unfold matrixBody
  rw [M.bind_ok hf, M.bind_ok ha, M.bind_ok (grantEffect_ok he)]
  rfl

end

theorem matrixCommandsComplete : Claim.MatrixCommandsComplete := by
  refine ⟨matrixOf_isSome_iff, ?_⟩
  intro i c hi s site k t s4 u n fl hc hs s1 s2 s3 hfree hpick hfollow hs3 hf ha he
  rw [exec_of_matrixOf hi, matrixIssue_picked hc hs hfree hpick hfollow]
  exact hs3.issue_ok (matrixBody_ok hf ha he)

theorem matrixCommandsHeld : Claim.MatrixCommandsHeld := by
  intro i c hi s site k hc hs hbusy
  exact (exec_of_matrixOf hi s).trans (matrixIssue_busy hc hs hbusy)

/-- Settles O23: a matrix command completes at a free engine and is held at a busy one. -/
theorem matrixCommands : Obligations.MatrixCommands := ⟨matrixCommandsComplete, matrixCommandsHeld⟩

end Sys2Proof.Machine
end

section
/-! SUPPORT. Settles O28: XPOLL, XWAIT, XTDEF and XSTRM. -/

namespace Sys2Proof.Machine

/-! ### What a ticket covers -/

/-- Tickets are ordered modulo 2^32. -/
theorem ticketBefore_iff (a b : BitVec 32) :
    ticketBefore a b = true ↔ (b.toNat + 2 ^ 32 - a.toNat) % 2 ^ 32 < 2 ^ 31 := by
  rw [ticketBefore, Nat.blt_eq, BitVec.toNat_sub]
  have := a.isLt
  omega

/-- A ticket operand that was issued: 0, or one at or before the last ticket there is. -/
def Tile.ticketIssued (t : Tile) (v : Word) : Prop :=
  v = 0 ∨ (t.lastTicket ≠ 0 ∧ ticketBefore (v.setWidth 32) t.lastTicket = true)

/-- Whether a job that a ticket operand covers runs. -/
def Tile.coversJob (t : Tile) (v : Word) : Prop :=
  t.lastTicket ≠ 0 ∧ ∃ j ∈ t.jobs, ticketBefore j.ticket (if v = 0 then t.lastTicket else v.setWidth 32) = true

section
variable {v : Word} {s : State}

/-- A ticket that was not issued is an illegal operand. -/
theorem coverCheck_illegal (h : ¬ (s.tile s.cur.site).ticketIssued v) :
    coverCheck v s = .error (.word .illegalOperand) := by
  obtain ⟨hv, ht⟩ := not_or.mp h
  have hvb : (v == 0) = false := beq_eq_false_iff_ne.mpr hv
  unfold coverCheck
  rw [M.bind_ok (getTile_apply s)]
  by_cases hl : (s.tile s.cur.site).lastTicket = 0
  · simp only [hl, if_true, M.bind_apply, hvb, require_false, M.throw_apply, M.error_bind]
  · have hq : (v == 0 || ticketBefore (v.setWidth 32) (s.tile s.cur.site).lastTicket) = false := by
      rw [hvb, Bool.false_or, ← Bool.not_eq_true]
      exact not_and.mp ht hl
    simp only [hl, if_false, M.bind_apply, hq, require_false, M.throw_apply, M.error_bind]

/-- Whether a job runs that an issued ticket covers. -/
theorem coverCheck_issued (h : (s.tile s.cur.site).ticketIssued v) (b : Bool)
    (hb : b = true ↔ (s.tile s.cur.site).coversJob v) : coverCheck v s = .ok (b, s) := by
  unfold coverCheck
  rw [M.bind_ok (getTile_apply s)]
  by_cases hl : (s.tile s.cur.site).lastTicket = 0
  · have hv : v = 0 := h.resolve_right fun ht => ht.1 hl
    have hb' : b = false := by simpa [Tile.coversJob, hl] using hb
    simp only [hl, if_true, M.bind_apply, hv, beq_self_eq_true, require_true, M.pure_apply, M.ok_bind, hb']
  · have hq : (v == 0 || ticketBefore (v.setWidth 32) (s.tile s.cur.site).lastTicket) = true := by
      simpa only [Bool.or_eq_true, beq_iff_eq] using h.imp id And.right
    have hb' : ((s.tile s.cur.site).jobs.any fun j =>
        ticketBefore j.ticket (if v = 0 then (s.tile s.cur.site).lastTicket else v.setWidth 32)) = b := by
      rw [Bool.eq_iff_iff, List.any_eq_true, hb, Tile.coversJob, and_iff_right hl]
    simp only [hl, if_false, M.bind_apply, hq, require_true, M.pure_apply, M.ok_bind, hb']

end

/-! ### XPOLL and XWAIT -/

section
variable {stl : Stl} {d : Dst} {a : Src} {s t : State} {v : Word} (hd : d.legal = true)
  (hr : read1 a s.opened = .ok (v, t))
include hd hr

/-- XPOLL with an issued ticket answers whether no covered job runs. -/
theorem execXpoll_ok (hs : s.admits (opA 0x39 4 stl d.code a.code 0)) (h : (t.tile t.cur.site).ticketIssued v) (b : Bool)
    (hb : b = true ↔ (t.tile t.cur.site).coversJob v) :
    exec (.xpoll stl d a) s
      = .next (finish (opA 0x39 4 stl d.code a.code 0) .seq (t.withResult 1 0 d (BitVec.ofNat 64 (!b).toNat))) :=
  hs.issue_ok (by
    simp only [M.bind_apply, checkDst_legal hd, M.pure_apply, M.ok_bind, hr, coverCheck_issued h b hb, deliver_apply])

/-- XWAIT with an issued ticket and no covered job running returns XERR and clears it. -/
theorem execXwait_ok (hs : s.admits (opA 0x39 3 stl d.code a.code 0)) (h : (t.tile t.cur.site).ticketIssued v)
    (hb : ¬ (t.tile t.cur.site).coversJob v) :
    exec (.xwait stl d a) s = .next (finish (opA 0x39 3 stl d.code a.code 0) .seq
      ((t.setTile t.cur.site { t.tile t.cur.site with xerr := 0 }).withResult 1 0 d
        (ofN (t.tile t.cur.site).xerr.toNat))) :=
  hs.issue_ok (by
    simp only [M.bind_apply, checkDst_legal hd, M.pure_apply, M.ok_bind, hr, coverCheck_issued h false (by simp [hb]),
      Bool.not_false, require_true, getTile_apply, modTile_apply, deliver_apply,
      ofN, BitVec.ofNat_toNat])

/-- XWAIT waits while a covered job runs. -/
theorem execXwait_waits (hs : s.admits (opA 0x39 3 stl d.code a.code 0)) (h : (t.tile t.cur.site).ticketIssued v)
    (hb : (t.tile t.cur.site).coversJob v) : exec (.xwait stl d a) s = .next (s.hold .held) :=
  hs.issue_wait (by
    simp only [M.bind_apply, checkDst_legal hd, M.pure_apply, M.ok_bind, hr, coverCheck_issued h true (by simp [hb]),
      Bool.not_true, require_false, M.throw_apply, M.error_bind])

end

theorem copyWaitResults : Claim.CopyWaitResults := by
  intro stl d a s v t hd hr n last upTo issued busy
  have hv : v.toNat = 0 ↔ v = 0 := by rw [← BitVec.toNat_inj]; rfl
  have hlast : last ≠ 0 ↔ (t.tile t.cur.site).lastTicket ≠ 0 := not_congr (by rw [← BitVec.toNat_inj]; rfl)
  have hissued : issued ↔ (t.tile t.cur.site).ticketIssued v := by
    simp only [issued, upTo, n, last, Tile.ticketIssued, ticketBefore_iff, hv, BitVec.toNat_setWidth]
    rw [← hlast]
  have hbusy : busy ↔ (t.tile t.cur.site).coversJob v := by
    simp only [busy, upTo, Tile.coversJob, ticketBefore_iff, hlast, hv, n, last]
    have hn : (if v = 0 then (t.tile t.cur.site).lastTicket else v.setWidth 32).toNat
        = if v = 0 then (t.tile t.cur.site).lastTicket.toNat else v.toNat % 2 ^ 32 := by
      split
      · rfl
      · exact BitVec.toNat_setWidth 32 v
    rw [hn]
  simp only [hissued, hbusy]
  refine ⟨fun hs => ⟨fun hi hb => ?_, fun hi hb => ?_, fun hi => ?_⟩, fun hs => ⟨fun hi hb => ?_, fun hi hb => ?_, fun hi => ?_⟩⟩
  · exact execXpoll_ok hd hr hs hi true (by simp [hb])
  · exact execXpoll_ok hd hr hs hi false (by simp [hb])
  · exact hs.issue_word (by
      simp only [M.bind_apply, checkDst_legal hd, M.pure_apply, M.ok_bind, hr, coverCheck_illegal hi, M.error_bind])
  · exact execXwait_ok hd hr hs hi hb
  · exact execXwait_waits hd hr hs hi hb
  · exact hs.issue_word (by
      simp only [M.bind_apply, checkDst_legal hd, M.pure_apply, M.ok_bind, hr, coverCheck_illegal hi, M.error_bind])

/-! ### An access at its place -/

section
variable {op : MemOp} {p : Word} {land : Landing} {wants : Bool} {t u : State}

/-- An access to the own banks brings its answer at once. -/
theorem access_priv {off : Nat} {b : Tile} {h : HomeResult} (ht : ownTurn op off t = .ok ((), u))
    (hp : (u.tile u.cur.site).perform op off = .ok b h) :
    access op p (.priv off) land wants t = .ok (some h, u.setTile u.cur.site b) := by
  unfold access
  simp only [M.bind_apply, M.get_apply, M.ok_bind, privAccess_ok p ht hp, M.pure_apply]

/-- An access to a vtile's scratchpad is a request to it. -/
theorem access_vtile {vt off : Nat}
    (h : remoteAccess op p (.vtile (t.tile t.cur.site).name.1 vt) land wants t = .ok ((), u)) :
    access op p (.vtile vt off) land wants t = .ok (none, u) := by
  have hc : currentIdx t = .ok ((t.tile t.cur.site).name.1, t) := rfl
  unfold access
  simp only [M.bind_apply, M.get_apply, M.ok_bind, hc, h, M.pure_apply]

/-- An access to rim memory with a valid translation is a request to the rim. -/
theorem access_hbm {va : Nat}
    (hv : t.translates (t.launch (t.tile t.cur.site).name.1).asid (op.reads va ++ op.writes va) (op.writes va) = true)
    (h : remoteAccess op p .rim land wants t = .ok ((), u)) : access op p (.hbm va) land wants t = .ok (none, u) := by
  unfold access
  simp only [M.bind_apply, M.get_apply, M.ok_bind, getLaunch_apply, hv, require_true, h, M.pure_apply]

end

/-! ### XTDEF -/

section
variable {stl : Stl} {a b : Src} {s t u : State} {i p : Word} {pl : Place}
  (hs : s.admits (opA 0x39 5 stl 0 a.code b.code)) (hr : read2 a b s.opened = .ok ((i, p), t)) (hi : i.toNat ≤ 63)
  (hpl : placeOf templateSpace p 32 8 t = .ok (pl, t)) (hg : accessGate false pl t = .ok ((), t))
include hs hr hi hpl hg

/-- XTDEF writes the template that comes back at once. -/
theorem execXtdef_here {h : HomeResult}
    (ha : access (.xtdef i.toNat) p pl (.template (Fin.ofNat 64 i.toNat)) true t = .ok (some h, u)) :
    exec (.xtdef stl a b) s
      = .next (finish (opA 0x39 5 stl 0 a.code b.code) .seq (u.withTemplate i.toNat h.val)) :=
  hs.issue_ok (by
    simp only [M.bind_apply, M.ok_bind, hr, Nat.ble_eq_true_of_le hi, require_true, M.pure_apply, hpl, hg, ha, modTile_apply]
    rfl)

/-- XTDEF whose template comes by a request completes with the request sent. -/
theorem execXtdef_remote (ha : access (.xtdef i.toNat) p pl (.template (Fin.ofNat 64 i.toNat)) true t = .ok (none, u)) :
    exec (.xtdef stl a b) s = .next (finish (opA 0x39 5 stl 0 a.code b.code) .seq u) :=
  hs.issue_ok (by
    simp only [M.bind_apply, M.ok_bind, hr, Nat.ble_eq_true_of_le hi, require_true, M.pure_apply, hpl, hg, ha])

end

/-! ### XSTRM -/

/-- The binding that XSTRM makes of a geometry, of wide elements or narrow ones. -/
def Geometry.binding (g : Geometry) (wide : Bool) : StreamBinding :=
  { src := g.src, rowLen := g.rowLen, rows := g.rows, sstride := g.sstride, wide, next := 0, landed := [], asked := 0,
    failed := false }

/-- The vtile of a pointer's ADDRESS. -/
theorem bitsOf_ptrAddr_vtile (p : Word) : bitsOf (ptrAddr p) 55 32 = p.toNat / 2 ^ 32 % 2 ^ 24 := by
  simp only [ptrAddr, bitsOf]
  omega

/-- A pointer to a vtile that a launch of n vtiles does not have. -/
theorem ptr_outside_iff (p : Word) (n : Nat) : (ptrSpace p != 1 || Nat.blt (bitsOf (ptrAddr p) 55 32) n) = false
    ↔ p.toNat / 2 ^ 56 % 4 = 1 ∧ n ≤ p.toNat / 2 ^ 32 % 2 ^ 24 := by
  rw [Bool.or_eq_false_iff, bne_eq_false_iff_eq, bitsOf_ptrAddr_vtile, ← Bool.not_eq_true, Nat.blt_eq, not_lt]
  rfl

/-- The size bit of a stream number. -/
theorem getLsbD_two_eq (d : BitVec 3) : d.getLsbD 2 = decide (4 ≤ d.toNat) := by
  revert d; decide

section
variable {stl : Stl} {d : BitVec 3} {a b : Src} {s t : State} {i o : Word} {g : Geometry}
  (hs : s.admits (opA 0x39 2 stl d.toNat a.code b.code)) (hr : read2 a b s.opened = .ok ((i, o), t)) (hi : i.toNat ≤ 63)
  (hgeo : geometry (t.tile t.cur.site).templates[(Fin.ofNat 64 i.toNat : Fin 64)] o = g)
  (hlegal : (g.rowLen != 0 && g.reserved == 0 && !g.conv && g.bar.isNone
    && g.rowLen * g.rows % (if d.getLsbD 2 then 512 else 8) == 0) = true)
include hs hr hi hgeo hlegal

/-- XSTRM of a legal template whose source lies in a vtile that the launch does not have raises the unmapped cause. -/
theorem execXstrm_unmapped (hfar : (ptrSpace g.src != 1
      || Nat.blt (bitsOf (ptrAddr g.src) 55 32) (t.launch (t.tile t.cur.site).name.1).pkt.vtiles) = false) :
    exec (.xstrm stl d a b) s
      = .next (s.takeTrap .unmapped (BitVec.ofNat 64 (bitsOf (ptrAddr g.src) 55 32)) (s.slot s.cur).pc) :=
  hs.issue_trap (by
    simp only [M.bind_apply, M.ok_bind, hr, Nat.ble_eq_true_of_le hi, require_true, M.pure_apply, getTile_apply, hgeo,
      hlegal, getLaunch_apply, hfar, require_false, M.throw_apply, M.error_bind])

/-- XSTRM of a legal template with another source binds its stream. -/
theorem execXstrm_binds (hnear : (ptrSpace g.src != 1
      || Nat.blt (bitsOf (ptrAddr g.src) 55 32) (t.launch (t.tile t.cur.site).name.1).pkt.vtiles) = true) :
    exec (.xstrm stl d a b) s = .next (finish (opA 0x39 2 stl d.toNat a.code b.code) .seq
      (t.setTile t.cur.site { t.tile t.cur.site with
        streams := (t.tile t.cur.site).streams.set (Fin.ofNat 4 d.toNat : Fin 4) (some (g.binding (d.getLsbD 2))) })) :=
  hs.issue_ok (by
    simp only [M.bind_apply, M.ok_bind, hr, Nat.ble_eq_true_of_le hi, require_true, M.pure_apply, getTile_apply, hgeo,
      hlegal, getLaunch_apply, hnear, modTile_apply, Geometry.binding])

end

theorem templateAndStreamResults : Claim.TemplateAndStreamResults := by
  refine ⟨?xtdef, ?xstrm, fun stl d s hs => hs.issue_ok rfl⟩
  case xtdef =>
    intro stl a b s i p t pl hs hr hi hpl hg
    refine ⟨fun off u b' h hp ht hperf => ?_, fun vt off u hp hrem => ?_, fun va u hp hv hrem => ?_⟩
    · subst hp
      exact execXtdef_here hs hr hi hpl hg (access_priv ht hperf)
    · subst hp
      exact execXtdef_remote hs hr hi hpl hg (access_vtile hrem)
    · subst hp
      exact execXtdef_remote hs hr hi hpl hg (access_hbm hv hrem)
  case xstrm =>
    intro stl d a b s i o t hs hr hi g size far hlen hres hconv hbar hsize
    have hwide := getLsbD_two_eq d
    have hlegal : (g.rowLen != 0 && g.reserved == 0 && !g.conv && g.bar.isNone
        && g.rowLen * g.rows % (if d.getLsbD 2 then 512 else 8) == 0) = true := by
      have hsz : g.rowLen * g.rows % (if d.getLsbD 2 then 512 else 8) = 0 := by
        simpa only [hwide, decide_eq_true_eq] using hsize
      rw [hconv, hbar, bne_iff_ne.mpr hlen, beq_iff_eq.mpr hres, beq_iff_eq.mpr hsz]
      rfl
    have hfar : far ↔ (ptrSpace g.src != 1
        || Nat.blt (bitsOf (ptrAddr g.src) 55 32) (t.launch (t.tile t.cur.site).name.1).pkt.vtiles) = false :=
      (ptr_outside_iff _ _).symm
    refine ⟨fun h => ?_, fun h => ?_⟩
    · rw [execXstrm_unmapped hs hr hi rfl hlegal (hfar.mp h), bitsOf_ptrAddr_vtile]
      rfl
    · rw [execXstrm_binds hs hr hi rfl hlegal (eq_true_of_ne_false (mt hfar.mpr h)), hwide]
      rfl

/-- Settles O28: the waits for copy jobs, templates and streams. -/
theorem copyWaitsTemplatesAndStreams : Obligations.CopyWaitsTemplatesAndStreams :=
  ⟨copyWaitResults, templateAndStreamResults⟩

end Sys2Proof.Machine
end

section
/-! SUPPORT. Settles O35: where a packet that reaches its site goes. -/

namespace Sys2Proof.Machine

/-- Each event of an arrival takes packet k where it is of the event's kind and has its turn. -/
theorem exec_arrivalRow {r : (Nat → Instr) × (Packet → Bool)} (hr : r ∈ arrivalRows) (k : Nat) (s : State) :
    exec (r.1 k) s = .next (s.arriveIf k r.2) := by
  simp only [arrivalRows, List.mem_cons, List.not_mem_nil, or_false] at hr
  obtain rfl | rfl | rfl | rfl | rfl := hr <;> rfl

section
variable {s : State} {k idx vt site : Nat} {p : Packet} {is : Packet → Bool}

/-- A packet of a kind that has its turn arrives. -/
theorem State.arriveIf_eq (hk : s.fabric[k]? = some p) (hturn : s.hasTurn k p = true) (his : is p = true) :
    s.arriveIf k is = s.arrive k p := by
  simp [State.arriveIf, hk, hturn, his]

/-- What is discarded (R327). -/
theorem State.discards_eq_true_iff : s.discards p idx = true ↔
    (p.entryType ≤ 1 ∧ (s.isLive idx = false ∨ s.isLive p.src.idx = false)) ∨ Table.get? s.launches idx = none := by
  simp only [State.discards, Bool.or_eq_true, Bool.and_eq_true, Nat.ble_eq, Bool.not_eq_true', Option.isNone_iff_eq_none]

/-- A packet that is discarded leaves the fabric. -/
theorem State.arrive_of_discards (hdst : p.dst = .vtile idx vt) (hd : s.discards p idx = true) :
    s.arrive k p = s.eject k := by
  simp only [State.arrive, hdst, hd, if_true]

/-- A packet for a vtile that is gone is late, or is dropped where its launch is not live. -/
theorem State.arrive_gone (hdst : p.dst = .vtile idx vt) (hd : s.discards p idx = false) (hhop : p.hop = .gone) :
    s.arrive k p = if s.isLive idx then s.late k p vt none else s.eject k := by
  simp only [State.arrive, hdst, hd, hhop, Bool.false_eq_true, if_false]

/-- A packet at a site whose tile holds its vtile meets the interface there. -/
theorem State.arrive_at_site (hdst : p.dst = .vtile idx vt) (hd : s.discards p idx = false) (hhop : p.hop = .site site)
    (hocc : (s.tile site).occ = some (idx, vt)) : s.arrive k p = s.arriveAt k p site idx vt := by
  simp only [State.arrive, hdst, hd, hhop, hocc, Bool.false_eq_true, if_false, beq_self_eq_true, if_true]

/-- A packet at a site whose tile does not hold its vtile. -/
theorem State.arrive_elsewhere (hdst : p.dst = .vtile idx vt) (hd : s.discards p idx = false) (hhop : p.hop = .site site)
    (hocc : (s.tile site).occ ≠ some (idx, vt)) : s.arrive k p =
      if !s.isLive idx then s.eject k
      else if s.vtRetired idx vt then s.late k p vt (some site)
      else { s with fabric := s.fabric.set k { p with hop := .unresolved } } := by
  simp only [State.arrive, hdst, hd, hhop, beq_iff_eq, hocc, Bool.false_eq_true, if_false]

/-- A forwarding entry leads a packet on. -/
theorem State.arriveAt_forwarded {new : Nat} (hf : (s.tile site).fwd = some new) :
    s.arriveAt k p site idx vt = s.forward k p site new := by
  simp only [State.arriveAt, hf]

/-- What an interface accepts, directly or sealed, leaves the fabric (R352). -/
theorem State.arriveAt_accepted {t : State} (hf : (s.tile site).fwd = none)
    (hni : (s.tile site).ni = .direct ∨ (s.tile site).ni = .sealed) (ha : s.accept site p false = some t) :
    s.arriveAt k p site idx vt = t.eject k := by
  obtain hni | hni := hni <;> simp only [State.arriveAt, hf, hni, ha]

/-- What a direct interface does not accept stays, where no replay forces its order. -/
theorem State.arriveAt_stays (hf : (s.tile site).fwd = none) (hni : (s.tile site).ni = .direct)
    (ha : s.accept site p false = none) (hforced : s.forcedArrival site p = false) : s.arriveAt k p site idx vt = s := by
  simp only [State.arriveAt, hf, hni, ha, hforced, Bool.false_eq_true, if_false]

/-- What a direct interface does not accept in a replay goes into the ring, from which it is delivered (R391). -/
theorem State.arriveAt_forced (hf : (s.tile site).fwd = none) (hni : (s.tile site).ni = .direct)
    (ha : s.accept site p false = none) (hforced : s.forcedArrival site p = true) : s.arriveAt k p site idx vt =
      (s.setTile site { s.tile site with ni := .delivering, pdone := true }).append k p site idx vt := by
  simp only [State.arriveAt, hf, hni, ha, hforced, if_true]

/-- What a sealed interface does not accept makes it spill (R352). -/
theorem State.arriveAt_sealed (hf : (s.tile site).fwd = none) (hni : (s.tile site).ni = .sealed)
    (ha : s.accept site p false = none) : s.arriveAt k p site idx vt =
      (s.setTile site { s.tile site with ni := .spill }).append k { p with spilled := true } site idx vt := by
  simp only [State.arriveAt, hf, hni, ha]

/-- A spilling interface appends to the ring (R352). -/
theorem State.arriveAt_spill (hf : (s.tile site).fwd = none) (hni : (s.tile site).ni = .spill) :
    s.arriveAt k p site idx vt = s.append k { p with spilled := true } site idx vt := by
  simp only [State.arriveAt, hf, hni]

/-- An appending or delivering interface appends to the ring (R353). -/
theorem State.arriveAt_appends (hf : (s.tile site).fwd = none)
    (hni : (s.tile site).ni = .append ∨ (s.tile site).ni = .delivering) :
    s.arriveAt k p site idx vt = s.append k p site idx vt := by
  obtain hni | hni := hni <;> simp only [State.arriveAt, hf, hni]

/-- No forwarding entry leads on from where a packet arrives. -/
theorem State.arrives.fwd (h : s.arrives k p site idx vt) : (s.tile site).fwd = none := by
  obtain ⟨-, -, -, -, -, -, hf⟩ := h
  exact hf

/-- The tile where a packet arrives holds its vtile. -/
theorem State.arrives.name (h : s.arrives k p site idx vt) : (s.tile site).name = (idx, vt) := by
  obtain ⟨-, -, -, -, -, hocc, -⟩ := h
  simp [Tile.name, hocc]

variable {r : (Nat → Instr) × (Packet → Bool)} (hr : r ∈ arrivalRows) (hp : r.2 p = true)
include hr hp

/-- The event of a packet that arrives at the site of its vtile. -/
theorem State.arrives.exec_eq (h : s.arrives k p site idx vt) : exec (r.1 k) s = .next (s.arriveAt k p site idx vt) := by
  obtain ⟨hk, hturn, hdst, hd, hhop, hocc, -⟩ := h
  rw [exec_arrivalRow hr, State.arriveIf_eq hk hturn hp, State.arrive_at_site hdst hd hhop hocc]

/-- A packet that an interface accepts directly leaves the fabric. -/
theorem State.arrives.exec_accepted {t : State} (h : s.arrives k p site idx vt) (hni : (s.tile site).ni = .direct)
    (ha : s.accept site p false = some t) : exec (r.1 k) s = .next (t.eject k) := by
  rw [h.exec_eq hr hp, State.arriveAt_accepted h.fwd (.inl hni) ha]

/-- A packet that an interface does not accept directly stays, where no replay forces its order. -/
theorem State.arrives.exec_stays (h : s.arrives k p site idx vt) (hni : (s.tile site).ni = .direct)
    (ha : s.accept site p false = none) (hforced : s.forcedArrival site p = false) : exec (r.1 k) s = .next s := by
  rw [h.exec_eq hr hp, State.arriveAt_stays h.fwd hni ha hforced]

end

/-- Settles O35: by the mode of the interface at the vtile's site, and elsewhere by the packet's translation. -/
theorem packetsArrive : Obligations.PacketsArrive := by
  refine ⟨?site, ?route⟩
  case site =>
    intro r hr k s p site idx vt hp h
    have hx := h.exec_eq hr hp
    refine ⟨fun hni => ⟨fun t ha => h.exec_accepted hr hp hni ha, fun ha => h.exec_stays hr hp hni ha, fun ha hforced => ?_⟩,
      fun hni => ⟨fun t ha => ?_, fun ha => ?_⟩, fun hni => ?_, fun hni => ?_⟩
    · rw [hx, State.arriveAt_forced h.fwd hni ha hforced]
    · rw [hx, State.arriveAt_accepted h.fwd (.inr hni) ha]
    · rw [hx, State.arriveAt_sealed h.fwd hni ha]
    · rw [hx, State.arriveAt_spill h.fwd hni]
    · rw [hx, State.arriveAt_appends h.fwd hni]
  case route =>
    intro r hr k s p idx vt hp hk hturn hdst
    have hx : exec (r.1 k) s = .next (s.arrive k p) := by rw [exec_arrivalRow hr, State.arriveIf_eq hk hturn hp]
    refine ⟨fun h => ?_, fun hd => ⟨fun hhop => ?_, fun site hhop => ⟨fun new hocc hf => ?_, fun hocc hl => ?_,
      fun hocc hl hret => ?_, fun hocc hl hret => ?_⟩⟩⟩
    · rw [hx, State.arrive_of_discards hdst (State.discards_eq_true_iff.mpr h)]
    · rw [hx, State.arrive_gone hdst hd hhop]
    · rw [hx, State.arrive_at_site hdst hd hhop hocc, State.arriveAt_forwarded hf]
    · simp only [hx, State.arrive_elsewhere hdst hd hhop hocc, hl, Bool.not_false, if_true]
    · simp only [hx, State.arrive_elsewhere hdst hd hhop hocc, hl, hret, Bool.not_true, Bool.false_eq_true, if_false, if_true]
    · simp only [hx, State.arrive_elsewhere hdst hd hhop hocc, hl, hret, Bool.not_true, Bool.false_eq_true, if_false]

end Sys2Proof.Machine
end

section
/-! SUPPORT. Settles O36: what a vtile makes of messages, register writes, replies and requests. -/

namespace Sys2Proof.Machine

/-! ### What counting and capturing leave as they are -/

/-- A state but for the counts of tiles and what carries them to the Collier. -/
def State.besideCounts (s : State) : State := { s with tally := [], permits := [], flue := [], linkWait := [], dbbad := 0 }

/-- A message to the Collier changes nothing but what carries it. -/
theorem State.toCollier_besideCounts (s : State) (region type v : Nat) :
    (s.toCollier region type v).besideCounts = s.besideCounts := by
  have hdst : Nat.blt collierCode 0x40000 = false := by decide
  unfold State.toCollier State.flueSend
  simp only [hdst, Bool.false_and, Bool.false_eq_true, if_false]
  split
  · rfl
  · split
    · rfl
    · split <;> rfl

/-- Steps that each leave a part of the state as it is leave it together. -/
theorem foldl_keeps {α β : Type} (g : State → β) (f : State → α → State) (hf : ∀ s x, g (f s x) = g s) (xs : List α) (s : State) :
    g (xs.foldl f s) = g s := by
  induction xs generalizing s with
  | nil => rfl
  | cons x xs ih => rw [List.foldl_cons, ih, hf]

/-- What a Stoker reports changes nothing but the counts. -/
theorem State.sendStats_besideCounts (s : State) (region idx : Nat) :
    (s.sendStats region idx).besideCounts = s.besideCounts := by
  refine (foldl_keeps State.besideCounts _ (fun s x => ?_) _ _).trans rfl
  split
  · rfl
  · exact State.toCollier_besideCounts _ _ _ _

/-- What a tile counts changes nothing but the counts. -/
theorem State.countAt_besideCounts (s : State) (site idx : Nat) (f : ErrorLog → ErrorLog) :
    (s.countAt site idx f).besideCounts = s.besideCounts := by
  unfold State.countAt
  dsimp only
  split
  · rfl
  · split
    · rfl
    · exact State.sendStats_besideCounts _ _ _

@[simp] theorem State.countAt_launches (s : State) (site idx : Nat) (f : ErrorLog → ErrorLog) :
    (s.countAt site idx f).launches = s.launches := (congrArg State.launches (s.countAt_besideCounts site idx f) :)

@[simp] theorem State.capture_launches (s : State) (site qty idx v : Nat) :
    (s.capture site qty idx v).launches = s.launches := by
  unfold State.capture
  dsimp only
  split <;> rfl

/-! ### Turns where no replay forces one -/

section
variable {s : State} {l : Launch} (hl : l.replaying = false)
include hl

theorem State.takeTurn_of_not_replaying (vt iq held : Nat) (p : Packet) : s.takeTurn l vt iq held p = .now := by
  simp [State.takeTurn, hl]

theorem State.fireTurn_of_not_replaying (vt ctr : Nat) (equal : Bool) (p : Packet) : s.fireTurn l vt ctr equal p = .now := by
  simp [State.fireTurn, hl]

theorem State.writeTurn_of_not_replaying (vt slot reg : Nat) (p : Packet) : s.writeTurn l vt slot reg p = .now := by
  simp [State.writeTurn, hl]

end

/-- Where no replay forces its order an action is written down in record mode. -/
theorem State.noteOrder_of_not_replaying {s : State} {idx : Nat} (hl : (s.launch idx).replaying = false) (vt w : Nat)
    (e : Option (Nat × Nat × Nat)) : s.noteOrder idx vt w e = s.logEntry idx vt w none := by
  simp [State.noteOrder, hl]

/-- Where no replay forces its order, which entry of a log an action has does not matter. -/
theorem State.noteOrder_entry {s : State} {idx : Nat} (hl : (s.launch idx).replaying = false) (vt w : Nat)
    (e : Option (Nat × Nat × Nat)) : s.noteOrder idx vt w e = s.noteOrder idx vt w none := by
  rw [State.noteOrder_of_not_replaying hl, State.noteOrder_of_not_replaying hl]

/-- Where no replay forces an order, no arrival is forced. -/
theorem State.forcedArrival_of_not_replaying {s : State} {site idx vt : Nat} (p : Packet)
    (hname : (s.tile site).name = (idx, vt)) (hl : (s.launch idx).replaying = false) : s.forcedArrival site p = false := by
  simp [State.forcedArrival, hname, hl]

/-! ### Messages -/

section
variable {s : State} {site idx vt : Nat} (hname : (s.tile site).name = (idx, vt)) (p : Packet) (h : Word) (ws : List Word)
  {cls : Nat} (parked : Bool)

/-- Whether a queue has room for a message. -/
theorem Tile.queueRoom_iff (t : Tile) (i : Fin 4) (n : Nat) :
    (Nat.ble 16 t.iqs[i].msgs.length || Nat.blt 6848 (t.payloadUsed + 8 * n)) = true ↔ ¬ t.queueRoom i n := by
  rw [Bool.or_eq_true, Nat.ble_eq, Nat.blt_eq, Tile.queueRoom]
  omega

include hname

/-- A message for a class without a handler is dropped and counted. -/
theorem State.acceptDirect_unhandled
    (hh : (s.launch idx).pkt.handlers = false ∨ (s.launch idx).handler cls = 0xFFFF) :
    s.acceptDirect site p h ws cls parked = some (s.noted site idx fun g => { g with noHandler := g.noHandler + 1 }) := by
  cases hb : (s.launch idx).pkt.handlers with
  | false => simp [State.acceptDirect, hname, hb, State.noted]
  | true => simp [State.acceptDirect, hname, hb, hh.resolve_left (by simp [hb]), State.noted]

variable (hb : (s.launch idx).pkt.handlers = true) (hcls : (s.launch idx).handler cls ≠ 0xFFFF)
include hb hcls

/-- A message with a handler is not accepted where its queue has no room. -/
theorem State.acceptDirect_full (hroom : ¬ (s.tile site).queueRoom (Fin.ofNat 4 (hdrPrio h)) ws.length) :
    s.acceptDirect site p h ws cls parked = none := by
  have hq := (Tile.queueRoom_iff _ _ _).mpr hroom
  simp only [State.acceptDirect, hname, hb, beq_iff_eq, hcls, hq, Bool.not_true, Bool.false_eq_true, if_false, if_true]

/-- A message with a handler joins its queue where that has room and no replay forces its order. -/
theorem State.acceptDirect_queued (hl : (s.launch idx).replaying = false)
    (hroom : (s.tile site).queueRoom (Fin.ofNat 4 (hdrPrio h)) ws.length) :
    s.acceptDirect site p h ws cls false = some (s.enqueued site p h ws cls) := by
  have hq : (Nat.ble 16 (s.tile site).iqs[(Fin.ofNat 4 (hdrPrio h) : Fin 4)].msgs.length
      || Nat.blt 6848 ((s.tile site).payloadUsed + 8 * ws.length)) = false := by
    rw [← Bool.not_eq_true, Tile.queueRoom_iff]; exact not_not.mpr hroom
  simp only [State.acceptDirect, hname, hb, beq_iff_eq, hcls, hq, Bool.not_true, Bool.false_eq_true, if_false,
    State.takeTurn_of_not_replaying hl, State.takesTurn, State.enqueued, InQueue.add, List.isEmpty_iff]

end

/-- What an interface makes of a message leaves the launches as they are, where no replay forces its order. -/
theorem State.acceptDirect_launches {s u : State} {site idx vt : Nat} {p : Packet} {h : Word} {ws : List Word} {cls : Nat}
    (hname : (s.tile site).name = (idx, vt)) (hl : (s.launch idx).replaying = false)
    (ha : s.acceptDirect site p h ws cls false = some u) : u.launches = s.launches := by
  by_cases hh : (s.launch idx).pkt.handlers = false ∨ (s.launch idx).handler cls = 0xFFFF
  · obtain rfl := Option.some.inj ((State.acceptDirect_unhandled hname p h ws false hh).symm.trans ha)
    exact State.countAt_launches _ _ _ _
  · obtain ⟨hb, hcls⟩ := not_or.mp hh
    rw [Bool.not_eq_false] at hb
    by_cases hroom : (s.tile site).queueRoom (Fin.ofNat 4 (hdrPrio h)) ws.length
    · obtain rfl := Option.some.inj ((State.acceptDirect_queued hname p h ws hb hcls hl hroom).symm.trans ha)
      simp [State.enqueued]
    · rw [State.acceptDirect_full hname p h ws false hb hcls hroom] at ha
      cases ha

/-! ### Counted messages -/

section
variable {s : State} {site idx vt : Nat} (hname : (s.tile site).name = (idx, vt)) {p : Packet} {h : Word} {ws : List Word}
  {parked : Bool}

/-- A DEC of zero counts nothing. -/
theorem State.acceptCounted_zero (hdec : hdrDec h = 0) : s.acceptCounted site p h ws parked = some s := by
  simp only [State.acceptCounted, hdec, beq_self_eq_true, if_true]

variable (hl : (s.launch idx).replaying = false) (hpos : 0 < hdrDec h)
include hname hl hpos

/-- A DEC below COUNT is taken from it. -/
theorem State.acceptCounted_below
    (hlt : hdrDec h < (s.tile site).counters[(Fin.ofNat 64 (hdrClass h) : Fin 64)].count.toNat) :
    s.acceptCounted site p h ws parked = some (s.setTile site { s.tile site with
      counters := (s.tile site).counters.set (Fin.ofNat 64 (hdrClass h) : Fin 64)
        { (s.tile site).counters[(Fin.ofNat 64 (hdrClass h) : Fin 64)] with
          count := (s.tile site).counters[(Fin.ofNat 64 (hdrClass h) : Fin 64)].count - BitVec.ofNat 32 (hdrDec h) } }) := by
  simp only [State.acceptCounted, hname, beq_iff_eq, Nat.ne_of_gt hpos, if_false, State.fireTurn_of_not_replaying hl,
    State.takesTurn, Nat.blt_eq.mpr hlt, if_true]

/-- A DEC above COUNT is a counter fault. -/
theorem State.acceptCounted_above
    (hgt : (s.tile site).counters[(Fin.ofNat 64 (hdrClass h) : Fin 64)].count.toNat < hdrDec h) :
    s.acceptCounted site p h ws parked = some (s.counterFault site (Fin.ofNat 64 (hdrClass h) : Fin 64).val (hdrDec h)
      (s.tile site).counters[(Fin.ofNat 64 (hdrClass h) : Fin 64)].count.toNat p.src.vt) := by
  have hlt : ¬ Nat.blt (hdrDec h) (s.tile site).counters[(Fin.ofNat 64 (hdrClass h) : Fin 64)].count.toNat = true := by
    rw [Nat.blt_eq]; omega
  simp only [State.acceptCounted, hname, beq_iff_eq, Nat.ne_of_gt hpos, if_false, State.fireTurn_of_not_replaying hl,
    State.takesTurn, hlt, Bool.false_eq_true, Nat.ne_of_gt hgt]

/-- A DEC that brings COUNT to zero starts the handler of the entry's class, where the message is accepted for it. -/
theorem State.acceptCounted_fires {u : State}
    (heq : hdrDec h = (s.tile site).counters[(Fin.ofNat 64 (hdrClass h) : Fin 64)].count.toNat)
    (ha : s.acceptDirect site p h ws
      (s.tile site).counters[(Fin.ofNat 64 (hdrClass h) : Fin 64)].cls.toNat false = some u) :
    s.acceptCounted site p h ws false = some
      (let i : Fin 64 := Fin.ofNat 64 (hdrClass h)
       let v := u.noteOrder idx vt (entryWord 1 p.src.vt (p.tc - 4) i.val p.seq) none
       v.setTile site { v.tile site with
         counters := (v.tile site).counters.set i { (s.tile site).counters[i] with count := 0 } }) := by
  have hlt : ¬ Nat.blt (hdrDec h) (s.tile site).counters[(Fin.ofNat 64 (hdrClass h) : Fin 64)].count.toNat = true := by
    rw [Nat.blt_eq]; omega
  have hu : (u.launch idx).replaying = false := by
    rw [State.launch, State.acceptDirect_launches hname hl ha]; exact hl
  simp only [State.acceptCounted, hname, beq_iff_eq, Nat.ne_of_gt hpos, if_false, State.fireTurn_of_not_replaying hl,
    State.takesTurn, hlt, Bool.false_eq_true, ha, State.noteOrder_entry hu]
  simp only [← heq, if_true]

end

/-! ### Arrivals at an interface that accepts directly -/

section
variable {s : State} {k idx vt site : Nat} {p : Packet}

/-- What an interface makes of a message that R29 does not count. -/
theorem State.accept_message {h : Word} {ws : List Word} (hb : p.body = .message h ws) (hkind : hdrKind h ≠ 1)
    (parked : Bool) : s.accept site p parked = s.acceptDirect site p h ws (hdrClass h) parked := by
  simp only [State.accept, hb, beq_iff_eq, hkind, if_false]

/-- What an interface makes of a counted message stands in the next cycle. -/
theorem State.accept_counted {h : Word} {ws : List Word} (hb : p.body = .message h ws) (hkind : hdrKind h = 1)
    (parked : Bool) : s.accept site p parked = (s.acceptCounted site p h ws parked).map State.tick := by
  simp only [State.accept, hb, beq_iff_eq, hkind, if_true]

/-- A message is of one of the two kinds. -/
theorem Packet.isMessage_iff {h : Word} {ws : List Word} (hb : p.body = .message h ws) (counted : Bool) :
    p.isMessage counted = ((hdrKind h == 1) == counted) := by
  simp only [Packet.isMessage, hb]

end

/-- The events of the arrivals, each with the packets that it is for. -/
theorem mem_arrivalRows : (Instr.varResultArrival, fun p : Packet => p.entryType == 3) ∈ arrivalRows
    ∧ (Instr.messageArrival, Packet.isMessage false) ∈ arrivalRows
    ∧ (Instr.countedMessageArrival, Packet.isMessage true) ∈ arrivalRows
    ∧ (Instr.registerWriteArrival, fun p : Packet => p.entryType == 1) ∈ arrivalRows
    ∧ (Instr.remoteRequestArrival, fun p : Packet => p.isRequest) ∈ arrivalRows := by
  simp [arrivalRows]

theorem messagesAccepted : Claim.MessagesAccepted := by
  rintro k s p site idx vt h ws ⟨harr, hni⟩ hbody
  have hname := harr.name
  obtain ⟨-, hmessageRow, hcountedRow, -⟩ := mem_arrivalRows
  refine ⟨fun hkind => ?_, fun hkind => ?_⟩
  · have hr : ((Instr.messageArrival, Packet.isMessage false) : (Nat → Instr) × (Packet → Bool)) ∈ arrivalRows := by
      simp [arrivalRows]
    have hp : p.isMessage false = true := by simp [Packet.isMessage_iff hbody, hkind]
    have hacc := State.accept_message (s := s) (site := site) hbody hkind false
    refine ⟨fun hh => ?_, fun hb hcls => ⟨fun hl hroom => ?_, fun hl hroom => ?_⟩⟩
    · exact harr.exec_accepted hmessageRow hp hni (hacc.trans (State.acceptDirect_unhandled hname p h ws false hh))
    · exact harr.exec_stays hmessageRow hp hni (hacc.trans (State.acceptDirect_full hname p h ws false hb hcls hroom))
        (State.forcedArrival_of_not_replaying p hname hl)
    · exact harr.exec_accepted hmessageRow hp hni (hacc.trans (State.acceptDirect_queued hname p h ws hb hcls hl hroom))
  · intro i t e
    have hp : p.isMessage true = true := by simp [Packet.isMessage_iff hbody, hkind]
    have hgo {u : State} (hu : s.acceptCounted site p h ws false = some u) :
        exec (.countedMessageArrival k) s = .next (u.tick.eject k) :=
      harr.exec_accepted hcountedRow hp hni (by rw [State.accept_counted hbody hkind, hu]; rfl)
    refine ⟨fun hdec => hgo (State.acceptCounted_zero hdec), fun hl hpos => ⟨fun hlt => ?_, fun hgt => ?_, fun heq u hu => ?_⟩⟩
    · exact hgo (State.acceptCounted_below hname hl hpos hlt)
    · have hover := State.acceptCounted_above (p := p) (ws := ws) (parked := false) hname hl hpos hgt
      refine ⟨fun hpend => ?_, fun hpend => ?_⟩
      · rw [hgo hover, State.counterFault, if_pos hpend, hname]
        rfl
      · rw [hgo hover, State.counterFault, if_neg (by rw [hpend]; decide)]
        rfl
    · exact hgo (State.acceptCounted_fires hname hl hpos heq hu)

/-! ### Register writes -/

/-- The slot that a register capability names (R249). -/
def capSlot (c : Word) : Fin 8 := Fin.ofNat 8 (bitsOf c.toNat 39 37)

/-- Whether a write is held for the register of a capability. -/
def Tile.holdsFor (t : Tile) (c : Word) : Bool := t.hold.any fun h => h.slot == capSlot c && h.reg == capReg c

/-- Room for another write in the holding area, which takes the payload of a vector register from the input buffer (R256). -/
def Tile.holdRoom (t : Tile) (c : Word) : Prop :=
  t.hold.length < 4 ∧ (capReg c < 32 ∨ t.payloadUsed + 528 ≤ 6848)

/-- The write of a packet as the holding area keeps it. -/
def Packet.heldWrite (p : Packet) (c v : Word) (vec : Vec) (sd : Side) (rel : Bool) : HeldWrite :=
  { slot := capSlot c, reg := capReg c, gen := c.extractLsb' 19 12, val := v, vec, side := sd, src := p.src, release := rel }

/-- The state with a register write of a packet written down in record mode. -/
def State.writeLogged (s : State) (idx vt : Nat) (p : Packet) (c : Word) : State :=
  s.logEntry idx vt (entryWord 2 p.src.vt ((capSlot c).val * 8) (capReg c) p.seq) none

section
variable {s : State} {site idx vt : Nat} {p : Packet} {c v : Word} {vec : Vec} {sd : Side} {rel : Bool}

/-- A write of another generation, or for a slot without a thread, is dropped and counted. -/
theorem State.acceptWrite_stale
    (h : (s.tile site).slots[capSlot c].thread = false ∨ c.extractLsb' 19 12 ≠ (s.tile site).slots[capSlot c].gen) :
    s.acceptWrite site p c v vec sd rel
      = some (s.noted site p.src.idx fun g => { g with stalecap := g.stalecap + 1 }) := by
  have hb : (!(s.tile site).slots[capSlot c].thread || c.extractLsb' 19 12 != (s.tile site).slots[capSlot c].gen) = true := by
    rwa [Bool.or_eq_true, Bool.not_eq_true', bne_iff_ne]
  exact if_pos hb

/-- A write of the slot's generation where no replay forces its order: what its register, its mode and the holding area make of
it. -/
theorem State.acceptWrite_eq (hname : (s.tile site).name = (idx, vt)) (hl : (s.launch idx).replaying = false)
    (hthread : (s.tile site).slots[capSlot c].thread = true)
    (hgen : c.extractLsb' 19 12 = (s.tile site).slots[capSlot c].gen) :
    s.acceptWrite site p c v vec sd rel =
      let t := s.tile site
      let occ := t.occupied (s.launch idx) (capSlot c) (capReg c)
      let behind := c.getLsbD 18 && t.holdsFor c
      if t.slots[capSlot c].recorded then none
      else if (occ || behind) && c.getLsbD 18
          && !(Nat.blt t.hold.length 4 && (Nat.blt (capReg c) 32 || Nat.ble (t.payloadUsed + 528) 6848)) then none
      else if !occ && !behind then
        some ((s.writeLogged idx vt p c).setTile site (t.putReg (s.launch idx) (capSlot c) (capReg c) v vec sd rel))
      else if c.getLsbD 18 then
        some ((s.writeLogged idx vt p c).setTile site { t with hold := t.hold ++ [p.heldWrite c v vec sd rel] })
      else some ((s.writeLogged idx vt p c).overwrite site (capSlot c) (capReg c) p v) := by
  have hb : (!(s.tile site).slots[capSlot c].thread || c.extractLsb' 19 12 != (s.tile site).slots[capSlot c].gen) = false := by
    rw [hthread, hgen, bne_self_eq_false]; rfl
  refine (if_neg (Bool.eq_false_iff.mp hb)).trans ?_
  simp only [hname, State.writeTurn_of_not_replaying hl, State.takesTurn, State.noteOrder_of_not_replaying hl]
  rfl

/-- Whether the holding area has room, as `acceptWrite` asks for it. -/
theorem Tile.holdRoom_iff (t : Tile) (c : Word) :
    (Nat.blt t.hold.length 4 && (Nat.blt (capReg c) 32 || Nat.ble (t.payloadUsed + 528) 6848)) = true ↔ t.holdRoom c := by
  simp only [Bool.and_eq_true, Bool.or_eq_true, Nat.blt_eq, Nat.ble_eq, Tile.holdRoom]

end

/-- A write is done after every local action of its cycle. -/
theorem State.accept_regWrite {s : State} {site : Nat} {p : Packet} {c v : Word} {vec : Vec} {sd : Side} {rel : Bool}
    (hb : p.body = .regWrite c v vec sd rel) (parked : Bool) :
    s.accept site p parked = (s.acceptWrite site p c v vec sd rel).map State.tick := by
  simp only [State.accept, hb]

section
variable {s : State} {site idx vt : Nat} {p : Packet} {c v : Word} {vec : Vec} {sd : Side} {rel : Bool}
  (hname : (s.tile site).name = (idx, vt)) (hl : (s.launch idx).replaying = false)
  (hthread : (s.tile site).slots[capSlot c].thread = true)
  (hgen : c.extractLsb' 19 12 = (s.tile site).slots[capSlot c].gen)
include hname hl hthread hgen

/-- A write for a slot whose state stands in its save record is not accepted. -/
theorem State.acceptWrite_recorded (hrec : (s.tile site).slots[capSlot c].recorded = true) :
    s.acceptWrite site p c v vec sd rel = none := by
  rw [State.acceptWrite_eq hname hl hthread hgen]
  exact if_pos hrec

variable (hrec : (s.tile site).slots[capSlot c].recorded = false)
include hrec

/-- An unoccupied register takes the value, where no write of its order is held before it. -/
theorem State.acceptWrite_puts (hocc : (s.tile site).occupied (s.launch idx) (capSlot c) (capReg c) = false)
    (hfree : (c.getLsbD 18 && (s.tile site).holdsFor c) = false) : s.acceptWrite site p c v vec sd rel =
      some ((s.writeLogged idx vt p c).setTile site
        ((s.tile site).putReg (s.launch idx) (capSlot c) (capReg c) v vec sd rel)) := by
  simp only [State.acceptWrite_eq hname hl hthread hgen, hrec, hocc, hfree, Bool.or_self, Bool.false_and, Bool.not_false,
    Bool.and_self, Bool.false_eq_true, if_false, if_true]

/-- An occupied register overwrites its record on a strict write. -/
theorem State.acceptWrite_overwrites (hocc : (s.tile site).occupied (s.launch idx) (capSlot c) (capReg c) = true)
    (hstrict : c.getLsbD 18 = false) : s.acceptWrite site p c v vec sd rel =
      some ((s.writeLogged idx vt p c).overwrite site (capSlot c) (capReg c) p v) := by
  simp only [State.acceptWrite_eq hname hl hthread hgen, hrec, hocc, hstrict, Bool.false_and, Bool.and_false, Bool.or_false,
    Bool.not_true, Bool.false_eq_true, if_false]

variable (hwait : (s.tile site).occupied (s.launch idx) (capSlot c) (capReg c) = true ∨ (s.tile site).holdsFor c = true)
  (hqueue : c.getLsbD 18 = true)
include hwait hqueue

/-- A queue write that has to wait is held where the holding area has room. -/
theorem State.acceptWrite_holds (hroom : (s.tile site).holdRoom c) : s.acceptWrite site p c v vec sd rel =
      some ((s.writeLogged idx vt p c).setTile site
        { s.tile site with hold := (s.tile site).hold ++ [p.heldWrite c v vec sd rel] }) := by
  have hw := Bool.or_eq_true_iff.mpr hwait
  simp only [State.acceptWrite_eq hname hl hthread hgen, hrec, hqueue, (Tile.holdRoom_iff _ c).mpr hroom, ← Bool.not_or,
    Bool.true_and, hw, Bool.not_true, Bool.and_false, Bool.false_eq_true, if_false, if_true]

/-- A queue write that has to wait is not accepted where the holding area has no room. -/
theorem State.acceptWrite_noRoom (hroom : ¬ (s.tile site).holdRoom c) : s.acceptWrite site p c v vec sd rel = none := by
  have hw := Bool.or_eq_true_iff.mpr hwait
  have hr := Bool.eq_false_iff.mpr (mt (Tile.holdRoom_iff _ c).mp hroom)
  simp only [State.acceptWrite_eq hname hl hthread hgen, hrec, hqueue, hr, Bool.true_and, hw, Bool.not_false, Bool.and_self,
    Bool.false_eq_true, if_false, if_true]

end

/-! ### Replies and requests -/

section
variable {s : State} {site : Nat} {p : Packet} {op : MemOp} {ptr : Word} {wants : Bool}

/-- A request that its bank performs is accepted with that. -/
theorem State.acceptRequest_performed {u : State} (hbehind : s.heldBehind site (s.tile site).heldReqs p = false)
    (hroom : (s.tile site).heldReqs.length < 16) (hu : s.performAt site p op ptr wants = some u) :
    s.acceptRequest site p op ptr wants = some u := by
  have hn : Nat.ble 16 (s.tile site).heldReqs.length = false := by rw [← Bool.not_eq_true, Nat.ble_eq]; omega
  simp only [State.acceptRequest, hbehind, hn, Bool.or_self, Bool.false_eq_true, if_false, hu]

/-- A request that its bank does not perform yet is held. -/
theorem State.acceptRequest_held (hbehind : s.heldBehind site (s.tile site).heldReqs p = false)
    (hroom : (s.tile site).heldReqs.length < 16) (hu : s.performAt site p op ptr wants = none) :
    s.acceptRequest site p op ptr wants
      = some (s.setTile site { s.tile site with heldReqs := (s.tile site).heldReqs ++ [p] }) := by
  have hn : Nat.ble 16 (s.tile site).heldReqs.length = false := by rw [← Bool.not_eq_true, Nat.ble_eq]; omega
  simp only [State.acceptRequest, hbehind, hn, Bool.or_self, Bool.false_eq_true, if_false, hu]

/-- A request behind a held one of its slot, or beyond the 16 that a tile holds, is not accepted. -/
theorem State.acceptRequest_refused
    (h : s.heldBehind site (s.tile site).heldReqs p = true ∨ 16 ≤ (s.tile site).heldReqs.length) :
    s.acceptRequest site p op ptr wants = none := by
  rw [← Nat.ble_eq, ← Bool.or_eq_true_iff] at h
  exact if_pos h

/-- A request forces no order in a replay. -/
theorem State.forcedArrival_request (hb : p.body = .request op ptr wants) : s.forcedArrival site p = false := by
  simp only [State.forcedArrival, Packet.entryType, hb]
  exact Bool.and_false _

end

theorem writesRepliesAndRequestsAccepted : Claim.WritesRepliesAndRequestsAccepted := by
  rintro k s p site idx vt ⟨harr, hni⟩
  have hname := harr.name
  obtain ⟨hreplyRow, -, -, hwriteRow, hrequestRow⟩ := mem_arrivalRows
  refine ⟨fun c v vec sd rel hb => ?write, fun v sd fl hb => ?reply, fun c tv pc hb => ?error, fun op ptr wants hb => ?request⟩
  case write =>
    have hp : (p.entryType == 1) = true := by simp [Packet.entryType, hb]
    have hgo {u : State} (hu : s.acceptWrite site p c v vec sd rel = some u) :
        exec (.registerWriteArrival k) s = .next (u.tick.eject k) :=
      harr.exec_accepted hwriteRow hp hni (by rw [State.accept_regWrite hb, hu]; rfl)
    have hstay (hl : (s.launch idx).replaying = false) (hu : s.acceptWrite site p c v vec sd rel = none) :
        exec (.registerWriteArrival k) s = .next s :=
      harr.exec_stays hwriteRow hp hni (by rw [State.accept_regWrite hb, hu]; rfl)
        (State.forcedArrival_of_not_replaying p hname hl)
    exact ⟨fun hstale => hgo (State.acceptWrite_stale hstale),
      fun hthread hgen hrec hl => hstay hl (State.acceptWrite_recorded hname hl hthread hgen hrec),
      fun hthread hgen hrec hl =>
        ⟨fun hocc hfree => hgo (State.acceptWrite_puts hname hl hthread hgen hrec hocc hfree),
          fun hocc hstrict => hgo (State.acceptWrite_overwrites hname hl hthread hgen hrec hocc hstrict),
          fun hwait hq hroom => hgo (State.acceptWrite_holds hname hl hthread hgen hrec hwait hq hroom),
          fun hwait hq hroom => hstay hl (State.acceptWrite_noRoom hname hl hthread hgen hrec hwait hq hroom)⟩⟩
  case reply =>
    exact harr.exec_accepted hreplyRow (by simp [Packet.entryType, hb]) hni (by simp only [State.accept, hb])
  case error =>
    exact harr.exec_accepted hreplyRow (by simp [Packet.entryType, hb]) hni (by simp only [State.accept, hb])
  case request =>
    have hp : p.isRequest = true := by simp [Packet.isRequest, hb]
    have hacc : s.accept site p false = s.acceptRequest site p op ptr wants := by simp only [State.accept, hb]
    refine ⟨fun hbehind hroom => ⟨fun u hu => ?_, fun hu => ?_⟩, fun h => ?_⟩
    · exact harr.exec_accepted hrequestRow hp hni (hacc.trans (State.acceptRequest_performed hbehind hroom hu))
    · exact harr.exec_accepted hrequestRow hp hni (hacc.trans (State.acceptRequest_held hbehind hroom hu))
    · exact harr.exec_stays hrequestRow hp hni (hacc.trans (State.acceptRequest_refused h)) (State.forcedArrival_request hb)

/-- Settles O36: what an interface that accepts directly makes of each kind of packet. -/
theorem packetsAccepted : Obligations.PacketsAccepted := ⟨messagesAccepted, writesRepliesAndRequestsAccepted⟩

end Sys2Proof.Machine
end

section
/-! SUPPORT. What trace records, counts and log entries leave as they are, and what the start of a thread does. -/

namespace Sys2Proof.Machine

/-! ### Trace records -/

/-- A tile but for what trace records change: the numbering of records and the counter and interface under which they leave. -/
def Tile.besideTrace (t : Tile) : Tile :=
  { t with outq := [], colourCtr := Vector.replicate 16 0, trSeq := 0, trLast := 0, trRebase := true, trLost := 0 }

theorem Tile.besideTrace_lost (t : Tile) (n : Nat) (b : Bool) :
    ({ t with trLost := n, trRebase := b } : Tile).besideTrace = t.besideTrace := rfl

/-- A state but for its tiles and the packets on their way. -/
def State.besideTiles (s : State) : State := { s with tiles := [], fabric := [] }

/-- A state differs from another by trace records of a site alone. -/
def State.tracedFrom (site : Nat) (s u : State) : Prop :=
  u.besideTiles = s.besideTiles ∧ (u.tile site).besideTrace = (s.tile site).besideTrace

section
variable {site : Nat} {s u w : State}

theorem State.tracedFrom_refl (site : Nat) (s : State) : s.tracedFrom site s := ⟨rfl, rfl⟩

theorem State.tracedFrom.trans (h : s.tracedFrom site u) (h' : u.tracedFrom site w) : s.tracedFrom site w :=
  ⟨h'.1.trans h.1, h'.2.trans h.2⟩

/-- Replacing a tile by one with other trace fields. -/
theorem State.setTile_tracedFrom {t : Tile} (h : t.besideTrace = (s.tile site).besideTrace) :
    s.tracedFrom site (s.setTile site t) :=
  ⟨rfl, by rw [State.tile_setTile_same, h]⟩

theorem State.sendTrace_tracedFrom (site : Nat) (s : State) (bits : Nat) : s.tracedFrom site (s.sendTrace site bits) := by
  unfold State.sendTrace
  dsimp only
  split
  · have h : s.tracedFrom site (s.setTile site { s.tile site with
        colourCtr := (s.tile site).colourCtr.set (15 : Fin 16) ((s.tile site).colourCtr[(15 : Fin 16)] + 1) }) :=
      State.setTile_tracedFrom rfl
    exact h
  · exact State.setTile_tracedFrom rfl

theorem State.putTrace_tracedFrom (site : Nat) (s : State) (type slot : Nat) (sys : Bool) (delta w1 w2 w3 : Nat) :
    s.tracedFrom site (s.putTrace site type slot sys delta w1 w2 w3) := by
  refine State.tracedFrom.trans (u := s.setTile site
    { s.tile site with trSeq := ((s.tile site).trSeq + 1) % 256, trLast := s.tb.toNat }) ?_ ?_
  · exact State.setTile_tracedFrom rfl
  · exact State.sendTrace_tracedFrom site _ _

/-- A record of another kind and the fields that it sets. -/
theorem State.tracedFrom.setTile {t : Tile} (h : s.tracedFrom site u) (ht : t.besideTrace = (u.tile site).besideTrace) :
    s.tracedFrom site (u.setTile site t) :=
  h.trans (State.setTile_tracedFrom ht)

/-- A LOST record once space has returned, the first part of what makes a site ready for a record (R405). -/
def State.lostNoted (s : State) (site : Nat) : State :=
  if (s.tile site).trLost != 0 && s.traceRoom (regionOf site) then
    let s := s.putTrace site 0x0D 0 false (s.tb.toNat - (s.tile site).trLast) (s.tile site).trLost 0 0
    s.setTile site { s.tile site with trLost := 0, trRebase := true }
  else s

/-- A REBASE record where R405 asks for one, the second part. -/
def State.rebased (s : State) (site : Nat) : State :=
  if (s.tile site).trRebase || Nat.ble (2 ^ 24) (s.tb.toNat - (s.tile site).trLast) then
    if s.traceRoom (regionOf site) then
      let s := s.putTrace site 0x0C 0 false 0 s.tb.toNat 0 0
      s.setTile site { s.tile site with trRebase := false }
    else s
  else s

theorem State.traceReady_eq (s : State) (site : Nat) : s.traceReady site = (s.lostNoted site).rebased site := rfl

theorem State.lostNoted_tracedFrom (site : Nat) (s : State) : s.tracedFrom site (s.lostNoted site) := by
  unfold State.lostNoted
  split
  · exact (State.putTrace_tracedFrom site s _ _ _ _ _ _ _).setTile (Tile.besideTrace_lost _ _ _)
  · exact State.tracedFrom_refl site s

theorem State.rebased_tracedFrom (site : Nat) (s : State) : s.tracedFrom site (s.rebased site) := by
  unfold State.rebased
  split
  · split
    · exact (State.putTrace_tracedFrom site s _ _ _ _ _ _ _).setTile (Tile.besideTrace_lost _ _ _)
    · exact State.tracedFrom_refl site s
  · exact State.tracedFrom_refl site s

theorem State.traceReady_tracedFrom (site : Nat) (s : State) : s.tracedFrom site (s.traceReady site) :=
  (State.lostNoted_tracedFrom site s).trans (State.rebased_tracedFrom site _)

/-- A trace record of a site changes nothing but the site's trace fields and the packets on their way. -/
theorem State.emit_tracedFrom (site : Nat) (s : State) (type slot : Nat) (sys : Bool) (w1 w2 w3 : Nat) :
    s.tracedFrom site (s.emit site type slot sys w1 w2 w3) := by
  unfold State.emit
  dsimp only
  split
  · exact State.tracedFrom_refl site s
  · split
    · exact State.setTile_tracedFrom rfl
    · split
      · exact (State.traceReady_tracedFrom site s).trans (State.putTrace_tracedFrom site _ _ _ _ _ _ _ _)
      · exact (State.traceReady_tracedFrom site s).setTile (Tile.besideTrace_lost _ _ _)

/-- A trace record of a site changes the tile in its trace fields alone. -/
theorem State.emit_besideTrace (site : Nat) (s : State) (type slot : Nat) (sys : Bool) (w1 w2 w3 : Nat) :
    ((s.emit site type slot sys w1 w2 w3).tile site).besideTrace = (s.tile site).besideTrace :=
  (State.emit_tracedFrom site s type slot sys w1 w2 w3).2

theorem State.emit_cycle (site : Nat) (s : State) (type slot : Nat) (sys : Bool) (w1 w2 w3 : Nat) :
    (s.emit site type slot sys w1 w2 w3).cycle = s.cycle :=
  (congrArg State.cycle (State.emit_tracedFrom site s type slot sys w1 w2 w3).1 :)

theorem State.emit_launches (site : Nat) (s : State) (type slot : Nat) (sys : Bool) (w1 w2 w3 : Nat) :
    (s.emit site type slot sys w1 w2 w3).launches = s.launches :=
  (congrArg State.launches (State.emit_tracedFrom site s type slot sys w1 w2 w3).1 :)

end

/-! ### Log entries -/

/-- A state but for rim memory, its keys and the launches. -/
def State.besideLog (s : State) : State := { s with hbm := [], keyed := [], launches := [] }

theorem State.putVirt64_besideLog (s : State) (asid va v : Nat) : (s.putVirt64 asid va v).besideLog = s.besideLog := by
  unfold State.putVirt64
  split
  · split <;> rfl
  · rfl

theorem State.putVirt64_launches (s : State) (asid va v : Nat) : (s.putVirt64 asid va v).launches = s.launches := by
  unfold State.putVirt64
  split
  · split <;> rfl
  · rfl

theorem State.markSegment_besideLog (s : State) (l : Launch) (status vt : Nat) :
    (s.markSegment l status vt).besideLog = s.besideLog := by
  unfold State.markSegment
  split
  · rfl
  · split
    · exact State.putVirt64_besideLog _ _ _ _
    · rfl

theorem State.markSegment_launches (s : State) (l : Launch) (status vt : Nat) :
    (s.markSegment l status vt).launches = s.launches := by
  unfold State.markSegment
  split
  · rfl
  · split
    · exact State.putVirt64_launches _ _ _ _
    · rfl

/-- An entry of one word as record mode writes it down: nothing, a mark of a full segment, an entry that waits for its segment, or the
entry in its chunk. -/
theorem State.logEntry_cases (s : State) (idx chunk w : Nat) :
    s.logEntry idx chunk w none = s
    ∨ (∃ e, s.logEntry idx chunk w none = s.setLaunch idx { s.launch idx with early := e })
    ∨ (∃ a x y l st v, s.logEntry idx chunk w none = (s.putVirt64 a x y).markSegment l st v)
    ∨ ∃ a x y b z v, s.logEntry idx chunk w none = (s.putVirt64 a x y).putVirt64 b z v := by
  unfold State.logEntry
  simp only [Option.isSome_none, Bool.false_eq_true, if_false]
  split
  · exact .inl rfl
  · split
    · exact .inr (.inl ⟨_, rfl⟩)
    · split
      · exact .inr (.inr (.inl ⟨_, _, _, _, _, _, rfl⟩))
      · exact .inr (.inr (.inr ⟨_, _, _, _, _, _, rfl⟩))

theorem State.logEntry_besideLog (s : State) (idx chunk w : Nat) :
    (s.logEntry idx chunk w none).besideLog = s.besideLog := by
  obtain h | ⟨e, h⟩ | ⟨a, x, y, l, st, v, h⟩ | ⟨a, x, y, b, z, v, h⟩ := s.logEntry_cases idx chunk w <;> rw [h]
  · rfl
  · exact (State.markSegment_besideLog _ _ _ _).trans (State.putVirt64_besideLog _ _ _ _)
  · exact (State.putVirt64_besideLog _ _ _ _).trans (State.putVirt64_besideLog _ _ _ _)

/-- A log entry leaves the packet of every launch as it is. -/
theorem State.logEntry_pkt (s : State) (idx chunk w j : Nat) :
    ((s.logEntry idx chunk w none).launch j).pkt = (s.launch j).pkt := by
  obtain h | ⟨e, h⟩ | ⟨a, x, y, l, st, v, h⟩ | ⟨a, x, y, b, z, v, h⟩ := s.logEntry_cases idx chunk w <;> rw [h]
  · by_cases hj : j = idx
    · subst hj; rw [State.launch_setLaunch_same]
    · rw [State.launch, State.setLaunch, Table.getD_put_other _ _ _ _ _ hj]; rfl
  · rw [State.launch, State.markSegment_launches, State.putVirt64_launches]; rfl
  · rw [State.launch, State.putVirt64_launches, State.putVirt64_launches]; rfl

/-! ### The start of a thread -/

/-- The tile of a site in which a thread has started in a slot: the writes held for the slot are gone. -/
def State.threadTile (s : State) (site : Nat) (k : Fin 8) (res : Bool) (pc : Half) : Tile :=
  let t := s.tile site
  { t with
    hold := t.hold.filter (fun h => h.slot != k)
    slots := t.slots.set k
      { t.slots[k].start res (s.launch t.name.1).pkt.seed pc with started := s.tb.toNat } }

/-- The start of a thread changes its tile and the counts of stale writes alone. -/
theorem State.startThread_besideCounts (s : State) (site : Nat) (k : Fin 8) (res : Bool) (pc : Half) :
    (s.startThread site k res pc).besideCounts = (s.setTile site (s.threadTile site k res pc)).besideCounts := by
  unfold State.startThread
  exact foldl_keeps State.besideCounts _ (fun s h => State.countAt_besideCounts s _ _ _) _ _

theorem State.startThread_tile (s : State) (site : Nat) (k : Fin 8) (res : Bool) (pc : Half) :
    (s.startThread site k res pc).tile site = s.threadTile site k res pc :=
  (congrArg (fun u : State => u.tile site) (s.startThread_besideCounts site k res pc) :).trans
    (State.tile_setTile_same s site _)

theorem State.startThread_cycle (s : State) (site : Nat) (k : Fin 8) (res : Bool) (pc : Half) :
    (s.startThread site k res pc).cycle = s.cycle :=
  (congrArg State.cycle (s.startThread_besideCounts site k res pc) :)

theorem State.startThread_launches (s : State) (site : Nat) (k : Fin 8) (res : Bool) (pc : Half) :
    (s.startThread site k res pc).launches = s.launches :=
  (congrArg State.launches (s.startThread_besideCounts site k res pc) :)

end Sys2Proof.Machine
end

section
/-! SUPPORT. Settles O38: the steps of a tile. -/

namespace Sys2Proof.Machine

/-! ### The dispatcher -/

theorem State.capture_tile (s : State) (site qty idx v x : Nat) : (s.capture site qty idx v).tile x = s.tile x := by
  unfold State.capture
  dsimp only
  split <;> rfl

theorem State.capture_cycle (s : State) (site qty idx v : Nat) : (s.capture site qty idx v).cycle = s.cycle := by
  unfold State.capture
  dsimp only
  split <;> rfl

/-- The tile of a slot that is replaced. -/
theorem State.tile_setSlot_tile (s : State) (site : Nat) (k : Fin 8) (x : Slot) :
    (s.setSlot (.tile site k) x).tile site = (s.tile site).setSlot k x :=
  State.tile_setTile_same _ _ _

/-- A slot in which an activation starts with a message. -/
def Slot.activated (sl : Slot) (seed : Word) (pc : Half) (started : Nat) (m : Msg) : Slot :=
  { sl.start false seed pc with started, msg := some m, cursor := 0, msgcls := BitVec.ofNat 8 (128 + m.cls % 64) }

/-- A tile in which an activation has started in a slot: the writes held for the slot are gone. -/
def Tile.activated (t : Tile) (k : Fin 8) (seed : Word) (pc : Half) (started : Nat) (m : Msg) : Tile :=
  { t with hold := t.hold.filter (fun h => h.slot != k), slots := t.slots.set k (t.slots[k].activated seed pc started m) }

section
variable (t : Tile) (k : Fin 8) (seed : Word) (pc : Half) (started : Nat) (m : Msg)

theorem Tile.activated_slot_same :
    (t.activated k seed pc started m).slots[k] = t.slots[k].activated seed pc started m := by
  simp [Tile.activated]

theorem Tile.activated_slot_other (j : Fin 8) (hj : j ≠ k) :
    (t.activated k seed pc started m).slots[j] = t.slots[j] := by
  have hkj : k.val ≠ j.val := fun e => hj (Fin.ext e.symm)
  simp [Tile.activated, hkj]

end

/-- A thread start whose message becomes the current one starts an activation. -/
theorem State.startMessage_tile (s : State) (site : Nat) (k : Fin 8) (pc : Half) (m : Msg) :
    let u := s.startThread site k false pc
    (u.setSlot (.tile site k) { u.slot (.tile site k) with
      msg := some m, cursor := 0, msgcls := BitVec.ofNat 8 (128 + m.cls % 64) }).tile site
    = (s.tile site).activated k (s.launch (s.tile site).name.1).pkt.seed pc s.tb.toNat m := by
  intro u
  have hu : u.tile site = s.threadTile site k false pc := s.startThread_tile site k false pc
  have hslot : u.slot (.tile site k) = (s.threadTile site k false pc).slots[k] := by rw [State.slot, hu]
  rw [State.tile_setSlot_tile, hu, hslot]
  simp [State.threadTile, Tile.setSlot, Tile.activated, Slot.activated]

/-- Taking the head of a queue into a slot starts its activation at the handler of its class, and no time passes. -/
theorem State.startActivation_spec {s : State} {site : Nat} {i : Fin 4} {k : Fin 8} {m : Msg} {rest : List Msg}
    (hm : (s.tile site).iqs[i].msgs = m :: rest) (hl : (s.launch (s.tile site).name.1).replaying = false) :
    (s.startActivation site i k).cycle = s.cycle
    ∧ ((s.startActivation site i k).tile site).besideTrace
      = (({ s.tile site with
            iqs := (s.tile site).iqs.set i { msgs := rest, since := s.cycle, aged := none } } : Tile).activated k
          (s.launch (s.tile site).name.1).pkt.seed ((s.launch (s.tile site).name.1).handler m.cls) s.tb.toNat m).besideTrace := by
  unfold State.startActivation
  simp only [hm, State.noteOrder_of_not_replaying hl]
  generalize entryWord 0 m.srcVt (m.tc - 4 + k.val * 8) (m.cls + i.val * 64) m.seq = w
  have hlog := s.logEntry_besideLog (s.tile site).name.1 (s.tile site).name.2 w
  have hpkt := s.logEntry_pkt (s.tile site).name.1 (s.tile site).name.2 w (s.tile site).name.1
  generalize s.logEntry (s.tile site).name.1 (s.tile site).name.2 w none = s1 at hlog hpkt ⊢
  have hcycle : s1.cycle = s.cycle := (congrArg State.cycle hlog :)
  have htb : s1.tb = s.tb := (congrArg State.tb hlog :)
  constructor
  · rw [State.capture_cycle, State.emit_cycle, State.setSlot_cycle, State.startThread_cycle, State.setTile_cycle, hcycle]
  · rw [State.capture_tile, State.emit_besideTrace, State.startMessage_tile, State.tile_setTile_same]
    show (Tile.activated _ k (s1.launch (s.tile site).name.1).pkt.seed _ s1.tb.toNat m).besideTrace = _
    rw [hpkt, htb, hcycle]

/-- The dispatcher takes the head of the picked queue into the lowest free slot, where no replay forces its choice. -/
theorem execDispatch_takes {s : State} {site : Nat} {i : Fin 4} {k : Fin 8} (hmay : s.mayDispatch site = true)
    (hl : (s.launch (s.tile site).name.1).replaying = false) (hpick : (s.tile site).pick s.cycle = some i)
    (hfree : (List.finRange 8).find? (s.tile site).activationFree = some k) :
    exec (.dispatch site) s = .next
      ((State.startActivation { s with cycle := max s.cycle (s.tile site).dispFree } site i k).dispatched site) := by
  have htake : s.taking site = .take i k := by
    simp only [State.taking, hl, hpick, hfree, Bool.false_eq_true, if_false]
  show execDispatch site s = _
  simp only [execDispatch, hmay, htake, Bool.not_true, Bool.false_eq_true, if_false]

/-- What a dispatch leaves in the tile. -/
theorem dispatch_spec {s : State} {site : Nat} {i : Fin 4} {k : Fin 8} {m : Msg} {rest : List Msg}
    (hmay : s.mayDispatch site = true) (hl : (s.launch (s.tile site).name.1).replaying = false)
    (hpick : (s.tile site).pick s.cycle = some i)
    (hfree : (List.finRange 8).find? (s.tile site).activationFree = some k)
    (hm : (s.tile site).iqs[i].msgs = m :: rest) :
    ∃ t, exec (.dispatch site) s = .next t ∧ (t.tile site).iqs[i].msgs = rest
      ∧ (t.tile site).slots[k].thread = true ∧ (t.tile site).slots[k].res = false ∧ (t.tile site).slots[k].sys = false
      ∧ (t.tile site).slots[k].pc = (s.launch (s.tile site).name.1).handler m.cls
      ∧ (t.tile site).slots[k].msg = some m ∧ (t.tile site).slots[k].cursor = 0
      ∧ (t.tile site).slots[k].gen = (s.tile site).slots[k].gen + 1
      ∧ (t.tile site).slots[k].srseed = (s.launch (s.tile site).name.1).pkt.seed
      ∧ (t.tile site).dispFree = max s.cycle (s.tile site).dispFree + 1
      ∧ ∀ j, j ≠ k → (t.tile site).slots[j] = (s.tile site).slots[j] := by
  refine ⟨_, execDispatch_takes hmay hl hpick hfree, ?_⟩
  have hspec := State.startActivation_spec (s := { s with cycle := max s.cycle (s.tile site).dispFree }) (k := k) hm hl
  generalize State.startActivation { s with cycle := max s.cycle (s.tile site).dispFree } site i k = u at hspec ⊢
  obtain ⟨hcycle, htile⟩ := hspec
  have hiqs : (u.tile site).iqs[i].msgs = rest := by
    have h := (congrArg (fun t : Tile => t.iqs[i].msgs) htile :)
    refine h.trans ?_
    simp [Tile.activated, Tile.besideTrace]
  have hslots : (u.tile site).slots = _ := (congrArg Tile.slots htile :)
  have hk := (congrArg (·[k]) hslots).trans (Tile.activated_slot_same _ k _ _ _ m)
  have hother (j : Fin 8) (hj : j ≠ k) := (congrArg (·[j]) hslots).trans (Tile.activated_slot_other _ k _ _ _ m j hj)
  rw [State.dispatched, State.tile_setTile_same]
  dsimp only at hk hother ⊢
  rw [hk, hcycle]
  exact ⟨hiqs, rfl, rfl, rfl, rfl, rfl, rfl, rfl, rfl, rfl, hother⟩

/-! ### Resident threads -/

/-- A slot is that of a resident thread that has started in a slot of a launch: at the launch entry, in a guarded one at SURR. -/
def Slot.residentFrom (x sl : Slot) (l : Launch) : Prop :=
  x.thread = true ∧ x.res = true ∧ x.sys = false
    ∧ x.pc = BitVec.ofNat 16 (if l.pkt.guarded then l.pkt.surr else l.entry) ∧ x.gen = sl.gen + 1

/-- What the start of resident threads keeps: the launches, the vtile, that it is fresh, and the slots without one. -/
def State.keepsBeside (s u : State) (site : Nat) (ks : List (Fin 8)) : Prop :=
  u.launches = s.launches ∧ (u.tile site).name = (s.tile site).name ∧ (u.tile site).fresh = (s.tile site).fresh
    ∧ ∀ k, k ∉ ks → (u.tile site).slots[k] = (s.tile site).slots[k]

/-- One resident thread starts where its slot is one of the launch's. -/
theorem State.startResident_spec (s : State) (site : Nat) (k : Fin 8) :
    s.keepsBeside (s.startResident site k) site [k]
    ∧ (k.val < (s.launch (s.tile site).name.1).pkt.slots →
      ((s.startResident site k).tile site).slots[k].residentFrom (s.tile site).slots[k] (s.launch (s.tile site).name.1)) := by
  unfold State.startResident
  dsimp only
  split
  case isTrue h => exact ⟨⟨rfl, rfl, rfl, fun _ _ => rfl⟩, fun hk => absurd (Nat.ble_eq.mp h) (by omega)⟩
  case isFalse h =>
    generalize hpc : BitVec.ofNat 16 (if (s.launch (s.tile site).name.1).pkt.guarded = true then
      (s.launch (s.tile site).name.1).pkt.surr else (s.launch (s.tile site).name.1).entry) = pc
    generalize traceThread _ _ _ 0 = w
    have htile := (State.emit_besideTrace site (s.startThread site k true pc) 0x03 k.val false w 0 0).trans
      (congrArg Tile.besideTrace (s.startThread_tile site k true pc))
    have hlaunches := (State.emit_launches site (s.startThread site k true pc) 0x03 k.val false w 0 0).trans
      (s.startThread_launches site k true pc)
    generalize State.emit _ site 0x03 k.val false w 0 0 = u at htile hlaunches ⊢
    have hslots : (u.tile site).slots = _ := (congrArg Tile.slots htile :)
    refine ⟨⟨hlaunches, (congrArg Tile.name htile :), (congrArg Tile.fresh htile :), fun j hj => ?_⟩, fun _ => ?_⟩
    · have hkj : k.val ≠ j.val := fun e => hj (List.mem_singleton.mpr (Fin.ext e.symm))
      refine (congrArg (·[j]) hslots).trans ?_
      simp [State.threadTile, Tile.besideTrace, hkj]
    · have hk : (u.tile site).slots[k] = { (s.tile site).slots[k].start true
          (s.launch (s.tile site).name.1).pkt.seed pc with started := s.tb.toNat } := by
        refine (congrArg (·[k]) hslots).trans ?_
        simp [State.threadTile, Tile.besideTrace]
      rw [hk]
      exact ⟨rfl, rfl, rfl, hpc.symm, rfl⟩

/-- Resident threads start in each slot of a list that is one of the launch's, and in no other. -/
theorem State.startResidents_spec (site : Nat) (ks : List (Fin 8)) (hks : ks.Nodup) (s : State) :
    let u := ks.foldl (fun s k => s.startResident site k) s
    s.keepsBeside u site ks
    ∧ ∀ k ∈ ks, k.val < (s.launch (s.tile site).name.1).pkt.slots →
      (u.tile site).slots[k].residentFrom (s.tile site).slots[k] (s.launch (s.tile site).name.1) := by
  induction ks generalizing s with
  | nil => exact ⟨⟨rfl, rfl, rfl, fun _ _ => rfl⟩, fun k hk => absurd hk List.not_mem_nil⟩
  | cons j ks ih =>
    obtain ⟨hj, hks⟩ := List.nodup_cons.mp hks
    obtain ⟨⟨hl, hn, hf, hs⟩, hstart⟩ := s.startResident_spec site j
    obtain ⟨⟨hl', hn', hf', hs'⟩, hstart'⟩ := ih hks (s.startResident site j)
    have hlaunch : (s.startResident site j).launch ((s.startResident site j).tile site).name.1
        = s.launch (s.tile site).name.1 := by rw [hn, State.launch, hl]; rfl
    rw [List.foldl_cons]
    refine ⟨⟨hl'.trans hl, hn'.trans hn, hf'.trans hf, fun k hk => ?_⟩, fun k hk hlt => ?_⟩
    · obtain ⟨hkj, hkks⟩ := not_or.mp (mt List.mem_cons.mpr hk)
      exact (hs' k hkks).trans (hs k (mt List.mem_singleton.mp hkj))
    · rcases List.mem_cons.mp hk with rfl | hk
      · rw [hs' k hj]
        exact hstart hlt
      · have hkj : k ≠ j := fun e => hj (e ▸ hk)
        rw [← hs k (mt List.mem_singleton.mp hkj), ← hlaunch]
        exact hstart' k hk (by rwa [hlaunch])

/-- The resident threads of a fresh vtile whose PDONE has come start. -/
theorem residentThreadStart_spec {s : State} {site : Nat} (hfresh : (s.tile site).fresh = true)
    (hpdone : (s.tile site).pdone = true) (hocc : (s.tile site).occ.isSome = true) :
    ∃ t, exec (.residentThreadStart site) s = .next t ∧ (t.tile site).fresh = false
      ∧ ∀ k : Fin 8, k.val < (s.launch (s.tile site).name.1).pkt.slots →
        (t.tile site).slots[k].residentFrom (s.tile site).slots[k] (s.launch (s.tile site).name.1) := by
  have hx : exec (.residentThreadStart site) s = execResidentThreadStart site s := rfl
  rw [hx]
  simp only [execResidentThreadStart, hfresh, hpdone, hocc, Bool.and_self, if_true]
  generalize (if (s.launch (s.tile site).name.1).pkt.guarded = true then
    { (s.tile site).guard with stage := .surrogate, window := none } else (s.tile site).guard : GuardState) = g
  have hspec := State.startResidents_spec site (List.finRange 8) (List.nodup_finRange 8)
    (s.setTile site { s.tile site with fresh := false, pdone := false, guard := g })
  obtain ⟨⟨-, -, hf, -⟩, hstart⟩ := hspec
  rw [State.tile_setTile_same] at hf hstart
  exact ⟨_, rfl, hf, fun k hk => hstart k (List.mem_finRange k) hk⟩

/-! ### The other steps -/

/-- A head that has stood for 4,096 cycles becomes aged. -/
theorem execHeadAged_ages {s : State} {site : Nat} {iq : Fin 4} (haged : (s.tile site).iqs[iq].aged = none)
    (hmsgs : (s.tile site).iqs[iq].msgs ≠ []) (hsince : (s.tile site).iqs[iq].since + 4096 ≤ s.cycle) :
    exec (.headAged site iq) s = .next (s.setTile site { s.tile site with
      iqs := (s.tile site).iqs.set iq
        { (s.tile site).iqs[iq] with aged := some ((s.tile site).iqs[iq].since + 4096) } }) := by
  have hat : (s.tile site).iqs[iq].agedAt s.cycle = some ((s.tile site).iqs[iq].since + 4096) :=
    if_pos (by rw [Bool.and_eq_true, Bool.not_eq_true', List.isEmpty_eq_false_iff, Nat.ble_eq]; exact ⟨hmsgs, hsince⟩)
  have hx : exec (.headAged site iq) s = execHeadAged site iq s := rfl
  rw [hx]
  simp only [execHeadAged, haged, hat, Option.isSome_none, Bool.false_eq_true, if_false]

/-- A slot takes its pending cause. -/
theorem execTrapEntry_takes {s : State} {site : Nat} {k : Fin 8} (h : s.pendingAt (.tile site k) = true) :
    exec (.trapEntry site k) s = .next (s.takePending site k) :=
  if_pos h

/-- A vtile whose slot 0 waits in DONEF retires once R24 lets it. -/
theorem execVtileRetire_retires {s : State} {site : Nat} (hthread : (s.tile site).slots[(0 : Fin 8)].thread = true)
    (hsys : (s.tile site).slots[(0 : Fin 8)].sys = false) (hwait : (s.tile site).slots[(0 : Fin 8)].wait = .donef)
    (hstop : (s.tile site).stop = false) (hhalt : s.halted = false) (hready : s.retireReady site 0 = true) :
    exec (.vtileRetire site) s
      = .next ((s.advance (.tile site 0) (s.tile site).slots[(0 : Fin 8)].lastDue).retireVtile site) :=
  if_pos (by rw [hthread, hsys, hwait, hstop, hhalt, hready]; rfl)

/-- A YIELD ends after 8 cycles. -/
theorem execYieldTimeout_ends {s : State} {site : Nat} {k : Fin 8} {c : Nat} {m : BitVec 8}
    (hy : (s.tile site).slots[k].yieldAt = some (c, m)) (hc : c + 8 ≤ s.cycle) :
    exec (.yieldTimeout site k) s = .next (s.setSlot (.tile site k) { (s.tile site).slots[k] with yieldAt := none }) := by
  have hx : exec (.yieldTimeout site k) s = execYieldTimeout site k s := rfl
  rw [hx]
  simp only [execYieldTimeout, State.slot, hy, Nat.ble_eq_true_of_le hc, if_true]

/-- Time goes on to the earliest completion among an agent's issued results. -/
theorem execFixedLatencyCompletion_advances {who : Agent} {s : State} {d : Nat} {rest : List Nat}
    (h : (s.slot who).flights.filterMap (·.due) = d :: rest) :
    exec (.fixedLatencyCompletion who) s = .next (s.advance who (rest.foldl min d)) := by
  have hx : exec (.fixedLatencyCompletion who) s = execFixedLatencyCompletion who s := rfl
  rw [hx]
  simp only [execFixedLatencyCompletion, h]

/-! ### BARWAIT_PROBE -/

section
variable {s : State} {site : Nat} {k : Fin 8} {stl : Stl} {d : Dst} {a b : Src}
  (hsys : (s.tile site).slots[k].sys = false) (hwait : (s.tile site).slots[k].wait = .barwait)
  (hpend : s.pendingAt (.tile site k) = false) (hat : s.barwaitAt (.tile site k) = some (stl, d, a, b))
  (hs : State.admits { s with cur := .tile site k } (opA 0x18 11 stl d.code a.code b.code))
include hsys hwait hpend hat hs

/-- A slot that waits in a BARWAIT issues it when what its probe found lets it. -/
theorem execBarwaitProbe_issues {fl : Flow} {u : State}
    (hbody : barwaitBody d a b (State.opened { s with cur := .tile site k }) = .ok (fl, u)) :
    exec (.barwaitProbe site k) s
      = .next { finish (opA 0x18 11 stl d.code a.code b.code) fl u with cur := s.cur } := by
  have hx : exec (.barwaitProbe site k) s = execBarwaitProbe site k s := rfl
  have hmay := hs.1
  have hissue : execBarwait stl d a b { s with cur := .tile site k }
      = .next (finish (opA 0x18 11 stl d.code a.code b.code) fl u) := hs.issue_ok hbody
  rw [State.opened] at hbody
  rw [hx]
  simp only [execBarwaitProbe, hmay, State.slot, hsys, hwait, hpend, hat, hbody, hissue, Bool.not_false, Bool.and_self,
    beq_self_eq_true, if_true]

variable {p ph : Word} {pl : Place} {t : State} (hbody : barwaitBody d a b (State.opened { s with cur := .tile site k })
    = .error (.wait .barwait))
  (ho : barwaitOperands a b (State.opened { s with cur := .tile site k }) = .ok ((p, ph, pl), t))
  (hpl : ∀ off, pl ≠ .priv off)
include hbody ho hpl

/-- A slot that goes on waiting in a BARWAIT sends no probe where none is due. -/
theorem execBarwaitProbe_waits (hdue : (s.tile site).slots[k].probeDue s.cycle ph = false) :
    exec (.barwaitProbe site k) s = .next s := by
  have hx : exec (.barwaitProbe site k) s = execBarwaitProbe site k s := rfl
  have hmay := hs.1
  rw [State.opened] at hbody ho
  rw [hx]
  cases pl with
  | priv off => exact absurd rfl (hpl off)
  | _ =>
    simp only [execBarwaitProbe, hmay, State.slot, hsys, hwait, hpend, hat, hbody, ho, hdue, Bool.not_false, Bool.and_self,
      beq_self_eq_true, if_true, Bool.false_eq_true, if_false]

/-- A slot that goes on waiting in a BARWAIT sends the next probe when one is due. -/
theorem execBarwaitProbe_sends {s2 : State} (hdue : (s.tile site).slots[k].probeDue s.cycle ph = true)
    (hsend : sendProbe p ph pl { s with cur := .tile site k } = .ok ((), s2)) :
    exec (.barwaitProbe site k) s = .next { s2 with cur := s.cur } := by
  have hx : exec (.barwaitProbe site k) s = execBarwaitProbe site k s := rfl
  have hmay := hs.1
  rw [State.opened] at hbody ho
  rw [hx]
  cases pl with
  | priv off => exact absurd rfl (hpl off)
  | _ =>
    simp only [execBarwaitProbe, hmay, State.slot, hsys, hwait, hpend, hat, hbody, ho, hdue, hsend, Bool.not_false,
      Bool.and_self, beq_self_eq_true, if_true]

end

/-! ### The matrix engine's steps -/

section
variable {s : State} {site : Nat} {k : Fin 8} {t : Tile} (hhalt : s.halted = false)
  (hfree : (s.tile site).mfree ≤ s.cycle) (hpick : s.pickMatrix site = some (k, t))
include hhalt hfree hpick

/-- The free engine runs the oldest follow-on of the picked slot first. -/
theorem execMatrixGrant_follow (hfollow : s.followReady site k = true) :
    exec (.matrixGrant site) s = .next ((s.setTile site t).runFollow site k) := by
  have hx : exec (.matrixGrant site) s = execMatrixGrant site s := rfl
  have hb : Nat.blt s.cycle (s.tile site).mfree = false := by rw [← Bool.not_eq_true, Nat.blt_eq]; omega
  rw [hx]
  simp only [execMatrixGrant, hhalt, hb, hpick, hfollow, Bool.or_self, Bool.false_eq_true, if_false, if_true]

/-- The free engine performs the command that the picked slot holds. -/
theorem execMatrixGrant_command {c : MatrixCmd} {fl : Flow} {u : State} (hfollow : s.followReady site k = false)
    (hheld : (t.slots[k].mheld).bind matrixOf = some c)
    (hs : State.admits { s.setTile site t with cur := .tile site k } c.op)
    (hbody : matrixBody c (State.opened { s.setTile site t with cur := .tile site k }) = .ok (fl, u)) :
    exec (.matrixGrant site) s = .next { finish c.op fl u with cur := s.cur } := by
  have hx : exec (.matrixGrant site) s = execMatrixGrant site s := rfl
  have hb : Nat.blt s.cycle (s.tile site).mfree = false := by rw [← Bool.not_eq_true, Nat.blt_eq]; omega
  rw [hx]
  simp only [execMatrixGrant, hhalt, hb, hpick, hfollow, hheld, hs.issue_ok hbody, Bool.or_self, Bool.false_eq_true, if_false]

end

/-- Settles O38: each step of a tile under its condition. -/
theorem tileSteps : Obligations.TileSteps := by
  refine ⟨fun site iq s => execHeadAged_ages, fun site s i k m rest => dispatch_spec,
    fun site s => residentThreadStart_spec, fun site k s => execTrapEntry_takes, fun site s => execVtileRetire_retires,
    fun site k s c m => execYieldTimeout_ends, fun who s d rest => execFixedLatencyCompletion_advances, ?probe, ?grant,
    fun site s => rfl, fun site v s => rfl⟩
  case probe =>
    intro site k s stl d a b p ph pl t s1 o hsys hwait hpend hat hd hs hr hpl hg ended taken
    have ho := barwaitOperands_ok hr hpl hg
    refine ⟨fun off u b' h hp ht hperf he => ?_, fun hp => ⟨fun pr v hpr herr hv he => ?_, fun hbody => ⟨fun hdue => ?_,
      fun s2 hdue hsend => ?_⟩⟩⟩
    · subst hp
      exact execBarwaitProbe_issues hsys hwait hpend hat hs (barwaitBody_taken hd ho (probedWord_priv ht hperf) he)
    · exact execBarwaitProbe_issues hsys hwait hpend hat hs
        (barwaitBody_taken hd ho (hv ▸ probedWord_sent hp hpr herr) he)
    · exact execBarwaitProbe_waits hsys hwait hpend hat hs hbody ho hp hdue
    · exact execBarwaitProbe_sends hsys hwait hpend hat hs hbody ho hp hdue hsend
  case grant =>
    intro site s k t c hhalt hfree hpick
    refine ⟨execMatrixGrant_follow hhalt hfree hpick, ?_⟩
    intro hfollow hheld s1 s4 u n fl hs hf ha he v w
    exact execMatrixGrant_command hhalt hfree hpick hfollow hheld hs (matrixBody_ok hf ha he)

end Sys2Proof.Machine
end

section
/-! SUPPORT. Queues and launches: doorbells, the entries that the Collier takes, completions and watchdogs, and what the periodic
steps do (spec/13_sys_queues.md). -/

namespace Sys2Proof.Machine

/-! ### The model's comparisons -/

theorem blt_eq_decide (m n : Nat) : Nat.blt m n = decide (m < n) :=
  Bool.eq_iff_iff.mpr (by rw [Nat.blt_eq, decide_eq_true_eq])

theorem ble_eq_decide (m n : Nat) : Nat.ble m n = decide (m ≤ n) :=
  Bool.eq_iff_iff.mpr (by rw [Nat.ble_eq, decide_eq_true_eq])

theorem blt_eq_false {m n : Nat} (h : n ≤ m) : Nat.blt m n = false := by
  rw [blt_eq_decide, decide_eq_false (Nat.not_lt.mpr h)]

/-! ### Doorbells (R312) -/

section
variable {fn q tail : Nat} {s : State} {x : Queue}

/-- A doorbell that the function may ring, with a tail that leaves no entry unread behind it and none beyond the queue. -/
theorem execDoorbell_rings (hq : Table.get? s.queues q = some x) (hfn : fn = 0 ∨ x.fn = fn)
    (hlo : x.unread ≤ (tail % 2 ^ 17 + 2 ^ 17 - x.head) % 2 ^ 17)
    (hhi : (tail % 2 ^ 17 + 2 ^ 17 - x.head) % 2 ^ 17 ≤ 2 ^ x.log) :
    execDoorbell fn q tail s = .next ((s.setQueue q { x with tail := tail % 2 ^ 17 }).raise .collier 2) := by
  have h1 : (fn != 0 && x.fn != fn) = false := by
    rcases hfn with h | h <;> simp [h]
  have h2 := blt_eq_false hlo
  have h3 := blt_eq_false hhi
  simp only [execDoorbell, hq, h1, h2, h3, Bool.or_false, Bool.false_eq_true, if_false]

theorem execDoorbell_counts (hq : Table.get? s.queues q = some x)
    (h : (fn ≠ 0 ∧ x.fn ≠ fn) ∨ (tail % 2 ^ 17 + 2 ^ 17 - x.head) % 2 ^ 17 < x.unread
      ∨ 2 ^ x.log < (tail % 2 ^ 17 + 2 ^ 17 - x.head) % 2 ^ 17) :
    execDoorbell fn q tail s = .next { s with dbbad := satInc s.dbbad } := by
  have hb : ((fn != 0 && x.fn != fn) || Nat.blt ((tail % 2 ^ 17 + 2 ^ 17 - x.head) % 2 ^ 17) x.unread
      || Nat.blt (2 ^ x.log) ((tail % 2 ^ 17 + 2 ^ 17 - x.head) % 2 ^ 17)) = true := by
    simpa only [Bool.or_eq_true, Bool.and_eq_true, bne_iff_ne, Nat.blt_eq, or_assoc] using h
  simp only [execDoorbell, hq, hb, if_true]

theorem execDoorbell_unknown (hq : Table.get? s.queues q = none) :
    execDoorbell fn q tail s = .next { s with dbbad := satInc s.dbbad } := by
  simp only [execDoorbell, hq]

end

/-! ### The entry that is taken (R313) -/

section
variable {s : State} {q idx : Nat} {x : Queue} {v : Nat}

theorem State.offers.headPacket (h : s.offers q x v) : s.headPacket q = some (x, v) := by
  obtain ⟨hq, htake, rfl⟩ := h
  simp only [State.headPacket, hq, htake, if_true]

theorem State.freeIndex.inRange (h : s.freeIndex idx) : Nat.ble 65536 idx = false :=
  Bool.eq_false_iff.mpr fun hb => Nat.not_le.mpr h.1 (Nat.le_of_ble_eq_true hb)

theorem State.freeIndex.unused (h : s.freeIndex idx) : (Table.get? s.launches idx).isSome = false := by
  rw [h.2]; rfl

@[simp] theorem State.takeEntry_queue :
    Table.get? (s.takeEntry q x).queues q = some { x with head := (x.head + 1) % 2 ^ 17 } :=
  Table.get?_put_same ..

/-- A code image stands in rim memory, which taking an entry leaves as it is. -/
@[simp] theorem State.takeEntry_readImageAt (asid : Nat) (p : Word) :
    (s.takeEntry q x).readImageAt asid p = s.readImageAt asid p := rfl

end

/-! ### Kernels and markers (R317) -/

section
variable {s : State} {q idx ptbase parkbase : Nat} {key : Word} {x : Queue} {v : Nat}
  (ho : s.offers q x v) (hi : s.freeIndex idx)
include ho hi

theorem execKernel_badCommand (hk : (readPacket v).kind = 0x10) (hq : q = 0) (hbad : adminBad v = true) :
    execKernel q idx key ptbase parkbase s = .next ((s.takeEntry q x).adminDone v (some 10)) := by
  have h0 : ((readPacket v).kind == 2) = false := by rw [hk]; rfl
  have h1 : (q == 0 && (readPacket v).kind == 0x10) = true := by rw [hk, hq]; rfl
  simp only [execKernel, ho.headPacket, h0, hi.inRange, hi.unused, h1, hbad, Bool.or_false, Bool.false_eq_true, if_false, if_true]

section
variable (hk : (readPacket v).kind ≠ 2) (hadm : q = 0 → (readPacket v).kind ≠ 0x10)
include hk hadm

theorem execKernel_rejects {r : Nat} (hr : s.kernelReason q x (readPacket v) false ptbase parkbase = some r) :
    execKernel q idx key ptbase parkbase s = .next ((s.takeEntry q x).reject q x (readPacket v) r) := by
  have h0 : ((readPacket v).kind == 2) = false := beq_false_of_ne hk
  have h1 : (q == 0 && (readPacket v).kind == 0x10) = false := by simpa using hadm
  simp only [execKernel, ho.headPacket, h0, hi.inRange, hi.unused, h1, hr, Bool.or_false, Bool.false_eq_true, if_false]

theorem execKernel_creates {i : Image} (hr : s.kernelReason q x (readPacket v) false ptbase parkbase = none)
    (him : s.readImageAt x.asid (readPacket v).code = some i) :
    execKernel q idx key ptbase parkbase s
      = .next ((s.takeEntry q x).create idx q { x with head := (x.head + 1) % 2 ^ 17 } (readPacket v) key none i
          ptbase parkbase) := by
  have h0 : ((readPacket v).kind == 2) = false := beq_false_of_ne hk
  have h1 : (q == 0 && (readPacket v).kind == 0x10) = false := by simpa using hadm
  simp only [execKernel, ho.headPacket, h0, hi.inRange, hi.unused, h1, hr, State.takeEntry_queue, State.takeEntry_readImageAt,
    him, Bool.or_false, Bool.false_eq_true, if_false]

end

theorem execMarker_creates (hk : (readPacket v).kind = 2) :
    execMarker q idx s
      = .next ((s.takeEntry q x).create idx q { x with head := (x.head + 1) % 2 ^ 17 } (readPacket v).marker 0 none
          { header := 0, code := [], handlers := [] } 0 0) := by
  have h0 : ((readPacket v).kind != 2) = false := by rw [hk]; rfl
  simp only [execMarker, ho.headPacket, h0, hi.inRange, hi.unused, State.takeEntry_queue, Bool.or_false, Bool.false_eq_true,
    if_false]

end

/-! ### Child packets -/

section
variable {s : State} {k idx ptbase parkbase : Nat} {key : Word} {c : ChildPacket} {l : Launch} {q : Queue}
  (hc : s.children[k]? = some c) (hold : ∀ x ∈ s.children.take k, x.parent ≠ c.parent) (hi : s.freeIndex idx)
  (hl : Table.get? s.launches c.parent = some l)
include hc hold hi hl

omit hc hi hl in
theorem oldestChild : ((s.children.take k).any fun x => x.parent == c.parent) = false := by
  simpa using hold

theorem execChildLaunchPacket_killed (hk : l.killed.isSome = true) :
    execChildLaunchPacket k idx key ptbase parkbase s = .next { s with children := s.children.eraseIdx k } := by
  simp only [execChildLaunchPacket, hc, oldestChild hold, hi.inRange, hi.unused, hl, hk, Bool.or_false, Bool.false_eq_true,
    if_false, if_true]

section
variable (hk : l.killed = none) (hq : Table.get? s.queues l.queue = some q)
include hk hq

theorem execChildLaunchPacket_marker (hkind : (readPacket (bytesToNat c.bytes)).kind = 2) :
    execChildLaunchPacket k idx key ptbase parkbase s
      = .next (({ s with children := s.children.eraseIdx k } : State).create idx l.queue q
          (readPacket (bytesToNat c.bytes)).marker key (some c.parent) { header := 0, code := [], handlers := [] } 0 0) := by
  simp only [execChildLaunchPacket, hc, oldestChild hold, hi.inRange, hi.unused, hl, hk, hq, hkind, Option.isSome_none,
    beq_self_eq_true, Bool.or_false, Bool.false_eq_true, if_false, if_true]

theorem execChildLaunchPacket_creates {i : Image} (hkind : (readPacket (bytesToNat c.bytes)).kind ≠ 2)
    (hr : ({ s with children := s.children.eraseIdx k } : State).kernelReason l.queue q
      (readPacket (bytesToNat c.bytes)) true ptbase parkbase = none)
    (him : ({ s with children := s.children.eraseIdx k } : State).readImageAt q.asid
      (readPacket (bytesToNat c.bytes)).code = some i) :
    execChildLaunchPacket k idx key ptbase parkbase s
      = .next (({ s with children := s.children.eraseIdx k } : State).create idx l.queue q
          (readPacket (bytesToNat c.bytes)) key (some c.parent) i ptbase parkbase) := by
  have h0 : ((readPacket (bytesToNat c.bytes)).kind == 2) = false := beq_false_of_ne hkind
  simp only [execChildLaunchPacket, hc, oldestChild hold, hi.inRange, hi.unused, hl, hk, hq, h0, hr, him, Option.isSome_none,
    Bool.or_false, Bool.false_eq_true, if_false]

theorem execChildLaunchPacket_rejects {r : Nat} (hkind : (readPacket (bytesToNat c.bytes)).kind ≠ 2)
    (hr : ({ s with children := s.children.eraseIdx k } : State).kernelReason l.queue q
      (readPacket (bytesToNat c.bytes)) true ptbase parkbase = some r) :
    execChildLaunchPacket k idx key ptbase parkbase s
      = .next ((({ s with children := s.children.eraseIdx k } : State).setLaunch c.parent
          { l with children := l.children - 1 }).reject l.queue q (readPacket (bytesToNat c.bytes)) r) := by
  have h0 : ((readPacket (bytesToNat c.bytes)).kind == 2) = false := beq_false_of_ne hkind
  simp only [execChildLaunchPacket, hc, oldestChild hold, hi.inRange, hi.unused, hl, hk, hq, h0, hr, Option.isSome_none,
    Bool.or_false, Bool.false_eq_true, if_false]

end
end

/-! ### Completions and watchdogs (R30, R326, R327) -/

section
variable {s : State} {idx : Nat} {l : Launch} (hl : Table.get? s.launches idx = some l)
include hl

theorem execLaunchCompletion_killed {status reason : Nat} (hk : l.killed = some (status, reason))
    (hr : s.killReady idx = true) : execLaunchCompletion idx s = .next (s.completeLaunch idx status reason) := by
  simp only [execLaunchCompletion, hl, hk, hr, if_true]

theorem execLaunchCompletion_marker (hk : l.killed = none) (hkind : l.pkt.kind = 2) (hr : s.mayStart idx = true) :
    execLaunchCompletion idx s = .next (s.completeLaunch idx 1 0) := by
  simp only [execLaunchCompletion, hl, hk, hkind, hr, beq_self_eq_true, if_true]

theorem execLaunchCompletion_kernel (hk : l.killed = none) (hkind : l.pkt.kind ≠ 2) (hr : s.completeReady idx = true) :
    execLaunchCompletion idx s = .next (s.completeLaunch idx 1 0) := by
  simp only [execLaunchCompletion, hl, hk, beq_false_of_ne hkind, hr, Bool.false_eq_true, if_false, if_true]

end

/-- A launch is covered by a watchdog, and meets R30, whatever the watchdogs' deadlines are. -/
theorem State.covered_watchdogs (s : State) (ws : Table Watchdog) (hw idx : Nat) :
    ({ s with watchdogs := ws } : State).covered hw idx = s.covered hw idx := rfl

theorem State.completeReady_watchdogs (s : State) (ws : Table Watchdog) (idx : Nat) :
    ({ s with watchdogs := ws } : State).completeReady idx = s.completeReady idx := rfl

theorem execWatchdogExpiry_kills {s : State} {hw d idx : Nat} (hd : (Table.getD s.watchdogs hw {}).deadline = some d)
    (hcov : (Table.getD s.watchdogs hw {}).covers = some idx) (hrun : s.halted = false) (hlate : d ≤ s.tb.toNat)
    (hlive : s.covered hw idx = true) (hnot : s.completeReady idx = false) :
    execWatchdogExpiry hw s
      = .next (({ s with watchdogs := Table.put s.watchdogs hw { deadline := none, covers := some idx } } : State).killLaunch
          idx 4 0) := by
  have hgo : (s.halted || Nat.blt s.tb.toNat d) = false := by
    rw [hrun, blt_eq_false hlate]; rfl
  simp only [execWatchdogExpiry, hd, hcov, hgo, State.covered_watchdogs, State.completeReady_watchdogs, hlive, hnot,
    Bool.not_true, Bool.or_false, Bool.false_eq_true, if_false]

/-! ### Periods (R324, R325, R332, R333) -/

theorem execBucketRefill_refills {s : State} (hrun : s.halted = false) (htime : 1000 * (s.refills + 1) ≤ s.tb.toNat) :
    execBucketRefill s = .next { s with
      refills := s.refills + 1
      buckets := s.buckets.map fun r =>
        (r.1, { r.2 with level := max (-(r.2.cap : Int)) (min r.2.cap (r.2.level + r.2.rate - s.charged r.1)) }) } := by
  have hlt := blt_eq_false htime
  simp only [execBucketRefill, hrun, hlt, Bool.or_false, Bool.false_eq_true, if_false]

/-- The state in which a mapping pass maps queues: the pass has marked and released them. -/
def State.passed (s : State) : State := { s with
  passes := s.passes + 1
  queues := s.queues.map fun r =>
    (r.1, s.passQueue (decide (511 < (s.queues.filter fun r => s.eligible r.1 r.2).length)) r.1 r.2) }

theorem execMappingPass_maps {s : State} (hboot : 7 ≤ s.boot) (htime : 1000000 * (s.passes + 1) ≤ s.tb.toNat) :
    let es := (s.passed.queues.filter fun r => s.passed.eligible r.1 r.2).map (·.1)
    execMappingPass s
      = .next ((es.filter (fun n => decide (s.passed.lastMapped < n))
          ++ es.filter (fun n => decide (n ≤ s.passed.lastMapped))).foldl State.mapQueue s.passed) := by
  have h1 := blt_eq_false hboot
  have h2 := blt_eq_false htime
  simp only [execMappingPass, h1, h2, Bool.or_false, Bool.false_eq_true, if_false, blt_eq_decide, ble_eq_decide]
  rfl

section
variable {α : Type} (f : Option α → α → Option α) (key : α → Nat) (hnone : ∀ x, f none x = some x)
  (hless : ∀ y x, key x < key y → f (some y) x = some x) (hmore : ∀ y x, ¬ key x < key y → f (some y) x = some y)
include hnone hless hmore

/-- A fold that keeps the element with the smaller key keeps one of the elements that it has seen. -/
theorem foldl_smaller_mem (l : List α) : ∀ y ∈ l.foldl f none, y ∈ l := by
  refine List.foldlRecOn l f (motive := fun b => ∀ y ∈ b, y ∈ l) (by simp) fun b hb x hx => ?_
  match b with
  | none => simpa [hnone] using hx
  | some z =>
    by_cases h : key x < key z
    · simpa [hless z x h] using hx
    · simpa [hmore z x h] using hb z rfl

/-- Such a fold ends at the element whose key is less than every other. -/
theorem foldl_smaller_of_least {x : α} {before after : List α} (hleast : ∀ r ∈ before ++ after, key x < key r) :
    (before ++ x :: after).foldl f none = some x := by
  have hx : f (before.foldl f none) x = some x := by
    match hb : before.foldl f none with
    | none => exact hnone x
    | some y =>
      have hy := foldl_smaller_mem f key hnone hless hmore before y hb
      exact hless y x (hleast y (List.mem_append_left _ hy))
  rw [List.foldl_append, List.foldl_cons, hx]
  refine List.foldlRecOn after f (motive := (· = some x)) rfl fun b hb r hr => ?_
  rw [hb, hmore x r (Nat.not_lt.mpr (hleast r (List.mem_append_right _ hr)).le)]

end

/-- The record of the first error among the pending ones. -/
theorem State.firstPending_of_least {s : State} {n : Nat} {p : PendingError} {before after : Table PendingError}
    (hs : s.pendings = before ++ (n, p) :: after) (hleast : ∀ r ∈ before ++ after, p.order < r.2.order) :
    s.firstPending = some (n, p) := by
  unfold State.firstPending
  rw [hs]
  refine foldl_smaller_of_least _ (·.2.order) (fun x => rfl) (fun y x h => ?_) (fun y x h => ?_) hleast
  · exact if_pos (Nat.blt_eq.mpr h)
  · exact if_neg (mt Nat.blt_eq.mp h)

theorem execPendingErrorWrite_writes {s : State} {n : Nat} {p : PendingError} (hroom : s.ringFull = false)
    (hp : s.firstPending = some (n, p)) :
    execPendingErrorWrite s
      = .next ({ s.writeEvent p.type p.status p.reason n p.hwq p.tag p.count (p.info.toNat ||| p.orTypes % 256 * 256) p.tick
          (p.count != 0) with pendings := Table.del s.pendings n }) := by
  simp only [execPendingErrorWrite, State.writePendings, hp, hroom, Bool.false_eq_true, if_false]
  rfl

theorem execPermitTimer_collier {s : State} {region : Nat} (howed : (s.link region).owedByCollier ≠ 0)
    (htime : (s.link region).owedSinceCollier + 2000 ≤ s.tb.toNat) :
    execPermitTimer region true s
      = .next ((s.setLink region { s.link region with owedByCollier := 0 }).flueSend collierCode (stokerCode region) 0x40 0
          (ofN ((s.link region).owedByCollier * 2 ^ 16))) := by
  have h0 : ((s.link region).owedByCollier != 0) = true := bne_iff_ne.mpr howed
  simp only [execPermitTimer, h0, Nat.ble_eq_true_of_le htime, Bool.and_true, if_true]
  rfl

theorem execPermitTimer_stoker {s : State} {region : Nat} (howed : (s.link region).owedByStoker ≠ 0)
    (htime : (s.link region).owedSinceStoker + 2000 ≤ s.tb.toNat) :
    execPermitTimer region false s
      = .next ((s.setLink region { s.link region with owedByStoker := 0 }).flueSend (stokerCode region) collierCode 0x40 0
          (ofN ((s.link region).owedByStoker * 2 ^ 16))) := by
  have h0 : ((s.link region).owedByStoker != 0) = true := bne_iff_ne.mpr howed
  simp only [execPermitTimer, h0, Nat.ble_eq_true_of_le htime, Bool.and_true, Bool.false_eq_true, if_false, if_true]
  rfl

/-! ### The obligation -/

theorem queueSteps : Claim.QueueSteps := by
  refine ⟨fun fn q tail s x hq => ⟨execDoorbell_rings hq, execDoorbell_counts hq⟩, fun fn q tail s => execDoorbell_unknown,
    fun q idx key ptbase parkbase s x v ho hi hk =>
      ⟨fun hadm => ⟨fun r => execKernel_rejects ho hi hk hadm, fun i => execKernel_creates ho hi hk hadm⟩,
        fun hq hkind => execKernel_badCommand ho hi hkind hq⟩,
    fun q idx s x v ho hi hk => execMarker_creates ho hi hk, ?_, ?_, ?_⟩
  · intro k idx key ptbase parkbase s c l q hc hold hi hl
    exact ⟨execChildLaunchPacket_killed hc hold hi hl, fun hk hq => execChildLaunchPacket_marker hc hold hi hl hk hq,
      fun hk hq hkind => ⟨fun i => execChildLaunchPacket_creates hc hold hi hl hk hq hkind,
        fun r => execChildLaunchPacket_rejects hc hold hi hl hk hq hkind⟩⟩
  · intro idx s l hl
    exact ⟨fun status reason => execLaunchCompletion_killed hl, execLaunchCompletion_marker hl,
      execLaunchCompletion_kernel hl⟩
  · exact fun hw s d idx => execWatchdogExpiry_kills

theorem periodicSteps : Claim.PeriodicSteps := by
  refine ⟨fun s => execBucketRefill_refills, fun s hboot htime => execMappingPass_maps hboot htime, ?_,
    fun region s => ⟨execPermitTimer_collier, execPermitTimer_stoker⟩⟩
  intro s n p before after hroom hs hleast
  exact execPendingErrorWrite_writes hroom (State.firstPending_of_least hs hleast)

/-- Settles O40: the guards of each step are turned into the model's comparisons; an entry taken leaves the code image as it is,
and the fold over the pending errors ends at the one with the least order. -/
theorem queuesAndPeriods : Obligations.QueuesAndPeriods := ⟨queueSteps, periodicSteps⟩

end Sys2Proof.Machine
end

section
/-! SUPPORT. The control forms: what a slot replaced leaves of its tile, the end check away from loop ends, and the bodies of loops,
guarded phases, traps and returns (spec/06_isa_scalar.md R168, R169, spec/09_isa_fabric.md R260 to R266). -/

namespace Sys2Proof.Machine

/-! ### What a slot replaced leaves -/

/-- A part of the tiles that no slot is part of stays when a slot is replaced. -/
theorem State.setSlot_keeps {β : Type} (g : Tile → β) (hg : ∀ t k x, g (Tile.setSlot t k x) = g t) (s : State) (a : Agent)
    (x : Slot) (site : Nat) : g ((s.setSlot a x).tile site) = g (s.tile site) := by
  cases a with
  | tile site' k =>
    by_cases h : site = site'
    · subst h
      rw [State.tile_setSlot_tile, hg]
    · exact congrArg g (State.tile_setTile_other _ _ _ _ h)
  | _ => rfl

/-- The guarded phase of a tile stays when a slot is replaced. -/
theorem State.setSlot_guard (s : State) (a : Agent) (x : Slot) (site : Nat) :
    ((s.setSlot a x).tile site).guard = (s.tile site).guard :=
  State.setSlot_keeps Tile.guard (fun _ _ _ => rfl) s a x site

/-- The agent whose turn it is stays while its results land. -/
theorem State.settle_cur (s : State) (a : Agent) : (s.settle a).cur = s.cur := by
  cases a with
  | tile site k =>
    change (s.settleAt site k.val).cur = s.cur
    unfold State.settleAt
    dsimp only
    split <;> rfl
  | _ =>
    unfold State.settle
    dsimp only
    split <;> rfl

theorem State.advance_cur (s : State) (a : Agent) (c : Nat) : (s.advance a c).cur = s.cur :=
  State.settle_cur _ a

theorem finish_seq_cur (o : Op) (s : State) : (finish o .seq s).cur = s.cur := State.setSlot_cur ..

theorem finish_jump_cur (o : Op) (p : Half) (s : State) : (finish o (.jump p) s).cur = s.cur := State.setSlot_cur ..

theorem finish_seq_guard (o : Op) (s : State) (site : Nat) :
    ((finish o .seq s).tile site).guard = (s.tile site).guard := State.setSlot_guard ..

theorem finish_jump_guard (o : Op) (p : Half) (s : State) (site : Nat) :
    ((finish o (.jump p) s).tile site).guard = (s.tile site).guard := State.setSlot_guard ..

/-! ### Loops (R168, R169) -/

/-- A level takes no part in the end check: it is inactive, or the instruction is not its last. -/
def LoopLevel.outside (l : LoopLevel) (pc : Half) : Prop := l.count = 0 ∨ pc ≠ l.stop

theorem LoopLevel.outside.check {l : LoopLevel} {pc : Half} (h : l.outside pc) :
    (l.count != 0 && pc == l.stop) = false := by
  rcases h with h | h <;> simp [h]

/-- Away from the ends of both levels the next instruction is the one that follows. -/
theorem Slot.next_outside {sl : Slot} {len : Nat} (h0 : sl.lc0.outside sl.pc) (h1 : sl.lc1.outside sl.pc) :
    sl.next len = { sl with pc := sl.pc + BitVec.ofNat 16 len } := by
  simp only [Slot.next, endCheck, h0.check, h1.check, Bool.false_and, Bool.false_eq_true, if_false]

/-- A distance of at least two ends a loop elsewhere than at its own LOOP. -/
theorem loopEnd_ne {pc o : Half} (h : 2 ≤ o.toInt) : pc ≠ pc + o := by
  intro he
  have ho : o = 0 := by simpa using he.symm
  rw [ho] at h
  exact absurd h (by decide)

theorem movedPc_eq (pc : Half) (n : Nat) : movedPc pc n = pc + BitVec.ofNat 16 n := by
  apply BitVec.eq_of_toNat_eq
  rw [movedPc, ← Int.natCast_add, BitVec.ofInt_natCast]
  simp [BitVec.toNat_add]

/-- The slot after a LOOP whose level 0 is free. -/
def Slot.looped (sl : Slot) (o : Half) (count : BitVec 32) : Slot :=
  { sl with lc0 := { count, start := sl.pc + 2, stop := sl.pc + o } }

/-- A LOOP whose levels are both free sets up level 0 with its count. -/
theorem execLoop_starts {stl : Stl} {c : Src} {o : Half} {s t : State} {x : Word}
    (hs : s.admits (opL 0x17 stl c.code o)) (hr : read1 c s.opened = .ok (x, t)) (ho : 2 ≤ o.toInt)
    (h0 : (t.slot t.cur).lc0.count = 0) (h1 : (t.slot t.cur).lc1.count = 0) (hx : x.setWidth 32 ≠ 0) :
    exec (.loop stl c o) s = .next (finish (opL 0x17 stl c.code o) .seq
      (t.setSlot t.cur ((t.slot t.cur).looped o (x.setWidth 32)))) := by
  refine hs.issue_ok ?_
  have hx' : (x.setWidth 32 == 0) = false := beq_false_of_ne hx
  simp only [M.bind_apply, hr, M.ok_bind, getSlot_apply, ho, decide_true, require_true, M.pure_apply, h0, h1, bne_self_eq_false,
    Bool.false_and, Bool.or_false, Bool.not_false, beq_self_eq_true, Bool.or_true, M.ite_apply, hx', Bool.false_eq_true,
    if_false, if_true, putSlot_apply]
  rfl

theorem loop_complete {stl : Stl} {c : Src} {o : Half} {s t : State} {x : Word}
    (hs : s.admits (opL 0x17 stl c.code o)) (hr : read1 c s.opened = .ok (x, t)) (ho : 2 ≤ o.toInt)
    (h0 : (t.slot t.cur).lc0.count.toNat = 0) (h1 : (t.slot t.cur).lc1.count.toNat = 0) (hx : x.toNat % 2 ^ 32 ≠ 0) :
    ∃ u, exec (.loop stl c o) s = .next u ∧ u.cur = t.cur ∧ (u.slot u.cur).lc0.count.toNat = x.toNat % 2 ^ 32
      ∧ (u.slot u.cur).lc0.stop = movedPc (t.slot t.cur).pc o.toNat
      ∧ (u.slot u.cur).pc = movedPc (t.slot t.cur).pc 2 := by
  have h0' : (t.slot t.cur).lc0.count = 0 := BitVec.eq_of_toNat_eq h0
  have h1' : (t.slot t.cur).lc1.count = 0 := BitVec.eq_of_toNat_eq h1
  have hx' : x.setWidth 32 ≠ 0 := fun h => hx (by simpa using congrArg BitVec.toNat h)
  refine ⟨_, execLoop_starts hs hr ho h0' h1' hx', ?_⟩
  have hnext : ((t.slot t.cur).looped o (x.setWidth 32)).next (opL 0x17 stl c.code o).len
      = { (t.slot t.cur).looped o (x.setWidth 32) with pc := (t.slot t.cur).pc + 2 } :=
    Slot.next_outside (.inr (loopEnd_ne ho)) (.inl h1')
  simp only [finish, State.setSlot_cur, State.slot_setSlot_same, hnext]
  refine ⟨trivial, BitVec.toNat_setWidth .., ?_, ?_⟩
  · rw [movedPc_eq, BitVec.ofNat_toNat, BitVec.setWidth_eq]; rfl
  · exact (movedPc_eq _ 2).symm

/-! ### Guarded phases (R260 to R264) -/

/-- The state with the guarded phase of the current tile replaced. -/
def State.withGuard (s : State) (g : GuardState) : State :=
  s.setTile s.cur.site { s.tile s.cur.site with guard := g }

theorem finish_withGuard_seq (o : Op) (s : State) (g : GuardState) :
    ((finish o .seq (s.withGuard g)).tile (finish o .seq (s.withGuard g)).cur.site).guard = g := by
  rw [finish_seq_cur, finish_seq_guard]
  exact congrArg Tile.guard (State.tile_setTile_same _ _ _)

theorem finish_withGuard_jump (o : Op) (p : Half) (s : State) (g : GuardState) :
    ((finish o (.jump p) (s.withGuard g)).tile (finish o (.jump p) (s.withGuard g)).cur.site).guard = g := by
  rw [finish_jump_cur, finish_jump_guard]
  exact congrArg Tile.guard (State.tile_setTile_same _ _ _)

theorem execGres_checks {stl : Stl} {s : State} (hs : s.admits (opA 0x3A 0 stl 0 0 0))
    (hstage : (s.opened.tile s.opened.cur.site).guard.stage = .surrogate) :
    exec (.gres stl) s = .next (finish (opA 0x3A 0 stl 0 0 0)
      (.jump (BitVec.ofNat 16 (s.opened.launch (s.opened.tile s.opened.cur.site).name.1).pkt.check))
      (s.opened.withGuard { (s.opened.tile s.opened.cur.site).guard with stage := .check })) := by
  have hstage' : ((s.opened.tile s.opened.cur.site).guard.stage == .surrogate) = true := by rw [hstage]; rfl
  refine hs.issue_ok ?_
  simp only [M.bind_apply, getTile_apply, getLaunch_apply, M.ok_bind, hstage', require_true, M.pure_apply, modTile_apply,
    State.withGuard]

theorem gres_complete {stl : Stl} {s : State} (hs : s.admits (opA 0x3A 0 stl 0 0 0))
    (hstage : (s.opened.tile s.opened.cur.site).guard.stage = .surrogate) :
    ∃ u, exec (.gres stl) s = .next u ∧ (u.tile u.cur.site).guard.stage = .check :=
  ⟨_, execGres_checks hs hstage, congrArg GuardState.stage (finish_withGuard_jump _ _ _ _)⟩

/-- The bytes of an opened buffer are not the captured accesses. -/
theorem State.openBuffer_caught (s : State) (site : Nat) :
    ((s.openBuffer site).tile site).guard.caught = (s.tile site).guard.caught := by
  unfold State.openBuffer
  dsimp only
  split
  · rfl
  · simp only [State.spend, State.tile_setTile_same]

theorem State.openBuffer_cur (s : State) (site : Nat) : (s.openBuffer site).cur = s.cur := by
  unfold State.openBuffer
  dsimp only
  split
  · rfl
  · exact State.spend_cur _ _ _

theorem gendVerdict_accepts {s : State} (hstage : (s.tile s.cur.site).guard.stage = .check)
    (hres : residualReason (s.tile s.cur.site).gresid (s.launch (s.tile s.cur.site).name.1).pkt.gtol = none) :
    gendVerdict s = .ok (none, s) := by
  have hstage' : ((s.tile s.cur.site).guard.stage == .check) = true := by rw [hstage]; rfl
  simp only [gendVerdict, M.bind_apply, getTile_apply, getLaunch_apply, M.ok_bind, hstage', require_true, M.pure_apply, hres]

theorem gend_complete {stl : Stl} {s : State} (hs : s.admits (opA 0x3A 1 stl 0 0 0))
    (hstage : (s.opened.tile s.opened.cur.site).guard.stage = .check)
    (hcaught : (s.opened.tile s.opened.cur.site).guard.caught = [])
    (hres : residualReason (s.opened.tile s.opened.cur.site).gresid
      (s.opened.launch (s.opened.tile s.opened.cur.site).name.1).pkt.gtol = none) :
    exec (.gend stl) s = .next (finish (opA 0x3A 1 stl 0 0 0) .seq (s.opened.acceptPhase s.opened.cur.site)) := by
  have hv := gendVerdict_accepts hstage hres
  have hc := (s.opened.openBuffer_caught s.opened.cur.site).trans hcaught
  have hx : exec (.gend stl) s = execGend stl s := rfl
  rw [hx]
  simp only [execGend, M.bind_ok hs.openIssue, hv, State.openBuffer_cur, hc]
  refine hs.issue_ok ?_
  simp only [gendBody, M.bind_apply, hv, M.ok_bind, M.get_apply]
  rfl

/-- The word of GQRY in a guarded launch. -/
def GuardState.word (g : GuardState) : Nat :=
  g.stage.code + g.reason % 256 * 2 ^ 8 + g.cause % 256 * 2 ^ 16 + g.used / 16 % 65536 * 2 ^ 32
    + g.caught.length % 65536 * 2 ^ 48

theorem GuardState.word_stage (g : GuardState) : (ofN g.word).toNat % 256 = g.stage.code := by
  have h : g.stage.code < 4 := by cases g.stage <;> decide
  simp only [ofN, GuardState.word, BitVec.toNat_ofNat]
  omega

theorem gqry_complete {stl : Stl} {d : Dst} {s : State} (hd : d.legal = true) (hs : s.admits (opA 0x3A 2 stl d.code 0 0))
    (hg : (s.opened.launch (s.opened.tile s.opened.cur.site).name.1).pkt.guarded = true) :
    exec (.gqry stl d) s = .next (finish (opA 0x3A 2 stl d.code 0 0) .seq
      (s.opened.withResult 1 0 d (ofN (s.opened.tile s.opened.cur.site).guard.word))) := by
  refine hs.issue_ok ?_
  simp only [M.bind_apply, checkDst_legal hd, M.pure_apply, M.ok_bind, getTile_apply, getLaunch_apply, hg, if_true]
  rfl

theorem gwin_complete {stl : Stl} {a b : Src} {s t : State} {x y : Word} (hs : s.admits (opA 0x3A 3 stl 0 a.code b.code))
    (hr : read2 a b s.opened = .ok ((x, y), t)) (hg : (t.tile t.cur.site).guarded = true) (hx : x.toNat % 128 = 0)
    (hy : y.toNat % 128 = 0) (hy0 : y.toNat ≠ 0) (hend : x.toNat + y.toNat ≤ 131072)
    (hout : x.toNat + y.toNat ≤ (t.launch (t.tile t.cur.site).name.1).pkt.guardbase * 128
      ∨ ((t.launch (t.tile t.cur.site).name.1).pkt.guardbase + (t.launch (t.tile t.cur.site).name.1).pkt.guardsize) * 128
        ≤ x.toNat) :
    ∃ u, exec (.gwin stl a b) s = .next u ∧ (u.tile u.cur.site).guard.window = some (x.toNat, y.toNat) := by
  have hok : (x.toNat % 128 == 0 && y.toNat % 128 == 0 && y.toNat != 0 && Nat.ble (x.toNat + y.toNat) Config.spadBytes
      && (Nat.ble (x.toNat + y.toNat) ((t.launch (t.tile t.cur.site).name.1).pkt.guardbase * 128)
        || Nat.ble ((t.launch (t.tile t.cur.site).name.1).pkt.guardbase * 128
          + (t.launch (t.tile t.cur.site).name.1).pkt.guardsize * 128) x.toNat)) = true := by
    simp only [ble_eq_decide, Bool.and_eq_true, Bool.or_eq_true, beq_iff_eq, bne_iff_ne, decide_eq_true_eq, ← Nat.add_mul]
    exact ⟨⟨⟨⟨hx, hy⟩, hy0⟩, hend⟩, hout⟩
  refine ⟨_, hs.issue_ok (fl := .seq) (t := t.withGuard
    { (t.tile t.cur.site).guard with window := some (x.toNat, y.toNat) }) ?_,
    congrArg GuardState.window (finish_withGuard_seq _ _ _)⟩
  simp only [M.bind_apply, hr, M.ok_bind, getTile_apply, getLaunch_apply, hg, if_true, hok, require_true, M.pure_apply,
    modTile_apply, State.withGuard]

/-! ### Traps, the timebase, trace marks and returns (R265, R266, R287) -/

/-- The state in which the trap of a completed instruction is taken: its slot has moved on. -/
def State.movedOn (s : State) (o : Op) : State :=
  s.setSlot s.cur { (s.slot s.cur).next o.len with
    readyAt := max ((s.slot s.cur).next o.len).readyAt (s.cycle + o.stl + 1), lastIssue := s.cycle, wait := .none }

theorem trapNext_complete {o : Op} {c : Cause} {tv : Word} {s : State} (hs : s.admits o)
    (hw : s.opened.trapWaits c = false) :
    ∃ u : State, issue o (pure (.trapNext c tv)) s
      = .next (u.takeTrap c tv ((s.opened.slot s.opened.cur).next o.len).pc) ∧ u.cur = s.opened.cur := by
  refine ⟨s.opened.movedOn o, (hs.issue_ok (M.pure_apply _ _)).trans ?_, State.setSlot_cur ..⟩
  simp only [finish, hw, Bool.false_eq_true, if_false, State.movedOn]

theorem rdtb_complete {stl : Stl} {d : Dst} {s : State} (hd : d.legal = true) (hs : s.admits (opA 0x3B 2 stl d.code 0 0))
    (hf : ∀ f ∈ (s.opened.slot s.opened.cur).flights, f.due ≠ none) :
    ∃ u : State, exec (.rdtb stl d) s = .next (finish (opA 0x3B 2 stl d.code 0 0) .seq (u.withResult 1 0 d u.tb))
      ∧ u.cur = s.opened.cur := by
  have hall : ((s.opened.slot s.opened.cur).flights.all fun f => f.due.isSome) = true :=
    List.all_eq_true.mpr fun f h => Option.isSome_iff_ne_none.mpr (hf f h)
  refine ⟨s.opened.advance s.opened.cur (s.opened.slot s.opened.cur).lastDue, hs.issue_ok ?_, State.advance_cur _ _ _⟩
  simp only [M.bind_apply, checkDst_legal hd, M.pure_apply, M.ok_bind, M.get_apply, hall, require_true, M.set_apply,
    deliver_apply]

theorem State.emit_cur (site : Nat) (s : State) (type slot : Nat) (sys : Bool) (w1 w2 w3 : Nat) :
    (s.emit site type slot sys w1 w2 w3).cur = s.cur :=
  (congrArg State.cur (State.emit_tracedFrom site s type slot sys w1 w2 w3).1 :)

/-- The state with the MARK record of a slot. -/
def State.markedAt (s : State) (site : Nat) (k : Fin 8) (v : Word) (b : BitVec 6) : State :=
  s.emit site 0x05 k.val (s.slot s.cur).sys
    (traceThread (s.tile site).name.1 (s.tile site).name.2 (s.launch (s.tile site).name.1).entry 0) v.toNat
    (b.toNat + (s.tile site).guard.stage.code * 256)

theorem trmark_complete {stl : Stl} {a : Src} {b : BitVec 6} {s t : State} {v : Word}
    (hs : s.admits (opA 0x3B 3 stl 0 a.code b.toNat)) (hr : read1 a s.opened = .ok (v, t)) :
    ∃ u, exec (.trmark stl a b) s = .next (finish (opA 0x3B 3 stl 0 a.code b.toNat) .seq u) ∧ u.cur = t.cur := by
  cases hc : t.cur with
  | tile site k =>
    refine ⟨t.markedAt site k v b, hs.issue_ok ?_, (State.emit_cur ..).trans hc⟩
    simp only [M.bind_apply, hr, M.ok_bind, M.get_apply, hc, M.set_apply, M.pure_apply, State.markedAt]
  | _ =>
    refine ⟨t, hs.issue_ok ?_, hc⟩
    simp only [M.bind_apply, hr, M.ok_bind, M.get_apply, hc, M.pure_apply]

/-- ERET with mode 0 returns and goes on at EPC. -/
theorem execEret_returns {stl : Stl} {b : BitVec 6} {s : State} (hs : s.admits (opA 0x3C 0 stl 0 0 b.toNat))
    (hb : b.toNat = 0) :
    exec (.eret stl b) s = .next (finish (opA 0x3C 0 stl 0 0 b.toNat) (.jump (s.opened.slot s.opened.cur).epc)
      (s.opened.returnTrap s.opened.cur)) := by
  obtain rfl : b = 0 := BitVec.eq_of_toNat_eq hb
  refine hs.issue_ok ?_
  simp only [M.bind_apply, M.ok_bind, M.get_apply, beq_self_eq_true, Bool.true_or, require_true, M.pure_apply, if_true,
    M.set_apply]

theorem State.returnTrap_cur (s : State) (a : Agent) : (s.returnTrap a).cur = s.cur := by
  cases a <;> rfl

theorem State.returnTrap_sys (s : State) (a : Agent) (h : a.isCore = false) : ((s.returnTrap a).slot a).sys = false := by
  cases a with
  | tile site k => simp only [State.returnTrap, State.slot_setSlot_same]
  | _ => cases h

theorem State.returnTrap_ie (s : State) (a : Agent) (h : a.isCore = true) :
    ((s.returnTrap a).core a).ie = (s.core a).pie := by
  cases a with
  | tile site k => cases h
  | collier => rfl
  | stoker r => exact congrArg Core.ie (Table.getD_put_same ..)

/-- A thread replaced leaves the rest of its core as it is. -/
theorem State.setSlot_ie (s : State) (a : Agent) (x : Slot) : ((s.setSlot a x).core a).ie = (s.core a).ie := by
  cases a with
  | tile site k => rfl
  | collier => rfl
  | stoker r => simp only [State.setSlot, State.core, State.stoker, Table.getD_put_same]

theorem eret_complete {stl : Stl} {b : BitVec 6} {s : State} (hs : s.admits (opA 0x3C 0 stl 0 0 b.toNat))
    (hb : b.toNat = 0) :
    ∃ u, exec (.eret stl b) s = .next u ∧ u.cur = s.opened.cur
      ∧ (u.slot u.cur).pc = (s.opened.slot s.opened.cur).epc
      ∧ (u.cur.isCore = false → (u.slot u.cur).sys = false)
      ∧ (u.cur.isCore = true → (u.core u.cur).ie = (s.opened.core s.opened.cur).pie) := by
  refine ⟨_, execEret_returns hs hb, ?_⟩
  simp only [finish, State.setSlot_cur, State.returnTrap_cur, State.slot_setSlot_same, State.setSlot_ie, true_and]
  exact ⟨State.returnTrap_sys _ _, State.returnTrap_ie _ _⟩

theorem controlFormsComplete : Claim.ControlFormsComplete := by
  refine ⟨fun stl c o s x t => loop_complete, fun stl s => gres_complete,
    fun stl s hs hstage hcaught hres => ⟨_, gend_complete hs hstage hcaught hres, rfl⟩,
    fun stl d s hd hs hg => ⟨_, gqry_complete hd hs hg, GuardState.word_stage _⟩,
    fun stl a b s x y t => gwin_complete, ?trap, fun stl d s => rdtb_complete, fun stl a b s v t => trmark_complete,
    fun stl b s => eret_complete⟩
  rintro i o c b hi s hs hw
  have hx : exec i s = issue o (pure (.trapNext c (ofN b.toNat))) s := by
    have hv : b.setWidth 64 = ofN b.toNat := (BitVec.ofNat_toNat 64 b).symm
    rcases hi with ⟨stl, rfl, rfl, rfl⟩ | ⟨stl, rfl, rfl, rfl⟩ | ⟨rfl, rfl, rfl, rfl⟩
    · rw [← hv]; rfl
    · rw [← hv]; rfl
    · rfl
  rw [hx]
  exact trapNext_complete hs hw

end Sys2Proof.Machine
end

section
/-! SUPPORT. Settles O60: the steps of the copy engine under their conditions (spec/08_isa_matrix_copy.md R225 to R230), the oldest
result of an agent (R141), and with them every step that runs beside the instructions. -/

namespace Sys2Proof.Machine

/-! ### The tile's own steps -/

/-- The next result that lands is the earliest of those on their way. -/
theorem execFixedLatencyCompletion_earliest {who : Agent} {s : State} (h : ∃ f ∈ (s.slot who).flights, f.due ≠ none) :
    ∃ n, exec (.fixedLatencyCompletion who) s = .next (s.advance who n)
      ∧ (∃ f ∈ (s.slot who).flights, f.due = some n) ∧ ∀ f ∈ (s.slot who).flights, ∀ d, f.due = some d → n ≤ d := by
  obtain ⟨f, hf, hdue⟩ := h
  obtain ⟨c, hc⟩ := Option.ne_none_iff_exists'.mp hdue
  have hmem : c ∈ (s.slot who).flights.filterMap (·.due) := List.mem_filterMap.mpr ⟨f, hf, hc⟩
  obtain ⟨d, rest, hl⟩ := List.exists_cons_of_ne_nil (List.ne_nil_of_mem hmem)
  have hmin : ((s.slot who).flights.filterMap (·.due)).min? = some (rest.foldl min d) := by rw [hl, List.min?_cons']
  obtain ⟨hin, hleast⟩ := List.min?_eq_some_iff.mp hmin
  exact ⟨_, execFixedLatencyCompletion_advances hl, List.mem_filterMap.mp hin,
    fun g hg e he => hleast e (List.mem_filterMap.mpr ⟨g, hg, he⟩)⟩

/-- A BARWAIT's slot once its word is there, before the word is its result. -/
def State.barwaitEnded (s : State) : State :=
  let w := s.setSlot s.cur { s.slot s.cur with probe := none }
  w.setSlot w.cur { w.slot w.cur with fenceAcq := (w.slot w.cur).nextId }

theorem State.barwaitEnded_cur (s : State) : s.barwaitEnded.cur = s.cur := by
  simp only [State.barwaitEnded, State.setSlot_cur]

/-- The state after a matrix command of a number of cycles with its flags: the engine is busy and the slot holds nothing. -/
def State.granted (u : State) (n : Nat) (fl : BitVec 6) : State :=
  let v := u.setSlot u.cur ((u.slot u.cur).flagsAt (u.cycle + n) fl)
  let w := v.setTile v.cur.site { v.tile v.cur.site with mfree := v.cycle + n }
  w.setSlot w.cur { w.slot w.cur with mheld := none }

theorem State.granted_mheld (u : State) (n : Nat) (fl : BitVec 6) :
    ((u.granted n fl).slot (u.granted n fl).cur).mheld = none := by
  simp only [State.granted, State.setSlot_cur, State.slot_setSlot_same]

/-! ### Copy jobs (R225, R227, R229) -/

section
variable {s : State} {site ticket : Nat} {j : CopyJob} {before : List CopyJob}
  (hj : (s.tile site).findJob ticket = some (j, before))
include hj

section
variable (hw : j.written = false) (hrow : s.halted = false ∨ j.moved % j.rowLen ≠ 0)
include hw hrow

omit hj in
/-- A job goes on with its next piece: it has not written everything, and a wafer halt stands in the middle of a row at most. -/
theorem jobGoesOn : (j.written || (s.halted && j.moved % j.rowLen == 0)) = false := by
  rw [hw]
  rcases hrow with h | h <;> simp [h]

theorem execCopyLineLanding_lands {u : State} (hp : s.copyPiece site j before = .ok u ()) :
    exec (.copyLineLanding site ticket) s = .next u := by
  have hx : exec (.copyLineLanding site ticket) s = execCopyLineLanding site ticket s := rfl
  rw [hx]
  simp only [execCopyLineLanding, hj, jobGoesOn hw hrow, hp, Bool.false_eq_true, if_false]

theorem execCopyJobError_fails {bits b : BitVec 5} {u : State} (hp : s.copyPiece site j before = .fails u b) :
    exec (.copyJobError site ticket bits) s = .next (u.setJob site (j.fail b)) := by
  have hx : exec (.copyJobError site ticket bits) s = execCopyJobError site ticket bits s := rfl
  rw [hx]
  simp only [execCopyJobError, hj, jobGoesOn hw hrow, hp, Bool.false_eq_true, if_false]

end

section
variable (hw : j.written = true)
include hw

theorem execFollowOnCommand_readies (hok : j.failed = false) (hf : j.follow = .waiting) :
    exec (.followOnCommand site ticket) s = .next (s.setJob site { j with follow := .ready }) := by
  have hx : exec (.followOnCommand site ticket) s = execFollowOnCommand site ticket s := rfl
  have hgo : (j.written && !j.failed && j.follow == .waiting) = true := by rw [hw, hok, hf]; rfl
  rw [hx]
  simp only [execFollowOnCommand, hj, hgo, if_true]

variable (hout : j.out = 0) (hf : j.follow = .none ∨ j.follow = .finished)
include hout hf

omit hj in
/-- A job may complete: everything of it and of its follow-on is performed. -/
theorem jobDone : (j.written && j.out == 0 && (j.follow == .none || j.follow == .finished)) = true := by
  rw [hw, hout]
  rcases hf with h | h <;> rw [h] <;> rfl

theorem execCopyJobCompletion_plain (hbar : j.bar = none) :
    exec (.copyJobCompletion site ticket) s = .next (s.finishJob site j) := by
  have hx : exec (.copyJobCompletion site ticket) s = execCopyJobCompletion site ticket s := rfl
  rw [hx]
  simp only [execCopyJobCompletion, hj, jobDone hw hout hf, hbar, if_true]

theorem execCopyJobCompletion_arrives {off : Nat} {t : Tile} {r : HomeResult} (hbar : j.bar = some off)
    (hrel : s.jobReleased site j = true)
    (hp : ({ s.tile site with fe := markFull (s.tile site).fe j.marked } : Tile).perform .barArrive off = .ok t r) :
    exec (.copyJobCompletion site ticket) s = .next ((s.setTile site t).finishJob site j) := by
  have hx : exec (.copyJobCompletion site ticket) s = execCopyJobCompletion site ticket s := rfl
  rw [hx]
  simp only [execCopyJobCompletion, hj, jobDone hw hout hf, hbar, hrel, hp, Bool.not_true, Bool.false_eq_true, if_false,
    if_true]

end
end

/-! ### Streams (R230) -/

section
variable {s : State} {site : Nat} {k : Fin 4} {b : StreamBinding}

theorem State.setStream_stream (u : State) (site : Nat) (k : Fin 4) (b : StreamBinding) :
    ((u.setStream site k b).tile site).streams[k] = some b := by
  rw [State.setStream, State.tile_setTile_same]
  exact Vector.getElem_set_self ..

variable (hb : (s.tile site).streams[k] = some b) (hok : b.failed = false)
include hb hok

theorem execStreamFetch_asks (hhalt : s.halted = false) (hcount : b.asked < b.count) (hahead : b.asked < b.next + 4) :
    exec (.streamFetch site k) s = .next (s.setStream site k { b with asked := b.asked + 1 }) := by
  have hx : exec (.streamFetch site k) s = execStreamFetch site k s := rfl
  have hgo : (!s.halted && !b.failed && Nat.blt b.asked b.count && Nat.blt b.asked (b.next + 4)) = true := by
    rw [hhalt, hok, Nat.blt_eq.mpr hcount, Nat.blt_eq.mpr hahead]; rfl
  rw [hx]
  simp only [execStreamFetch, hb, hgo, if_true, State.setStream]

theorem execStreamElementArrival_lands {u : State} {v : Nat} (hout : b.out = 0) (hasked : b.index < b.asked)
    (hd : s.streamData site b = .ok u v) (hecc : streamEcc s site b b.index = false) :
    exec (.streamElementArrival site k) s = .next (u.setStream site k
      { b with landed := b.landed ++ [(BitVec.ofNat 4096 v, s.streamScales site b)], part := (0, 0, 0) }) := by
  have hx : exec (.streamElementArrival site k) s = execStreamElementArrival site k s := rfl
  have hgo : (b.failed || b.out != 0 || Nat.ble b.asked b.index) = false := by
    rw [hok, hout, ble_eq_decide, decide_eq_false (Nat.not_le.mpr hasked)]; rfl
  rw [hx]
  simp only [execStreamElementArrival, hb, hgo, hd, hecc, Bool.false_eq_true, if_false]

end

/-! ### The obligation -/

theorem backgroundFormsComplete : Claim.BackgroundFormsComplete := by
  refine ⟨fun site iq s haged hmsgs hsince => ⟨_, execHeadAged_ages haged hmsgs hsince, ?aged⟩, ?dispatch, ?resident,
    fun site k s h => ⟨_, execTrapEntry_takes h, rfl⟩,
    fun site s hthread hsys hwait hstop hhalt hready =>
      ⟨_, execVtileRetire_retires hthread hsys hwait hstop hhalt hready, rfl⟩,
    fun site k s c m hy hc => ⟨_, execYieldTimeout_ends hy hc, ?yield⟩,
    fun who s => execFixedLatencyCompletion_earliest, ?probe, ?grant,
    fun site s => ⟨_, rfl, Nat.le_max_right _ _⟩,
    fun site v s => ⟨_, rfl, congrArg Tile.mslot (State.tile_setTile_same ..), congrArg Tile.mptr (State.tile_setTile_same ..)⟩,
    ?jobs, ?streams⟩
  case aged =>
    rw [State.tile_setTile_same]
    exact congrArg InQueue.aged (Vector.getElem_set_self ..)
  case dispatch =>
    intro site s i k m rest hmay hl hpick hfree hm
    obtain ⟨t, hx, -, hthread, -, -, -, hmsg, -⟩ := dispatch_spec hmay hl hpick hfree hm
    exact ⟨t, hx, hthread, hmsg⟩
  case resident =>
    intro site s hfresh hpdone hocc
    obtain ⟨t, hx, hf, -⟩ := residentThreadStart_spec hfresh hpdone hocc
    exact ⟨t, hx, hf⟩
  case yield => exact congrArg Slot.yieldAt (State.slot_setSlot_same s (.tile site k) _)
  case probe =>
    intro site k s stl d a b p ph off t u b' h s1 hsys hwait hpend hat hd hs hr hpl hg ht hp he
    have hbody := barwaitBody_taken hd (barwaitOperands_ok hr hpl hg) (probedWord_priv ht hp) he
    refine ⟨(u.setTile u.cur.site b').barwaitEnded, ?_, State.barwaitEnded_cur _⟩
    exact execBarwaitProbe_issues hsys hwait hpend hat hs hbody
  case grant =>
    intro site s k t hhalt hfree hpick
    refine ⟨fun hfollow => ⟨_, execMatrixGrant_follow hhalt hfree hpick hfollow, rfl⟩, ?_⟩
    intro c s4 u n fl s1 hfollow hheld hs hf ha he
    exact ⟨u.granted n fl, execMatrixGrant_command hhalt hfree hpick hfollow hheld hs (matrixBody_ok hf ha he),
      State.granted_mheld u n fl⟩
  case jobs =>
    intro site ticket s j before hj
    refine ⟨fun hw hrow => ⟨fun u hp => ⟨u, execCopyLineLanding_lands hj hw hrow hp, rfl⟩, fun bits u b hp =>
        ⟨j.fail b, execCopyJobError_fails hj hw hrow hp, rfl, rfl⟩⟩,
      fun hw hok hf => ⟨_, execFollowOnCommand_readies hj hw hok hf, rfl⟩,
      fun hw hout hf => ⟨fun hbar => ⟨_, execCopyJobCompletion_plain hj hw hout hf hbar, rfl⟩, fun off t r hbar hrel hp =>
        ⟨_, execCopyJobCompletion_arrives hj hw hout hf hbar hrel hp, rfl⟩⟩⟩
  case streams =>
    intro site k s b hb hok
    refine ⟨fun hhalt hcount hahead => ⟨_, execStreamFetch_asks hb hok hhalt hcount hahead, State.setStream_stream ..⟩, ?_⟩
    intro u v e hout hasked hd hecc
    exact ⟨_, _, execStreamElementArrival_lands hb hok hout hasked hd hecc, State.setStream_stream .., rfl⟩

/-- Settles O60: the control forms from what their bodies do, and each background step under its condition. -/
theorem engineAndControlFormsComplete : Obligations.EngineAndControlFormsComplete :=
  ⟨controlFormsComplete, backgroundFormsComplete⟩

end Sys2Proof.Machine
end

section
/-! SUPPORT. Settles O56: the checks of a pointer in a tile (spec/02_state.md R62, R63, spec/04_memory.md R105, spec/06_isa_scalar.md
R176): for each space, what an address passes and which cause it raises. -/

namespace Sys2Proof.Machine

/-- A requirement, applied: nothing happens where it holds, and the stop where it does not. -/
theorem require_apply (b : Bool) (e : Stop) (s : State) : require b e s = if b = true then .ok ((), s) else .error e := by
  cases b <;> rfl

theorem ptrAddr_eq (p : Word) : ptrAddr p = p.toNat % 2 ^ 56 := by simp [ptrAddr, bitsOf]

/-- An access ends within the scratchpad just where its last byte stands below 128 KiB. -/
theorem ble_spadBytes (a n : Nat) : Nat.ble (a + n) Config.spadBytes = decide (a + n ≤ 131072) := ble_eq_decide ..

section
variable {s : State} {p : Word} {n : Nat}

/-- The private alias: below 128 KiB, then aligned. -/
theorem tilePlace_private (hn : 0 < n) (h : ptrSpace p = 2) :
    tilePlace anySpace p n n s =
      if 131072 < ptrAddr p + n then .error (.trap .bounds p)
      else if ptrAddr p % n ≠ 0 then .error (.trap .alignment p) else .ok (.priv (ptrAddr p), s) := by
  have hb : (ptrAddr p / 2 ^ 17 == 0 && Nat.ble (ptrAddr p + n) Config.spadBytes) = !decide (131072 < ptrAddr p + n) := by
    rw [ble_spadBytes, Bool.eq_iff_iff, Bool.and_eq_true, beq_iff_eq, decide_eq_true_eq, Bool.not_eq_true',
      decide_eq_false_iff_not]
    omega
  simp only [tilePlace, M.bind_apply, M.get_apply, M.ok_bind, h, hb]
  by_cases hout : 131072 < ptrAddr p + n <;> by_cases hal : ptrAddr p % n = 0 <;>
    simp [M.bind_apply, M.map_apply, require_apply, hout, hal]

/-- A vtile's scratchpad: below 128 KiB, of a vtile of the launch, then aligned. -/
theorem tilePlace_vtile (hn : 0 < n) (h : ptrSpace p = 1) :
    tilePlace anySpace p n n s =
      if 131072 < ptrAddr p % 2 ^ 32 + n then .error (.trap .bounds p)
      else if (s.launch (s.tile s.cur.site).name.1).pkt.vtiles ≤ ptrAddr p / 2 ^ 32 then
        .error (.trap .unmapped (ofN (ptrAddr p / 2 ^ 32)))
      else if ptrAddr p % 2 ^ 32 % n ≠ 0 then .error (.trap .alignment p)
      else .ok (.vtile (ptrAddr p / 2 ^ 32) (ptrAddr p % 2 ^ 32), s) := by
  have hvt : bitsOf (ptrAddr p) 55 32 = ptrAddr p / 2 ^ 32 := by simp only [bitsOf, ptrAddr]; omega
  have hb : (bitsOf (ptrAddr p) 31 17 == 0 && Nat.ble (ptrAddr p % 2 ^ 17 + n) Config.spadBytes)
      = !decide (131072 < ptrAddr p % 2 ^ 32 + n) := by
    rw [ble_spadBytes, Bool.eq_iff_iff, Bool.and_eq_true, beq_iff_eq, decide_eq_true_eq, Bool.not_eq_true',
      decide_eq_false_iff_not, bitsOf]
    omega
  have hv (v w : Nat) : Nat.blt v w = !decide (w ≤ v) := by rw [blt_eq_decide, ← decide_not, decide_eq_decide, Nat.not_le]
  simp only [tilePlace, M.bind_apply, M.get_apply, M.ok_bind, h, hb, hvt, hv]
  by_cases hout : 131072 < ptrAddr p % 2 ^ 32 + n
  · simp [-Nat.reducePow, M.bind_apply, spaceCheck, anySpace, require_apply, hout]
  · have hoff : ptrAddr p % 2 ^ 17 = ptrAddr p % 2 ^ 32 := by omega
    simp only [hoff]
    by_cases hmap : (s.launch (s.tile s.cur.site).name.1).pkt.vtiles ≤ ptrAddr p / 2 ^ 32 <;>
      by_cases hal : ptrAddr p % 2 ^ 32 % n = 0 <;>
      simp [-Nat.reducePow, M.bind_apply, M.map_apply, spaceCheck, anySpace, require_apply, hout, hmap, hal, ofN]

/-- HBM: 48 address bits, then aligned. -/
theorem tilePlace_hbm (h : ptrSpace p = 0) :
    tilePlace anySpace p n n s =
      if 2 ^ 48 ≤ ptrAddr p then .error (.trap .hbm p)
      else if ptrAddr p % n ≠ 0 then .error (.trap .alignment p) else .ok (.hbm (ptrAddr p), s) := by
  have hb : (ptrAddr p / 2 ^ 48 == 0) = !decide (2 ^ 48 ≤ ptrAddr p) := by
    rw [Bool.eq_iff_iff, beq_iff_eq, Bool.not_eq_true', decide_eq_false_iff_not]
    omega
  simp only [tilePlace, M.bind_apply, M.get_apply, M.ok_bind, h, hb]
  by_cases hout : 2 ^ 48 ≤ ptrAddr p <;> by_cases hal : ptrAddr p % n = 0 <;>
    simp [-Nat.reducePow, M.bind_apply, M.map_apply, spaceCheck, anySpace, require_apply, hout, hal]

/-- The apertures: a plain access reaches the host's alone, and any other index is a fault before the alignment. -/
theorem tilePlace_aperture (h : ptrSpace p = 3) :
    tilePlace anySpace p n n s =
      if 2 ^ 48 ≤ ptrAddr p then .error (.trap .hbm p)
      else if ptrAddr p % n ≠ 0 then .error (.trap .alignment p) else .ok (.aperture 0 (ptrAddr p), s) := by
  simp only [tilePlace, M.bind_apply, M.get_apply, M.ok_bind, h]
  by_cases hout : 2 ^ 48 ≤ ptrAddr p
  · have hb : (ptrAddr p / 2 ^ 48 == 0) = false := by rw [beq_eq_false_iff_ne]; omega
    simp only [hb, hout, if_true]
    rfl
  · have hb : ptrAddr p / 2 ^ 48 = 0 := by omega
    have ha : ptrAddr p % 2 ^ 48 = ptrAddr p := by omega
    simp only [hb, ha]
    by_cases hal : ptrAddr p % n = 0 <;>
      simp [-Nat.reducePow, M.bind_apply, M.map_apply, spaceCheck, anySpace, require_apply, hout, hal]

end

/-- Settles O56, space by space. -/
theorem pointerChecks : Obligations.PointerChecks := by
  intro s p n hn hc a vt off run
  have hpos : 0 < n := by
    simp only [List.mem_cons, List.not_mem_nil, or_false] at hn
    omega
  have hrun : run = tilePlace anySpace p n n s := by
    simp only [run, placeOf, M.bind_apply, M.get_apply, M.ok_bind, hc, Bool.false_eq_true, if_false]
  have ha : ptrAddr p = a := ptrAddr_eq p
  refine ⟨fun h => ?priv, fun h => ?vtile, fun h => ?hbm, fun h => ?aperture⟩
  case priv =>
    rw [hrun, tilePlace_private hpos h, ha]
    exact ⟨fun h1 => if_pos h1, fun h1 h2 => by rw [if_neg (by omega), if_pos h2],
      fun h1 h2 => by rw [if_neg (by omega), if_neg (by simp [h2])]⟩
  case vtile =>
    rw [hrun, tilePlace_vtile hpos h, ha]
    exact ⟨fun h1 => if_pos h1, fun h1 h2 => by rw [if_neg (Nat.not_lt.mpr h1), if_pos h2],
      fun h1 h2 h3 => by rw [if_neg (Nat.not_lt.mpr h1), if_neg (Nat.not_le.mpr h2), if_pos h3],
      fun h1 h2 h3 => by rw [if_neg (Nat.not_lt.mpr h1), if_neg (Nat.not_le.mpr h2), if_neg (not_not.mpr h3)]⟩
  case hbm =>
    rw [hrun, tilePlace_hbm h, ha]
    exact ⟨fun h1 => if_pos h1, fun h1 h2 => by rw [if_neg (Nat.not_le.mpr h1), if_pos h2],
      fun h1 h2 => by rw [if_neg (Nat.not_le.mpr h1), if_neg (not_not.mpr h2)]⟩
  case aperture =>
    rw [hrun, tilePlace_aperture h, ha]
    exact ⟨fun h1 h2 => by rw [if_neg (Nat.not_le.mpr h1), if_neg (not_not.mpr h2)], fun h1 => if_pos h1,
      fun h1 h2 => by rw [if_neg (Nat.not_le.mpr h1), if_pos h2]⟩

end Sys2Proof.Machine
end

section
/-! SUPPORT. Time that passes: what the completion of issued results leaves of a slot and of a tile (spec/02_state.md R38 to R42, R46,
spec/05_encoding.md R141). -/

namespace Sys2Proof.Machine

/-! ### The frame of a slot -/

/-- What is outstanding at a slot was outstanding at another: each result for the same place and with the same flags. -/
def Slot.within (u sl : Slot) : Prop := ∀ f ∈ u.flights, ∃ g ∈ sl.flights, g.dst = f.dst ∧ g.flags = f.flags

theorem Slot.within_refl (sl : Slot) : sl.within sl := fun f hf => ⟨f, hf, rfl, rfl⟩

theorem Slot.within.trans {u t sl : Slot} (h : u.within t) (h' : t.within sl) : u.within sl := by
  intro f hf
  obtain ⟨g, hg, hd, hfl⟩ := h f hf
  obtain ⟨e, he, hd', hfl'⟩ := h' g hg
  exact ⟨e, he, hd'.trans hd, hfl'.trans hfl⟩

/-- A place that nothing outstanding lands in is still such a place. -/
theorem Slot.within.dst_ne {u sl : Slot} (h : u.within sl) (P : Landing → Prop) (hp : ∀ f ∈ sl.flights, P f.dst) :
    ∀ f ∈ u.flights, P f.dst := by
  intro f hf
  obtain ⟨g, hg, hd, -⟩ := h f hf
  exact hd ▸ hp g hg

theorem Slot.within.no_flags {u sl : Slot} (h : u.within sl) (hp : ∀ f ∈ sl.flights, f.flags = 0) :
    ∀ f ∈ u.flights, f.flags = 0 := by
  intro f hf
  obtain ⟨g, hg, -, hfl⟩ := h f hf
  exact hfl ▸ hp g hg

theorem Slot.frame_refl (sl : Slot) (d : Dst) : sl.frame sl d := by simp [Slot.frame]

/-- Frames compose, where nothing new is outstanding in between. -/
theorem Slot.frame.trans {sl t u : Slot} {d : Dst} (h : sl.frame t .discard) (hw : t.within sl) (h' : t.frame u d) :
    sl.frame u d := by
  obtain ⟨n, q, vq, m, fl, rest⟩ := h
  obtain ⟨n', q', vq', m', fl', rest'⟩ := h'
  refine ⟨fun k hd hk => ?_, fun hd hq => ?_, fun hv => ?_, fun hm => ?_, fun hf => ?_, ?_⟩
  · obtain ⟨a, b⟩ := n k (by simp) hk
    obtain ⟨a', b'⟩ := n' k hd (hw.dst_ne (· ≠ .named k) hk)
    exact ⟨a'.trans a, b'.trans b⟩
  · obtain ⟨a, b⟩ := q (by simp) hq
    obtain ⟨a', b'⟩ := q' hd (hw.dst_ne (· ≠ .queue) hq)
    exact ⟨a'.trans a, b'.trans b⟩
  · exact (vq' (hw.dst_ne (· ≠ .vqueue) hv)).trans (vq hv)
  · obtain ⟨a, b, c⟩ := m hm
    obtain ⟨a', b', c'⟩ := m' (hw.dst_ne (fun x => ∀ k, x ≠ .mask k) hm)
    exact ⟨a'.trans a, b'.trans b, c'.trans c⟩
  · exact (fl' (hw.no_flags hf)).trans (fl hf)
  · simp only [rest', rest, and_self]

/-- One slot becomes another by the landing of results among a list. -/
def Slot.landed (fs : List Flight) (sl u : Slot) : Prop :=
  ({ sl with flights := fs } : Slot).frame u .discard ∧ u.within { sl with flights := fs }

theorem Slot.landed.trans {fs : List Flight} {sl t u : Slot} (h : Slot.landed fs sl t) (h' : Slot.landed fs t u) :
    Slot.landed fs sl u :=
  ⟨Slot.frame.trans (t := { t with flights := fs }) h.1 (Slot.within_refl _) h'.1, h'.2⟩

theorem Slot.landed_refl {fs : List Flight} {sl : Slot} (hw : sl.within { sl with flights := fs }) : Slot.landed fs sl sl :=
  ⟨Slot.frame_refl _ _, hw⟩

/-- The flags of a completed result join FSTAT (R59). -/
theorem Slot.joinFlags_landed {fs : List Flight} {sl : Slot} {f : Flight} (hf : f ∈ fs)
    (hw : sl.within { sl with flights := fs }) : Slot.landed fs sl { sl with fstat := sl.fstat ||| f.flags } := by
  refine ⟨?_, hw⟩
  simp +contextual [Slot.frame, hf]

/-- Marking what a later result supersedes changes no register, and no place or flags of what is outstanding. -/
theorem Slot.supersede_landed {fs : List Flight} {sl : Slot} (d : Landing) (sys : Bool) (id : Nat)
    (hw : sl.within { sl with flights := fs }) : Slot.landed fs sl (sl.supersede d sys id) := by
  refine ⟨by simp [Slot.frame, Slot.supersede], fun g hg => ?_⟩
  obtain ⟨e, he, rfl⟩ := List.mem_map.mp hg
  obtain ⟨x, hx, hd, hfl⟩ := hw e he
  exact ⟨x, hx, by split <;> exact hd, by split <;> exact hfl⟩

/-- The slot with what a completed result brings, before its superseded results are marked. -/
def Slot.put (sl : Slot) (f : Flight) : Slot :=
  match f.dst with
  | .queue => if f.sys then { sl with sq := fillQueue sl.sq f.id f.val } else { sl with q := fillQueue sl.q f.id f.val }
  | .named k =>
    if f.stale then sl else if f.sys then { sl with sn := sl.sn.set k f.val }
    else { sl with n := sl.n.set k f.val, nfull := sl.nfull ||| (1#32 <<< k.val), nacq := sl.nacq &&& ~~~(1#32 <<< k.val) }
  | .mask k => if f.stale then sl else sl.setMask k (f.vec.setWidth 1024)
  | .vqueue => { sl with vq := fillVQueue sl.vq f.id f.vec f.side }
  | _ => sl

/-- A register other than the one that is set stays. -/
theorem vector_set_other {α : Type} {n : Nat} (v : Vector α n) (k j : Fin n) (x : α) (h : k ≠ j) : (v.set k x)[j] = v[j] := by
  have : k.val ≠ j.val := fun e => h (Fin.ext e)
  simp [this]

theorem Slot.put_landed {fs : List Flight} {sl : Slot} {f : Flight} (hf : f ∈ fs)
    (hw : sl.within { sl with flights := fs }) : Slot.landed fs sl (sl.put f) := by
  unfold Slot.put
  split
  case h_1 hd =>
    have hq : ¬ ∀ g ∈ fs, g.dst ≠ .queue := fun h => h f hf hd
    split <;> exact ⟨by simp [Slot.frame, hq], hw⟩
  case h_2 k hd =>
    have hn : ∀ j, (∀ g ∈ fs, g.dst ≠ .named j) → k ≠ j := fun j h e => h f hf (e ▸ hd)
    split
    · exact ⟨Slot.frame_refl _ _, hw⟩
    · split <;> exact ⟨⟨fun j _ h => ⟨by simp [vector_set_other _ _ _ _ (hn j h)], by simp [vector_set_other _ _ _ _ (hn j h)]⟩,
        by simp⟩, hw⟩
  case h_3 k hd =>
    have hm : ¬ ∀ g ∈ fs, ∀ j, g.dst ≠ .mask j := fun h => h f hf k hd
    split
    · exact ⟨Slot.frame_refl _ _, hw⟩
    · unfold Slot.setMask
      split
      · exact ⟨by simp [Slot.frame, hm], hw⟩
      · split
        · exact ⟨by simp [Slot.frame, hm], hw⟩
        · split
          · exact ⟨by simp [Slot.frame, hm], hw⟩
          · exact ⟨Slot.frame_refl _ _, hw⟩
  case h_4 hd =>
    have hv : ¬ ∀ g ∈ fs, g.dst ≠ .vqueue := fun h => h f hf hd
    exact ⟨by simp [Slot.frame, hv], hw⟩
  case h_5 => exact ⟨Slot.frame_refl _ _, hw⟩

/-- A completed result joins its flags, brings its value, and may mark what it supersedes. -/
theorem Slot.land_eq (sl : Slot) (f : Flight) :
    let x := ({ sl with fstat := sl.fstat ||| f.flags } : Slot).put f
    sl.land f = x ∨ sl.land f = x.supersede f.dst f.sys f.id := by
  unfold Slot.land Slot.put
  rcases hd : f.dst with _ | k | k | _ | k | k | _
  case named =>
    by_cases hs : f.stale = true
    · exact .inl (by simp [hs])
    · by_cases hy : f.sys = true
      · exact .inr (by simp [hs, hy, Slot.landSysNamed])
      · exact .inr (by simp [hs, hy, Slot.landNamed])
  case mask =>
    by_cases hs : f.stale = true
    · exact .inl (by simp [hs])
    · exact .inr (by simp [hs, Slot.landMask])
  all_goals exact .inl rfl

/-- A result that completes changes what it lands in alone. -/
theorem Slot.land_landed {fs : List Flight} {sl : Slot} {f : Flight} (hf : f ∈ fs)
    (hw : sl.within { sl with flights := fs }) : Slot.landed fs sl (sl.land f) := by
  have h1 := Slot.joinFlags_landed hf hw
  have h2 := h1.trans (Slot.put_landed hf h1.2)
  rcases Slot.land_eq sl f with h | h <;> rw [h]
  · exact h2
  · exact h2.trans (Slot.supersede_landed _ _ _ h2.2)

/-! ### The frame of a tile -/

/-- A vector register result that is outstanding at a slot lands on no address of a set. -/
def quietFor (l : Launch) (k : Fin 8) (fs : List Flight) (a : Nat) : Prop :=
  ∀ f ∈ fs, ∀ r, f.dst = .vreg r → a < vregOffset l k r.val ∨ vregOffset l k r.val + 512 ≤ a

/-- One tile becomes another by the landing of results among a list at one of its slots. -/
structure Tile.landed (l : Launch) (k : Fin 8) (fs : List Flight) (t u : Tile) : Prop where
  rest : u = { t with slots := u.slots, spad := u.spad, shadow := u.shadow, fe := u.fe, eccWords := u.eccWords,
                      templates := u.templates }
  slot : Slot.landed fs t.slots[k] u.slots[k]
  others : ∀ j, j ≠ k → u.slots[j] = t.slots[j]
  bytes : ∀ a, quietFor l k fs a → Memory.get u.spad a = Memory.get t.spad a

theorem Tile.landed.trans {l : Launch} {k : Fin 8} {fs : List Flight} {t u v : Tile} (h : Tile.landed l k fs t u)
    (h' : Tile.landed l k fs u v) : Tile.landed l k fs t v where
  rest := by rw [h'.rest, h.rest]
  slot := h.slot.trans h'.slot
  others j hj := (h'.others j hj).trans (h.others j hj)
  bytes a ha := (h'.bytes a ha).trans (h.bytes a ha)

/-- A slot whose results land leaves the rest of its tile. -/
theorem Tile.landed_setSlot {l : Launch} {k : Fin 8} {fs : List Flight} {t : Tile} {x : Slot} (h : Slot.landed fs t.slots[k] x) :
    Tile.landed l k fs t (t.setSlot k x) where
  rest := rfl
  slot := by rw [Tile.slots_setSlot_same]; exact h
  others j hj := Tile.slots_setSlot_other t k j x hj
  bytes _ _ := rfl

theorem landOne_landed {l : Launch} {k : Fin 8} {fs : List Flight} {t : Tile} {f : Flight} (hf : f ∈ fs)
    (hw : t.slots[k].within { t.slots[k] with flights := fs }) : Tile.landed l k fs t (landOne l k t f) := by
  have h1 : Tile.landed l k fs t (t.setSlot k (t.slots[k].land f)) := Tile.landed_setSlot (Slot.land_landed hf hw)
  unfold landOne
  dsimp only
  split
  case h_1 r hd =>
    split
    · exact h1
    · have h2 := h1.trans (Tile.landed_setSlot (Slot.supersede_landed f.dst f.sys f.id h1.slot.2))
      exact h2.trans ⟨rfl, Slot.landed_refl h2.slot.2, fun _ _ => rfl,
        fun a ha => Memory.get_write_outside _ _ _ _ _ (ha f hf r hd)⟩
  case h_2 r hd => exact h1.trans ⟨rfl, Slot.landed_refl h1.slot.2, fun _ _ => rfl, fun _ _ => rfl⟩
  case h_3 => exact h1

/-- Results that land one after the other. -/
theorem foldl_landOne_landed {l : Launch} {k : Fin 8} {fs : List Flight} (gs : List Flight) (hg : ∀ f ∈ gs, f ∈ fs) {t : Tile}
    (hw : t.slots[k].within { t.slots[k] with flights := fs }) : Tile.landed l k fs t (gs.foldl (landOne l k) t) := by
  induction gs generalizing t with
  | nil => exact ⟨rfl, Slot.landed_refl hw, fun _ _ => rfl, fun _ _ => rfl⟩
  | cons f gs ih =>
    have h1 := landOne_landed (l := l) (hg f List.mem_cons_self) hw
    exact h1.trans (ih (fun g h => hg g (List.mem_cons_of_mem f h)) h1.slot.2)

/-- What lands of a slot's results by a cycle lands among its results. -/
theorem settleSlot_landed (l : Launch) (c : Nat) (t : Tile) (k : Fin 8) :
    Tile.landed l k t.slots[k].flights t (settleSlot l c t k) := by
  unfold settleSlot
  dsimp only
  split
  · have h1 : Tile.landed l k t.slots[k].flights t (t.setSlot k
        { t.slots[k] with flights := t.slots[k].flights.filter fun f => !Flight.lands t.slots[k].flights c f }) :=
      Tile.landed_setSlot ⟨Slot.frame_refl _ _, fun f hf => ⟨f, (List.mem_filter.mp hf).1, rfl, rfl⟩⟩
    exact h1.trans (foldl_landOne_landed _ (fun f hf => (List.mem_filter.mp hf).1) h1.slot.2)
  · exact ⟨rfl, Slot.landed_refl (Slot.within_refl _), fun _ _ => rfl, fun _ _ => rfl⟩

/-- A slot with nothing outstanding is not touched. -/
theorem settleSlot_idle {l : Launch} {c : Nat} {t : Tile} {k : Fin 8} (h : t.slots[k].flights = []) :
    settleSlot l c t k = t := by
  unfold settleSlot
  dsimp only
  rw [h]
  rfl

/-- One tile becomes another as results of its slots land. -/
structure Tile.settled (l : Launch) (t u : Tile) : Prop where
  rest : u = { t with slots := u.slots, spad := u.spad, shadow := u.shadow, fe := u.fe, eccWords := u.eccWords,
                      templates := u.templates }
  slots : ∀ k : Fin 8, t.slots[k].frame u.slots[k] .discard
  within : ∀ k : Fin 8, u.slots[k].within t.slots[k]
  idle : ∀ k : Fin 8, t.slots[k].flights = [] → u.slots[k] = t.slots[k]
  bytes : ∀ a, (∀ k : Fin 8, quietFor l k t.slots[k].flights a) → Memory.get u.spad a = Memory.get t.spad a

theorem Tile.settled_refl (l : Launch) (t : Tile) : Tile.settled l t t :=
  ⟨rfl, fun _ => Slot.frame_refl _ _, fun _ => Slot.within_refl _, fun _ _ => rfl, fun _ _ => rfl⟩

/-- Where nothing lands on an address, nothing of what is left does. -/
theorem Slot.within.quiet {u sl : Slot} (h : u.within sl) {l : Launch} {k : Fin 8} {a : Nat} (hq : quietFor l k sl.flights a) :
    quietFor l k u.flights a :=
  h.dst_ne (fun x => ∀ r, x = .vreg r → a < vregOffset l k r.val ∨ vregOffset l k r.val + 512 ≤ a) hq

theorem Tile.settled.trans {l : Launch} {t u v : Tile} (h : Tile.settled l t u) (h' : Tile.settled l u v) :
    Tile.settled l t v where
  rest := by rw [h'.rest, h.rest]
  slots k := (h.slots k).trans (h.within k) (h'.slots k)
  within k := (h'.within k).trans (h.within k)
  idle k hk := (h'.idle k (by rw [h.idle k hk, hk])).trans (h.idle k hk)
  bytes a ha := (h'.bytes a fun k => (h.within k).quiet (ha k)).trans (h.bytes a ha)

theorem settleSlot_settled (l : Launch) (c : Nat) (t : Tile) (k : Fin 8) : Tile.settled l t (settleSlot l c t k) := by
  have h := settleSlot_landed l c t k
  refine ⟨h.rest, fun j => ?_, fun j => ?_, fun j hj => ?_, fun a ha => h.bytes a (ha k)⟩
  · by_cases hjk : j = k
    · subst hjk; exact h.slot.1
    · rw [h.others j hjk]; exact Slot.frame_refl _ _
  · by_cases hjk : j = k
    · subst hjk; exact h.slot.2
    · rw [h.others j hjk]; exact Slot.within_refl _
  · by_cases hjk : j = k
    · subst hjk; rw [settleSlot_idle hj]
    · exact h.others j hjk

/-- The completed results of every slot of a tile land. -/
theorem settleTile_settled (l : Launch) (c k : Nat) (t : Tile) : Tile.settled l t (settleTile l c k t) := by
  have hfold : ∀ (js : List (Fin 8)) (u : Tile), Tile.settled l t u →
      Tile.settled l t (js.foldl (fun t j => settleSlot l (if Nat.ble j.val k then c else c - 1) t j) u) := by
    intro js
    induction js with
    | nil => exact fun u h => h
    | cons j js ih => exact fun u h => ih _ (h.trans (settleSlot_settled _ _ _ _))
  unfold settleTile
  split
  · exact hfold _ _ (Tile.settled_refl l t)
  · exact Tile.settled_refl l t

/-- The completed results of a core's thread land. -/
theorem settleCore_landed (c : Nat) (sl : Slot) : Slot.landed sl.flights sl (settleCore c sl) := by
  have hfold : ∀ (gs : List Flight) (x : Slot), (∀ f ∈ gs, f ∈ sl.flights) → Slot.landed sl.flights sl x →
      Slot.landed sl.flights sl (gs.foldl Slot.land x) := by
    intro gs
    induction gs with
    | nil => exact fun x _ h => h
    | cons f gs ih =>
      exact fun x hg h => ih _ (fun g hg' => hg g (List.mem_cons_of_mem f hg'))
        (h.trans (Slot.land_landed (hg f List.mem_cons_self) h.2))
  exact hfold _ _ (fun f hf => (List.mem_filter.mp hf).1)
    ⟨Slot.frame_refl _ _, fun f hf => ⟨f, (List.mem_filter.mp hf).1, rfl, rfl⟩⟩

end Sys2Proof.Machine
end

section
/-! SUPPORT. Settles O57: where a scalar result goes and when (spec/02_state.md R38 to R41, spec/05_encoding.md R135, R141). -/

namespace Sys2Proof.Machine

/-! ### A slot whose one result lands in a named register -/

theorem State.settle_cycle (s : State) (a : Agent) : (s.settle a).cycle = s.cycle := by
  cases a with
  | tile site k =>
    change (s.settleAt site k.val).cycle = s.cycle
    unfold State.settleAt
    dsimp only
    split <;> rfl
  | _ =>
    unfold State.settle
    dsimp only
    split <;> simp

theorem State.advance_cycle (s : State) (a : Agent) (c : Nat) : (s.advance a c).cycle = max s.cycle c :=
  State.settle_cycle _ a

section
variable {l : Launch} {t : Tile} {k : Fin 8} {f : Flight} {r : Fin 32} {c : Nat}

theorem settleSlot_named (h : t.slots[k].flights = [f]) (hd : f.dst = .named r) (hc : f.done c = true) :
    (settleSlot l c t k).slots[k] = ({ t.slots[k] with flights := [] } : Slot).land f := by
  have hl : Flight.lands [f] c f = true := by simp [Flight.lands, Flight.inPad, hc, hd]
  have hone : ∀ (u : Tile), landOne l k u f = u.setSlot k (u.slots[k].land f) := fun u => by simp [landOne, hd]
  unfold settleSlot
  dsimp only
  rw [h, if_pos (by simp [hc])]
  simp only [List.filter_cons, hl, List.filter_nil, if_true, Bool.not_true, Bool.false_eq_true, if_false, List.foldl_cons,
    List.foldl_nil, hone, Tile.slots_setSlot_same]

/-- The landing of other slots' results leaves a slot as it is. -/
theorem foldl_settleSlot_other (g : Fin 8 → Nat) (js : List (Fin 8)) (hk : k ∉ js) (t : Tile) :
    (js.foldl (fun t j => settleSlot l (g j) t j) t).slots[k] = t.slots[k] := by
  induction js generalizing t with
  | nil => rfl
  | cons j js ih =>
    rw [List.mem_cons, not_or] at hk
    rw [List.foldl_cons, ih hk.2]
    exact (settleSlot_landed l (g j) t j).others k hk.1

theorem settleTile_named (h : t.slots[k].flights = [f]) (hd : f.dst = .named r) (hc : f.done c = true) :
    (settleTile l c k.val t).slots[k] = ({ t.slots[k] with flights := [] } : Slot).land f := by
  have hany : t.slots.toList.any (fun sl => sl.flights.any (Flight.done c)) = true :=
    List.any_eq_true.mpr ⟨t.slots[k], Vector.mem_toList_iff.mpr (Vector.getElem_mem k.isLt), by rw [h]; simp [hc]⟩
  have hnd := List.nodup_finRange 8
  obtain ⟨js, js', hjs⟩ := List.append_of_mem (List.mem_finRange k)
  rw [hjs, List.nodup_append, List.nodup_cons] at hnd
  obtain ⟨-, ⟨hjs', -⟩, hdis⟩ := hnd
  have hjs1 : k ∉ js := fun hk => hdis k hk k List.mem_cons_self rfl
  unfold settleTile
  rw [if_pos hany, hjs, List.foldl_append, List.foldl_cons, foldl_settleSlot_other _ js' hjs']
  have h0 := foldl_settleSlot_other (l := l) (fun j => if Nat.ble j.val k.val then c else c - 1) js hjs1 t
  rw [if_pos (Nat.ble_eq_true_of_le (Nat.le_refl k.val)), settleSlot_named (h0 ▸ h) hd hc, h0]

end

/-- By the cycle in which its one result completes a slot has it in its register. -/
theorem State.advance_named {s : State} {a : Agent} {f : Flight} {r : Fin 32} {d c : Nat} (h : (s.slot a).flights = [f])
    (hd : f.dst = .named r) (hdue : f.due = some d) (hc : d ≤ c) :
    (s.advance a c).slot a = ({ s.slot a with flights := [] } : Slot).land f := by
  have hdone : f.done (max s.cycle c) = true := by simp [Flight.done, hdue, hc]
  unfold State.advance
  generalize hx : ({ s with cycle := max s.cycle c } : State) = x
  have hcyc : x.cycle = max s.cycle c := by rw [← hx]
  have hslot : x.slot a = s.slot a := by rw [← hx]; cases a <;> rfl
  rw [← hslot] at h ⊢
  rw [← hcyc] at hdone
  cases a with
  | tile site k =>
    change ((x.settleAt site k.val).tile site).slots[k] = _
    have hfl : (x.tile site).slots[k].flights = [f] := h
    have hany : (x.tile site).slots.toList.any (fun sl => sl.flights.any (Flight.done x.cycle)) = true :=
      List.any_eq_true.mpr ⟨_, Vector.mem_toList_iff.mpr (Vector.getElem_mem k.isLt),
        by rw [show (x.tile site).slots[k.val].flights = [f] from h]; simp [hdone]⟩
    unfold State.settleAt
    dsimp only
    rw [if_pos hany, State.tile_setTile_same, settleTile_named hfl hd hdone]
    rfl
  | _ =>
    unfold State.settle
    dsimp only
    rw [if_pos (by rw [h]; simp [hdone]), State.slot_setSlot_same]
    unfold settleCore
    simp [h, hdone]

/-! ### Named registers read back -/

section
variable {s : State} {k : Fin 32} {v : Word}

/-- A register of the system bank reads as it stands. -/
theorem readNamed_system (h : (s.slot s.cur).sys = true) : readNamed k s = .ok ((s.slot s.cur).sn[k], s) := by
  simp only [readNamed, M.bind_apply, getSlot_apply, M.ok_bind, h, if_true, M.pure_apply]

/-- A register of the user bank that no remote write has brought reads as it stands. -/
theorem readNamed_user (h : (s.slot s.cur).sys = false) (hn : (s.slot s.cur).nacq.getLsbD k.val = false) :
    readNamed k s = .ok ((s.slot s.cur).n[k], s) := by
  simp only [readNamed, M.bind_apply, getSlot_apply, M.ok_bind, h, hn, Bool.false_eq_true, if_false, M.pure_apply]

/-- A slot holds a value in a named register of its mode's bank, its own slot having written it. -/
def Slot.holds (sl : Slot) (k : Fin 32) (v : Word) : Prop :=
  if sl.sys = true then sl.sn[k] = v else sl.n[k] = v ∧ sl.nacq.getLsbD k.val = false

theorem readNamed_holds (h : (s.slot s.cur).holds k v) : readNamed k s = .ok (v, s) := by
  unfold Slot.holds at h
  split at h
  case isTrue hs => rw [readNamed_system hs, h]
  case isFalse hs => rw [readNamed_user (Bool.not_eq_true _ ▸ hs) h.2, h.1]

end

theorem Slot.landNamed_nacq (sl : Slot) (k : Fin 32) (id : Nat) (v : Word) :
    (sl.landNamed k id v).nacq.getLsbD k.val = false := by
  simp [Slot.landNamed, Slot.supersede]

/-- A result of a slot's own mode that lands in a named register is held there. -/
theorem Slot.land_holds {sl : Slot} {f : Flight} {k : Fin 32} (hd : f.dst = .named k) (hs : f.stale = false)
    (hsys : f.sys = sl.sys) : (sl.land f).holds k f.val := by
  unfold Slot.land
  rw [hd]
  cases h : sl.sys with
  | true => simp [hs, hsys, h, Slot.holds, Slot.landSysNamed, Slot.supersede]
  | false => simp [hs, hsys, h, Slot.holds, Slot.landNamed, Slot.supersede]

/-- A named register that is written at once is held. -/
theorem Slot.setNamed_holds (sl : Slot) (k : Fin 32) (v : Word) : (sl.setNamed k v).holds k v := by
  unfold Slot.setNamed
  cases h : sl.sys with
  | true => simp [h, Slot.holds, Slot.landSysNamed, Slot.supersede]
  | false => simp [h, Slot.holds, Slot.landNamed, Slot.supersede]

theorem Slot.setNamed_other (sl : Slot) {k j : Fin 32} (v : Word) (h : j ≠ k) :
    (sl.setNamed k v).n[j] = sl.n[j] ∧ (sl.setNamed k v).sn[j] = sl.sn[j] := by
  unfold Slot.setNamed
  split <;> simp [Slot.landSysNamed, Slot.landNamed, Slot.supersede, vector_set_other _ _ _ _ (Ne.symm h)]

/-! ### Results -/

theorem Slot.result_named_now {sl : Slot} {c lam : Nat} {k : Fin 32} {v : Word} (h : lam ≤ 1) :
    sl.result c lam 0 (.n k) v = sl.setNamed k v := by
  simp [Slot.result, h, Slot.flagsAt]

theorem Slot.result_named_later {sl : Slot} {c lam : Nat} {k : Fin 32} {v : Word} (h : 1 < lam) :
    sl.result c lam 0 (.n k) v = sl.fly (c + lam) (.named k) v 0 0 0 := by
  simp [Slot.result, Nat.not_le.mpr h]

/-- The result of a slot that is on its way to a named register (R39, R141). -/
def Slot.namedFlight (sl : Slot) (due : Nat) (k : Fin 32) (v : Word) : Flight :=
  { id := sl.nextId, due := some due, dst := .named k, sys := sl.sys, val := v, vec := 0, side := 0, parts := 0, flags := 0 }

/-- The queue of the mode after a push: the new entry, and every other one age older (R38). -/
theorem Slot.push_queue (sl : Slot) (e : QEntry) : (sl.push e).queue = pushEntry sl.queue e := by
  unfold Slot.push Slot.queue
  split <;> simp [*]

theorem Slot.result_push_queue (sl : Slot) (c lam : Nat) (v : Word) :
    (sl.result c lam 0 .push v).queue = pushEntry sl.queue { val := v, ready := if lam ≤ 1 then 0 else c + lam, pend := 0 } := by
  simp [Slot.result, Slot.flagsAt, Slot.push_queue]

/-- A named register waits for the one result that is on its way to it. -/
theorem awaitNamed_single {s : State} {k : Fin 32} {f : Flight} {d : Nat} (h : (s.slot s.cur).flights = [f])
    (hd : f.dst = .named k) (hsys : f.sys = (s.slot s.cur).sys) (hdue : f.due = some d)
    (hfull : (s.slot s.cur).sys = true ∨ (s.slot s.cur).nfull.getLsbD k.val = true) :
    awaitNamed k s = .ok ((), s.advance s.cur d) := by
  have hp : pendingUntil [f] (· == Landing.named k) (s.slot s.cur).sys = some d := by
    simp [pendingUntil, hd, hsys, hdue]
  have hb : ((s.slot s.cur).sys || (s.slot s.cur).nfull.getLsbD k.val) = true := by simpa using hfull
  simp only [awaitNamed, M.bind_apply, getSlot_apply, M.ok_bind, hb, require_true, M.pure_apply, awaitLanding, M.get_apply, h, hp,
    M.set_apply]

/-- Settles O57: a result that lands later does so by the settling of the slot's one flight. -/
theorem resultsLand : Obligations.ResultsLand := by
  intro s lam d v sl u x
  have hx : x = sl.result s.cycle lam 0 d v := State.slot_setSlot_same ..
  have hcur : u.cur = s.cur := State.setSlot_cur ..
  have hu : u.slot u.cur = x := by rw [hcur]
  refine ⟨?discard, ?push, ?named⟩
  case discard => rintro rfl; rw [hx]; simp [Slot.result, Slot.flagsAt]
  case push =>
    rintro rfl
    rw [hx, Slot.result_push_queue]
    exact ⟨by simp [pushEntry], by simp [pushEntry], by simp [pushEntry], fun i => by simp [pushEntry]⟩
  case named =>
    rintro k rfl
    refine ⟨fun hlam => ?now, fun hlam hfl hfull => ?later⟩
    case now =>
      rw [Slot.result_named_now hlam] at hx
      exact ⟨readNamed_holds (by rw [hu, hx]; exact Slot.setNamed_holds ..), fun j hj => by rw [hx]; exact Slot.setNamed_other _ _ hj⟩
    case later =>
      rw [Slot.result_named_later hlam] at hx
      have hone : (u.slot u.cur).flights = [sl.namedFlight (s.cycle + lam) k v] := by
        rw [hu, hx, Slot.fly, hfl]
        rfl
      have hsys : (u.slot u.cur).sys = sl.sys := by rw [hu, hx]; rfl
      refine ⟨by rw [hx]; rfl, by rw [hx]; rfl, u.advance u.cur (s.cycle + lam), ?_, readNamed_holds ?_, ?_⟩
      · exact awaitNamed_single hone rfl hsys.symm rfl (by rw [hu, hx]; exact hfull)
      · rw [State.advance_cur, State.advance_named (c := s.cycle + lam) hone rfl rfl le_rfl]
        exact Slot.land_holds rfl rfl hsys.symm
      · rw [State.advance_cycle]
        exact le_max_right _ _

end Sys2Proof.Machine
end

section
/-! SUPPORT. The frame of what an instruction does before its result: time passes and sources are read (spec/02_state.md R38 to R42,
R49, R50). Everything but what results issued earlier land in, and what the sources consume, stays. -/

namespace Sys2Proof.Machine

/-! ### A state reached by waiting and reading -/

/-- One state becomes another by the passing of time and the reading of sources at the current agent. -/
structure State.reads (s u : State) : Prop where
  cur : u.cur = s.cur
  frame : s.registerFrame u .discard
  within : (u.slot s.cur).within (s.slot s.cur)
  quiet : ∀ a, s.quietAt a → u.quietAt a

/-- The frame at a slot of a tile. -/
theorem State.registerFrame_tile {s u : State} {d : Dst} {site : Nat} {k : Fin 8} (hc : s.cur = .tile site k) :
    s.registerFrame u d ↔ (s.slot (.tile site k)).frame (u.slot (.tile site k)) d
      ∧ u = { s with cycle := u.cycle, freeCtr := u.freeCtr, tiles := u.tiles }
      ∧ (∀ x, x ≠ site → u.tile x = s.tile x)
      ∧ (∀ a, s.quietAt a → Memory.get (u.tile site).spad a = Memory.get (s.tile site).spad a)
      ∧ (u.tile site).tregs = (s.tile site).tregs ∧ (u.tile site).tcfg = (s.tile site).tcfg
      ∧ (u.tile site).counters = (s.tile site).counters ∧ (u.tile site).iqs = (s.tile site).iqs
      ∧ (u.tile site).jobs = (s.tile site).jobs ∧ (u.tile site).guard = (s.tile site).guard
      ∧ ∀ j : Fin 8, j ≠ k → (s.tile site).slots[j].flights = [] → (u.tile site).slots[j] = (s.tile site).slots[j] := by
  unfold State.registerFrame
  rw [hc]

/-- The frame at the Collier. -/
theorem State.registerFrame_collier {s u : State} {d : Dst} (hc : s.cur = .collier) :
    s.registerFrame u d ↔ (s.slot .collier).frame (u.slot .collier) d
      ∧ u = { s with cycle := u.cycle, freeCtr := u.freeCtr, collier := u.collier }
      ∧ u.collier = { s.collier with th := u.collier.th } := by
  unfold State.registerFrame
  rw [hc]

/-- The frame at a Stoker. -/
theorem State.registerFrame_stoker {s u : State} {d : Dst} {r : Nat} (hc : s.cur = .stoker r) :
    s.registerFrame u d ↔ (s.slot (.stoker r)).frame (u.slot (.stoker r)) d
      ∧ u = { s with cycle := u.cycle, freeCtr := u.freeCtr, stokers := u.stokers }
      ∧ u.stoker r = { s.stoker r with th := (u.stoker r).th } ∧ ∀ x, x ≠ r → u.stoker x = s.stoker x := by
  unfold State.registerFrame
  rw [hc]

theorem State.registerFrame_refl (s : State) (d : Dst) : s.registerFrame s d := by
  cases hc : s.cur with
  | tile site k => simp [State.registerFrame_tile hc, Slot.frame_refl]
  | collier => simp [State.registerFrame_collier hc, Slot.frame_refl]
  | stoker r => simp [State.registerFrame_stoker hc, Slot.frame_refl]

theorem State.reads_refl (s : State) : s.reads s :=
  ⟨rfl, s.registerFrame_refl _, Slot.within_refl _, fun _ h => h⟩

/-- The frame of an instruction goes through what it waits for and reads. -/
theorem State.reads.registerFrame {s t u : State} {d : Dst} (h : s.reads t) (h' : t.registerFrame u d) : s.registerFrame u d := by
  obtain ⟨hcur, h, hw, hq⟩ := h
  cases hc : s.cur with
  | tile site k =>
    rw [State.registerFrame_tile hc] at h ⊢
    rw [State.registerFrame_tile (hcur.trans hc)] at h'
    rw [hc] at hw
    obtain ⟨hs, e, tiles, spad, r1, r2, r3, r4, r5, r6, others⟩ := h
    obtain ⟨hs', e', tiles', spad', r1', r2', r3', r4', r5', r6', others'⟩ := h'
    refine ⟨hs.trans hw hs', by rw [e', e], fun x hx => (tiles' x hx).trans (tiles x hx),
      fun a ha => (spad' a (hq a ha)).trans (spad a ha), r1'.trans r1, r2'.trans r2, r3'.trans r3, r4'.trans r4, r5'.trans r5,
      r6'.trans r6, fun j hj hf => ?_⟩
    exact (others' j hj (by rw [others j hj hf, hf])).trans (others j hj hf)
  | collier =>
    rw [State.registerFrame_collier hc] at h ⊢
    rw [State.registerFrame_collier (hcur.trans hc)] at h'
    rw [hc] at hw
    obtain ⟨hs, e, mine⟩ := h
    obtain ⟨hs', e', mine'⟩ := h'
    exact ⟨hs.trans hw hs', by rw [e', e], by rw [mine', mine]⟩
  | stoker r =>
    rw [State.registerFrame_stoker hc] at h ⊢
    rw [State.registerFrame_stoker (hcur.trans hc)] at h'
    rw [hc] at hw
    obtain ⟨hs, e, mine, others⟩ := h
    obtain ⟨hs', e', mine', others'⟩ := h'
    exact ⟨hs.trans hw hs', by rw [e', e], by rw [mine', mine], fun x hx => (others' x hx).trans (others x hx)⟩

theorem State.reads.trans {s t u : State} (h : s.reads t) (h' : t.reads u) : s.reads u where
  cur := h'.cur.trans h.cur
  frame := h.registerFrame h'.frame
  within := by
    have hw := h'.within
    rw [h.cur] at hw
    exact hw.trans h.within
  quiet a ha := h'.quiet a (h.quiet a ha)

/-! ### The current slot or tile replaced -/

theorem State.slot_setTile_of_tile (s : State) (site : Nat) (k : Fin 8) (t : Tile) :
    (s.setTile site t).slot (.tile site k) = t.slots[k] := by
  change ((s.setTile site t).tile site).slots[k] = _
  rw [State.tile_setTile_same]

/-- The frame of a slot is the frame of the machine, where nothing else changes. -/
theorem State.registerFrame_setSlot {s : State} {a : Agent} {x : Slot} {d : Dst} (hc : s.cur = a) (h : (s.slot a).frame x d) :
    s.registerFrame (s.setSlot a x) d := by
  have hs : (s.slot a).frame ((s.setSlot a x).slot a) d := by rw [State.slot_setSlot_same]; exact h
  cases a with
  | tile site k =>
    rw [State.registerFrame_tile hc, State.tile_setSlot_tile]
    exact ⟨hs, rfl, fun y hy => State.tile_setTile_other _ _ _ _ hy, fun _ _ => rfl, rfl, rfl, rfl, rfl, rfl, rfl,
      fun j hj _ => Tile.slots_setSlot_other _ _ _ _ hj⟩
  | collier =>
    rw [State.registerFrame_collier hc]
    exact ⟨hs, rfl, rfl⟩
  | stoker r =>
    have hr : (s.setSlot (.stoker r) x).stoker r = { s.stoker r with th := x } := by simp [State.setSlot, State.stoker]
    rw [State.registerFrame_stoker hc, hr]
    exact ⟨hs, rfl, rfl, fun y hy => Table.getD_put_other _ _ _ _ _ hy⟩

/-- The parts of a tile that reading and waiting at one of its slots keep. -/
structure Tile.reads (l : Launch) (t u : Tile) : Prop where
  occ : u.occ = t.occ
  tregs : u.tregs = t.tregs
  tcfg : u.tcfg = t.tcfg
  counters : u.counters = t.counters
  iqs : u.iqs = t.iqs
  jobs : u.jobs = t.jobs
  guard : u.guard = t.guard
  slots : ∀ k : Fin 8, t.slots[k].frame u.slots[k] .discard
  within : ∀ k : Fin 8, u.slots[k].within t.slots[k]
  idle : ∀ k : Fin 8, t.slots[k].flights = [] → u.slots[k] = t.slots[k]
  bytes : ∀ a, (∀ k : Fin 8, quietFor l k t.slots[k].flights a) → Memory.get u.spad a = Memory.get t.spad a

theorem Tile.settled.reads {l : Launch} {t u : Tile} (h : Tile.settled l t u) : Tile.reads l t u :=
  ⟨by rw [h.rest], by rw [h.rest], by rw [h.rest], by rw [h.rest], by rw [h.rest], by rw [h.rest], by rw [h.rest], h.slots,
    h.within, h.idle, h.bytes⟩

theorem State.quietAt_iff {s : State} {site : Nat} {k : Fin 8} (hc : s.cur = .tile site k) (a : Nat) :
    s.quietAt a ↔ ∀ j : Fin 8, quietFor (s.launch (s.tile site).name.1) j (s.tile site).slots[j].flights a := by
  unfold State.quietAt quietFor
  rw [hc]
  exact ⟨fun h j f hf r => h j f r hf, fun h j f r hf => h j f hf r⟩

theorem State.reads_setTile {s : State} {site : Nat} {k : Fin 8} {t : Tile} (hc : s.cur = .tile site k)
    (h : Tile.reads (s.launch (s.tile site).name.1) (s.tile site) t) : s.reads (s.setTile site t) := by
  have hslot := State.slot_setTile_of_tile s site k t
  refine ⟨rfl, ?_, ?_, fun a ha => ?_⟩
  · rw [State.registerFrame_tile hc, State.tile_setTile_same, hslot]
    exact ⟨h.slots k, rfl, fun y hy => State.tile_setTile_other _ _ _ _ hy,
      fun a ha => h.bytes a ((State.quietAt_iff hc a).mp ha), h.tregs, h.tcfg, h.counters, h.iqs, h.jobs, h.guard,
      fun j _ hj => h.idle j hj⟩
  · rw [hc, hslot]; exact h.within k
  · have hn : t.name = (s.tile site).name := by simp only [Tile.name, h.occ]
    rw [State.quietAt_iff (s := s.setTile site t) hc, State.tile_setTile_same, hn]
    exact fun j => (h.within j).quiet ((State.quietAt_iff hc a).mp ha j)

theorem State.quietAt_congr {s u : State} (hcur : u.cur = s.cur) (htiles : u.tiles = s.tiles) (hlaunch : u.launches = s.launches)
    (a : Nat) (h : s.quietAt a) : u.quietAt a := by
  unfold State.quietAt State.launch State.tile at *
  rw [hcur, htiles, hlaunch]
  exact h

/-- A slot replaced by one with the same registers and nothing new outstanding. -/
theorem State.reads_setSlot {s : State} {x : Slot} (h : (s.slot s.cur).frame x .discard) (hw : x.within (s.slot s.cur)) :
    s.reads (s.setSlot s.cur x) := by
  refine ⟨State.setSlot_cur .., State.registerFrame_setSlot rfl h, by rw [State.slot_setSlot_same]; exact hw, fun a ha => ?_⟩
  cases hc : s.cur with
  | tile site k =>
    rw [hc] at hw
    rw [State.quietAt_iff hc] at ha
    rw [State.quietAt_iff (s := s.setSlot (.tile site k) x) hc, State.tile_setSlot_tile]
    intro j
    by_cases hj : j = k
    · subst hj
      rw [Tile.slots_setSlot_same]
      exact hw.quiet (ha j)
    · rw [Tile.slots_setSlot_other _ _ _ _ hj]
      exact ha j
  | collier => exact State.quietAt_congr rfl rfl rfl a ha
  | stoker r => exact State.quietAt_congr rfl rfl rfl a ha

/-! ### Time passes -/

/-- The clock and the count of free values that cores draw stand outside the frame. -/
theorem State.reads_clocks {s u : State} (h : u = { s with cycle := u.cycle, freeCtr := u.freeCtr }) : s.reads u := by
  have hcur : u.cur = s.cur := by rw [h]
  have htiles : u.tiles = s.tiles := by rw [h]
  have htile : ∀ x, u.tile x = s.tile x := fun x => by unfold State.tile; rw [htiles]
  have hcollier : u.collier = s.collier := by rw [h]
  have hstokers : u.stokers = s.stokers := by rw [h]
  have hslot : ∀ a, u.slot a = s.slot a := fun a => by rw [h]; cases a <;> rfl
  refine ⟨hcur, ?_, by rw [hslot]; exact Slot.within_refl _, State.quietAt_congr hcur htiles (by rw [h])⟩
  cases hc : s.cur with
  | tile site k =>
    rw [State.registerFrame_tile hc, hslot, htiles, htile]
    exact ⟨Slot.frame_refl _ _, h, fun _ _ => htile _, fun _ _ => rfl, rfl, rfl, rfl, rfl, rfl, rfl, fun _ _ _ => rfl⟩
  | collier =>
    rw [State.registerFrame_collier hc, hslot, hcollier]
    exact ⟨Slot.frame_refl _ _, h, rfl⟩
  | stoker r =>
    have hst : ∀ x, u.stoker x = s.stoker x := fun x => by unfold State.stoker; rw [hstokers]
    rw [State.registerFrame_stoker hc, hslot, hstokers, hst]
    exact ⟨Slot.frame_refl _ _, h, rfl, fun _ _ => hst _⟩

theorem State.reads_settle (s : State) : s.reads (s.settle s.cur) := by
  cases hc : s.cur with
  | tile site k =>
    change s.reads (s.settleAt site k.val)
    unfold State.settleAt
    dsimp only
    split
    · exact State.reads_setTile hc (settleTile_settled _ _ _ _).reads
    · exact s.reads_refl
  | _ =>
    have h := settleCore_landed s.cycle (s.slot s.cur)
    have hr := State.reads_setSlot h.1 h.2
    rw [hc] at hr
    unfold State.settle
    dsimp only
    split
    · exact hr
    · exact s.reads_refl

/-- Waiting at the current agent is a part of reading. -/
theorem State.reads_advance (s : State) (c : Nat) : s.reads (s.advance s.cur c) :=
  (State.reads_clocks (u := { s with cycle := max s.cycle c }) rfl).trans (State.reads_settle { s with cycle := max s.cycle c })

theorem State.reads_opened (s : State) : s.reads s.opened := s.reads_advance _

/-- Drawing a free value is a part of reading. -/
theorem State.reads_spend (s : State) (n : Nat) : s.reads (s.spend s.cur n) := by
  cases hc : s.cur with
  | tile site k =>
    exact State.reads_setTile hc ⟨rfl, rfl, rfl, rfl, rfl, rfl, rfl, fun _ => Slot.frame_refl _ _, fun _ => Slot.within_refl _,
      fun _ _ => rfl, fun _ _ => rfl⟩
  | _ => exact State.reads_clocks rfl

/-! ### Bodies that wait and read -/

/-- A body that only waits and reads where it starts in a state. -/
def M.Reads {α : Type} (m : M α) (s : State) : Prop := ∀ x t, m s = .ok (x, t) → s.reads t

section
variable {α β : Type} {s : State}

theorem M.Reads.pure (x : α) : M.Reads (pure x : M α) s := by
  intro y t h
  cases h
  exact s.reads_refl

theorem M.Reads.throw (e : Stop) : M.Reads (throw e : M α) s := by
  intro x t h
  cases h

theorem M.Reads.bind {m : M α} {f : α → M β} (hm : M.Reads m s) (hf : ∀ x t, M.Reads (f x) t) : M.Reads (m >>= f) s := by
  intro y u h
  rw [M.bind_apply] at h
  cases hx : m s with
  | error e => rw [hx] at h; cases h
  | ok r =>
    rw [hx] at h
    exact (hm r.1 r.2 hx).trans (hf r.1 r.2 y u h)

/-- A body that looks at the state first. -/
theorem M.Reads.get_bind {f : State → M β} (hf : M.Reads (f s) s) : M.Reads (get >>= f) s := hf

theorem M.Reads.getSlot_bind {f : Slot → M β} (hf : M.Reads (f (s.slot s.cur)) s) : M.Reads (getSlot >>= f) s := hf

theorem M.Reads.getTile_bind {f : Tile → M β} (hf : M.Reads (f (s.tile s.cur.site)) s) : M.Reads (getTile >>= f) s := hf

/-- What comes after a requirement comes where it holds. -/
theorem M.Reads.require_bind {b : Bool} {e : Stop} {f : Unit → M β} (hf : b = true → M.Reads (f ()) s) :
    M.Reads (require b e >>= f) s := by
  cases b
  · exact .throw e
  · exact hf rfl

/-- A body that changes the state and answers. -/
theorem M.Reads.modify_bind {g : State → State} {f : Unit → M β} (hg : s.reads (g s)) (hf : ∀ t, M.Reads (f ()) t) :
    M.Reads (modify g >>= f) s :=
  .bind (fun x t h => by cases h; exact hg) fun _ t => hf t

end

section
variable {s : State}

theorem require_reads (b : Bool) (e : Stop) : M.Reads (require b e) s := by
  cases b
  · exact .throw e
  · exact .pure ()

theorem awaitLanding_reads (sel : Landing → Bool) : M.Reads (awaitLanding sel) s := by
  refine .get_bind ?_
  dsimp only
  split
  · exact fun x t h => by cases h; exact s.reads_advance _
  · exact .throw _

theorem awaitQueue_reads (k : Fin 16) : M.Reads (awaitQueue k) s := .getSlot_bind (require_reads _ _)

theorem awaitNamed_reads (k : Fin 32) : M.Reads (awaitNamed k) s :=
  .getSlot_bind (.require_bind fun _ => awaitLanding_reads _)

theorem awaitSrc_reads (a : Src) : M.Reads (awaitSrc a) s := by
  cases a with
  | q k => exact awaitQueue_reads k
  | n k => exact awaitNamed_reads k
  | _ => exact .pure ()

theorem awaitOld_reads (d : Dst) : M.Reads (awaitOld d) s := by
  cases d with
  | push => exact awaitQueue_reads 0
  | n k => exact awaitNamed_reads k
  | _ => exact .pure ()

theorem freeWord_reads : M.Reads freeWord s := fun x t h => by cases h; exact s.reads_spend 1

theorem readQueue_reads (k : Fin 16) : M.Reads (readQueue k) s := by
  refine .get_bind ?_
  dsimp only
  split
  · exact .pure _
  · split
    · exact .throw _
    · exact freeWord_reads

theorem readNamed_reads (k : Fin 32) : M.Reads (readNamed k) s := by
  refine .getSlot_bind ?_
  split
  · exact .pure _
  · split
    · exact .modify_bind (State.reads_setSlot (by simp [Slot.frame, Slot.observe]) (Slot.within_refl _)) fun _ => .pure _
    · exact .pure _

theorem readMsg_reads : M.Reads readMsg s := by
  refine .getSlot_bind ?_
  split
  · exact .pure _
  · split
    · exact .pure _
    · split
      · exact .pure _
      · exact .modify_bind (State.reads_setSlot (by simp [Slot.frame]) (Slot.within_refl _)) fun _ => .pure _

/-- The stream bindings of a tile stand outside the frame. -/
theorem State.reads_streams (hc : s.cur.isCore = false) (b : Vector (Option StreamBinding) 4) :
    s.reads (s.setTile s.cur.site { s.tile s.cur.site with streams := b }) := by
  cases h : s.cur with
  | tile site k =>
    exact State.reads_setTile h ⟨rfl, rfl, rfl, rfl, rfl, rfl, rfl, fun _ => Slot.frame_refl _ _, fun _ => Slot.within_refl _,
      fun _ _ => rfl, fun _ _ => rfl⟩
  | _ => rw [h] at hc; cases hc

theorem readStream_reads (k : Fin 4) (wide : Bool) : M.Reads (readStream k wide) s := by
  refine .get_bind (.getSlot_bind (.require_bind fun hb => .getTile_bind ?_))
  have hc : s.cur.isCore = false := by simpa using (Bool.and_eq_true_iff.mp hb).1
  split
  · exact .throw _
  · refine .require_bind fun _ => ?_
    split
    · exact .pure _
    · split
      · exact .modify_bind (State.reads_streams hc _) fun _ => .pure _
      · split
        · exact .modify_bind (State.reads_streams hc _) fun _ => .pure _
        · exact .throw _

theorem readSrc_reads (a : Src) : M.Reads (readSrc a) s := by
  cases a with
  | q k => exact readQueue_reads k
  | z => exact .pure 0
  | msg => exact readMsg_reads
  | st k => exact .bind (readStream_reads k false) fun _ _ => .pure _
  | wid =>
    refine .get_bind ?_
    split
    · exact freeWord_reads
    · exact .pure _
  | vtn =>
    refine .get_bind ?_
    split
    · exact freeWord_reads
    · exact .pure _
  | const k => exact .pure _
  | n k => exact readNamed_reads k

theorem read1_reads (a : Src) : M.Reads (read1 a) s := .bind (awaitSrc_reads a) fun _ _ => readSrc_reads a

theorem read2_reads (a b : Src) : M.Reads (read2 a b) s :=
  .bind (awaitSrc_reads a) fun _ _ => .bind (awaitSrc_reads b) fun _ _ => .bind (readSrc_reads a) fun _ _ =>
    .bind (readSrc_reads b) fun _ _ => .pure _

theorem read3_reads (a b c : Src) : M.Reads (read3 a b c) s :=
  .bind (awaitSrc_reads a) fun _ _ => .bind (awaitSrc_reads b) fun _ _ => .bind (awaitSrc_reads c) fun _ _ =>
    .bind (readSrc_reads a) fun _ _ => .bind (readSrc_reads b) fun _ _ => .bind (readSrc_reads c) fun _ _ => .pure _

theorem readOld_reads (d : Dst) : M.Reads (readOld d) s := by
  cases d with
  | push => exact readQueue_reads 0
  | n k => exact readNamed_reads k
  | _ => exact .pure 0

end

end Sys2Proof.Machine
end

section
/-! SUPPORT. Settles O58: what the register-only instructions leave unchanged (spec/02_state.md R38, R39). -/

namespace Sys2Proof.Machine

/-! ### The result and the end of an instruction -/

section
variable {sl x : Slot} {d : Dst}

/-- What is on its way changes nothing yet. -/
theorem Slot.frame_fly {due : Nat} {dst : Landing} {v : Word} {vec : Vec} {side : Side} {fl : BitVec 6} :
    sl.frame (x.fly due dst v vec side fl) d ↔ sl.frame x d := Iff.rfl

theorem Slot.frame_flagsAt {due : Nat} {fl : BitVec 6} : sl.frame (x.flagsAt due fl) d ↔ sl.frame x d := by
  unfold Slot.flagsAt
  split <;> exact Iff.rfl

/-- The end of an instruction in sequence changes no register. -/
theorem Slot.frame_next {len ready last : Nat} {w : Wait} :
    sl.frame { x.next len with readyAt := ready, lastIssue := last, wait := w } d ↔ sl.frame x d := Iff.rfl

/-- The issue of a result changes its destination alone. -/
theorem Slot.result_frame (c lam : Nat) (fl : BitVec 6) (v : Word) : sl.frame (sl.result c lam fl d v) d := by
  cases d with
  | push =>
    rw [Slot.result, Slot.frame_flagsAt, Slot.push]
    split <;> simp [Slot.frame]
  | n k =>
    have hk : ∀ j, Dst.n k ≠ .n j → k ≠ j := fun j h e => h (congrArg _ e)
    unfold Slot.result
    dsimp only
    split
    · rw [Slot.frame_flagsAt]
      refine ⟨fun j hj _ => Slot.setNamed_other sl v (hk j hj).symm, ?_⟩
      unfold Slot.setNamed
      split <;> simp [Slot.landSysNamed, Slot.landNamed, Slot.supersede]
    · exact Slot.frame_fly.mpr (Slot.frame_refl _ _)
  | discard => exact Slot.frame_flagsAt.mpr (Slot.frame_refl _ _)
  | ill k => exact Slot.frame_flagsAt.mpr (Slot.frame_refl _ _)

end

/-- A row written twice holds what was written last. -/
theorem Table.put_put {α : Type} (t : Table α) (k : Nat) (v w : α) : Table.put (Table.put t k v) k w = Table.put t k w := by
  induction t with
  | nil => simp [Table.put]
  | cons r t ih =>
    obtain ⟨j, x⟩ := r
    by_cases hlt : k < j
    · simp [Table.put, hlt]
    · by_cases he : j = k <;> simp [Table.put, hlt, he, ih]

theorem Tile.setSlot_setSlot (t : Tile) (k : Fin 8) (x y : Slot) : (t.setSlot k x).setSlot k y = t.setSlot k y := by
  simp [Tile.setSlot]

/-- A slot replaced twice is the one put there last. -/
theorem State.setSlot_setSlot (s : State) (a : Agent) (x y : Slot) : (s.setSlot a x).setSlot a y = s.setSlot a y := by
  cases a with
  | tile site k =>
    simp only [State.setSlot, State.tile_setTile_same, Tile.setSlot_setSlot]
    simp only [State.setTile, Table.put_put]
  | collier => rfl
  | stoker r => simp [State.setSlot, State.stoker, Table.put_put]

/-- An instruction that issues a result and goes on in sequence has the frame of its destination. -/
theorem State.registerFrame_finish (o : Op) (t : State) (lam : Nat) (fl : BitVec 6) (d : Dst) (v : Word) :
    t.registerFrame (finish o .seq (t.withResult lam fl d v)) d := by
  unfold finish State.withResult
  dsimp only
  rw [State.setSlot_cur, State.setSlot_setSlot, State.slot_setSlot_same]
  exact State.registerFrame_setSlot rfl (Slot.frame_next.mpr (Slot.result_frame _ _ _ _))

/-! ### Bodies that read and issue a result -/

/-- A body waits and reads, and then issues a result for a destination and goes on in sequence. -/
def M.Issues (m : M Flow) (d : Dst) (s : State) : Prop :=
  ∃ t lam fl v, s.reads t ∧ m s = .ok (.seq, t.withResult lam fl d v)

/-- An admitted instruction of such a body has the frame of its destination. -/
theorem State.admits.registerFrame {s u : State} {o : Op} {d : Dst} {body : M Flow} (hs : s.admits o)
    (hb : M.Issues body d s.opened) (hu : issue o body s = .next u) : s.registerFrame u d := by
  obtain ⟨t, lam, fl, v, hr, hb⟩ := hb
  rw [hs.issue_ok hb] at hu
  cases hu
  exact (s.reads_opened.trans hr).registerFrame (t.registerFrame_finish o lam fl d v)

section
variable {s : State} {d : Dst} {a b : Src}

/-- The result of a value that has been read. -/
theorem M.Issues.of_read {α : Type} {m : M Flow} {rd : M α} {w : α × State} {lam : Nat} {fl : BitVec 6} {v : Word}
    (hr : M.Reads rd s) (hw : rd s = .ok w) (hm : m s = .ok (.seq, w.2.withResult lam fl d v)) : M.Issues m d s :=
  ⟨w.2, lam, fl, v, hr _ _ hw, hm⟩

section
variable (hd : d.legal = true)
include hd

theorem intOp2_issues {lam : Nat} {f : Word → Word → Word} {w : (Word × Word) × State} (hw : read2 a b s = .ok w) :
    M.Issues (intOp2 lam d a b f) d s :=
  .of_read (read2_reads a b) hw (by simp only [intOp2, M.bind_apply, checkDst_legal hd, M.pure_apply, M.ok_bind, hw]; rfl)

theorem intOp1_issues {lam : Nat} {f : Word → Word} {w : Word × State} (hw : read1 a s = .ok w) :
    M.Issues (intOp1 lam d a f) d s :=
  .of_read (read1_reads a) hw (by simp only [intOp1, M.bind_apply, checkDst_legal hd, M.pure_apply, M.ok_bind, hw]; rfl)

theorem fpOp2_issues {lam : Nat} {f : Rounding → Nat → Nat → Nat × BitVec 6} {w : (Word × Word) × State}
    (hw : read2 a b s = .ok w) : M.Issues (fpOp2 lam d a b f) d s :=
  .of_read (read2_reads a b) hw
    (by simp only [fpOp2, M.bind_apply, checkDst_legal hd, M.pure_apply, M.ok_bind, hw, getSlot_apply]; rfl)

theorem fpOp1_issues {lam : Nat} {f : Rounding → Word → Word × BitVec 6} {w : Word × State} (hw : read1 a s = .ok w) :
    M.Issues (fpOp1 lam d a f) d s :=
  .of_read (read1_reads a) hw
    (by simp only [fpOp1, M.bind_apply, checkDst_legal hd, M.pure_apply, M.ok_bind, hw, getSlot_apply]; rfl)

theorem fpOp3_issues {c : BitVec 2} {np na : Bool} {w : (Word × Word × Word) × State}
    (hw : read3 a b (.q (Fin.ofNat 16 c.toNat)) s = .ok w) : M.Issues (fpOp3 d a b c np na) d s :=
  .of_read (read3_reads a b _) hw
    (by simp only [fpOp3, M.bind_apply, checkDst_legal hd, M.pure_apply, M.ok_bind, hw, getSlot_apply]; rfl)

theorem intOpImm_issues {i : BitVec 10} {f : Word → Word → Word} {w : Word × State} (hw : read1 a s = .ok w) :
    M.Issues (intOpImm d a i f) d s :=
  .of_read (read1_reads a) hw (by simp only [intOpImm, M.bind_apply, checkDst_legal hd, M.pure_apply, M.ok_bind, hw]; rfl)

theorem shiftImm_issues {i : BitVec 10} {f : Word → Nat → Word} {w : Word × State} (hi : i.toNat < 64)
    (hw : read1 a s = .ok w) : M.Issues (shiftImm d a i f) d s :=
  .of_read (read1_reads a) hw (by
    simp only [shiftImm, M.bind_apply, checkDst_legal hd, M.pure_apply, M.ok_bind, hw, Nat.blt_eq.mpr hi, require_true]; rfl)

theorem literal_issues (v : Word) : M.Issues (do checkDst d; writeDst 1 0 d v; return .seq) d s :=
  ⟨s, 1, 0, v, s.reads_refl, by simp only [M.bind_apply, checkDst_legal hd, M.pure_apply, M.ok_bind]; rfl⟩

theorem intOpOld_issues {f : Word → Word → Word → Word} {s1 s2 : State} {x : Word × Word} {w : Word × State}
    (h1 : awaitOld d s = .ok ((), s1)) (h2 : read2 a b s1 = .ok (x, s2)) (hw : readOld d s2 = .ok w) :
    M.Issues (intOpOld d a b f) d s :=
  ⟨w.2, 1, 0, f x.1 x.2 w.1, ((awaitOld_reads d _ _ h1).trans (read2_reads a b _ _ h2)).trans (readOld_reads d _ _ hw), by
    simp only [intOpOld, M.bind_apply, checkDst_legal hd, M.pure_apply, M.ok_bind, h1, h2, hw]; rfl⟩

end

theorem limh_issues {r : Fin 32} {k : BitVec 16} {s1 : State} {w : Word × State} (h1 : awaitNamed r s = .ok ((), s1))
    (hw : readNamed r s1 = .ok w) :
    M.Issues (do awaitNamed r; let x ← readNamed r; writeDst 1 0 (.n r) ((x <<< 16) ||| k.setWidth 64); return .seq) (.n r) s :=
  ⟨w.2, 1, 0, (w.1 <<< 16) ||| k.setWidth 64, (awaitNamed_reads r _ _ h1).trans (readNamed_reads r _ _ hw), by
    simp only [M.bind_apply, M.ok_bind, h1, hw]; rfl⟩

end

/-! ### The rows -/

/-- An instruction of two integer sources. -/
theorem exec_intRow2 {r : Row2} (hr : r ∈ intRows ++ divRows ++ fieldRows) : ∃ f, ∀ stl d a b s,
    exec (r.make stl d a b) s = issue (opA r.major r.sub stl d.code a.code b.code) (intOp2 r.lam d a b f) s := by
  simp only [intRows, divRows, fieldRows, List.cons_append, List.nil_append] at hr
  fin_cases hr <;> exact ⟨_, fun _ _ _ _ _ => rfl⟩

theorem exec_fpRow2 {r : FpRow2} (hr : r ∈ fpRows2) : ∃ f, ∀ stl d a b s,
    exec (r.make stl d a b) s = issue (opA 0x0F r.sub stl d.code a.code b.code) (fpOp2 r.lam d a b f) s := by
  unfold fpRows2 at hr
  fin_cases hr <;> exact ⟨_, fun _ _ _ _ _ => rfl⟩

theorem exec_unaryRow {r : Row1} (hr : r ∈ unaryRows) : ∃ f, ∀ stl d a s,
    exec (r.make stl d a) s = issue (opA r.major r.sub stl d.code a.code 0) (intOp1 1 d a f) s := by
  unfold unaryRows at hr
  fin_cases hr <;> exact ⟨_, fun _ _ _ _ => rfl⟩

theorem exec_fpRow1 {r : FpRow1} (hr : r ∈ fpRows1) : ∃ f, ∀ stl d a s,
    exec (r.make stl d a) s = issue (opA 0x0F r.sub stl d.code a.code 0) (fpOp1 r.lam d a f) s := by
  unfold fpRows1 at hr
  fin_cases hr <;> exact ⟨_, fun _ _ _ _ => rfl⟩

theorem exec_fmaRow {r : FmaRow} (hr : r ∈ fmaRows) (stl : Stl) (d : Dst) (a b : Src) (c : BitVec 2) (s : State) :
    exec (r.make stl d a b c) s
      = issue (opF 0x10 r.sub stl d.code a.code b.code c) (fpOp3 d a b c r.negProduct r.negAddend) s := by
  unfold fmaRows at hr
  fin_cases hr <;> rfl

theorem exec_immRow {r : RowI} (hr : r ∈ immRows) : ∃ f, ∀ stl d a i s,
    exec (r.make stl d a i) s = issue (opI r.major stl d.code a.code i) (intOpImm d a i f) s := by
  unfold immRows at hr
  fin_cases hr <;> exact ⟨_, fun _ _ _ _ _ => rfl⟩

theorem exec_shiftRow {r : RowI} (hr : r ∈ shiftRows) : (7 ≤ r.major ∧ r.major ≤ 9) ∧ ∃ f, ∀ stl d a i s,
    exec (r.make stl d a i) s = issue (opI r.major stl d.code a.code i) (shiftImm d a i f) s := by
  unfold shiftRows at hr
  fin_cases hr <;> exact ⟨by decide, _, fun _ _ _ _ _ => rfl⟩

theorem exec_shortRow {r : Short2} (hr : r ∈ shortRows) : ∃ f, ∀ a b s,
    exec (r.make a b) s = issue (op16 r.major r.sub (r.op * 2048 + a.code * 64 + b.code * 2 + r.low))
      (intOp2 1 .push a.toSrc b.toSrc f) s := by
  unfold shortRows at hr
  fin_cases hr <;> exact ⟨_, fun _ _ _ => rfl⟩

/-- C.MOV reads its source, and the zero beside it. -/
theorem read2_zero {a : Src} {s : State} {w : Word × State} (h : read1 a s = .ok w) : read2 a .z s = .ok ((w.1, 0), w.2) := by
  simp only [read1, M.bind_apply] at h
  cases ha : awaitSrc a s with
  | error e => rw [ha] at h; cases h
  | ok r =>
    rw [ha, M.ok_bind] at h
    have hz : awaitSrc .z r.2 = .ok ((), r.2) := rfl
    have hv : readSrc .z w.2 = .ok (0, w.2) := rfl
    simp only [read2, M.bind_apply, ha, M.ok_bind, hz, h, hv, M.pure_apply]

/-- Settles O58: each of the instructions waits and reads, and then issues one result for its destination. -/
theorem registerOnlyFrame : Obligations.RegisterOnlyFrame := by
  intro s u d hd h
  rcases h with ⟨r, hr, stl, a, b, w, hs, hw, hu⟩ | ⟨r, hr, stl, a, b, w, hs, hw, hu⟩ | ⟨r, hr, stl, a, w, hs, hw, hu⟩
    | ⟨r, hr, stl, a, w, hs, hw, hu⟩ | ⟨r, hr, stl, a, b, c, w, hs, hw, hu⟩ | ⟨r, hr, stl, a, i, w, hi, hs, hw, hu⟩
    | ⟨stl, k, hs, hu⟩ | ⟨stl, r, k, s1, w, rfl, hs, h1, hw, hu⟩ | ⟨stl, a, b, s1, s2, x, w, h1, h2, hw, h⟩
    | ⟨rfl, r, hr, a, b, w, hs, hw, hu⟩ | ⟨rfl, a, w, hw, h⟩ | ⟨rfl, i, hs, hu⟩
  · obtain ⟨f, hf⟩ := exec_intRow2 hr
    exact hs.registerFrame (intOp2_issues hd hw) (hf .. ▸ hu)
  · obtain ⟨f, hf⟩ := exec_fpRow2 hr
    exact hs.registerFrame (fpOp2_issues hd hw) (hf .. ▸ hu)
  · obtain ⟨f, hf⟩ := exec_unaryRow hr
    exact hs.registerFrame (intOp1_issues hd hw) (hf .. ▸ hu)
  · obtain ⟨f, hf⟩ := exec_fpRow1 hr
    exact hs.registerFrame (fpOp1_issues hd hw) (hf .. ▸ hu)
  · exact hs.registerFrame (fpOp3_issues hd hw) (exec_fmaRow hr .. ▸ hu)
  · rcases List.mem_append.mp hr with hr | hr
    · obtain ⟨f, hf⟩ := exec_immRow hr
      exact hs.registerFrame (intOpImm_issues hd hw) (hf .. ▸ hu)
    · obtain ⟨hmaj, f, hf⟩ := exec_shiftRow hr
      exact hs.registerFrame (shiftImm_issues hd (by omega) hw) (hf .. ▸ hu)
  · exact hs.registerFrame (literal_issues hd _) hu
  · exact hs.registerFrame (limh_issues h1 hw) hu
  · rcases h with ⟨hs, hu⟩ | ⟨hs, hu⟩
    · exact hs.registerFrame (intOpOld_issues hd h1 h2 hw) hu
    · exact hs.registerFrame (intOpOld_issues hd h1 h2 hw) hu
  · obtain ⟨f, hf⟩ := exec_shortRow hr
    exact hs.registerFrame (intOp2_issues hd hw) (hf .. ▸ hu)
  · rcases h with ⟨hs, hu⟩ | ⟨i, ⟨hs, hu⟩ | ⟨hs, hu⟩ | ⟨hs, hu⟩⟩
    · exact hs.registerFrame (intOp2_issues hd (read2_zero hw)) hu
    · exact hs.registerFrame (intOpImm_issues hd hw) hu
    · exact hs.registerFrame (shiftImm_issues hd (by simp; omega) hw) hu
    · exact hs.registerFrame (shiftImm_issues hd (by simp; omega) hw) hu
  · exact hs.registerFrame (literal_issues hd _) hu

end Sys2Proof.Machine
end

section
/-! SUPPORT. Facts about the bits of words that the registers and the lanes rest on: a number written as the sum of its bits, and words
put together from fields (spec/02_state.md R56, R65). -/

namespace Sys2Proof.Machine

/-! ### A number as the sum of its bits -/

/-- The number whose lowest n bits are given. -/
def bitSum (f : Nat → Bool) (n : Nat) : Nat := ((List.range n).map fun i => (f i).toNat * 2 ^ i).sum

theorem bitSum_succ (f : Nat → Bool) (n : Nat) : bitSum f (n + 1) = 2 ^ n * (f n).toNat + bitSum f n := by
  rw [bitSum, List.range_succ, List.map_append, List.sum_append, ← bitSum, List.map_singleton, List.sum_singleton, Nat.add_comm,
    Nat.mul_comm]

theorem bitSum_lt (f : Nat → Bool) (n : Nat) : bitSum f n < 2 ^ n := by
  induction n with
  | zero => simp [bitSum]
  | succ n ih =>
    have hb : (f n).toNat ≤ 1 := Bool.toNat_le _
    rw [bitSum_succ, Nat.pow_succ]
    nlinarith

theorem testBit_bitSum (f : Nat → Bool) (n i : Nat) : (bitSum f n).testBit i = (decide (i < n) && f i) := by
  induction n with
  | zero => simp [bitSum]
  | succ n ih =>
    rw [bitSum_succ, Nat.testBit_two_pow_mul_add _ (bitSum_lt f n), ih]
    rcases Nat.lt_trichotomy i n with h | rfl | h
    · simp [h, Nat.lt_succ_of_lt h]
    · cases f i <;> simp
    · have h1 : ¬ i < n := by omega
      have h2 : ¬ i < n + 1 := by omega
      have h3 : (f n).toNat.testBit (i - n) = false := by
        rw [Nat.testBit_bool_toNat]
        simp; omega
      simp [h1, h2, h3]

/-- A number is the sum of its bits. -/
theorem bitSum_testBit {x n : Nat} (h : x < 2 ^ n) : bitSum x.testBit n = x := by
  refine Nat.eq_of_testBit_eq fun i => ?_
  rw [testBit_bitSum]
  by_cases hi : i < n
  · simp [hi]
  · simp [hi, Nat.testBit_lt_two_pow (h.trans_le (Nat.pow_le_pow_right Nat.two_pos (Nat.le_of_not_lt hi)))]

/-! ### Fields of a word -/

theorem and_lowPair (x a : Nat) (ha : a ≤ 16) :
    x &&& (2 ^ 16 * 3 + (2 ^ a - 1)) = x % 2 ^ a + x / 2 ^ 16 % 2 ^ 2 * 2 ^ 16 := by
  have h16 : 2 ^ a ≤ 2 ^ 16 := Nat.pow_le_pow_right Nat.two_pos ha
  have hlow : x % 2 ^ a < 2 ^ 16 := (Nat.mod_lt _ (Nat.two_pow_pos a)).trans_le h16
  have hones : 2 ^ a - 1 < 2 ^ 16 := by have := Nat.two_pow_pos a; omega
  rw [Nat.add_comm (x % 2 ^ a), Nat.mul_comm _ (2 ^ 16)]
  refine Nat.eq_of_testBit_eq fun i => ?_
  rw [Nat.testBit_and, Nat.testBit_two_pow_mul_add _ hones, Nat.testBit_two_pow_mul_add _ hlow]
  split
  · rw [Nat.testBit_two_pow_sub_one, Nat.testBit_mod_two_pow, Bool.and_comm]
  · rename_i hi
    rw [show (3 : Nat) = 2 ^ 2 - 1 from rfl, Nat.testBit_two_pow_sub_one, Nat.testBit_mod_two_pow, Nat.testBit_div_two_pow,
      Nat.sub_add_cancel (Nat.le_of_not_lt hi), Bool.and_comm]

end Sys2Proof.Machine
end

section
/-! SUPPORT. The control registers of a slot and of a tile (spec/02_state.md R56 to R60, spec/12_sys_isa.md R276): what each one reads as
after a write, and that every other one stays. -/

namespace Sys2Proof.Machine

/-! ### The bits that a write leaves -/

theorem setWidth_eq_ofN {w : Nat} (x : BitVec w) : x.setWidth 64 = ofN x.toNat := by
  rw [ofN, BitVec.ofNat_toNat]

theorem ofN_toNat (v : Word) : ofN v.toNat = v := by
  rw [ofN, BitVec.ofNat_toNat, BitVec.setWidth_eq]

theorem toNat_ofN_of_lt {n : Nat} (h : n < 2 ^ 64) : (ofN n).toNat = n := by
  rw [ofN, BitVec.toNat_ofNat, Nat.mod_eq_of_lt h]

theorem setWidth_setWidth_eq_ofN (v : Word) (w : Nat) : (v.setWidth w).setWidth 64 = ofN (v.toNat % 2 ^ w) := by
  rw [setWidth_eq_ofN, BitVec.toNat_setWidth]

theorem toNat_getLsbD (v : Word) (i : Nat) : (v.getLsbD i).toNat = v.toNat / 2 ^ i % 2 := by
  rw [BitVec.getLsbD, Nat.toNat_testBit]

theorem eq_ofN_mod (v : Word) : v = ofN (v.toNat % 2 ^ 64) := by rw [Nat.mod_eq_of_lt v.isLt, ofN_toNat]

/-- A field of a bits from bit 0 and one of two bits from bit 16 (R58). -/
theorem and_lowPair_eq_ofN (v : Word) (a : Nat) (ha : a ≤ 16) :
    v &&& BitVec.ofNat 64 (2 ^ 16 * 3 + (2 ^ a - 1)) = ofN (v.toNat % 2 ^ a + v.toNat / 2 ^ 16 % 4 * 2 ^ 16) := by
  have hp : 2 ^ a ≤ 2 ^ 16 := Nat.pow_le_pow_right Nat.two_pos ha
  rw [← ofN_toNat (v &&& _), BitVec.toNat_and, BitVec.toNat_ofNat, Nat.mod_eq_of_lt (by omega)]
  exact congrArg ofN (and_lowPair _ _ ha)

/-- The 64 bits of a loop level are its register (R60). -/
theorem LoopLevel.word_ofWord (v : Word) : (LoopLevel.ofWord v).word = v := by
  apply BitVec.eq_of_toNat_eq
  have hv := v.isLt
  simp only [LoopLevel.word, LoopLevel.ofWord, BitVec.toNat_append, BitVec.extractLsb'_toNat, BitVec.toNat_setWidth,
    Nat.shiftRight_eq_div_pow]
  rw [← Nat.shiftLeft_add_eq_or_of_lt (by omega), ← Nat.shiftLeft_add_eq_or_of_lt (by omega), Nat.shiftLeft_eq, Nat.shiftLeft_eq]
  omega

/-- RND after a write (R59). -/
theorem toNat_rndWrite (o : BitVec 4) (v : Word) :
    (rndWrite o v).toNat = v.toNat / 8 % 2 * 8 + (if v.toNat % 8 ≤ 4 then v.toNat % 8 else o.toNat % 8) := by
  have hm (x : BitVec 1) (y : BitVec 3) : (x ++ y).toNat = x.toNat * 8 + y.toNat := by
    rw [BitVec.toNat_append, ← Nat.shiftLeft_add_eq_or_of_lt y.isLt, Nat.shiftLeft_eq]
  simp only [rndWrite, hm, blt_eq_decide, BitVec.extractLsb'_toNat, decide_eq_true_eq, Nat.shiftRight_eq_div_pow]
  split
  · rw [if_neg (by omega), BitVec.extractLsb'_toNat]; simp
  · rw [if_pos (by omega), BitVec.extractLsb'_toNat]; simp

/-- The bits of PEND that a write clears (R277). -/
theorem toNat_and_not_setWidth (o : BitVec 6) (v : Word) :
    (o &&& ~~~(v.setWidth 6)).toNat
      = ((List.range 6).map fun i => if v.toNat / 2 ^ i % 2 = 1 then 0 else o.toNat / 2 ^ i % 2 * 2 ^ i).sum := by
  have hbit (i : Nat) : (if v.toNat / 2 ^ i % 2 = 1 then 0 else o.toNat / 2 ^ i % 2 * 2 ^ i)
      = (!v.toNat.testBit i && o.toNat.testBit i).toNat * 2 ^ i := by
    rw [← Nat.toNat_testBit v.toNat, ← Nat.toNat_testBit o.toNat]
    cases v.toNat.testBit i <;> simp
  simp only [hbit]
  refine Nat.eq_of_testBit_eq fun i => ?_
  rw [← bitSum, testBit_bitSum]
  change (o &&& ~~~(v.setWidth 6)).getLsbD i = (decide (i < 6) && (!v.getLsbD i && o.getLsbD i))
  rw [BitVec.getLsbD_and, BitVec.getLsbD_not, BitVec.getLsbD_setWidth]
  by_cases hi : i < 6
  · simp [hi, Bool.and_comm]
  · simp [hi]

/-! ### Registers of a slot -/

section
variable {sl x : Slot} {k i j : Nat} {v o : Word}

/-- The registers that a slot has are read and written alike. -/
theorem Slot.ctlGet_isSome (sl y : Slot) (k i : Nat) (v : Word) : (sl.ctlGet k i).isSome = (y.ctlSet i v).isSome := by
  unfold Slot.ctlGet
  split
  case h_22 => unfold Slot.ctlSet; split <;> trivial
  all_goals rfl

/-- A write of one register leaves the others of the slot. -/
theorem Slot.ctlSet_other (h : sl.ctlSet i v = some x) (hj : j ≠ i) : x.ctlGet k j = sl.ctlGet k j := by
  unfold Slot.ctlSet at h
  split at h
  case h_22 => cases h
  case h_21 => cases h; cases v.getLsbD 0 <;> unfold Slot.ctlGet <;> split <;> trivial
  all_goals cases h; unfold Slot.ctlGet; split <;> trivial

/-- A register of a slot reads as the bits that a write leaves in it (R57 to R60, R277). -/
theorem Slot.ctlSet_row {r : CtlRow} (hr : r ∈ ctlRows) (ho : sl.ctlGet k r.index = some o) :
    ∃ x, sl.ctlSet r.index v = some x ∧ x.ctlGet k r.index = some (ofN (r.kept o.toNat v.toNat)) := by
  unfold ctlRows at hr
  simp only [List.mem_cons, List.not_mem_nil, or_false] at hr
  rcases hr with rfl | rfl | rfl | rfl | rfl | rfl | rfl | rfl | rfl | rfl | rfl | rfl | rfl | rfl | rfl | rfl | rfl | rfl | rfl | rfl
    | rfl | rfl | rfl | rfl | rfl | rfl | rfl | rfl | rfl | rfl | rfl <;> cases ho <;> refine ⟨_, rfl, congrArg some ?_⟩
  · exact and_lowPair_eq_ofN v 15 (by omega)
  · exact and_lowPair_eq_ofN v 4 (by omega)
  · rw [setWidth_eq_ofN, setWidth_eq_ofN, toNat_rndWrite, toNat_ofN_of_lt (by omega)]
  · exact setWidth_setWidth_eq_ofN v 6
  · exact congrArg ofN (by rw [toNat_getLsbD]; simp [ctlPlain])
  · exact setWidth_setWidth_eq_ofN v 16
  · exact (LoopLevel.word_ofWord v).trans (eq_ofN_mod v)
  · exact (LoopLevel.word_ofWord v).trans (eq_ofN_mod v)
  · exact setWidth_setWidth_eq_ofN v 8
  · exact eq_ofN_mod v
  · exact setWidth_setWidth_eq_ofN v 32
  · have hs : sl.sys.toNat ≤ 1 := Bool.toNat_le _
    have hp : sl.pie.toNat ≤ 1 := Bool.toNat_le _
    exact congrArg ofN (by
      rw [toNat_getLsbD, BitVec.toNat_ofNat]
      change sl.sys.toNat + _ * 4 = _ % 2 + v.toNat / 4 % 2 * 4
      omega)
  · exact setWidth_setWidth_eq_ofN v 16
  · exact setWidth_setWidth_eq_ofN v 14
  · exact eq_ofN_mod v
  · rw [setWidth_eq_ofN, setWidth_eq_ofN, toNat_and_not_setWidth, toNat_ofN_of_lt (by omega)]

end

/-! ### Registers of a tile -/

section
variable {s : State} {site i j : Nat} {y : Tile} {v o : Word} {sl : Slot}

/-- A tile configuration register written (R207). -/
theorem setWidth_set_eq_ofN (v : Word) (c : Vector (BitVec 19) 8) (k : Nat) (hk : k < 8) :
    ((c.set k (v.setWidth 19))[k]).setWidth 64 = ofN (v.toNat % 2 ^ 19) := by
  rw [Vector.getElem_set_self, setWidth_setWidth_eq_ofN]

/-- The registers that a tile has beside its slots' are read and written alike. -/
theorem Tile.ctlGet_isSome (s : State) (t : Tile) (site i : Nat) (v : Word) :
    (s.tileCtlGet site i).isSome = (t.ctlSet i v).isSome := by
  unfold State.tileCtlGet
  dsimp only
  split
  case h_22 => unfold Tile.ctlSet; split <;> trivial
  all_goals rfl

/-- A register of a tile's slot is none of the tile. -/
theorem Tile.ctlSet_none_of_slot {x : Slot} (h : sl.ctlSet i v = some x) (t : Tile) : t.ctlSet i v = none := by
  unfold Slot.ctlSet at h
  split at h
  case h_22 => cases h
  all_goals rfl

/-- The tile's registers do not depend on its slots. -/
theorem State.tileCtlGet_setSlot (s : State) (site : Nat) (k : Fin 8) (x : Slot) (j : Nat) :
    (s.setSlot (.tile site k) x).tileCtlGet site j = s.tileCtlGet site j := by
  unfold State.tileCtlGet
  rw [State.tile_setSlot_tile]
  rfl

/-- A tile put back as it stands changes none of its registers. -/
theorem State.tileCtlGet_setTile_self (s : State) (site j : Nat) :
    (s.setTile site (s.tile site)).tileCtlGet site j = s.tileCtlGet site j := by
  unfold State.tileCtlGet
  rw [State.tile_setTile_same]
  rfl

/-- A write of one register of a tile leaves its others. -/
theorem Tile.ctlSet_other (h : (s.tile site).ctlSet i v = some y) (hj : j ≠ i) :
    (s.setTile site y).tileCtlGet site j = s.tileCtlGet site j := by
  unfold State.tileCtlGet
  rw [State.tile_setTile_same]
  unfold Tile.ctlSet at h
  split at h
  case h_22 => cases h
  all_goals cases h; dsimp only; split <;> simp [Tile.name] at hj ⊢

/-- A write of a tile leaves its slots. -/
theorem Tile.ctlSet_slots {t : Tile} (h : t.ctlSet i v = some y) : y.slots = t.slots := by
  unfold Tile.ctlSet at h
  split at h
  case h_22 => cases h
  all_goals cases h; rfl

/-- A register of a tile reads as the bits that a write leaves in it. -/
theorem Tile.ctlSet_row {r : CtlRow} (hr : r ∈ ctlRows) (ho : s.tileCtlGet site r.index = some o) :
    ∃ y, (s.tile site).ctlSet r.index v = some y
      ∧ (s.setTile site y).tileCtlGet site r.index = some (ofN (r.kept o.toNat v.toNat)) := by
  unfold State.tileCtlGet
  simp only [State.tile_setTile_same]
  unfold ctlRows at hr
  simp only [List.mem_cons, List.not_mem_nil, or_false] at hr
  rcases hr with rfl | rfl | rfl | rfl | rfl | rfl | rfl | rfl | rfl | rfl | rfl | rfl | rfl | rfl | rfl | rfl | rfl | rfl | rfl | rfl
    | rfl | rfl | rfl | rfl | rfl | rfl | rfl | rfl | rfl | rfl | rfl <;> cases ho <;> refine ⟨_, rfl, congrArg some ?_⟩
  · exact setWidth_setWidth_eq_ofN v 32
  · exact eq_ofN_mod v
  · exact eq_ofN_mod v
  iterate 8 · exact setWidth_set_eq_ofN v _ _ _
  · exact eq_ofN_mod v
  · exact setWidth_setWidth_eq_ofN v 32
  · have hs : (s.tile site).stop.toNat ≤ 1 := Bool.toNat_le _
    have hd : (s.tile site).nodisp.toNat ≤ 1 := Bool.toNat_le _
    have hf : (s.tile site).faulted.toNat ≤ 1 := Bool.toNat_le _
    exact congrArg ofN (by
      rw [toNat_getLsbD, toNat_getLsbD, BitVec.toNat_ofNat]
      change _ + _ * 2 + (s.tile site).faulted.toNat * 4 = v.toNat % 4 + _ / 4 % 2 * 4
      omega)
  · exact setWidth_setWidth_eq_ofN v 5

end

end Sys2Proof.Machine
end

section
/-! SUPPORT. CRD and CWR at a tile (spec/06_isa_scalar.md R169, R173): the registers of its slot and of the tile together. -/

namespace Sys2Proof.Machine

/-! ### The registers that an agent of a tile sees -/

section
variable {t : State} {i j : Nat} {v o : Word} {x : Slot} {y : Tile}

theorem State.ctlOf_eq (s : State) (i : Nat) :
    s.ctlOf i = ((s.slot s.cur).ctlGet s.cur.slotNo.val i).or (s.tileCtlGet s.cur.site i) := by
  unfold State.ctlOf
  cases (s.slot s.cur).ctlGet s.cur.slotNo.val i <;> rfl

section
variable (hc : t.cur.isCore = false)
include hc

theorem State.ctlOf_setSlot (x : Slot) (j : Nat) :
    (t.setSlot t.cur x).ctlOf j = (x.ctlGet t.cur.slotNo.val j).or (t.tileCtlGet t.cur.site j) := by
  rw [State.ctlOf_eq, State.setSlot_cur, State.slot_setSlot_same]
  cases h : t.cur with
  | tile site k => exact congrArg _ (State.tileCtlGet_setSlot t site k x j)
  | _ => rw [h] at hc; cases hc

theorem State.ctlOf_setTile (hy : y.slots = (t.tile t.cur.site).slots) (j : Nat) :
    (t.setTile t.cur.site y).ctlOf j
      = ((t.slot t.cur).ctlGet t.cur.slotNo.val j).or ((t.setTile t.cur.site y).tileCtlGet t.cur.site j) := by
  have hs : (t.setTile t.cur.site y).slot t.cur = t.slot t.cur := by
    cases h : t.cur with
    | tile site k =>
      rw [h] at hy
      simp only [State.slot, Agent.site, State.tile_setTile_same, hy]
    | _ => rw [h] at hc; cases hc
  rw [State.ctlOf_eq, State.setTile_cur, hs]

/-! ### What CWR writes -/

theorem writeCtl_slot (h6 : i ≠ 6) (h7 : i ≠ 7) (hx : (t.slot t.cur).ctlSet i v = some x) :
    writeCtl i v t = .ok (.seq, t.setSlot t.cur x) := by
  simp [writeCtl, M.bind_apply, M.map_apply, hc, h6, h7, hx]

theorem writeCtl_tile (hx : (t.slot t.cur).ctlSet i v = none) (hy : (t.tile t.cur.site).ctlSet i v = some y) :
    writeCtl i v t = .ok (.seqLate, t.setTile t.cur.site y) := by
  have h6 : i ≠ 6 := by rintro rfl; cases hx
  have h7 : i ≠ 7 := by rintro rfl; cases hx
  simp [writeCtl, M.bind_apply, M.map_apply, hc, h6, h7, hx, hy]

end

/-- A CWR of a loop level behind its own end check (R169). -/
theorem writeCtl_loop (hi : i = 6 ∨ i = 7) (hx : ((t.slot t.cur).next 2).ctlSet i v = some x) :
    writeCtl i v t = .ok (.jump ((t.slot t.cur).next 2).pc, t.setSlot t.cur x) := by
  have hb : (i == 6 || i == 7) = true := by simpa using hi
  simp only [writeCtl, writeLoop, M.bind_apply, M.get_apply, M.ok_bind, hb, if_true, getSlot_apply, hx, putSlot_apply, M.pure_apply]

/-- How CWR goes on: the slot's registers are written at once, the tile's from the next cycle on (R173). -/
def State.cwrFlow (t : State) (i : Nat) : Flow :=
  if ((t.slot t.cur).ctlGet t.cur.slotNo.val i).isSome = true then .seq else .seqLate

section
variable (hc : t.cur.isCore = false)
include hc

/-- A register of a tile that is written and read back (R57 to R60, R276, R277). -/
theorem writeCtl_row {r : CtlRow} (hr : r ∈ ctlRows) (h6 : r.index ≠ 6) (h7 : r.index ≠ 7) (ho : t.ctlOf r.index = some o) :
    ∃ u, writeCtl r.index v t = .ok (t.cwrFlow r.index, u) ∧ u.ctlOf r.index = some (ofN (r.kept o.toNat v.toNat))
      ∧ ∀ j, j ≠ r.index → u.ctlOf j = t.ctlOf j := by
  unfold State.cwrFlow
  rw [State.ctlOf_eq] at ho
  cases hs : (t.slot t.cur).ctlGet t.cur.slotNo.val r.index with
  | some o' =>
    obtain rfl : o' = o := by simpa [hs] using ho
    obtain ⟨x, hx, hv⟩ := Slot.ctlSet_row (v := v) hr hs
    refine ⟨_, writeCtl_slot hc h6 h7 hx, ?_, fun j hj => ?_⟩
    · rw [State.ctlOf_setSlot hc, hv]; rfl
    · rw [State.ctlOf_setSlot hc, Slot.ctlSet_other hx hj, State.ctlOf_eq]
  | none =>
    obtain ⟨y, hy, hv⟩ := Tile.ctlSet_row (v := v) hr (by simpa [hs] using ho)
    have hx : (t.slot t.cur).ctlSet r.index v = none := by
      rw [← Option.not_isSome_iff_eq_none, ← Slot.ctlGet_isSome (t.slot t.cur) _ t.cur.slotNo.val, hs]
      exact Bool.false_ne_true
    have hslots := Tile.ctlSet_slots hy
    refine ⟨_, writeCtl_tile hc hx hy, ?_, fun j hj => ?_⟩
    · rw [State.ctlOf_setTile hc hslots, hs, hv]; rfl
    · rw [State.ctlOf_setTile hc hslots, Tile.ctlSet_other hy hj, State.ctlOf_eq]

/-- A write of a register that only reads changes none (R57). -/
theorem writeCtl_readOnly (hi : i ∈ ctlReadOnly) :
    ∃ u, writeCtl i v t = .ok (t.cwrFlow i, u) ∧ ∀ j, u.ctlOf j = t.ctlOf j := by
  have hread := Slot.ctlGet_isSome (t.slot t.cur) (t.slot t.cur) t.cur.slotNo.val i v
  have hkept : ((t.slot t.cur).ctlSet i v = some (t.slot t.cur) ∧ i ≠ 6 ∧ i ≠ 7)
      ∨ ((t.slot t.cur).ctlSet i v = none ∧ (t.tile t.cur.site).ctlSet i v = some (t.tile t.cur.site)) := by
    unfold ctlReadOnly at hi
    fin_cases hi
    exacts [.inr ⟨rfl, rfl⟩, .inr ⟨rfl, rfl⟩, .inl ⟨rfl, by decide, by decide⟩, .inr ⟨rfl, rfl⟩, .inr ⟨rfl, rfl⟩,
      .inl ⟨rfl, by decide, by decide⟩, .inl ⟨rfl, by decide, by decide⟩, .inl ⟨rfl, by decide, by decide⟩, .inr ⟨rfl, rfl⟩,
      .inr ⟨rfl, rfl⟩]
  rcases hkept with ⟨hx, h6, h7⟩ | ⟨hx, hy⟩
  · rw [State.cwrFlow, hread, hx]
    exact ⟨_, writeCtl_slot hc h6 h7 hx, fun j => by rw [State.ctlOf_setSlot hc, State.ctlOf_eq]⟩
  · rw [State.cwrFlow, hread, hx]
    refine ⟨_, writeCtl_tile hc hx hy, fun j => ?_⟩
    rw [State.ctlOf_setTile hc rfl, State.ctlOf_eq, State.tileCtlGet_setTile_self]

end
end

/-! ### CRD and CWR as they issue -/

section
variable {s t u : State} {stl : Stl} {d : Dst} {a : Src} {i : BitVec 10} {v : Word} {fl : Flow}

/-- A core and a thread in SYSTEM mode may name every index, a thread in USER mode those below 0x200 (R57). -/
theorem checkIndex_apply (i : Nat) (s : State) :
    checkIndex i s
      = if s.cur.isCore = true ∨ (s.slot s.cur).sys = true ∨ i < 0x200 then .ok ((), s) else .error (.word .privileged) := by
  simp only [checkIndex, M.bind_apply, M.get_apply, M.ok_bind, require_apply, blt_eq_decide, Bool.or_eq_true, decide_eq_true_eq,
    or_assoc]

theorem checkIndex_privileged {i : Nat} (hc : s.cur.isCore = false) (hs : (s.slot s.cur).sys = false) (hi : 0x200 ≤ i) :
    checkIndex i s = .error (.word .privileged) := by
  rw [checkIndex_apply, if_neg (by simp [hc, hs]; omega)]

/-- Whether CWR finds a register. -/
theorem ctlListed_apply (i : Nat) (s : State) : ctlListed i s = .ok (if s.cur.isCore then
    (s.coreCtlGet s.cur i).isSome || (s.cur == .collier && i == 0x390) else tileCtlListed i, s) := rfl

theorem tileCtlListed_eq (s : State) (i : Nat) : tileCtlListed i = (s.ctlOf i).isSome := by
  rw [State.ctlOf_eq, Option.isSome_or, tileCtlListed, Slot.ctlGet_isSome _ {} _ _ 0, Tile.ctlGet_isSome s {} _ _ 0]

/-- CWR of an index that may be named and that has a register does what the write does. -/
theorem exec_cwr (hs : s.admits (opI 0x1A stl 16 a.code i))
    (hmay : s.opened.cur.isCore = true ∨ (s.opened.slot s.opened.cur).sys = true ∨ i.toNat < 0x200)
    (hl : ctlListed i.toNat s.opened = .ok (true, s.opened)) (hr : read1 a s.opened = .ok (v, t))
    (hw : writeCtl i.toNat v t = .ok (fl, u)) :
    exec (.cwr stl a i) s = .next (finish (opI 0x1A stl 16 a.code i) fl u) :=
  hs.issue_ok (by simp only [M.bind_apply, checkIndex_apply, if_pos hmay, M.ok_bind, hl, require_true, M.pure_apply, hr, hw])

/-- An index that may not be named, or that has no register. -/
theorem exec_cwr_illegal {c : Cause} (hs : s.admits (opI 0x1A stl 16 a.code i))
    (h : checkIndex i.toNat s.opened = .error (.word c)
      ∨ (checkIndex i.toNat s.opened = .ok ((), s.opened) ∧ ctlListed i.toNat s.opened = .ok (false, s.opened)
        ∧ c = .illegalOperand)) :
    exec (.cwr stl a i) s = .next (s.takeTrap c (ofN (opI 0x1A stl 16 a.code i).word) (s.slot s.cur).pc) := by
  refine hs.issue_word ?_
  rcases h with h | ⟨h, hl, rfl⟩
  · simp only [M.bind_apply, h, M.error_bind]
  · simp only [M.bind_apply, h, M.ok_bind, hl, require_false, M.throw_apply, M.error_bind]

end

end Sys2Proof.Machine
end

section
/-! SUPPORT. What CRD reads, and what CWR writes in a tile (spec/02_state.md R57 to R60, spec/06_isa_scalar.md R169, R173). -/

namespace Sys2Proof.Machine

/-! ### CRD -/

section
variable {s t : State} {stl : Stl} {d : Dst} {i : BitVec 10} {v : Word}

theorem readCtl_tile {i : Nat} (hc : s.cur.isCore = false) (hv : s.ctlOf i = some v) : readCtl i s = .ok (v, s) := by
  unfold State.ctlOf at hv
  simp only [readCtl, M.bind_apply, M.get_apply, M.ok_bind, hc, Bool.false_eq_true, if_false]
  cases hs : (s.slot s.cur).ctlGet s.cur.slotNo.val i with
  | some w => rw [hs] at hv; cases hv; rfl
  | none => simp only [hs] at hv; simp only [hv, M.pure_apply]

theorem readCtl_tile_none {i : Nat} (hc : s.cur.isCore = false) (hv : s.ctlOf i = none) :
    readCtl i s = .error (.word .illegalOperand) := by
  unfold State.ctlOf at hv
  simp only [readCtl, M.bind_apply, M.get_apply, M.ok_bind, hc, Bool.false_eq_true, if_false]
  cases hs : (s.slot s.cur).ctlGet s.cur.slotNo.val i with
  | some w => rw [hs] at hv; cases hv
  | none => simp only [hs] at hv; simp only [hv, M.throw_apply]

theorem readCtl_core {i : Nat} (hc : s.cur.isCore = true) (hx : ¬ (s.cur = .collier ∧ i = 0x390))
    (hv : s.coreCtlGet s.cur i = some v) : readCtl i s = .ok (v, s.coreReadClear s.cur i) := by
  have hb : (s.cur == .collier && i == 0x390) = false := by
    rw [Bool.eq_false_iff]; simpa using hx
  simp only [readCtl, M.bind_apply, M.get_apply, M.ok_bind, hc, if_true, hb, Bool.false_eq_true, if_false, hv, M.set_apply,
    M.pure_apply]

/-- CRD of an index that may be named delivers what it reads. -/
theorem exec_crd (hd : d.legal = true) (hs : s.admits (opI 0x19 stl d.code 0 i))
    (hmay : s.opened.cur.isCore = true ∨ (s.opened.slot s.opened.cur).sys = true ∨ i.toNat < 0x200)
    (hr : readCtl i.toNat s.opened = .ok (v, t)) :
    exec (.crd stl d i) s = .next (finish (opI 0x19 stl d.code 0 i) .seq (t.withResult 1 0 d v)) :=
  hs.issue_ok (by
    simp only [M.bind_apply, checkDst_legal hd, M.pure_apply, checkIndex_apply, if_pos hmay, M.ok_bind, hr]
    rfl)

theorem exec_crd_illegal {c : Cause} (hd : d.legal = true) (hs : s.admits (opI 0x19 stl d.code 0 i))
    (h : checkIndex i.toNat s.opened = .error (.word c)
      ∨ (checkIndex i.toNat s.opened = .ok ((), s.opened) ∧ readCtl i.toNat s.opened = .error (.word c))) :
    exec (.crd stl d i) s = .next (s.takeTrap c (ofN (opI 0x19 stl d.code 0 i).word) (s.slot s.cur).pc) := by
  refine hs.issue_word ?_
  rcases h with h | ⟨h, hr⟩ <;> simp only [M.bind_apply, checkDst_legal hd, M.pure_apply, M.ok_bind, h, M.error_bind]
  simp only [hr, M.error_bind]

end

theorem controlRegisterReads : Claim.ControlRegisterReads := by
  intro stl d i s hd hs
  refine ⟨fun v hc hmay hv => exec_crd hd hs (.inr hmay) (readCtl_tile hc hv),
    fun v hc hx hv => exec_crd hd hs (.inl hc) (readCtl_core hc hx hv),
    fun hc hsys hi => exec_crd_illegal hd hs (.inl (checkIndex_privileged hc hsys hi)),
    fun hc hmay hv => exec_crd_illegal hd hs (.inr ⟨?_, readCtl_tile_none hc hv⟩)⟩
  rw [checkIndex_apply, if_pos (.inr hmay)]

/-! ### CWR in a tile -/

section
variable {s : State} {i : Nat}

/-- A register that a tile has is found. -/
theorem ctlListed_tile (hc : s.cur.isCore = false) {i : Nat} (hi : tileCtlListed i = true) : ctlListed i s = .ok (true, s) := by
  rw [ctlListed_apply, hc, if_neg Bool.false_ne_true, hi]

theorem toNat_ofNat10 (h : i < 1024) : (BitVec.ofNat 10 i).toNat = i := by
  rw [BitVec.toNat_ofNat, Nat.mod_eq_of_lt h]

theorem ctlRows_listed {r : CtlRow} (hr : r ∈ ctlRows) : r.index < 1024 ∧ tileCtlListed r.index = true := by
  unfold ctlRows at hr
  fin_cases hr <;> decide

theorem ctlReadOnly_listed (hi : i ∈ ctlReadOnly) : i < 1024 ∧ tileCtlListed i = true := by
  revert i; decide

theorem loop_listed (hi : i = 6 ∨ i = 7) : i < 1024 ∧ tileCtlListed i = true := by
  rcases hi with rfl | rfl <;> decide

/-- CWR of a register of a tile does what the write does. -/
theorem exec_cwr_tile {stl : Stl} {a : Src} {v : Word} {t u : State} {fl : Flow}
    (hi : i < 1024 ∧ tileCtlListed i = true) (hs : s.admits (opI 0x1A stl 16 a.code (BitVec.ofNat 10 i)))
    (hc : s.opened.cur.isCore = false) (hmay : (s.opened.slot s.opened.cur).sys = true ∨ i < 0x200)
    (hr : read1 a s.opened = .ok (v, t)) (hw : writeCtl i v t = .ok (fl, u)) :
    exec (.cwr stl a (BitVec.ofNat 10 i)) s = .next (finish (opI 0x1A stl 16 a.code (BitVec.ofNat 10 i)) fl u) := by
  have h10 := toNat_ofNat10 hi.1
  exact exec_cwr hs (.inr (h10.symm ▸ hmay)) (h10.symm ▸ ctlListed_tile hc hi.2) hr (h10.symm ▸ hw)

/-- A loop level reads as what was written. -/
theorem Slot.ctlSet_loop (sl : Slot) (k : Nat) (v : Word) (hi : i = 6 ∨ i = 7) :
    ∃ x, sl.ctlSet i v = some x ∧ x.ctlGet k i = some v := by
  rcases hi with rfl | rfl <;> exact ⟨_, rfl, congrArg some (LoopLevel.word_ofWord v)⟩

end

theorem controlRegisterWrites : Claim.ControlRegisterWrites := by
  refine ⟨fun r hr h6 h7 stl a s v t o hs hc hmay hv ht ho => ?_, fun i hi stl a s v t hs hc hv ht => ?_,
    fun i hi stl a s v t hs hc hmay hv ht => ?_, fun stl a s v t hs hc hsys hv ht => ?_, fun stl a i s hs => ⟨?_, ?_, ?_⟩⟩
  · obtain ⟨u, hw, hread, hrest⟩ := writeCtl_row (v := v) ht hr h6 h7 ho
    exact ⟨u, exec_cwr_tile (ctlRows_listed hr) hs hc hmay hv hw, hread, hrest⟩
  · obtain ⟨x, hx, hread⟩ := Slot.ctlSet_loop ((t.slot t.cur).next 2) t.cur.slotNo.val v hi
    have hlow : i < 0x200 := by omega
    refine ⟨_, exec_cwr_tile (loop_listed hi) hs hc (.inr hlow) hv (writeCtl_loop hi hx), ?_, fun j hj => ?_⟩
    · rw [State.ctlOf_setSlot ht, hread]; rfl
    · rw [State.ctlOf_setSlot ht, State.ctlOf_setSlot ht, Slot.ctlSet_other hx hj]
  · obtain ⟨u, hw, hrest⟩ := writeCtl_readOnly (v := v) ht hi
    exact ⟨u, exec_cwr_tile (ctlReadOnly_listed hi) hs hc hmay hv hw, hrest⟩
  · refine exec_cwr_tile (i := 0x205) ⟨by decide, by decide⟩ hs hc (.inl hsys) hv
      (writeCtl_slot ht (by decide) (by decide) (congrArg some ?_))
    have hb : v.toNat % 2 = 1 ↔ v.getLsbD 0 = true := by simp [BitVec.getLsbD, Nat.testBit_eq_decide_div_mod_eq]
    simp only [hb]
  · exact fun hc hsys hi => exec_cwr_illegal hs (.inl (checkIndex_privileged hc hsys hi))
  · refine fun hc hmay hnone => exec_cwr_illegal hs (.inr ⟨?_, ?_, rfl⟩)
    · rw [checkIndex_apply, if_pos (.inr hmay)]
    · rw [ctlListed_apply, hc, if_neg Bool.false_ne_true, tileCtlListed_eq s.opened, hnone]; rfl
  · refine fun hc hx hnone => exec_cwr_illegal hs (.inr ⟨?_, ?_, rfl⟩)
    · rw [checkIndex_apply, if_pos (.inl hc)]
    · have hb : (s.opened.cur == .collier && i.toNat == 0x390) = false := by rw [Bool.eq_false_iff]; simpa using hx
      rw [ctlListed_apply, hc, if_pos rfl, hnone, hb]; rfl

end Sys2Proof.Machine
end

section
/-! SUPPORT. The control registers of a core (spec/12_sys_isa.md R276, R277, R307, spec/19_sys_wafer.md R418, spec/20_prog_thermal.md R427):
which stand in the core itself and which around it, and what a write of one leaves of the others. -/

namespace Sys2Proof.Machine

/-! ### A core replaced -/

section
variable {t u : State} {a : Agent} {c : Core}

theorem State.core_setCore_same (ha : a.isCore = true) (t : State) (c : Core) : (t.setCore a c).core a = c := by
  cases a with
  | tile site k => cases ha
  | collier => rfl
  | stoker r => simp [State.core, State.setCore, State.stoker]

theorem State.slot_eq_core (ha : a.isCore = true) (t : State) : t.slot a = (t.core a).th := by
  cases a with
  | tile site k => cases ha
  | _ => rfl

theorem State.setSlot_eq_setCore (ha : a.isCore = true) (t : State) (x : Slot) :
    t.setSlot a x = t.setCore a { t.core a with th := x } := by
  cases a with
  | tile site k => cases ha
  | _ => rfl

theorem State.setCore_setCore (t : State) (a : Agent) (c d : Core) : (t.setCore a c).setCore a d = t.setCore a d := by
  cases a with
  | stoker r => simp [State.setCore, Table.put_put]
  | _ => rfl

theorem State.setCore_tb (t : State) (a : Agent) (c : Core) : (t.setCore a c).tb = t.tb := by
  cases a <;> rfl

/-! ### The registers in a core and around it -/

/-- The registers whose value stands in the core: its thread's, SSTATUS, IENA and TIMERCMP. -/
def Core.reg (c : Core) (i : Nat) : Option Word :=
  if coreSlotReg i then c.th.ctlGet 0 i
  else
    match i with
    | 0x200 => some (BitVec.ofNat 64 (1 + c.ie.toNat * 2 + c.pie.toNat * 4))
    | 0x221 => some (c.iena.setWidth 64)
    | 0x222 => some c.timercmp
    | _ => none

/-- The registers whose value depends on more than a core's own registers: TB, the messages for it, IPEND and its devices. -/
def State.outerReg (s : State) (a : Agent) (i : Nat) : Option Word :=
  match i with
  | 0x028 => some s.tb
  | 0x213 => some (BitVec.ofNat 64 (min ((s.inbox (agentCode a)).filter fun m => !m.onLink).length 8))
  | 0x220 => some ((s.ipend a).setWidth 64)
  | _ =>
    match a with
    | .collier => s.collierDevGet i
    | .stoker r => s.stokerDevGet r i
    | .tile _ _ => none

theorem coreSlotReg_isSome (sl : Slot) {i : Nat} (h : coreSlotReg i = true) : (sl.ctlGet 0 i).isSome = true := by
  have hi : i ∈ [2, 3, 4, 5, 6, 7, 0x201, 0x202, 0x203] := List.contains_iff_mem.mp h
  fin_cases hi <;> rfl

theorem State.coreCtlGet_eq (s : State) (a : Agent) (i : Nat) : s.coreCtlGet a i = ((s.core a).reg i).or (s.outerReg a i) := by
  unfold State.coreCtlGet Core.reg
  split
  · rename_i h
    obtain ⟨w, hw⟩ := Option.isSome_iff_exists.mp (coreSlotReg_isSome (s.core a).th h)
    rw [hw]; rfl
  · split
    case h_7 => simp_all [State.outerReg] <;> rfl
    all_goals rfl

/-- What a core holds beside its control registers. -/
def Core.device (c : Core) : Core :=
  { c with th := {}, ie := false, pie := false, iedge := 0, iena := 0, timercmp := 0, timerArmed := false, timerAt := 0 }

theorem Core.device_eq {d : Core} (h : c.device = d.device) : c.sfuse = d.sfuse ∧ c.noBoot = d.noBoot ∧ c.sgate = d.sgate
    ∧ c.droop = d.droop ∧ c.eccCnt = d.eccCnt ∧ c.eccThr = d.eccThr ∧ c.cap = d.cap := by
  simp_all [Core.device]

theorem State.stokerDevGet_setCore {r : Nat} (h : c.device = (t.stoker r).device) (i : Nat) :
    (t.setCore (.stoker r) c).stokerDevGet r i = t.stokerDevGet r i := by
  have hs : (t.setCore (.stoker r) c).stoker r = c := State.core_setCore_same (a := .stoker r) rfl t c
  have hg : (t.setCore (.stoker r) c).goodOf r = t.goodOf r := rfl
  obtain ⟨hfuse, hboot, hgate, hdroop, hcnt, hthr, hcap⟩ := Core.device_eq h
  have hclass : (t.setCore (.stoker r) c).classOf r = t.classOf r := by
    simp only [State.classOf, State.regionFused, hs, hg, hfuse, hboot]
    rfl
  simp only [State.stokerDevGet, hs, hg, hclass, hgate, hfuse, hdroop, hcnt, hthr, hcap]

theorem State.collierDevGet_setCore (h : c.device = t.collier.device) (i : Nat) :
    (t.setCore .collier c).collierDevGet i = t.collierDevGet i := by
  obtain ⟨-, -, -, -, hcnt, hthr, -⟩ := Core.device_eq h
  have hc : (t.setCore .collier c).collier = c := rfl
  unfold State.collierDevGet
  simp only [hc, hcnt, hthr]
  rfl

/-- A core replaced by one with the same devices and the same sources pending. -/
theorem State.outerReg_setCore (ha : a.isCore = true) (h : c.device = (t.core a).device)
    (hp : (t.setCore a c).ipend a = t.ipend a) (i : Nat) : (t.setCore a c).outerReg a i = t.outerReg a i := by
  have htb := State.setCore_tb t a c
  have hin (k : Nat) : (t.setCore a c).inbox k = t.inbox k := by cases a <;> rfl
  unfold State.outerReg
  simp only [hp, htb, hin]
  split
  case h_1 | h_2 | h_3 => rfl
  cases a with
  | tile site k => rfl
  | collier => exact State.collierDevGet_setCore h i
  | stoker r => exact State.stokerDevGet_setCore h i

/-- A register of a core that has been written reads as its new value, and every other register of the core as before. -/
theorem State.coreCtlGet_written {i : Nat} {w : Word} (ha : a.isCore = true) (h : c.device = (t.core a).device)
    (hp : (t.setCore a c).ipend a = t.ipend a) (hi : c.reg i = some w) (hj : ∀ j, j ≠ i → c.reg j = (t.core a).reg j) :
    (t.setCore a c).coreCtlGet a i = some w ∧ ∀ j, j ≠ i → (t.setCore a c).coreCtlGet a j = t.coreCtlGet a j := by
  refine ⟨?_, fun j hne => ?_⟩
  · rw [State.coreCtlGet_eq, State.core_setCore_same ha, hi]; rfl
  · rw [State.coreCtlGet_eq, State.core_setCore_same ha, State.outerReg_setCore ha h hp, hj j hne, State.coreCtlGet_eq]

/-- A core whose edges and comparison are the same has the same sources pending. -/
theorem State.ipend_setCore (ha : a.isCore = true) (he : c.iedge = (t.core a).iedge)
    (hcmp : c.timercmp = (t.core a).timercmp) (harm : c.timerArmed = (t.core a).timerArmed)
    (hat : c.timerAt = (t.core a).timerAt) : (t.setCore a c).ipend a = t.ipend a := by
  have hflue : (t.setCore a c).flue = t.flue := State.setCore_flue t a c
  unfold State.ipend State.timerDue
  simp only [State.core_setCore_same ha, State.setCore_tb, hflue, he, hcmp, harm, hat]

end

end Sys2Proof.Machine
end

section
/-! SUPPORT. What CWR writes in the registers that a core has in common with every other one (spec/12_sys_isa.md R276, R277, R307). -/

namespace Sys2Proof.Machine

section
variable {t u : State} {i : Nat} {v : Word}

/-- CWR on a core, but for the loop levels. -/
theorem writeCtl_core (hc : t.cur.isCore = true) (h6 : i ≠ 6) (h7 : i ≠ 7) (hw : coreCtlSet i v t = .ok ((), u)) :
    writeCtl i v t = .ok (.seq, u) := by
  have hb : (i == 6 || i == 7) = false := by simp [h6, h7]
  simp only [writeCtl, M.bind_apply, M.get_apply, M.ok_bind, hb, Bool.false_eq_true, if_false, hc, if_true, hw, M.pure_apply]

/-- A write of one register of a core: the core it leaves, which reads as written and keeps every other register. -/
structure State.CoreWrite (t : State) (i : Nat) (v w : Word) (c : Core) : Prop where
  set : coreCtlSet i v t = .ok ((), t.setCore t.cur c)
  device : c.device = (t.core t.cur).device
  pend : (t.setCore t.cur c).ipend t.cur = t.ipend t.cur
  reads : c.reg i = some w
  rest : ∀ j, j ≠ i → c.reg j = (t.core t.cur).reg j

/-- The core after a write of TIMERCMP: what the old comparison has made pending stays so (R427). -/
def State.timerWritten (t : State) (v : Word) : Core :=
  { t.core t.cur with
    iedge := if t.timerDue t.cur = true then (t.core t.cur).iedge ||| (1#7 <<< 4) else (t.core t.cur).iedge
    timercmp := v
    timerArmed := true
    timerAt := t.tb.toNat }

theorem State.writeTimer_eq (t : State) (v : Word) (hc : t.cur.isCore = true) :
    t.writeTimer t.cur v = t.setCore t.cur (t.timerWritten v) := by
  unfold State.writeTimer State.timerWritten
  split
  · simp only [State.raise, State.core_setCore_same hc, State.setCore_setCore, State.setCore_tb]
  · rfl

/-- Source 4 pending by the comparison, and by its edge. -/
theorem pending_edge (e : BitVec 7) (m l : Bool) :
    ((e ||| (1#7 <<< 4)) &&& 0x7C) ||| BitVec.ofNat 7 (m.toNat + l.toNat * 2 + false.toNat * 16)
      = (e &&& 0x7C) ||| BitVec.ofNat 7 (m.toNat + l.toNat * 2 + true.toNat * 16) := by
  revert e m l
  decide

section
variable (hc : t.cur.isCore = true)
include hc

/-- A register of the thread of a core. -/
theorem State.coreWrite_slot {x : Slot} {w : Word} (hi : coreSlotReg i = true) (hx : (t.core t.cur).th.ctlSet i v = some x)
    (hw : x.ctlGet 0 i = some w) : t.CoreWrite i v w { t.core t.cur with th := x } where
  set := by
    simp only [coreCtlSet, M.bind_apply, M.get_apply, M.ok_bind, hi, if_true, hx, putSlot_apply, State.setSlot_eq_setCore hc]
  device := rfl
  pend := State.ipend_setCore hc rfl rfl rfl rfl
  reads := by
    unfold Core.reg
    rw [if_pos hi, hw]
  rest j hj := by
    unfold Core.reg
    split
    · exact Slot.ctlSet_other hx hj
    · rfl

theorem State.coreWrite_sstatus : t.CoreWrite 0x200 v (ofN (1 + v.toNat / 2 % 4 * 2))
    { t.core t.cur with ie := v.getLsbD 1, pie := v.getLsbD 2 } where
  set := rfl
  device := rfl
  pend := State.ipend_setCore hc rfl rfl rfl rfl
  reads := by
    refine congrArg (fun n => some (ofN n)) ?_
    change 1 + (v.getLsbD 1).toNat * 2 + (v.getLsbD 2).toNat * 4 = _
    rw [toNat_getLsbD, toNat_getLsbD]
    omega
  rest j hj := by
    unfold Core.reg
    split
    · rfl
    · split <;> trivial

theorem State.coreWrite_iena : t.CoreWrite 0x221 v (ofN (v.toNat % 2 ^ 7)) { t.core t.cur with iena := v.setWidth 7 } where
  set := rfl
  device := rfl
  pend := State.ipend_setCore hc rfl rfl rfl rfl
  reads := congrArg some (setWidth_setWidth_eq_ofN v 7)
  rest j hj := by
    unfold Core.reg
    split
    · rfl
    · split <;> trivial

theorem State.coreWrite_timer : t.CoreWrite 0x222 v (ofN (v.toNat % 2 ^ 64)) (t.timerWritten v) where
  set := congrArg (fun u => Except.ok ((), u)) (t.writeTimer_eq v hc)
  device := rfl
  pend := by
    have hflue (c : Core) : (t.setCore t.cur c).flue = t.flue := State.setCore_flue t _ c
    have hdue : (t.setCore t.cur (t.timerWritten v)).timerDue t.cur = false := by
      simp [State.timerDue, State.core_setCore_same hc, State.timerWritten, State.setCore_tb, blt_eq_decide]
    unfold State.ipend
    simp only [State.core_setCore_same hc, hflue, hdue]
    unfold State.timerWritten
    cases t.timerDue t.cur
    · rfl
    · exact pending_edge _ _ _
  reads := congrArg some (eq_ofN_mod v)
  rest j hj := by
    unfold Core.reg
    split
    · rfl
    · split <;> trivial

/-- A register that every core has, written and read back. -/
theorem State.coreWrite_row {r : CtlRow} (hr : r ∈ coreRows (.stoker 0)) : ∃ x c,
    t.coreCtlGet t.cur r.index = some x ∧ t.CoreWrite r.index v (ofN (r.kept x.toNat v.toNat)) c := by
  have hget {j : Nat} {x : Word} (hx : (t.core t.cur).reg j = some x) : t.coreCtlGet t.cur j = some x := by
    rw [State.coreCtlGet_eq, hx]; rfl
  have hslot {q : CtlRow} (hi : coreSlotReg q.index = true) (hq : q ∈ ctlRows) : ∃ x c,
      t.coreCtlGet t.cur q.index = some x ∧ t.CoreWrite q.index v (ofN (q.kept x.toNat v.toNat)) c := by
    obtain ⟨o, ho⟩ := Option.isSome_iff_exists.mp (coreSlotReg_isSome (t.core t.cur).th hi)
    obtain ⟨x, hx, hw⟩ := Slot.ctlSet_row (v := v) hq ho
    refine ⟨o, _, hget ?_, State.coreWrite_slot hc hi hx hw⟩
    unfold Core.reg
    rw [if_pos hi, ho]
  unfold coreRows at hr
  simp only [reduceCtorEq, if_false, List.append_nil, List.mem_cons, List.not_mem_nil, or_false] at hr
  rcases hr with rfl | rfl | rfl | rfl | rfl | rfl | rfl | rfl | rfl | rfl
  · exact hslot rfl (by simp [ctlRows])
  · exact hslot rfl (by simp [ctlRows])
  · exact hslot rfl (by simp [ctlRows])
  · exact hslot rfl (by simp [ctlRows])
  · exact ⟨_, _, hget rfl, State.coreWrite_sstatus hc⟩
  · exact hslot rfl (by simp [ctlRows])
  · exact hslot rfl (by simp [ctlRows])
  · exact hslot rfl (by simp [ctlRows])
  · exact ⟨_, _, hget rfl, State.coreWrite_iena hc⟩
  · exact ⟨_, _, hget rfl, State.coreWrite_timer hc⟩

end

end

end Sys2Proof.Machine
end

section
/-! SUPPORT. Settles O21: the device registers of the Collier and of a Stoker (spec/18_sys_determinism_debug.md R407,
spec/19_sys_wafer.md R411, R418 to R420), and all control registers together. -/

namespace Sys2Proof.Machine

section
variable {t : State} {i : Nat} {v : Word}

/-! ### Device registers as CWR reaches them -/

/-- The registers of a core below 0x300 are no device's. -/
theorem coreSlotReg_device (hi : 0x300 ≤ i) : coreSlotReg i = false := by
  rw [Bool.eq_false_iff]
  intro h
  have hm : i ∈ [2, 3, 4, 5, 6, 7, 0x201, 0x202, 0x203] := List.contains_iff_mem.mp h
  simp at hm
  omega

theorem coreCtlSet_collier (hc : t.cur = .collier) (hi : 0x300 ≤ i) : coreCtlSet i v t = collierDevSet i v t := by
  simp only [coreCtlSet, M.bind_apply, M.get_apply, M.ok_bind, coreSlotReg_device hi, Bool.false_eq_true, if_false]
  split
  case h_7 => rw [hc]
  all_goals omega

theorem coreCtlSet_stoker {r : Nat} (hc : t.cur = .stoker r) (hi : 0x300 ≤ i) : coreCtlSet i v t = stokerDevSet r i v t := by
  simp only [coreCtlSet, M.bind_apply, M.get_apply, M.ok_bind, coreSlotReg_device hi, Bool.false_eq_true, if_false]
  split
  case h_7 => rw [hc]
  all_goals omega

theorem State.coreCtlGet_collier (s : State) (hi : 0x300 ≤ i) : s.coreCtlGet .collier i = s.collierDevGet i := by
  simp only [State.coreCtlGet, coreSlotReg_device hi, Bool.false_eq_true, if_false]
  split
  case h_7 => rfl
  all_goals omega

theorem State.coreCtlGet_stoker (s : State) (r : Nat) (hi : 0x300 ≤ i) : s.coreCtlGet (.stoker r) i = s.stokerDevGet r i := by
  simp only [State.coreCtlGet, coreSlotReg_device hi, Bool.false_eq_true, if_false]
  split
  case h_7 => rfl
  all_goals omega

/-! ### Registers that a core only reads -/

/-- The registers of the Collier's devices, but for RXUINV. -/
def collierDevice (i : Nat) : Prop :=
  (0x300 ≤ i ∧ i ≤ 0x33F) ∨ (0x340 ≤ i ∧ i ≤ 0x37F) ∨ (0x3A0 ≤ i ∧ i ≤ 0x3AF) ∨ i ∈ [0x380, 0x381, 0x382, 0x388, 0x389, 0x38A, 0x391]

theorem collierDevGet_isSome (s : State) (hi : collierDevice i) : (s.collierDevGet i).isSome = true := by
  unfold State.collierDevGet
  simp only [ble_eq_decide, Bool.and_eq_true, decide_eq_true_eq]
  by_cases h1 : 0x300 ≤ i ∧ i ≤ 0x33F
  · rw [if_pos h1]; rfl
  by_cases h2 : 0x340 ≤ i ∧ i ≤ 0x37F
  · rw [if_neg h1, if_pos h2]; rfl
  by_cases h3 : 0x3A0 ≤ i ∧ i ≤ 0x3AF
  · rw [if_neg h1, if_neg h2, if_pos h3]; rfl
  rw [if_neg h1, if_neg h2, if_neg h3]
  have hm : i ∈ [0x380, 0x381, 0x382, 0x388, 0x389, 0x38A, 0x391] := ((hi.resolve_left h1).resolve_left h2).resolve_left h3
  fin_cases hm <;> rfl

theorem captureGet_isSome (c : CaptureUnit) (h0 : 0x3C0 ≤ i) (h1 : i ≤ 0x3D3) : (c.get i).isSome = true := by
  by_cases h : 0x3C4 ≤ i
  · have hb : (Nat.ble 0x3C4 i && Nat.ble i 0x3D3) = true := by simp [ble_eq_decide, h, h1]
    unfold CaptureUnit.get
    split
    case h_5 => rw [if_pos hb]; rfl
    all_goals rfl
  · obtain rfl | rfl | rfl | rfl : i = 0x3C0 ∨ i = 0x3C1 ∨ i = 0x3C2 ∨ i = 0x3C3 := by omega
    all_goals rfl

theorem stokerDevGet_isSome (s : State) (r : Nat) (hi : i ∈ [0x300, 0x301, 0x302, 0x303, 0x389, 0x38A] ∨ (0x3C0 ≤ i ∧ i ≤ 0x3D3)) :
    (s.stokerDevGet r i).isSome = true := by
  rcases hi with hm | ⟨h0, h1⟩
  · fin_cases hm <;> rfl
  · unfold State.stokerDevGet
    dsimp only
    split
    case h_7 => exact captureGet_isSome _ h0 h1
    all_goals rfl

theorem collierDevSet_readOnly (hi : (0x300 ≤ i ∧ i ≤ 0x33F) ∨ (0x3A0 ≤ i ∧ i ≤ 0x3AF) ∨ i ∈ [0x388, 0x389, 0x391]) :
    collierDevSet i v t = .ok ((), t) := by
  have hget : (t.collierDevGet i).isSome = true := by
    refine collierDevGet_isSome t ?_
    rcases hi with h | h | h
    · exact .inl h
    · exact .inr (.inr (.inl h))
    · fin_cases h <;> exact .inr (.inr (.inr (by decide)))
  have hw : i ∉ [0x380, 0x381, 0x382, 0x38A, 0x390] ∧ ¬ (0x340 ≤ i ∧ i ≤ 0x37F) := by
    simp only [List.mem_cons, List.not_mem_nil, or_false] at hi ⊢
    omega
  obtain ⟨hw, hduty⟩ := hw
  have hb : (Nat.ble 0x340 i && Nat.ble i 0x37F) = false := by rw [Bool.eq_false_iff]; simpa [ble_eq_decide] using hduty
  have hrxu : (i == 0x390) = false := by rw [Bool.eq_false_iff]; rintro h; simp_all
  simp only [collierDevSet, M.bind_apply, M.get_apply, M.ok_bind, hb, hrxu, Bool.false_eq_true, if_false]
  split
  case h_5 => rw [hget]; rfl
  all_goals simp at hw

theorem stokerDevSet_readOnly {r : Nat} (hi : i ∈ [0x301, 0x302, 0x303, 0x389] ∨ (0x3C1 ≤ i ∧ i ≤ 0x3D3)) :
    stokerDevSet r i v t = .ok ((), t) := by
  have hget : (t.stokerDevGet r i).isSome = true := by
    refine stokerDevGet_isSome t r ?_
    rcases hi with h | ⟨h0, h1⟩
    · fin_cases h <;> exact .inl (by decide)
    · exact .inr ⟨by omega, h1⟩
  have hw : i ∉ [0x300, 0x38A, 0x3C0] := by
    simp only [List.mem_cons, List.not_mem_nil, or_false] at hi ⊢
    omega
  simp only [stokerDevSet, M.bind_apply, M.get_apply, M.ok_bind]
  split
  case h_4 => rw [hget]; rfl
  all_goals simp at hw

/-- A write of a register that a core only reads changes nothing (R276, R418). -/
theorem coreCtlSet_readOnly (hc : t.cur.isCore = true) (hi : coreReadOnly t.cur i) : coreCtlSet i v t = .ok ((), t) := by
  have hsmall (h : i ∈ [0x028, 0x213, 0x220]) : coreCtlSet i v t = .ok ((), t) := by fin_cases h <;> rfl
  by_cases hm : i ∈ [0x028, 0x213, 0x220]
  · exact hsmall hm
  unfold coreReadOnly at hi
  cases h : t.cur with
  | tile site k => rw [h] at hc; cases hc
  | collier =>
    rw [h] at hi
    simp only [List.mem_cons, List.not_mem_nil, or_false, reduceCtorEq, exists_false, false_and, true_and] at hi hm
    rw [coreCtlSet_collier h (by omega)]
    exact collierDevSet_readOnly (by simp only [List.mem_cons, List.not_mem_nil, or_false]; omega)
  | stoker r =>
    rw [h] at hi
    simp only [List.mem_cons, List.not_mem_nil, or_false, reduceCtorEq, false_and, false_or, Agent.stoker.injEq,
      exists_eq', true_and] at hi hm
    rw [coreCtlSet_stoker h (by omega)]
    exact stokerDevSet_readOnly (by simp only [List.mem_cons, List.not_mem_nil, or_false]; omega)

/-! ### CWR on a core -/

/-- The indexes that have a register on a core. -/
def coreListed (a : Agent) (i : Nat) : Prop :=
  i ∈ [2, 3, 4, 5, 6, 7, 0x201, 0x202, 0x203, 0x028, 0x200, 0x213, 0x220, 0x221, 0x222, 0x389, 0x38A]
  ∨ (a = .collier ∧ (collierDevice i ∨ i = 0x390))
  ∨ ((∃ r, a = .stoker r) ∧ (i ∈ [0x300, 0x301, 0x302, 0x303] ∨ (0x3C0 ≤ i ∧ i ≤ 0x3D3)))

theorem coreReadOnly_listed {a : Agent} (h : coreReadOnly a i) : coreListed a i := by
  rcases h with h | ⟨rfl, h⟩ | ⟨hr, h⟩
  · exact .inl (by revert h; simp; omega)
  · exact .inr (.inl ⟨rfl, .inl (by unfold collierDevice; simp; omega)⟩)
  · exact .inr (.inr ⟨hr, by revert h; simp; omega⟩)

theorem ctlListed_core {s : State} (hc : s.cur.isCore = true) (hi : coreListed s.cur i) : ctlListed i s = .ok (true, s) := by
  have hcommon (hm : i ∈ [2, 3, 4, 5, 6, 7, 0x201, 0x202, 0x203, 0x028, 0x200, 0x213, 0x220, 0x221, 0x222, 0x389, 0x38A]) :
      (s.coreCtlGet s.cur i).isSome = true := by
    cases h : s.cur with
    | tile site k => rw [h] at hc; cases hc
    | _ => fin_cases hm <;> rfl
  rw [ctlListed_apply, if_pos hc]
  rcases hi with hm | ⟨h, hd | rfl⟩ | ⟨⟨r, h⟩, hm⟩
  · rw [hcommon hm]; rfl
  · have h300 : 0x300 ≤ i := by
      unfold collierDevice at hd
      simp only [List.mem_cons, List.not_mem_nil, or_false] at hd
      omega
    rw [h, State.coreCtlGet_collier s h300, collierDevGet_isSome s hd]; rfl
  · rw [h]; simp
  · have h300 : 0x300 ≤ i := by
      simp only [List.mem_cons, List.not_mem_nil, or_false] at hm
      omega
    have hs : (s.stokerDevGet r i).isSome = true := stokerDevGet_isSome s r (by
      simp only [List.mem_cons, List.not_mem_nil, or_false] at hm ⊢
      omega)
    rw [h, State.coreCtlGet_stoker s r h300, hs]; rfl

end

section
variable {s t u : State} {stl : Stl} {a : Src} {i : BitVec 10} {v : Word}
variable (hs : s.admits (opI 0x1A stl 16 a.code i)) (hcur : s.opened.cur = t.cur) (hc : t.cur.isCore = true)
  (hr : read1 a s.opened = .ok (v, t)) (hl : coreListed t.cur i.toNat)
include hs hcur hc hr hl

/-- CWR on a core does what the write does. -/
theorem exec_cwr_core {fl : Flow} (hw : writeCtl i.toNat v t = .ok (fl, u)) :
    exec (.cwr stl a i) s = .next (finish (opI 0x1A stl 16 a.code i) fl u) := by
  have hc' : s.opened.cur.isCore = true := hcur ▸ hc
  exact exec_cwr hs (.inl hc') (ctlListed_core hc' (hcur ▸ hl)) hr hw

theorem exec_cwr_core_ends (h6 : i.toNat ≠ 6) (h7 : i.toNat ≠ 7) (hw : coreCtlSet i.toNat v t = .ok ((), u)) :
    exec (.cwr stl a i) s = .next (finish (opI 0x1A stl 16 a.code i) .seq u) :=
  exec_cwr_core hs hcur hc hr hl (writeCtl_core hc h6 h7 hw)

/-- CWR on a core waits for what the write waits for. -/
theorem exec_cwr_core_holds {w : Wait} (h6 : i.toNat ≠ 6) (h7 : i.toNat ≠ 7)
    (hw : coreCtlSet i.toNat v t = .error (.wait w)) : exec (.cwr stl a i) s = .next (s.hold w) := by
  have hc' : s.opened.cur.isCore = true := hcur ▸ hc
  have hb : (i.toNat == 6 || i.toNat == 7) = false := by simp [h6, h7]
  refine hs.issue_wait ?_
  simp only [M.bind_apply, checkIndex_apply, hc', true_or, if_true, M.ok_bind, ctlListed_core hc' (hcur ▸ hl), require_true,
    M.pure_apply, hr, writeCtl, M.get_apply, hb, Bool.false_eq_true, if_false, hc, hw, M.error_bind]

end

/-! ### What the writes of device registers do -/

section
variable {t : State}

/-- A write of an error threshold (R309, R418). -/
theorem State.setEcc_core (t : State) {a : Agent} (ha : a.isCore = true) (n thr : BitVec 32) :
    ((t.setEcc a n thr).core a).eccThr = thr ∧ ((t.setEcc a n thr).core a).eccCnt = n
      ∧ ((t.setEcc a n thr).core a).iedge = (t.core a).iedge |||
        (if thr.toNat ≤ n.toNat ∧ (t.core a).eccCnt.toNat < (t.core a).eccThr.toNat then 0x40 else 0) := by
  have hb : (Nat.ble thr.toNat n.toNat && !Nat.ble (t.core a).eccThr.toNat (t.core a).eccCnt.toNat)
      = decide (thr.toNat ≤ n.toNat ∧ (t.core a).eccCnt.toNat < (t.core a).eccThr.toNat) := by
    rw [Bool.eq_iff_iff]
    simp [ble_eq_decide]
  unfold State.setEcc
  dsimp only
  rw [hb]
  by_cases h : thr.toNat ≤ n.toNat ∧ (t.core a).eccCnt.toNat < (t.core a).eccThr.toNat
  · rw [if_pos (decide_eq_true h), if_pos h, State.raise, State.core_setCore_same ha, State.core_setCore_same ha]
    exact ⟨rfl, rfl, rfl⟩
  · rw [if_neg (by simpa using h), if_neg h, State.core_setCore_same ha]
    exact ⟨rfl, rfl, (BitVec.or_zero ..).symm⟩

theorem State.therm_setTherm_same (s : State) (r : Nat) (x : RegionThermal) : (s.setTherm r x).therm r = x :=
  Table.getD_put_same ..

theorem State.therm_setTherm_other (s : State) {r k : Nat} (x : RegionThermal) (h : k ≠ r) : (s.setTherm r x).therm k = s.therm k :=
  Table.getD_put_other _ _ _ _ _ h

/-- The trips of the first n regions follow a new SNS_CRIT. -/
theorem State.judgeAll (s : State) (crit : BitVec 12) (n : Nat) :
    let u := (List.range n).foldl (fun s r => s.setTherm r ((s.therm r).judged crit)) s
    u.snsCrit = s.snsCrit ∧ ∀ r, u.therm r = if r < n then (s.therm r).judged crit else s.therm r := by
  induction n with
  | zero => exact ⟨rfl, fun r => rfl⟩
  | succ n ih =>
    obtain ⟨hcrit, htherm⟩ := ih
    simp only [List.range_succ, List.foldl_append, List.foldl_cons, List.foldl_nil]
    refine ⟨hcrit, fun r => ?_⟩
    rcases Nat.lt_trichotomy r n with h | rfl | h
    · rw [State.therm_setTherm_other _ _ (Nat.ne_of_lt h), htherm, if_pos h, if_pos (Nat.lt_succ_of_lt h)]
    · rw [State.therm_setTherm_same, htherm, if_neg (Nat.lt_irrefl r), if_pos (Nat.lt_succ_self r)]
    · rw [State.therm_setTherm_other _ _ (Nat.ne_of_gt h), htherm, if_neg (by omega), if_neg (by omega)]

theorem RegionThermal.judged_eq (x : RegionThermal) (crit : BitVec 12) : x.judged crit
    = { x with trip := decide (crit.toNat ≤ x.temp.toNat ∨ (x.trip = true ∧ crit.toNat ≤ x.temp.toNat + 80)) } := by
  unfold RegionThermal.judged
  congr 1
  rw [Bool.eq_iff_iff]
  simp [ble_eq_decide, blt_eq_decide]

/-- A message to a Stoker changes nothing but what carries it. -/
theorem State.toStoker_besideCounts (s : State) (region type v : Nat) :
    (s.toStoker region type v).besideCounts = s.besideCounts := by
  have hdst : Nat.blt (stokerCode region) 0x40000 = false := by
    rw [blt_eq_decide, decide_eq_false_iff_not, stokerCode]
    omega
  unfold State.toStoker State.flueSend
  simp only [hdst, Bool.false_and, Bool.false_eq_true, if_false]
  split
  · rfl
  · split
    · rfl
    · split <;> rfl

/-- A message to a Stoker leaves the sensors. -/
theorem State.toStoker_therm (s : State) (region type v k : Nat) : (s.toStoker region type v).therm k = s.therm k := by
  have h := congrArg (fun u => u.therm k) (s.toStoker_besideCounts region type v)
  exact h

/-- What a W1C write of THERM_ALERT leaves (R419). -/
theorem State.clearAlerts_alert (s : State) (v : Word) :
    (s.clearAlerts v).alert = (s.alert &&& ~~~v) ||| (if s.crossed.1 = s.cycle then s.crossed.2 &&& v else 0) := by
  unfold State.clearAlerts
  simp only [beq_iff_eq]
  generalize (if s.crossed.1 = s.cycle then s.crossed.2 &&& v else 0) = kept
  split
  · rfl
  · exact State.setCore_alert _ _ _

/-- The sub-regions that a write of SGATE gates (R411). -/
theorem State.writeSgate_bit (s : State) (r : Nat) (v : BitVec 16) {k : Nat} (hk : k < 16) :
    ((s.writeSgate r v).stoker r).sgate.getLsbD k
      = (v.getLsbD k && ((s.stoker r).sgate.getLsbD k || !s.subBusy r k)) := by
  have hsum (f : Nat → Bool) (n : Nat) : (List.range n).foldl (fun m k => m + (f k).toNat * 2 ^ k) 0 = bitSum f n := by
    rw [bitSum, List.sum_eq_foldl, List.foldl_map]
  unfold State.writeSgate
  simp only [State.stoker, Table.getD_put_same, hsum]
  rw [BitVec.getLsbD_ofNat, testBit_bitSum]
  simp [hk]

end
end Sys2Proof.Machine
end

section
/-! SUPPORT. Settles O21: every clause of CWR on the Collier and on a Stoker, and all control registers together
(spec/02_state.md R57 to R60, spec/12_sys_isa.md R276, R277, R307, spec/19_sys_wafer.md R411, R418 to R420). -/

namespace Sys2Proof.Machine

section
variable {t : State} {i : Nat} {v : Word}

/-! ### The writes of the Collier's device registers -/

section
variable (hc : t.cur = .collier)
include hc

theorem coreCtlSet_warn : coreCtlSet 0x380 v t = .ok ((), { t with snsWarn := v.setWidth 12 }) := by
  rw [coreCtlSet_collier hc (by decide)]; rfl

theorem coreCtlSet_crit : coreCtlSet 0x381 v t = .ok ((), t.writeCrit (v.setWidth 12)) := by
  rw [coreCtlSet_collier hc (by decide)]; rfl

theorem coreCtlSet_alert : coreCtlSet 0x382 v t = .ok ((), t.clearAlerts v) := by
  rw [coreCtlSet_collier hc (by decide)]; rfl

theorem coreCtlSet_duty {r : Nat} (hr : r < 64) : coreCtlSet (0x340 + r) v t =
    match t.writeDuty r v.toNat with
    | some u => .ok ((), u)
    | none => .error (.wait .held) := by
  have hb : (Nat.ble 0x340 (0x340 + r) && Nat.ble (0x340 + r) 0x37F) = true := by
    simp only [ble_eq_decide, Bool.and_eq_true, decide_eq_true_eq]; omega
  rw [coreCtlSet_collier hc (by omega)]
  simp only [collierDevSet, M.bind_apply, M.get_apply, M.ok_bind, hb, if_true, Nat.add_sub_cancel_left]
  cases t.writeDuty r v.toNat <;> rfl

theorem coreCtlSet_rxuInv : coreCtlSet 0x390 v t =
    if t.rxuBusy = true then .error (.wait .held)
    else .ok ((), t.rxuInvalidate (bitsOf v.toNat 15 0) (if v.getLsbD 62 then none else some (bitsOf v.toNat 51 16))) := by
  rw [coreCtlSet_collier hc (by decide)]
  have hb : (Nat.ble 0x340 0x390 && Nat.ble 0x390 0x37F) = false := rfl
  have hn : (0x390 == 0x390) = true := rfl
  simp only [collierDevSet, M.bind_apply, M.get_apply, M.ok_bind, hb, hn, Bool.false_eq_true, if_false, if_true, require_apply]
  cases t.rxuBusy <;> rfl

end

/-- A write of SNS_WARN changes no other register of the Collier. -/
theorem coreCtlGet_warn (w : BitVec 12) :
    ({ t with snsWarn := w } : State).coreCtlGet .collier 0x380 = some (w.setWidth 64)
      ∧ ∀ j, j ≠ 0x380 → ({ t with snsWarn := w } : State).coreCtlGet .collier j = t.coreCtlGet .collier j := by
  refine ⟨rfl, fun j hj => ?_⟩
  have hdev : ({ t with snsWarn := w } : State).collierDevGet j = t.collierDevGet j := by
    unfold State.collierDevGet
    split; · rfl
    split; · rfl
    split; · rfl
    split <;> trivial
  have houter : ({ t with snsWarn := w } : State).outerReg .collier j = t.outerReg .collier j := by
    unfold State.outerReg
    split
    case h_4 => exact hdev
    all_goals rfl
  rw [State.coreCtlGet_eq, State.coreCtlGet_eq, houter]
  rfl

/-- The translations that a write of RXUINV removes (R420). -/
theorem State.rxuInvalidate_eq (t : State) (v : Word) :
    t.rxuInvalidate (bitsOf v.toNat 15 0) (if v.getLsbD 62 then none else some (bitsOf v.toNat 51 16))
      = { t with
          rxuBusy := true
          rxu := t.rxu.filter fun e => !decide (e.1.1 = v.toNat % 2 ^ 16
            ∧ (v.toNat / 2 ^ 62 % 2 = 1 ∨ e.1.2 = v.toNat / 2 ^ 16 % 2 ^ 36)) } := by
  have hb : v.getLsbD 62 = true ↔ v.toNat / 2 ^ 62 % 2 = 1 := by rw [BitVec.getLsbD, Nat.testBit_eq_decide_div_mod_eq, decide_eq_true_eq]
  have hasid : bitsOf v.toNat 15 0 = v.toNat % 2 ^ 16 := by rw [bitsOf, Nat.pow_zero, Nat.div_one]
  unfold State.rxuInvalidate
  rw [hasid]
  congr 1
  refine List.filter_congr fun e _ => ?_
  refine congrArg (fun b => !b) ?_
  rw [Bool.eq_iff_iff, Bool.and_eq_true, beq_iff_eq, decide_eq_true_eq]
  refine and_congr_right fun _ => ?_
  by_cases h : v.toNat / 2 ^ 62 % 2 = 1
  · rw [if_pos (hb.mpr h)]
    exact iff_of_true rfl (.inl h)
  · rw [if_neg (mt hb.mp h), or_iff_right h, Option.isNone_some, Bool.false_or, beq_iff_eq,
      Option.some_inj, eq_comm]
    rfl

/-- A write of THR_DUTY (R419). -/
theorem State.writeDuty_eq (t : State) (r : Nat) (v : Nat) : t.writeDuty r v =
    if v % 32 = 0 ∨ 16 < v % 32 then some t
    else if (t.link r).toStoker = 0 then none
    else some ((t.toStoker r 0x80 (v % 32 * 2 ^ 16)).setTherm r { t.therm r with duty := v % 32, pend := true }) := by
  unfold State.writeDuty
  simp only [blt_eq_decide, Bool.or_eq_true, beq_iff_eq, decide_eq_true_eq, State.toStoker_therm]

/-! ### The registers that are written and read back -/

/-- The rows of a core's registers: those of every core, and SNS_WARN of the Collier. -/
theorem coreRow_cases {a : Agent} {r : CtlRow} (hr : r ∈ coreRows a) :
    r ∈ coreRows (.stoker 0) ∨ (a = .collier ∧ r = ctlPlain 0x380 12) := by
  unfold coreRows at hr ⊢
  rcases List.mem_append.mp hr with h | h
  · exact .inl (List.mem_append_left _ h)
  · by_cases ha : a = .collier
    · rw [if_pos ha] at h
      exact .inr ⟨ha, List.mem_singleton.mp h⟩
    · rw [if_neg ha] at h
      exact absurd h List.not_mem_nil

/-- The registers that every core has stand in the list, and none is a loop level. -/
theorem coreRow_listed (a : Agent) {r : CtlRow} (hr : r ∈ coreRows (.stoker 0)) :
    coreListed a r.index ∧ r.index ≠ 6 ∧ r.index ≠ 7 := by
  have h : r.index ∈ [2, 3, 4, 5, 0x200, 0x201, 0x202, 0x203, 0x221, 0x222] := by
    simp only [coreRows, ctlPlain, reduceCtorEq, if_false, List.append_nil, List.mem_cons, List.not_mem_nil, or_false] at hr
    rcases hr with rfl | rfl | rfl | rfl | rfl | rfl | rfl | rfl | rfl | rfl <;> simp
  simp only [List.mem_cons, List.not_mem_nil, or_false] at h
  exact ⟨.inl (by simp only [List.mem_cons, List.not_mem_nil, or_false]; omega), by omega, by omega⟩

/-- A register of a core that is written takes its bits, and no other register of the core changes. -/
theorem coreCtlSet_row {r : CtlRow} (hc : t.cur.isCore = true) (hr : r ∈ coreRows t.cur) : ∃ x u,
    t.coreCtlGet t.cur r.index = some x ∧ coreCtlSet r.index v t = .ok ((), u)
      ∧ u.coreCtlGet t.cur r.index = some (ofN (r.kept x.toNat v.toNat))
      ∧ ∀ j, j ≠ r.index → u.coreCtlGet t.cur j = t.coreCtlGet t.cur j := by
  rcases coreRow_cases hr with h | ⟨h, rfl⟩
  · obtain ⟨x, c, hx, hw⟩ := State.coreWrite_row (v := v) hc h
    exact ⟨x, _, hx, hw.set, State.coreCtlGet_written hc hw.device hw.pend hw.reads hw.rest⟩
  · obtain ⟨hread, hrest⟩ := coreCtlGet_warn (t := t) (v.setWidth 12)
    rw [h]
    exact ⟨_, _, rfl, coreCtlSet_warn h, hread.trans (congrArg some (setWidth_setWidth_eq_ofN v 12)), hrest⟩

end

theorem LoopLevel.ofWord_eq (v : Word) : LoopLevel.ofWord v
    = ⟨BitVec.ofNat 32 v.toNat, BitVec.ofNat 16 (v.toNat / 2 ^ 32), BitVec.ofNat 16 (v.toNat / 2 ^ 48)⟩ := by
  simp only [LoopLevel.ofWord, BitVec.extractLsb', BitVec.ofNat_toNat, Nat.shiftRight_eq_div_pow]

/-! ### CWR on a core -/

theorem coreRegisterWrites : Claim.CoreRegisterWrites := by
  intro stl a i s v t hs hcur hc hr
  have run {u : State} (hl : coreListed t.cur i.toNat) (h6 : i.toNat ≠ 6) (h7 : i.toNat ≠ 7)
      (hw : coreCtlSet i.toNat v t = .ok ((), u)) := exec_cwr_core_ends hs hcur hc hr hl h6 h7 hw
  have dev (hcol : t.cur = .collier) (h : collierDevice i.toNat) : coreListed t.cur i.toNat := .inr (.inl ⟨hcol, .inl h⟩)
  have duty (hcol : t.cur = .collier) {r : Nat} (hr64 : r < 64) (hi : i.toNat = 0x340 + r) : coreListed t.cur i.toNat :=
    dev hcol (.inr (.inl (by omega)))
  refine ⟨fun r hrow hi => ?_, fun hro => ?_, ⟨fun hi => ?_, fun hi => ?_⟩, fun hi => ?_, fun hcol => ⟨fun hi => ?_, fun hi => ?_,
    fun r hr64 hi => ⟨?_, ?_, ?_⟩, fun hi => ⟨?_, ?_⟩⟩, fun r hst => ⟨fun hi => ?_, fun hi => ?_⟩⟩
  · obtain ⟨x, u, hx, hw, hread, hrest⟩ := coreCtlSet_row (v := v) hc hrow
    have hl : coreListed t.cur r.index ∧ r.index ≠ 6 ∧ r.index ≠ 7 := by
      rcases coreRow_cases hrow with h | ⟨h, rfl⟩
      · exact coreRow_listed t.cur h
      · exact ⟨.inr (.inl ⟨h, .inl (.inr (.inr (.inr (by decide))))⟩), by decide, by decide⟩
    rw [hi] at hl hw
    exact ⟨x, u, hx, run hl.1 hl.2.1 hl.2.2 hw, hread, hrest⟩
  · have h67 : i.toNat ≠ 6 ∧ i.toNat ≠ 7 := by
      have hl := hro
      simp only [coreReadOnly, List.mem_cons, List.not_mem_nil, or_false] at hl
      omega
    exact run (coreReadOnly_listed hro) h67.1 h67.2 (coreCtlSet_readOnly hc hro)
  · exact exec_cwr_core hs hcur hc hr (by rw [hi]; exact .inl (by decide)) (by
      rw [hi, writeCtl_loop (.inl rfl) (x := { (t.slot t.cur).next 2 with lc0 := .ofWord v }) rfl, LoopLevel.ofWord_eq])
  · exact exec_cwr_core hs hcur hc hr (by rw [hi]; exact .inl (by decide)) (by
      rw [hi, writeCtl_loop (.inr rfl) (x := { (t.slot t.cur).next 2 with lc1 := .ofWord v }) rfl, LoopLevel.ofWord_eq])
  · have hw : coreCtlSet i.toNat v t = .ok ((), t.setEcc t.cur (t.core t.cur).eccCnt (v.setWidth 32)) := by
      rw [hi]
      cases h : t.cur with
      | tile site k => rw [h] at hc; cases hc
      | collier => rw [coreCtlSet_collier h (by decide)]; rfl
      | stoker r => rw [coreCtlSet_stoker h (by decide)]; rfl
    obtain ⟨hthr, hcnt, hedge⟩ := t.setEcc_core hc (t.core t.cur).eccCnt (v.setWidth 32)
    rw [BitVec.toNat_setWidth] at hedge
    exact ⟨_, run (.inl (by rw [hi]; decide)) (by rw [hi]; decide) (by rw [hi]; decide) hw,
      by rw [hthr, BitVec.toNat_setWidth], hcnt, hedge⟩
  · obtain ⟨hcrit, htherm⟩ := State.judgeAll { t with snsCrit := v.setWidth 12 } (v.setWidth 12) 64
    refine ⟨_, run (dev hcol (.inr (.inr (.inr (by rw [hi]; decide))))) (by rw [hi]; decide) (by rw [hi]; decide)
      (hi ▸ coreCtlSet_crit hcol), ?_, fun r hr64 => ?_⟩
    · exact (congrArg BitVec.toNat hcrit).trans (BitVec.toNat_setWidth ..)
    · refine ((htherm r).trans (if_pos hr64)).trans ((RegionThermal.judged_eq ..).trans ?_)
      rw [BitVec.toNat_setWidth]
      rfl
  · exact ⟨_, run (dev hcol (.inr (.inr (.inr (by rw [hi]; decide))))) (by rw [hi]; decide) (by rw [hi]; decide)
      (hi ▸ coreCtlSet_alert hcol), State.clearAlerts_alert t v⟩
  · intro hd
    refine run (duty hcol hr64 hi) (by omega) (by omega) ?_
    rw [hi, coreCtlSet_duty hcol hr64, State.writeDuty_eq, if_pos hd]
  · intro h0 h16 hlink
    refine exec_cwr_core_holds hs hcur hc hr (duty hcol hr64 hi) (by omega) (by omega) ?_
    rw [hi, coreCtlSet_duty hcol hr64, State.writeDuty_eq, if_neg (by omega), if_pos hlink]
  · intro h0 h16 hlink
    refine run (duty hcol hr64 hi) (by omega) (by omega) ?_
    rw [hi, coreCtlSet_duty hcol hr64, State.writeDuty_eq, if_neg (by omega), if_neg hlink]
  · intro hb
    refine exec_cwr_core_holds hs hcur hc hr (.inr (.inl ⟨hcol, .inr hi⟩)) (by omega) (by omega) ?_
    rw [hi, coreCtlSet_rxuInv hcol, if_pos hb]
  · intro hb
    refine run (.inr (.inl ⟨hcol, .inr hi⟩)) (by omega) (by omega) ?_
    rw [hi, coreCtlSet_rxuInv hcol, if_neg (by rw [hb]; exact Bool.false_ne_true), State.rxuInvalidate_eq]
  · have hv : v.setWidth 16 = BitVec.ofNat 16 v.toNat := by rw [BitVec.ofNat_toNat]
    refine ⟨run (.inr (.inr ⟨⟨r, hst⟩, .inl (by rw [hi]; decide)⟩)) (by omega) (by omega) ?_, fun k hk => ?_⟩
    · rw [hi, coreCtlSet_stoker hst (by decide), ← hv]; rfl
    · rw [State.writeSgate_bit t r _ hk, ← hv, BitVec.getLsbD_setWidth, decide_eq_true hk, Bool.true_and]
  · refine run (.inr (.inr ⟨⟨r, hst⟩, .inr (by omega)⟩)) (by omega) (by omega) ?_
    rw [hi, coreCtlSet_stoker hst (by decide)]; rfl

/-- Settles O21: CRD reads, and CWR writes, each register of a tile and of a core. -/
theorem controlRegisters : Obligations.ControlRegisters :=
  ⟨controlRegisterReads, controlRegisterWrites, coreRegisterWrites⟩

end Sys2Proof.Machine
end

section
/-! SUPPORT. Lanes and flags of vector results (spec/02_state.md R48, spec/03_numbers.md R65, R73): the lanes of a packed vector, the
environment that a vector instruction reads, and the shapes of form V as they issue. -/

namespace Sys2Proof.Machine

/-! ### Packed lanes -/

section
variable {w n i j : Nat} {f : Nat → Nat} {g : Nat → Nat × BitVec 6}

theorem packLanes_lt (w : Nat) (f : Nat → Nat) (n i : Nat) : packLanes w f n i < 2 ^ (w * n) := by
  induction n generalizing i with
  | zero => simp [packLanes]
  | succ n ih =>
    have hm : f i % 2 ^ w < 2 ^ w := Nat.mod_lt _ (Nat.two_pow_pos w)
    have hr := ih (i + 1)
    have hp : 2 ^ (w * (n + 1)) = 2 ^ (w * n) * 2 ^ w := by rw [← Nat.pow_add, Nat.mul_succ]
    have hs := Nat.mul_le_mul_right (2 ^ w) (Nat.succ_le_of_lt hr)
    rw [Nat.succ_mul] at hs
    rw [packLanes, hp]
    omega

/-- Lane j of a packed vector. -/
theorem elemBits_packLanes (w : Nat) (f : Nat → Nat) (n i : Nat) (hj : j < n) :
    elemBits (packLanes w f n i) w j = f (i + j) % 2 ^ w := by
  unfold elemBits
  induction n generalizing i j with
  | zero => omega
  | succ n ih =>
    have hm : f i % 2 ^ w < 2 ^ w := Nat.mod_lt _ (Nat.two_pow_pos w)
    rw [packLanes]
    cases j with
    | zero => rw [Nat.mul_zero, Nat.pow_zero, Nat.div_one, Nat.add_mul_mod_self_right, Nat.mod_mod]; rfl
    | succ j =>
      rw [Nat.mul_succ, Nat.add_comm (w * j), Nat.pow_add, ← Nat.div_div_eq_div_mul, Nat.add_mul_div_right _ _ (Nat.two_pow_pos w),
        Nat.div_eq_of_lt hm, Nat.zero_add, ih (i + 1) (by omega), Nat.add_right_comm]
      rfl

theorem packFlags_fst (w : Nat) (g : Nat → Nat × BitVec 6) (n i : Nat) :
    (packFlags w g n i).1 = packLanes w (fun k => (g k).1) n i := by
  induction n generalizing i with
  | zero => rfl
  | succ n ih => rw [packFlags, packLanes]; dsimp only; rw [ih]

theorem foldl_or (xs : List (BitVec 6)) (b : BitVec 6) : xs.foldl (fun x y => x ||| y) b = b ||| xs.foldl (fun x y => x ||| y) 0 := by
  induction xs generalizing b with
  | nil => simp
  | cons x xs ih =>
    have h0 : (0 : BitVec 6) ||| x = x := BitVec.zero_or
    rw [List.foldl_cons, List.foldl_cons, ih, h0, ih x, BitVec.or_assoc]

theorem packFlags_snd (w : Nat) (g : Nat → Nat × BitVec 6) (n i : Nat) :
    (packFlags w g n i).2 = orFlags (fun k => (g (i + k)).2) n := by
  induction n generalizing i with
  | zero => rfl
  | succ n ih =>
    have hs (k : Nat) : i + 1 + k = i + (k + 1) := by omega
    have h0 : (0 : BitVec 6) ||| (g (i + 0)).2 = (g i).2 := BitVec.zero_or
    rw [packFlags, orFlags, List.range_succ_eq_map, List.map_cons, List.foldl_cons, foldl_or, List.map_map, h0]
    dsimp only
    rw [ih, orFlags]
    simp only [hs]
    rfl

end

/-! ### The environment of a vector instruction -/

theorem fmtWidth_ge (c : Nat) : fmtWidth c = 0 ∨ 4 ≤ fmtWidth c := by
  unfold fmtWidth
  split <;> simp

theorem fmtWidth_mul_fmtLanes (c : Nat) : fmtWidth c * fmtLanes c ≤ 4096 := Nat.mul_div_le ..

theorem fmtLanes_le (c : Nat) : fmtLanes c ≤ 1024 := by
  unfold fmtLanes
  rcases fmtWidth_ge c with h | h
  · simp [h]
  · exact (Nat.div_le_div_left h (by decide)).trans (by decide)

theorem fmtWidth_pos_of_lane {c i : Nat} (hi : i < fmtLanes c) : 0 < fmtWidth c := by
  rcases fmtWidth_ge c with h | h
  · simp [fmtLanes, h] at hi
  · omega

/-- Whatever a body answers has a property. -/
def M.Answers {α : Type} (P : α → Prop) (m : M α) : Prop := ∀ s x t, m s = .ok (x, t) → P x

theorem M.Answers.bind {α β : Type} {P : β → Prop} {m : M α} {f : α → M β} (h : ∀ x, M.Answers P (f x)) : M.Answers P (m >>= f) := by
  intro s y t he
  rw [M.bind_apply] at he
  cases hm : m s with
  | error e => rw [hm] at he; cases he
  | ok r => rw [hm] at he; exact h _ _ _ _ he

theorem M.Answers.pure {α : Type} {P : α → Prop} {x : α} (h : P x) : M.Answers P (Pure.pure x : M α) := by
  intro s y t he
  cases he
  exact h

/-- An environment is that of a slot under a mask. -/
def VEnv.ofSlot (e : VEnv) : Prop := ∃ (sl : Slot) (k : MaskWord), e = sl.venv k

theorem VEnv.ofSlot.width_eq {e : VEnv} (h : e.ofSlot) : e.width = fmtWidth e.fmt := by
  obtain ⟨sl, k, rfl⟩ := h; rfl

theorem VEnv.ofSlot.lanes_eq {e : VEnv} (h : e.ofSlot) : e.lanes = fmtLanes e.fmt := by
  obtain ⟨sl, k, rfl⟩ := h; rfl

section
variable {ok : Nat → Bool} {a b : VSrc} {m : MaskNo}

theorem vecArgs2_env (d : VDst) : M.Answers (fun r => r.1.ofSlot) (vecArgs2 ok d a b m) := by
  unfold vecArgs2
  repeat refine .bind fun _ => ?_
  exact .pure ⟨_, _, rfl⟩

theorem vecArgs1_env (d : VDst) : M.Answers (fun r => r.1.ofSlot) (vecArgs1 ok d a m) := by
  unfold vecArgs1
  repeat refine .bind fun _ => ?_
  exact .pure ⟨_, _, rfl⟩

theorem vecArgsCmp_env (d : MaskNo) : M.Answers (fun r => r.1.ofSlot) (vecArgsCmp ok d a b m) := by
  unfold vecArgsCmp
  repeat refine .bind fun _ => ?_
  exact .pure ⟨_, _, rfl⟩

theorem vecArgs3_env (d : VDst) (c : BitVec 2) : M.Answers (fun r => r.1.ofSlot) (vecArgs3 d a b c) := by
  unfold vecArgs3
  repeat refine .bind fun _ => ?_
  exact .pure ⟨_, _, rfl⟩

end

/-- The lanes of a packed result. -/
theorem elemBits_packFlags {e : VEnv} (he : e.ofSlot) (g : Nat → Nat × BitVec 6) {i : Nat} (hi : i < e.lanes) :
    elemBits (BitVec.ofNat 4096 (packFlags e.width g e.lanes 0).1).toNat e.width i = (g i).1 % 2 ^ e.width := by
  have hle : e.width * e.lanes ≤ 4096 := by
    rw [he.width_eq, he.lanes_eq]
    exact fmtWidth_mul_fmtLanes _
  have hlt := (packLanes_lt e.width (fun k => (g k).1) e.lanes 0).trans_le (Nat.pow_le_pow_right Nat.two_pos hle)
  rw [BitVec.toNat_ofNat, packFlags_fst, Nat.mod_eq_of_lt hlt, elemBits_packLanes _ _ _ _ hi, Nat.zero_add]

theorem orFlags_zero (n : Nat) : orFlags (fun _ => 0) n = 0 := by
  induction n with
  | zero => rfl
  | succ n ih =>
    rw [orFlags] at ih ⊢
    rw [List.range_succ, List.map_append, List.foldl_append, ih]
    exact BitVec.zero_or

theorem VEnv.lane_lt (e : VEnv) (x i : Nat) : e.lane x i < 2 ^ e.width := Nat.mod_lt _ (Nat.two_pow_pos _)

/-- A lane has a width. -/
theorem VEnv.ofSlot.width_pos {e : VEnv} (he : e.ofSlot) {i : Nat} (hi : i < e.lanes) : 0 < e.width := by
  rw [he.lanes_eq] at hi
  rw [he.width_eq]
  exact fmtWidth_pos_of_lane hi

/-- A lanewise result: the values of the active lanes beside zeros, and the flags of the active lanes ORed (R48, R73). -/
theorem packFlags_lanewise {e : VEnv} (he : e.ofSlot) (f : Nat → Nat × BitVec 6) :
    let p := packFlags e.width (fun i => if e.on i then f i else (0, 0)) e.lanes 0
    p.2 = orFlags (fun i => if e.on i then (f i).2 else 0) e.lanes
      ∧ ∀ i, i < e.lanes → elemBits (BitVec.ofNat 4096 p.1).toNat e.width i = if e.on i then (f i).1 % 2 ^ e.width else 0 := by
  refine ⟨?_, fun i hi => ?_⟩
  · rw [packFlags_snd]
    congr 1
    funext i
    rw [Nat.zero_add]
    split <;> rfl
  · rw [elemBits_packFlags he _ hi]
    split
    · rfl
    · exact Nat.zero_mod _

/-- Truths packed one bit a lane, with their flags ORed. -/
def packTruths (g : Nat → Bool × BitVec 6) (n : Nat) : Nat × BitVec 6 := packFlags 1 (fun k => ((g k).1.toNat, (g k).2)) n 0

/-- The truth of an active lane, and false on the others (R48). -/
def VEnv.truths (e : VEnv) (f : VEnv → Nat → Nat → Bool × BitVec 6) (x y i : Nat) : Bool × BitVec 6 :=
  if e.on i then f e (e.lane x i) (e.lane y i) else (false, 0)

/-- The bits of a packed mask. -/
theorem getLsbD_packTruths {e : VEnv} (he : e.ofSlot) (g : Nat → Bool × BitVec 6) (i : Nat) :
    (BitVec.ofNat 1024 (packTruths g e.lanes).1).getLsbD i = (decide (i < e.lanes) && (g i).1) := by
  have hl : e.lanes ≤ 1024 := he.lanes_eq ▸ fmtLanes_le _
  have hlt := packLanes_lt 1 (fun k => (g k).1.toNat) e.lanes 0
  rw [Nat.one_mul] at hlt
  rw [BitVec.getLsbD_ofNat, packTruths, packFlags_fst]
  by_cases hi : i < e.lanes
  · have h := elemBits_packLanes 1 (fun k => (g k).1.toNat) e.lanes 0 hi
    rw [elemBits, Nat.one_mul, Nat.zero_add] at h
    have hb : (g i).1.toNat % 2 ^ 1 = (g i).1.toNat := Nat.mod_eq_of_lt (by have := Bool.toNat_le (g i).1; omega)
    have h' : packLanes 1 (fun k => (g k).1.toNat) e.lanes 0 / 2 ^ i % 2 = (g i).1.toNat := h.trans hb
    rw [Nat.testBit_eq_decide_div_mod_eq, h', decide_eq_true hi, decide_eq_true (by omega : i < 1024)]
    cases (g i).1 <;> rfl
  · rw [Nat.testBit_lt_two_pow (hlt.trans_le (Nat.pow_le_pow_right Nat.two_pos (Nat.le_of_not_lt hi))), decide_eq_false hi]
    simp

/-! ### The shapes of form V -/

section
variable {s t : State} {ok : Nat → Bool} {a b : VSrc} {m : MaskNo} {e : VEnv} {x y z : Vec × Side} {lam : Nat}

theorem vop2_eq {d : VDst} (f : VEnv → Nat → Nat → Nat → Nat × BitVec 6)
    (h : vecArgs2 ok d a b m s = .ok ((e, x, y), t)) :
    vop2 lam ok d a b m f s = .ok (.seq, t.withVResult (vlat lam [a, b])
      (packFlags e.width (f e x.1.toNat y.1.toNat) e.lanes 0).2 d
      (BitVec.ofNat 4096 (packFlags e.width (f e x.1.toNat y.1.toNat) e.lanes 0).1) x.2) := by
  have hb : vop2 lam ok d a b m f = vecArgs2 ok d a b m >>= fun r => do
      let p := packFlags r.1.width (f r.1 r.2.1.1.toNat r.2.2.1.toNat) r.1.lanes 0
      writeVDst (vlat lam [a, b]) p.2 d (BitVec.ofNat 4096 p.1) r.2.1.2
      return .seq := by
    simp only [vop2, vecArgs2, bind_assoc, pure_bind]
  rw [hb, M.bind_ok h]
  rfl

theorem vop1_eq {d : VDst} (f : VEnv → Nat → Nat × BitVec 6) (h : vecArgs1 ok d a m s = .ok ((e, x), t)) :
    vop1 lam ok d a m f s = .ok (.seq, t.withVResult (vlat lam [a]) (f e x.1.toNat).2 d
      (BitVec.ofNat 4096 (f e x.1.toNat).1) x.2) := by
  have hb : vop1 lam ok d a m f = vecArgs1 ok d a m >>= fun r => do
      writeVDst (vlat lam [a]) (f r.1 r.2.1.toNat).2 d (BitVec.ofNat 4096 (f r.1 r.2.1.toNat).1) r.2.2
      return .seq := by
    simp only [vop1, vecArgs1, bind_assoc, pure_bind]
  rw [hb, M.bind_ok h]
  rfl

theorem vcmp_eq {d : MaskNo} (f : VEnv → Nat → Nat → Bool × BitVec 6) (h : vecArgsCmp ok d a b m s = .ok ((e, x, y), t)) :
    vcmp lam ok d a b m f s = .ok (.seq, t.withMask (vlat lam [a, b]) (packTruths (e.truths f x.1.toNat y.1.toNat) e.lanes).2 d
      (BitVec.ofNat 1024 (packTruths (e.truths f x.1.toNat y.1.toNat) e.lanes).1)) := by
  have hb : vcmp lam ok d a b m f = vecArgsCmp ok d a b m >>= fun r => do
      let p := packFlags 1 (fun i =>
        if r.1.on i then
          let c := f r.1 (r.1.lane r.2.1.1.toNat i) (r.1.lane r.2.2.1.toNat i)
          (c.1.toNat, c.2)
        else (0, 0)) r.1.lanes 0
      writeMask (vlat lam [a, b]) p.2 d (BitVec.ofNat 1024 p.1)
      return .seq := by
    simp only [vcmp, vecArgsCmp, bind_assoc, pure_bind]
  have hp : packTruths (e.truths f x.1.toNat y.1.toNat) e.lanes = packFlags 1 (fun i =>
      if e.on i then
        ((f e (e.lane x.1.toNat i) (e.lane y.1.toNat i)).1.toNat, (f e (e.lane x.1.toNat i) (e.lane y.1.toNat i)).2)
      else (0, 0)) e.lanes 0 := by
    unfold packTruths VEnv.truths
    congr 1
    funext i
    split <;> rfl
  rw [hb, M.bind_ok h, hp]
  rfl

theorem vred_eq {d : Dst} (f : VEnv → Nat → Nat × BitVec 6) (h : vecArgsRed ok d a m s = .ok ((e, x), t)) :
    vred lam ok d a m f s
      = .ok (.seq, t.withResult (vlat lam [a]) (f e x.1.toNat).2 d (BitVec.ofNat 64 (f e x.1.toNat).1)) := by
  have hb : vred lam ok d a m f = vecArgsRed ok d a m >>= fun r => do
      writeDst (vlat lam [a]) (f r.1 r.2.1.toNat).2 d (BitVec.ofNat 64 (f r.1 r.2.1.toNat).1)
      return .seq := by
    simp only [vred, vecArgsRed, bind_assoc, pure_bind]
  rw [hb, M.bind_ok h]
  rfl

theorem vfma_eq {d : VDst} {c : BitVec 2} (np na : Bool) (h : vecArgs3 d a b c s = .ok ((e, x, y, z), t)) :
    let p := packFlags e.width (fun i => if e.on i then
      floatFma e.fmt e.rounding np na (e.lane x.1.toNat i) (e.lane y.1.toNat i) (e.lane z.1.toNat i) else (0, 0)) e.lanes 0
    vfma d a b c np na s = .ok (.seq, t.withVResult (vlat 6 [a, b]) p.2 d (BitVec.ofNat 4096 p.1) x.2) := by
  have hb : vfma d a b c np na = vecArgs3 d a b c >>= fun r => do
      let p := packFlags r.1.width (fun i => if r.1.on i then
        floatFma r.1.fmt r.1.rounding np na (r.1.lane r.2.1.1.toNat i) (r.1.lane r.2.2.1.1.toNat i)
          (r.1.lane r.2.2.2.1.toNat i) else (0, 0)) r.1.lanes 0
      writeVDst (vlat 6 [a, b]) p.2 d (BitVec.ofNat 4096 p.1) r.2.1.2
      return .seq := by
    simp only [vfma, vecArgs3, bind_assoc, pure_bind]
  rw [hb, M.bind_ok h]
  rfl

end

end Sys2Proof.Machine
end

section
/-! SUPPORT. Settles O5: the values of integer and bitwise lanes (spec/03_numbers.md R65, spec/07_isa_vector.md R183, R184). -/

namespace Sys2Proof.Machine

/-! ### A lane as an integer -/

section
variable {w x y : Nat}

theorem laneI_lt (w : Nat) (i : Int) : laneI w i < 2 ^ w := by
  have hp : (0 : Int) < (2 ^ w : Nat) := Int.natCast_pos.mpr (Nat.two_pow_pos w)
  have h0 := Int.emod_nonneg i (Int.ne_of_gt hp)
  have h1 := Int.emod_lt_of_pos i hp
  unfold laneI
  omega

theorem laneI_mod (w : Nat) (i : Int) : laneI w i % 2 ^ w = laneI w i := Nat.mod_eq_of_lt (laneI_lt w i)

theorem laneI_natCast (w n : Nat) : laneI w n = n % 2 ^ w := by
  rw [laneI, ← Int.natCast_mod, Int.toNat_natCast]

theorem laneI_add_two_pow (w : Nat) (i : Int) : laneI w (i + (2 ^ w : Nat)) = laneI w i := by
  rw [laneI, Int.add_emod_right, laneI]

theorem ofSigned_eq_laneI (w : Nat) (i : Int) : ofSigned w i = laneI w i := rfl

/-- The signed value of a lane is that of R65. -/
theorem toSigned_eq_laneS (hw : 0 < w) (hx : x < 2 ^ w) : toSigned w x = laneS w x := by
  obtain ⟨v, rfl⟩ : ∃ v, w = v + 1 := ⟨w - 1, by omega⟩
  have hp : 2 ^ (v + 1) = 2 * 2 ^ v := by rw [Nat.pow_succ, Nat.mul_comm]
  rw [toSigned, Nat.mod_eq_of_lt hx]
  simp only [laneS, blt_eq_decide, decide_eq_true_eq, Nat.add_sub_cancel, hp,
    Nat.mul_lt_mul_left (Nat.two_pos)]

/-- A lane is the integer that it holds, modulo its width. -/
theorem laneI_laneS (hx : x < 2 ^ w) : laneI w (laneS w x) = x := by
  unfold laneS
  split
  · rw [laneI_natCast, Nat.mod_eq_of_lt hx]
  · rw [← laneI_add_two_pow, Int.sub_add_cancel, laneI_natCast, Nat.mod_eq_of_lt hx]

theorem laneS_bounds (hx : x < 2 ^ w) : -(2 ^ w : Nat) ≤ laneS w x ∧ laneS w x < (2 ^ w : Nat) := by
  unfold laneS
  split <;> omega

/-! ### The operations -/

theorem sub_lane (x : Nat) (hy : y < 2 ^ w) : (x + (2 ^ w - y)) % 2 ^ w = laneI w (x - y) := by
  rw [← laneI_natCast, ← laneI_add_two_pow w (x - y)]
  congr 1
  omega

/-- The high half of a signed product. -/
theorem high_lane (w : Nat) (p : Int) : ofSigned (2 * w) p / 2 ^ w % 2 ^ w = laneI w (p / (2 ^ w : Nat)) := by
  have hp : (0 : Int) < (2 ^ w : Nat) := Int.natCast_pos.mpr (Nat.two_pow_pos w)
  have hsq : ((2 ^ (2 * w) : Nat) : Int) = (2 ^ w : Nat) * (2 ^ w : Nat) := by
    rw [Nat.two_mul, Nat.pow_add, Int.natCast_mul]
  have hnn : 0 ≤ p % ((2 ^ w : Nat) * (2 ^ w : Nat)) := Int.emod_nonneg _ (Int.ne_of_gt (Int.mul_pos hp hp))
  have hdiv : p % ((2 ^ w : Nat) * (2 ^ w : Nat)) / (2 ^ w : Nat)
      = p / (2 ^ w : Nat) + (2 ^ w : Nat) * -(p / ((2 ^ w : Nat) * (2 ^ w : Nat))) := by
    rw [Int.emod_def, Int.mul_assoc, Int.sub_eq_add_neg, ← Int.mul_neg, Int.add_mul_ediv_left _ _ (Int.ne_of_gt hp), Int.mul_neg]
  rw [← laneI_natCast, Int.natCast_ediv, ofSigned, hsq, Int.toNat_of_nonneg hnn, hdiv, laneI, Int.add_mul_emod_self_left, laneI]

theorem ediv_of_small {i M : Int} (h0 : -M ≤ i) (h1 : i < M) : i / M = if i < 0 then -1 else 0 := by
  have hM : 0 < M := by omega
  split
  · exact ((Int.ediv_emod_unique hM).mpr ⟨by omega, by omega, by omega⟩ : _ ∧ i % M = i + M).1
  · exact Int.ediv_eq_zero_of_lt (by omega) h1

/-- An arithmetic shift by more than the width fills the lane with its sign. -/
theorem shiftRight_lane (hx : x < 2 ^ w) (y : Nat) : laneS w x / (2 ^ min w y : Nat) = laneS w x / (2 ^ y : Nat) := by
  obtain ⟨h0, h1⟩ := laneS_bounds hx
  rcases Nat.le_total y w with h | h
  · rw [Nat.min_eq_right h]
  · have hp : (2 ^ w : Nat) ≤ 2 ^ y := Nat.pow_le_pow_right Nat.two_pos h
    rw [Nat.min_eq_left h, ediv_of_small h0 h1, ediv_of_small (by omega) (by omega)]

theorem shl_lane (w x y : Nat) : (if Nat.ble w y then 0 else x * 2 ^ y) % 2 ^ w = x * 2 ^ y % 2 ^ w := by
  by_cases h : w ≤ y
  · rw [if_pos (Nat.ble_eq_true_of_le h), Nat.zero_mod]
    exact (Nat.mod_eq_zero_of_dvd (Nat.dvd_mul_left_of_dvd (Nat.pow_dvd_pow 2 h) x)).symm
  · rw [if_neg (mt Nat.le_of_ble_eq_true h)]

theorem shr_lane (hx : x < 2 ^ w) (y : Nat) : (if Nat.ble w y then 0 else x / 2 ^ y) % 2 ^ w = x / 2 ^ y := by
  by_cases h : w ≤ y
  · rw [if_pos (Nat.ble_eq_true_of_le h), Nat.zero_mod, Nat.div_eq_of_lt (hx.trans_le (Nat.pow_le_pow_right Nat.two_pos h))]
  · rw [if_neg (mt Nat.le_of_ble_eq_true h), Nat.mod_eq_of_lt ((Nat.div_le_self ..).trans_lt hx)]

theorem min_lane (hx : x < 2 ^ w) (hy : y < 2 ^ w) :
    (if laneS w y < laneS w x then y else x) % 2 ^ w = laneI w (min (laneS w x) (laneS w y)) := by
  split
  · rw [Int.min_eq_right (by omega), laneI_laneS hy, Nat.mod_eq_of_lt hy]
  · rw [Int.min_eq_left (by omega), laneI_laneS hx, Nat.mod_eq_of_lt hx]

theorem max_lane (hx : x < 2 ^ w) (hy : y < 2 ^ w) :
    (if laneS w x < laneS w y then y else x) % 2 ^ w = laneI w (max (laneS w x) (laneS w y)) := by
  split
  · rw [Int.max_eq_right (by omega), laneI_laneS hy, Nat.mod_eq_of_lt hy]
  · rw [Int.max_eq_left (by omega), laneI_laneS hx, Nat.mod_eq_of_lt hx]

end

/-! ### The rows -/

/-- An integer or bitwise row is a lanewise operation whose lanes have the row's values. -/
theorem exec_vintRow {r : VRow2} (hr : r ∈ vintRows) : ∃ f : Nat → Nat → Nat → Nat,
    (∀ stl d a b m s, exec (r.make stl d a b m) s
      = issue (opV r.major r.sub stl d.code a.code b.code m) (vint2 r.ok d a b m f) s)
    ∧ ∀ w x y, 0 < w → x < 2 ^ w → y < 2 ^ w → f w x y % 2 ^ w = r.value w x y := by
  unfold vintRows at hr
  simp only [List.mem_cons, List.not_mem_nil, or_false] at hr
  rcases hr with rfl | rfl | rfl | rfl | rfl | rfl | rfl | rfl | rfl | rfl | rfl | rfl | rfl | rfl | rfl | rfl <;>
    refine ⟨_, fun _ _ _ _ _ _ => rfl, fun w x y hw hx hy => ?_⟩ <;> dsimp only
  · exact (laneI_natCast w (x + y)).symm
  · exact sub_lane x hy
  · exact (laneI_natCast w (x * y)).symm
  · rw [high_lane, toSigned_eq_laneS hw hx, toSigned_eq_laneS hw hy]
  · exact Nat.mod_eq_of_lt (Nat.and_lt_two_pow x hy)
  · exact Nat.mod_eq_of_lt (Nat.or_lt_two_pow hx hy)
  · exact Nat.mod_eq_of_lt (Nat.xor_lt_two_pow hx hy)
  · exact Nat.mod_eq_of_lt (Nat.and_le_left.trans_lt hx)
  · exact shl_lane w x y
  · exact shr_lane hx y
  · rw [toSigned_eq_laneS hw hx, ofSigned_eq_laneI, laneI_mod, shiftRight_lane hx]
  · rw [toSigned_eq_laneS hw hx, toSigned_eq_laneS hw hy]
  · rw [toSigned_eq_laneS hw hx, toSigned_eq_laneS hw hy]; exact min_lane hx hy
  · rw [toSigned_eq_laneS hw hx, toSigned_eq_laneS hw hy]; exact max_lane hx hy
  · exact Nat.mod_eq_of_lt ((Nat.min_le_left x y).trans_lt hx)
  · exact Nat.mod_eq_of_lt (Nat.max_lt.mpr ⟨hx, hy⟩)

/-- Settles O5: each row is lanewise, and packs the values of its lanes. -/
theorem vectorIntegerLanes : Obligations.VectorIntegerLanes := by
  intro r hr stl d a b m s e x y t hs hv
  obtain ⟨f, hexec, hval⟩ := exec_vintRow hr
  have he : e.ofSlot := vecArgs2_env d _ _ _ hv
  obtain ⟨hflags, hlanes⟩ := packFlags_lanewise he fun i => (f e.width (e.lane x.1.toNat i) (e.lane y.1.toNat i), 0)
  have hrun := hs.issue_ok (vop2_eq (lam := 5) (lanewise fun e x y => (f e.width x y, 0)) hv)
  simp only [ite_self, orFlags_zero] at hflags
  refine ⟨_, (hexec ..).trans (hrun.trans ?_), fun i hi => (hlanes i hi).trans ?_⟩
  · exact congrArg (fun fl => Host.Outcome.next (finish _ .seq (t.withVResult _ fl d _ x.2))) hflags
  · rw [hval _ _ _ (he.width_pos hi) (e.lane_lt ..) (e.lane_lt ..)]

end Sys2Proof.Machine
end

section
/-! SUPPORT. Settles O6: lanewise and fused floating-point vector instructions (spec/07_isa_vector.md R185, R186, R193, R195). -/

namespace Sys2Proof.Machine

section
variable {w x : Nat}

/-- A pattern with its sign inverted. -/
theorem add_sign_mod (S : Nat) (hx : x < 2 * S) : (x + S) % (2 * S) = (x % S + (1 - x / S % 2) * S) % (2 * S) := by
  rcases Nat.lt_or_ge x S with h | h
  · rw [Nat.div_eq_of_lt h, Nat.mod_eq_of_lt h, Nat.zero_mod, Nat.sub_zero, Nat.one_mul]
  · have hd : x / S = 1 := Nat.div_eq_of_lt_le (by omega) (by omega)
    have hm : x % S = x - S := by rw [Nat.mod_eq_sub_mod h, Nat.mod_eq_of_lt (by omega)]
    have h0 : (1 - 1 % 2) * S = 0 := Nat.zero_mul S
    rw [hd, hm, Nat.mod_eq_sub_mod (by omega), h0]
    congr 1
    omega

theorem two_mul_signBit {c : Nat} (h : 0 < fmtWidth c) : 2 * signBit c = 2 ^ fmtWidth c := by
  obtain ⟨v, hv⟩ : ∃ v, fmtWidth c = v + 1 := ⟨fmtWidth c - 1, by omega⟩
  rw [signBit, hv, Nat.add_sub_cancel, Nat.pow_succ, Nat.mul_comm]

end

theorem exec_vfRow2 {r : VfRow2} (hr : r ∈ vfRows2) (stl : Stl) (d : VDst) (a b : VSrc) (m : MaskNo) (s : State) :
    exec (r.make stl d a b m) s
      = issue (opV r.major r.sub stl d.code a.code b.code m) (vfp2 d a b m r.value) s := by
  unfold vfRows2 at hr
  fin_cases hr <;> rfl

/-- A row of one source is lanewise, with the values of the row. -/
theorem exec_vfRow1 {r : VfRow1} (hr : r ∈ vfRows1) : ∃ f : VEnv → Nat → Nat × BitVec 6,
    (∀ stl d a m s, exec (r.make stl d a m) s
      = issue (opV r.major r.sub stl d.code a.code 0 m) (vop1 r.lam fmtFloat d a m (lanewise1 f)) s)
    ∧ ∀ e x, e.ofSlot → 0 < e.width → x < 2 ^ e.width →
      (f e x).2 = (r.value e.fmt e.rounding x).2
        ∧ (f e x).1 % 2 ^ e.width = (r.value e.fmt e.rounding x).1 % 2 ^ e.width := by
  have hneg (e : VEnv) (x : Nat) (he : e.ofSlot) (hw : 0 < e.width) (hx : x < 2 ^ e.width) :
      (x + signBit e.fmt) % 2 ^ e.width
        = (x % signBit e.fmt + (1 - x / signBit e.fmt % 2) * signBit e.fmt) % 2 ^ e.width := by
    rw [he.width_eq] at hw hx ⊢
    rw [← two_mul_signBit hw] at hx ⊢
    exact add_sign_mod _ hx
  unfold vfRows1 at hr
  simp only [List.mem_cons, List.not_mem_nil, or_false] at hr
  rcases hr with rfl | rfl | rfl | rfl | rfl | rfl | rfl | rfl | rfl | rfl | rfl <;> refine ⟨_, fun _ _ _ _ _ => rfl, ?_⟩
  case inr.inl => exact fun e x he hw hx => ⟨rfl, hneg e x he hw hx⟩
  all_goals exact fun e x _ _ _ => ⟨rfl, rfl⟩

theorem exec_vfmaRow {r : VFmaRow} (hr : r ∈ vfmaRows) (stl : Stl) (d : VDst) (a b : VSrc) (c : BitVec 2) (s : State) :
    exec (r.make stl d a b c) s
      = issue (opF 0x28 r.sub stl d.code a.code b.code c) (vfma d a b c r.negProduct r.negAddend) s := by
  unfold vfmaRows at hr
  fin_cases hr <;> rfl

theorem vectorFloatLanes : Claim.VectorFloatLanes := by
  refine ⟨fun r hr stl d a b m s e x y t hs hv => ?_, fun r hr stl d a m s e x t hs hv => ?_⟩
  · have he : e.ofSlot := vecArgs2_env d _ _ _ hv
    obtain ⟨hflags, hlanes⟩ :=
      packFlags_lanewise he fun i => r.value e.fmt e.rounding (e.lane x.1.toNat i) (e.lane y.1.toNat i)
    have hrun := hs.issue_ok (vop2_eq (lam := 6) (lanewise fun e x y => r.value e.fmt e.rounding x y) hv)
    exact ⟨_, (exec_vfRow2 hr ..).trans (hrun.trans (by rw [← hflags]; rfl)), hlanes⟩
  · obtain ⟨f, hexec, hval⟩ := exec_vfRow1 hr
    have he : e.ofSlot := vecArgs1_env d _ _ _ hv
    obtain ⟨hflags, hlanes⟩ := packFlags_lanewise he fun i => f e (e.lane x.1.toNat i)
    have hrun := hs.issue_ok (vop1_eq (lam := r.lam) (lanewise1 f) hv)
    have hlane {i : Nat} (hi : i < e.lanes) := hval e (e.lane x.1.toNat i) he (he.width_pos hi) (e.lane_lt ..)
    refine ⟨_, (hexec ..).trans (hrun.trans ?_), fun i hi => (hlanes i hi).trans (by rw [(hlane hi).2])⟩
    have hsame : orFlags (fun i => if e.on i then (f e (e.lane x.1.toNat i)).2 else 0) e.lanes
        = orFlags (fun i => if e.on i then (r.value e.fmt e.rounding (e.lane x.1.toNat i)).2 else 0) e.lanes := by
      refine congrArg (List.foldl _ 0) (List.map_congr_left fun i hi => ?_)
      rw [(hlane (List.mem_range.mp hi)).1]
    rw [← hsame, ← hflags]
    rfl

theorem vectorFusedLanes : Claim.VectorFusedLanes := by
  intro r hr stl d a b c s e x y z t hs hv
  have he : e.ofSlot := vecArgs3_env d c _ _ _ hv
  obtain ⟨hflags, hlanes⟩ := packFlags_lanewise he fun i =>
    floatFma e.fmt e.rounding r.negProduct r.negAddend (e.lane x.1.toNat i) (e.lane y.1.toNat i) (e.lane z.1.toNat i)
  exact ⟨_, (exec_vfmaRow hr ..).trans ((hs.issue_ok (vfma_eq _ _ hv)).trans (by rw [← hflags])), hlanes⟩

/-- Settles O6: each row is lanewise, and packs the values and flags of its lanes. -/
theorem vectorFloatAndFusedLanes : Obligations.VectorFloatAndFusedLanes := ⟨vectorFloatLanes, vectorFusedLanes⟩

end Sys2Proof.Machine
end

section
/-! SUPPORT. Settles O7: vector comparisons and reductions (spec/02_state.md R48, spec/07_isa_vector.md R187, R190, R191, R196). -/

namespace Sys2Proof.Machine

/-! ### Comparisons -/

/-- A row of the comparisons compares lanes as the row says. -/
theorem exec_vcmpRow {r : VCmpRow} (hr : r ∈ vcmpRows) : ∃ f : VEnv → Nat → Nat → Bool × BitVec 6,
    (∀ stl d a b m s, exec (r.make stl d a b m) s
      = issue (opV r.major r.sub stl d.toNat a.code b.code m) (vcmp r.lam r.ok d a b m f) s)
    ∧ ∀ e x y, 0 < e.width → x < 2 ^ e.width → y < 2 ^ e.width → f e x y = r.value e x y := by
  unfold vcmpRows at hr
  simp only [List.mem_cons, List.not_mem_nil, or_false] at hr
  rcases hr with rfl | rfl | rfl | rfl | rfl | rfl | rfl | rfl <;>
    refine ⟨_, fun _ _ _ _ _ _ => rfl, fun e x y hw hx hy => ?_⟩ <;> dsimp only
  · rw [beq_eq_decide]
  · rw [toSigned_eq_laneS hw hx, toSigned_eq_laneS hw hy]
  · rw [blt_eq_decide]
  · rw [toSigned_eq_laneS hw hx, toSigned_eq_laneS hw hy]

theorem vectorCompareMasks : Claim.VectorCompareMasks := by
  intro r hr stl d a b m s e x y t hs hv
  obtain ⟨f, hexec, hval⟩ := exec_vcmpRow hr
  have he : e.ofSlot := vecArgsCmp_env d _ _ _ hv
  have hrun := hs.issue_ok (vcmp_eq (lam := r.lam) f hv)
  have hlane {i : Nat} (hi : i < e.lanes) : e.truths f x.1.toNat y.1.toNat i = e.truths r.value x.1.toNat y.1.toNat i := by
    rw [VEnv.truths, hval _ _ _ (he.width_pos hi) (e.lane_lt ..) (e.lane_lt ..), VEnv.truths]
  have hflags : (packTruths (e.truths f x.1.toNat y.1.toNat) e.lanes).2
      = orFlags (fun i => if e.on i then (r.value e (e.lane x.1.toNat i) (e.lane y.1.toNat i)).2 else 0) e.lanes := by
    rw [packTruths, packFlags_snd]
    refine congrArg (List.foldl _ 0) (List.map_congr_left fun i hi => ?_)
    rw [Nat.zero_add, hlane (List.mem_range.mp hi), VEnv.truths]
    split <;> rfl
  rw [hflags] at hrun
  refine ⟨_, (hexec ..).trans hrun, fun i => ?_⟩
  rw [getLsbD_packTruths he]
  by_cases hi : i < e.lanes
  · rw [hlane hi, VEnv.truths, Bool.and_assoc]
    cases e.on i <;> rfl
  · simp [hi]

/-! ### Reductions -/

theorem ofN_ofSigned (i : Int) : ofN (ofSigned 64 i) = ofI i := by
  apply BitVec.eq_of_toNat_eq
  rw [ofN, ofI, BitVec.toNat_ofInt, BitVec.toNat_ofNat]
  exact laneI_mod 64 i

/-- A running sum is the sum of the list. -/
theorem foldl_add_map (f : Nat → Int) (xs : List Nat) (b : Int) :
    xs.foldl (fun acc v => acc + f v) b = b + (xs.map f).sum := by
  induction xs generalizing b with
  | nil => simp
  | cons x xs ih => rw [List.foldl_cons, ih, List.map_cons, List.sum_cons, Int.add_assoc]

theorem exec_vredRow {r : VRedRow} (hr : r ∈ vredRows) : ∃ f : VEnv → Nat → Nat × BitVec 6,
    (∀ stl d a m s, exec (r.make stl d a m) s
      = issue (opV r.major r.sub stl d.code a.code 0 m) (vred 8 r.ok d a m f) s)
    ∧ ∀ e x, (f e x).2 = (r.value e x).2 ∧ ofN (f e x).1 = ofN (r.value e x).1 := by
  unfold vredRows at hr
  simp only [List.mem_cons, List.not_mem_nil, or_false] at hr
  rcases hr with rfl | rfl | rfl | rfl | rfl <;> refine ⟨_, fun _ _ _ _ _ => rfl, fun e x => ⟨rfl, ?_⟩⟩ <;> dsimp only
  · rw [ofN_ofSigned, foldl_add_map, Int.zero_add, ofN_toNat]
  · rw [absMaxOf, List.foldl_map]

theorem vectorReductions : Claim.VectorReductions := by
  intro r hr stl d a m s e x t hs hv
  obtain ⟨f, hexec, hval⟩ := exec_vredRow hr
  obtain ⟨hflags, hword⟩ := hval e x.1.toNat
  have hrun := hs.issue_ok (vred_eq (lam := 8) f hv)
  rw [hflags] at hrun
  exact (hexec ..).trans (hrun.trans (congrArg (fun w => Host.Outcome.next (finish _ .seq (t.withResult _ _ d w))) hword))

/-- Settles O7: each comparison packs the truth of its lanes, each reduction gives the row's word. -/
theorem vectorComparesAndReductions : Obligations.VectorComparesAndReductions := ⟨vectorCompareMasks, vectorReductions⟩

end Sys2Proof.Machine
end

section
/-! SUPPORT. Settles O1: the values of the integer, bit-field and pointer instructions of two sources (spec/03_numbers.md R66,
spec/06_isa_scalar.md R158, R159, R162). -/

namespace Sys2Proof.Machine

/-! ### Words as numbers -/

section
variable {v : Word} {n m k : Nat}

theorem eq_ofN (h : v.toNat = n) : v = ofN n := h ▸ (ofN_toNat v).symm

theorem eq_ofN_of_toNat_mod (h : v.toNat = n % 2 ^ 64) : v = ofN n := BitVec.eq_of_toNat_eq h

theorem ofI_toInt (v : Word) : ofI v.toInt = v := BitVec.ofInt_toInt

theorem ofI_natCast (n : Nat) : ofI n = ofN n := BitVec.ofInt_natCast 64 n

theorem add_eq_ofI (x y : Word) : x + y = ofI (x.toInt + y.toInt) := by
  rw [ofI, BitVec.ofInt_add, BitVec.ofInt_toInt, BitVec.ofInt_toInt]

theorem sub_eq_ofI (x y : Word) : x - y = ofI (x.toInt - y.toInt) := by
  rw [ofI, Int.sub_eq_add_neg, BitVec.ofInt_add, BitVec.ofInt_neg, BitVec.ofInt_toInt, BitVec.ofInt_toInt, BitVec.sub_eq_add_neg]

theorem mul_eq_ofI (x y : Word) : x * y = ofI (x.toInt * y.toInt) := by
  rw [ofI, BitVec.ofInt_mul, BitVec.ofInt_toInt, BitVec.ofInt_toInt]

theorem ofN_shiftLeft (n k : Nat) : ofN n <<< k = ofN (n * 2 ^ k) := by
  apply eq_ofN_of_toNat_mod
  rw [BitVec.toNat_shiftLeft, Nat.shiftLeft_eq, ofN, BitVec.toNat_ofNat, Nat.mod_mul_mod]

theorem shiftLeft_eq_ofN (x : Word) (k : Nat) : x <<< k = ofN (x.toNat * 2 ^ k) := by
  rw [← ofN_shiftLeft, ofN_toNat]

theorem ushiftRight_eq_ofN (x : Word) (k : Nat) : x >>> k = ofN (x.toNat / 2 ^ k) :=
  eq_ofN (by rw [BitVec.toNat_ushiftRight, Nat.shiftRight_eq_div_pow])

theorem sshiftRight_eq_ofI (x : Word) (k : Nat) : x.sshiftRight k = ofI (x.toInt / 2 ^ k) := by
  rw [BitVec.sshiftRight, Int.shiftRight_eq_div_pow, ofI, Nat.cast_pow, Nat.cast_ofNat]

/-- Fields that do not overlap are joined by adding them. -/
theorem ofN_or_ofN (hn : 2 ^ k ∣ n) (hm : m < 2 ^ k) : ofN n ||| ofN m = ofN (n + m) := by
  obtain ⟨q, rfl⟩ := hn
  rw [Nat.two_pow_add_eq_or_of_lt hm, ofN, ofN, ofN, BitVec.ofNat_or]

/-- The lowest bits of a word. -/
theorem and_lowBits (x : Word) (k : Nat) : x &&& ofN (2 ^ k - 1) = ofN (x.toNat % 2 ^ k) := by
  rw [← Nat.and_two_pow_sub_one_eq_mod, ofN, ofN, BitVec.ofNat_and, BitVec.ofNat_toNat, BitVec.setWidth_eq]

/-- The bits of a word from bit k up. -/
theorem and_highBits (x : Word) (k : Nat) : x &&& BitVec.allOnes 64 <<< k = ofN (x.toNat / 2 ^ k * 2 ^ k) := by
  rw [← BitVec.shiftLeft_ushiftRight, ushiftRight_eq_ofN, ofN_shiftLeft]

end

/-! ### Arithmetic (R158, R159) -/

/-- R158: the right part of a rotation comes down to bit 0, and what leaves there enters at bit 63. -/
theorem rotateRight_eq_ofN (x : Word) {k : Nat} (hk : k < 64) :
    x.rotateRight k = ofN (x.toNat / 2 ^ k + x.toNat * 2 ^ (64 - k)) := by
  have hlow : x.toNat / 2 ^ k < 2 ^ (64 - k) := by
    rw [Nat.div_lt_iff_lt_mul (Nat.two_pow_pos k), ← Nat.pow_add, Nat.sub_add_cancel hk.le]
    exact x.isLt
  rw [BitVec.rotateRight_def, Nat.mod_eq_of_lt hk, BitVec.or_comm, shiftLeft_eq_ofN, ushiftRight_eq_ofN,
    ofN_or_ofN (Nat.dvd_mul_left ..) hlow, Nat.add_comm]

theorem smin_eq_ofI (x y : Word) : (if x.slt y then x else y) = ofI (min x.toInt y.toInt) := by
  rw [min_def_lt, apply_ite ofI, ofI_toInt, ofI_toInt]
  exact if_congr BitVec.slt_iff_toInt_lt rfl rfl

theorem smax_eq_ofI (x y : Word) : (if x.slt y then y else x) = ofI (max x.toInt y.toInt) := by
  rw [max_def_lt, apply_ite ofI, ofI_toInt, ofI_toInt]
  exact if_congr BitVec.slt_iff_toInt_lt rfl rfl

theorem umin_eq_ofN (x y : Word) : (if x.ult y then x else y) = ofN (min x.toNat y.toNat) := by
  rw [min_def_lt, apply_ite ofN, ofN_toNat, ofN_toNat]
  exact if_congr BitVec.ult_iff_lt rfl rfl

theorem umax_eq_ofN (x y : Word) : (if x.ult y then y else x) = ofN (max x.toNat y.toNat) := by
  rw [max_def_lt, apply_ite ofN, ofN_toNat, ofN_toNat]
  exact if_congr BitVec.ult_iff_lt rfl rfl

/-- R158: bits 127 to 64 of a product. -/
theorem mulHigh_ofInt (i j : Int) : mulHigh (BitVec.ofInt 128 i) (BitVec.ofInt 128 j) = ofI (i * j / 2 ^ 64) := by
  apply BitVec.eq_of_toNat_eq
  rw [mulHigh, ← BitVec.ofInt_mul, BitVec.extractLsb'_toNat, BitVec.toNat_ofInt, Nat.shiftRight_eq_div_pow, ofI, BitVec.toNat_ofInt]
  exact high_lane 64 (i * j)

theorem mulHigh_setWidth (x y : Word) :
    mulHigh (x.setWidth 128) (y.setWidth 128) = ofN (x.toNat * y.toNat / 2 ^ 64) := by
  rw [← BitVec.ofNat_toNat, ← BitVec.ofNat_toNat, ← BitVec.ofInt_natCast, ← BitVec.ofInt_natCast, mulHigh_ofInt, ← ofI_natCast]
  rfl

/-- R159: the lower half of a word, extended by its sign. -/
theorem signExtend_lowHalf {v : Word} {i : Int} (h : v = ofI i) : (v.setWidth 32).signExtend 64 = ofI (i.bmod (2 ^ 32)) := by
  have hdvd : 2 ^ 32 ∣ 2 ^ 64 := Nat.pow_dvd_pow 2 (by decide)
  rw [BitVec.signExtend, BitVec.toInt_setWidth, ← Int.bmod_bmod_of_dvd hdvd, ← BitVec.toInt_eq_toNat_bmod, h, ofI,
    BitVec.toInt_ofInt, Int.bmod_bmod_of_dvd hdvd, ofI]

theorem bne_eq_decide_toNat (x y : Word) : (x != y) = decide (x.toNat ≠ y.toNat) := by
  rw [bne, beq_eq_decide, ← decide_not, decide_eq_decide]
  exact not_congr BitVec.toNat_inj.symm

/-! ### Divisions (R66) -/

theorem sdiv_eq_ofI (x y : Word) : x.sdiv y = ofI (x.toInt.tdiv y.toInt) := by
  apply BitVec.eq_of_toInt_eq
  rw [BitVec.toInt_sdiv, ofI, BitVec.toInt_ofInt]

theorem srem_eq_ofI (x y : Word) : x.srem y = ofI (x.toInt.tmod y.toInt) := by
  rw [← BitVec.toInt_srem, ofI_toInt]

/-! ### Bit fields (R159) -/

/-- The balanced residue of a number whose lowest bits are cut off. -/
theorem bmod_mul_ediv (i : Int) {m c : Nat} (hm : 0 < m) (hc : 0 < c) : i.bmod (2 * m * c) / c = (i / c).bmod (2 * m) := by
  have hpos : 0 < 2 * m * c := Nat.mul_pos (by omega) hc
  have hlo := Int.le_bmod (x := i) hpos
  have hhi := Int.bmod_lt (x := i) hpos
  have hdiv := Int.bdiv_add_bmod i (2 * m * c)
  generalize i.bmod (2 * m * c) = j at *
  generalize i.bdiv (2 * m * c) = q at *
  rw [Nat.mul_assoc] at hlo hhi
  have hc' : (0 : Int) < c := by omega
  refine ((Int.bmod_eq_iff (by omega)).mpr ⟨?_, ?_, -q, ?_⟩).symm
  · rw [Int.le_ediv_iff_mul_le hc']
    push_cast at hlo ⊢
    rw [Int.mul_ediv_cancel_left _ (by decide)] at hlo ⊢
    linarith
  · refine (Int.ediv_lt_of_lt_mul hc' (b := m) ?_).trans_le (by omega)
    push_cast at hhi
    omega
  · rw [← hdiv]
    push_cast
    rw [mul_right_comm, Int.add_comm, Int.add_mul_ediv_right _ _ hc'.ne']
    ring

/-- R159: the field is shifted to the top of the word and back. -/
theorem extractSigned_eq_ofI (x y : Word) : extractSigned x y = ofI ((fieldOf x y : Int).bmod (2 ^ lenOf y)) := by
  have hlen : lenOf y ≤ 64 - posOf y := Nat.min_le_right ..
  have hpos : posOf y < 64 := Nat.mod_lt _ (by decide)
  unfold fieldOf
  change (if lenOf y = 0 then 0 else (x <<< (64 - lenOf y - posOf y)).sshiftRight (64 - lenOf y)) = _
  generalize lenOf y = w at *
  generalize posOf y = p at *
  cases w with
  | zero => rw [if_pos rfl, Nat.pow_zero, Int.bmod_one]; rfl
  | succ w =>
    have hword : 2 ^ 64 = 2 * 2 ^ w * 2 ^ (64 - (w + 1)) := by
      rw [← Nat.pow_succ', ← Nat.pow_add, Nat.add_sub_cancel' (by omega)]
    have hfield : x.toNat * 2 ^ (64 - (w + 1) - p) / 2 ^ (64 - (w + 1)) = x.toNat / 2 ^ p := by
      conv_lhs => rw [show 64 - (w + 1) = p + (64 - (w + 1) - p) by omega, Nat.add_sub_cancel_left, Nat.pow_add]
      exact Nat.mul_div_mul_right _ _ (Nat.two_pow_pos _)
    have hcast (k : Nat) : (2 : Int) ^ k = (2 ^ k : Nat) := (Nat.cast_pow 2 k).symm
    rw [if_neg (Nat.succ_ne_zero w), sshiftRight_eq_ofI, BitVec.toInt_shiftLeft, Nat.shiftLeft_eq, hword, hcast,
      bmod_mul_ediv _ (Nat.two_pow_pos w) (Nat.two_pow_pos _), ← Int.natCast_ediv, hfield, Int.natCast_emod,
      ← Nat.pow_succ', Int.emod_bmod]

theorem extractZero_eq_ofN (x y : Word) : extractZero x y = ofN (fieldOf x y) := by
  have hfield : (x >>> fieldPos y).toNat % 2 ^ lenOf y = fieldOf x y := by
    rw [BitVec.toNat_ushiftRight, Nat.shiftRight_eq_div_pow]
    rfl
  rw [← hfield]
  exact and_lowBits (x >>> fieldPos y) (fieldWidth y)

/-! ### Pointers (R162) -/

/-- R162: the tag byte of one word over the address of another. -/
theorem withTag_eq_ofN (x y : Word) : withTag x y = ofN (x.toNat / 2 ^ 56 * 2 ^ 56 + y.toNat % 2 ^ 56) := by
  rw [← ofN_or_ofN (Nat.dvd_mul_left ..) (Nat.mod_lt _ (Nat.two_pow_pos 56)), ← and_highBits, ← and_lowBits]
  rfl

theorem withTag_add (x y : Word) :
    withTag x (x + y) = ofN (x.toNat / 2 ^ 56 * 2 ^ 56 + (x.toNat + y.toNat) % 2 ^ 56) := by
  rw [withTag_eq_ofN, BitVec.toNat_add, Nat.mod_mod_of_dvd _ (Nat.pow_dvd_pow 2 (by decide))]

theorem withTag_sub (x y : Word) :
    withTag x (x - y) = ofI (x.toNat / 2 ^ 56 * 2 ^ 56 + ((x.toNat : Int) - y.toNat) % 2 ^ 56) := by
  rw [withTag_eq_ofN, BitVec.toNat_sub, ← ofI_natCast]
  refine congrArg ofI ?_
  omega

theorem withTag_byte (x y : Word) : withTag (y <<< 56) x = ofN (y.toNat % 256 * 2 ^ 56 + x.toNat % 2 ^ 56) := by
  rw [withTag_eq_ofN, BitVec.toNat_shiftLeft, Nat.shiftLeft_eq]
  refine congrArg ofN ?_
  omega

/-- R162: a tile-global pointer: FMT and BLK, the space, the vtile and the offset. -/
theorem tilePointer_eq_ofN (x y : Word) :
    (x &&& 0xFC00000000000000) ||| 0x0100000000000000 ||| ((y &&& 0xFFFFFF) <<< 32) ||| (x &&& 0x1FFFF)
      = ofN (x.toNat / 2 ^ 58 * 2 ^ 58 + 2 ^ 56 + y.toNat % 2 ^ 24 * 2 ^ 32 + x.toNat % 2 ^ 17) := by
  have htag : x &&& ((0xFC00000000000000 : Nat) : Word) = ofN (x.toNat / 2 ^ 58 * 2 ^ 58) := and_highBits x 58
  have hspace : ((0x0100000000000000 : Nat) : Word) = ofN (2 ^ 56) := rfl
  have hvt : y &&& 0xFFFFFF = ofN (y.toNat % 2 ^ 24) := and_lowBits y 24
  have hoff : x &&& 0x1FFFF = ofN (x.toNat % 2 ^ 17) := and_lowBits x 17
  rw [htag, hspace, hvt, hoff, ofN_shiftLeft, ofN_or_ofN (k := 58) (by omega) (by decide),
    ofN_or_ofN (k := 56) (by omega) (by omega), ofN_or_ofN (k := 32) (by omega) (by omega)]

/-- R162: a pointer with its space replaced. -/
theorem withSpace_eq_ofN (x y : Word) :
    (x &&& 0xFCFFFFFFFFFFFFFF) ||| ((y &&& 3) <<< 56)
      = ofN (x.toNat / 2 ^ 58 * 2 ^ 58 + y.toNat % 4 * 2 ^ 56 + x.toNat % 2 ^ 56) := by
  have hmask : ((0xFCFFFFFFFFFFFFFF : Nat) : Word) = BitVec.allOnes 64 <<< 58 ||| ofN (2 ^ 56 - 1) := by decide
  have hspace : y &&& 3 = ofN (y.toNat % 4) := and_lowBits y 2
  rw [hmask, BitVec.and_or_distrib_left, BitVec.or_assoc, BitVec.or_comm (x &&& ofN _), ← BitVec.or_assoc, and_highBits,
    and_lowBits, hspace, ofN_shiftLeft, ofN_or_ofN (k := 58) (by omega) (by omega), ofN_or_ofN (k := 56) (by omega) (by omega)]

/-! ### The rows -/

/-- A row's instruction is a scalar operation of two sources by the row's value. -/
def Row2.Computes (r : Row2) : Prop := ∃ f : Word → Word → Word,
  (∀ stl d a b s, exec (r.make stl d a b) s
    = issue (opA r.major r.sub stl d.code a.code b.code) (intOp2 r.lam d a b f) s)
  ∧ ∀ x y, f x y = r.value x y

theorem intRow_computes {r : Row2} (hr : r ∈ intRows) : r.Computes := by
  unfold intRows at hr
  fin_cases hr <;> refine ⟨_, fun _ _ _ _ _ => rfl, fun x y => ?_⟩
  · exact eq_ofN_of_toNat_mod (BitVec.toNat_add x y)
  · exact sub_eq_ofI x y
  · exact eq_ofN (BitVec.toNat_and x y)
  · exact eq_ofN (BitVec.toNat_or x y)
  · exact eq_ofN (BitVec.toNat_xor x y)
  · exact eq_ofN (by rw [BitVec.toNat_and, BitVec.toNat_not])
  · exact eq_ofN (by rw [BitVec.toNat_or, BitVec.toNat_not])
  · exact shiftLeft_eq_ofN x (shiftCount y)
  · exact ushiftRight_eq_ofN x (shiftCount y)
  · exact sshiftRight_eq_ofI x (shiftCount y)
  · exact rotateRight_eq_ofN x (Nat.mod_lt y.toNat (by decide))
  · exact smin_eq_ofI x y
  · exact smax_eq_ofI x y
  · exact umin_eq_ofN x y
  · exact umax_eq_ofN x y
  · exact eq_ofN_of_toNat_mod (BitVec.toNat_mul x y)
  · exact mulHigh_ofInt x.toInt y.toInt
  · exact mulHigh_setWidth x y
  · exact congrArg ofB (decide_eq_decide.mpr BitVec.toNat_inj.symm)
  · exact congrArg ofB (bne_eq_decide_toNat x y)
  · exact congrArg ofB BitVec.slt_eq_decide
  · exact congrArg ofB BitVec.ult_eq_decide
  · exact congrArg ofB BitVec.sle_eq_decide
  · exact congrArg ofB BitVec.ule_eq_decide
  · exact signExtend_lowHalf (add_eq_ofI x y)
  · exact signExtend_lowHalf (sub_eq_ofI x y)
  · exact signExtend_lowHalf (mul_eq_ofI x y)

theorem divRow_computes {r : Row2} (hr : r ∈ divRows) : r.Computes := by
  have hzero (y : Word) : y = 0 ↔ y.toNat = 0 := BitVec.toNat_inj.symm
  unfold divRows at hr
  fin_cases hr <;> refine ⟨_, fun _ _ _ _ _ => rfl, fun x y => if_congr (hzero y) ?_ ?_⟩
  · rfl
  · exact sdiv_eq_ofI x y
  · rfl
  · exact eq_ofN (BitVec.toNat_udiv ..)
  · rfl
  · exact srem_eq_ofI x y
  · rfl
  · exact eq_ofN (BitVec.toNat_umod ..)

theorem fieldRow_computes {r : Row2} (hr : r ∈ fieldRows) : r.Computes := by
  unfold fieldRows at hr
  fin_cases hr <;> refine ⟨_, fun _ _ _ _ _ => rfl, fun x y => ?_⟩
  · exact extractSigned_eq_ofI x y
  · exact extractZero_eq_ofN x y
  · exact withTag_add x y
  · exact withTag_sub x y
  · exact withTag_byte x y
  · exact tilePointer_eq_ofN x y
  · exact withSpace_eq_ofN x y

/-! ### Completion -/

section
variable {s t : State} {d : Dst} {a b : Src} {x y : Word}

/-- Two sources that can be read give the result of their values. -/
theorem intOp2_ok {lam : Nat} (f : Word → Word → Word) (hd : d.legal = true) (h : read2 a b s = .ok ((x, y), t)) :
    intOp2 lam d a b f s = .ok (.seq, t.withResult (slat lam [a, b]) 0 d (f x y)) := by
  simp only [intOp2, M.bind_apply, checkDst_legal hd, M.pure_apply, M.ok_bind, h]
  rfl

/-- An admitted instruction of a row completes with the row's value. -/
theorem Row2.Computes.exec_ok {r : Row2} (hr : r.Computes) {stl : Stl} (hd : d.legal = true)
    (hs : s.admits (opA r.major r.sub stl d.code a.code b.code)) (h : read2 a b s.opened = .ok ((x, y), t)) :
    exec (r.make stl d a b) s
      = .next (finish (opA r.major r.sub stl d.code a.code b.code) .seq
          (t.withResult (slat r.lam [a, b]) 0 d (r.value x y))) := by
  obtain ⟨f, hexec, hval⟩ := hr
  rw [hexec, hs.issue_ok (intOp2_ok f hd h), hval]

end

theorem integerResults : Claim.IntegerResults := fun _ hr _ _ _ _ _ _ _ _ hd hs h =>
  ((List.mem_append.mp hr).elim intRow_computes fieldRow_computes).exec_ok hd hs h

theorem divisionResults : Claim.DivisionResults := fun _ hr _ _ _ _ _ _ _ _ hd hs h => (divRow_computes hr).exec_ok hd hs h

/-- Settles O1: each row's instruction computes the row's value, and completes with it. -/
theorem integerArithmetic : Obligations.IntegerArithmetic := ⟨integerResults, divisionResults⟩

end Sys2Proof.Machine
end

section
/-! SUPPORT. Settles O50: the canonical form of every memory (`State.Canon`) as an invariant. Every function of the model has one
lemma that follows its body: a part of the state beside the memories is replaced (`State.Canon.same`), a memory is written by
`Memory.write`, `Memory.copyIn` or `Memory.slice`, which keep the form, or another function is called. -/

namespace Sys2Proof.Machine

-- Bodies are elaborated in order here and below: as parallel tasks so many short ones need a thread each.
set_option Elab.async false

/-- The canonical form of every memory of the module, as an invariant of the state (R96, R106). -/
def State.Canon (s : State) : Prop := s.memoriesWf = true

/-- The canonical form of the memories of a tile. -/
def Tile.Canon (t : Tile) : Prop := t.memoriesWf = true

/-- The canonical form of the local memory of a core. -/
def Core.Canon (c : Core) : Prop := c.mem.wf = true

/-! ### The memories of a state one by one -/

section
variable {s t : State}

theorem State.canon_iff : s.Canon ↔ s.hbm.wf = true ∧ s.host.wf = true ∧ s.collier.Canon
    ∧ (∀ r ∈ s.stokers, r.2.Canon) ∧ ∀ r ∈ s.tiles, r.2.Canon := by
  simp only [State.Canon, State.memoriesWf, Core.Canon, Tile.Canon, Bool.and_eq_true, List.all_eq_true, and_assoc]

theorem State.Canon.hbm (h : s.Canon) : s.hbm.wf = true := (State.canon_iff.mp h).1

theorem State.Canon.host (h : s.Canon) : s.host.wf = true := (State.canon_iff.mp h).2.1

theorem State.Canon.collier (h : s.Canon) : s.collier.Canon := (State.canon_iff.mp h).2.2.1

theorem State.Canon.stokers (h : s.Canon) : ∀ r ∈ s.stokers, r.2.Canon := (State.canon_iff.mp h).2.2.2.1

theorem State.Canon.tiles (h : s.Canon) : ∀ r ∈ s.tiles, r.2.Canon := (State.canon_iff.mp h).2.2.2.2

/-- A state with the memories of another. -/
theorem State.Canon.same (h : s.Canon) (hbm : t.hbm = s.hbm := by rfl) (host : t.host = s.host := by rfl)
    (collier : t.collier = s.collier := by rfl) (stokers : t.stokers = s.stokers := by rfl) (tiles : t.tiles = s.tiles := by rfl) :
    t.Canon := by
  rw [State.canon_iff, hbm, host, collier, stokers, tiles]
  exact State.canon_iff.mp h

/-- A state with another rim memory. -/
theorem State.Canon.withHbm (h : s.Canon) (hbm : t.hbm.wf = true) (host : t.host = s.host := by rfl)
    (collier : t.collier = s.collier := by rfl) (stokers : t.stokers = s.stokers := by rfl) (tiles : t.tiles = s.tiles := by rfl) :
    t.Canon := by
  rw [State.canon_iff, host, collier, stokers, tiles]
  exact ⟨hbm, (State.canon_iff.mp h).2⟩

/-- A state with another host memory. -/
theorem State.Canon.withHost (h : s.Canon) (host : t.host.wf = true) (hbm : t.hbm = s.hbm := by rfl)
    (collier : t.collier = s.collier := by rfl) (stokers : t.stokers = s.stokers := by rfl) (tiles : t.tiles = s.tiles := by rfl) :
    t.Canon := by
  rw [State.canon_iff, hbm, collier, stokers, tiles]
  exact ⟨h.hbm, host, (State.canon_iff.mp h).2.2⟩

/-- A state with another Collier. -/
theorem State.Canon.withCollier (h : s.Canon) (collier : t.collier.Canon) (hbm : t.hbm = s.hbm := by rfl)
    (host : t.host = s.host := by rfl) (stokers : t.stokers = s.stokers := by rfl) (tiles : t.tiles = s.tiles := by rfl) :
    t.Canon := by
  rw [State.canon_iff, hbm, host, stokers, tiles]
  exact ⟨h.hbm, h.host, collier, h.stokers, h.tiles⟩

/-- A state with other Stokers. -/
theorem State.Canon.withStokers (h : s.Canon) (stokers : ∀ r ∈ t.stokers, r.2.Canon) (hbm : t.hbm = s.hbm := by rfl)
    (host : t.host = s.host := by rfl) (collier : t.collier = s.collier := by rfl) (tiles : t.tiles = s.tiles := by rfl) :
    t.Canon := by
  rw [State.canon_iff, hbm, host, collier, tiles]
  exact ⟨h.hbm, h.host, h.collier, stokers, h.tiles⟩

/-- A state with other tiles. -/
theorem State.Canon.withTiles (h : s.Canon) (tiles : ∀ r ∈ t.tiles, r.2.Canon) (hbm : t.hbm = s.hbm := by rfl)
    (host : t.host = s.host := by rfl) (collier : t.collier = s.collier := by rfl) (stokers : t.stokers = s.stokers := by rfl) :
    t.Canon := by
  rw [State.canon_iff, hbm, host, collier, stokers]
  exact ⟨h.hbm, h.host, h.collier, h.stokers, tiles⟩

end

section
variable {t u : Tile}

theorem Tile.canon_iff : t.Canon ↔ t.spad.wf = true ∧ t.shadow.wf = true := Bool.and_eq_true_iff

theorem Tile.Canon.spad (ht : t.Canon) : t.spad.wf = true := (Tile.canon_iff.mp ht).1

theorem Tile.Canon.shadow (ht : t.Canon) : t.shadow.wf = true := (Tile.canon_iff.mp ht).2

/-- A tile with the memories of another. -/
theorem Tile.Canon.same (ht : t.Canon) (spad : u.spad = t.spad := by rfl) (shadow : u.shadow = t.shadow := by rfl) : u.Canon := by
  rw [Tile.canon_iff, spad, shadow]
  exact ⟨ht.spad, ht.shadow⟩

/-- A tile with another scratchpad. -/
theorem Tile.Canon.withSpad (ht : t.Canon) (spad : u.spad.wf = true) (shadow : u.shadow = t.shadow := by rfl) : u.Canon := by
  rw [Tile.canon_iff, shadow]
  exact ⟨spad, ht.shadow⟩

theorem Tile.canon_fresh : Tile.Canon {} := rfl

theorem Core.canon_fresh : Core.Canon {} := rfl

theorem Core.canon_mem {c : Core} (h : c.mem.wf = true) : c.Canon := h

theorem Core.Canon.same {c d : Core} (hc : c.Canon) (mem : d.mem = c.mem := by rfl) : d.Canon := by
  rw [Core.Canon, mem]
  exact hc

end

/-! ### Tables of tiles and cores -/

section
variable {α : Type} {p : α → Prop}

/-- What a table holds at a key it was given or held before. -/
theorem Table.mem_put {t : Table α} {k : Nat} {v : α} {r : Nat × α} (h : r ∈ Table.put t k v) : r = (k, v) ∨ r ∈ t := by
  induction t with
  | nil => exact .inl (by simpa [Table.put] using h)
  | cons x t ih =>
    obtain ⟨j, w⟩ := x
    simp only [Table.put] at h
    split at h
    · simpa using h
    · split at h
      · rcases List.mem_cons.mp h with h | h
        · exact .inl h
        · exact .inr (List.mem_cons_of_mem _ h)
      · rcases List.mem_cons.mp h with h | h
        · exact .inr (h ▸ List.mem_cons_self)
        · exact (ih h).imp_right (List.mem_cons_of_mem _)

/-- A property of the values of a table, kept by a value that has it. -/
theorem Table.forall_put {t : Table α} {k : Nat} {v : α} (h : ∀ r ∈ t, p r.2) (hv : p v) : ∀ r ∈ Table.put t k v, p r.2 :=
  fun r hr => (Table.mem_put hr).elim (fun e => e ▸ hv) (h r)

theorem Table.mem_of_get? {t : Table α} {k : Nat} {v : α} (h : Table.get? t k = some v) : (k, v) ∈ t := by
  induction t with
  | nil => simp [Table.get?] at h
  | cons x t ih =>
    obtain ⟨j, w⟩ := x
    simp only [Table.get?] at h
    split at h
    · rename_i hj
      cases h
      simp_all
    · exact List.mem_cons_of_mem _ (ih h)

/-- A property of the values of a table and of its default. -/
theorem Table.forall_getD {t : Table α} {k : Nat} {d : α} (h : ∀ r ∈ t, p r.2) (hd : p d) : p (Table.getD t k d) := by
  unfold Table.getD
  cases e : Table.get? t k with
  | none => exact hd
  | some v => exact h _ (Table.mem_of_get? e)

/-- A property of the values of a table whose rows are changed one by one. -/
theorem Table.forall_map {t : Table α} {f : Nat × α → Nat × α} (h : ∀ r ∈ t, p r.2) (hf : ∀ r, p r.2 → p (f r).2) :
    ∀ r ∈ t.map f, p r.2 := by
  intro r hr
  obtain ⟨x, hx, rfl⟩ := List.mem_map.mp hr
  exact hf x (h x hx)

end

/-! ### A tile replaced -/

section
variable {s : State} (h : s.Canon)
include h

theorem State.Canon.tile (site : Nat) : (s.tile site).Canon := Table.forall_getD (p := Tile.Canon) h.tiles Tile.canon_fresh

theorem State.Canon.stoker (r : Nat) : (s.stoker r).Canon := Table.forall_getD (p := Core.Canon) h.stokers Core.canon_fresh

theorem State.Canon.setTile {site : Nat} {t : Tile} (ht : t.Canon) : (s.setTile site t).Canon :=
  h.withTiles (Table.forall_put h.tiles ht)

/-- A tile changed beside its memories. -/
theorem State.Canon.modTile {site : Nat} {u : Tile} (spad : u.spad = (s.tile site).spad := by rfl)
    (shadow : u.shadow = (s.tile site).shadow := by rfl) : (s.setTile site u).Canon :=
  h.setTile ((h.tile site).same spad shadow)

end

/-! ### Choices and repetitions -/

theorem canon_ite {c : Prop} [Decidable c] {s t : State} (hs : s.Canon) (ht : t.Canon) : (if c then s else t).Canon := by
  split <;> assumption

theorem tile_canon_ite {c : Prop} [Decidable c] {t u : Tile} (ht : t.Canon) (hu : u.Canon) : (if c then t else u).Canon := by
  split <;> assumption

/-- A property that every step of a fold keeps. -/
theorem foldl_preserves {α β : Type} {p : β → Prop} {f : β → α → β} {l : List α} {b : β} (h : p b) (hf : ∀ b x, p b → p (f b x)) :
    p (l.foldl f b) := by
  induction l generalizing b with
  | nil => exact h
  | cons x l ih => exact ih (hf b x h)

/-- Every state that a partial operation may answer keeps the form. -/
def OptCanon (o : Option State) : Prop := ∀ t, o = some t → t.Canon

theorem OptCanon.none : OptCanon none := fun _ h => nomatch h

theorem OptCanon.some {s : State} (h : s.Canon) : OptCanon (some s) := fun _ e => Option.some.inj e ▸ h

theorem OptCanon.ite {c : Prop} [Decidable c] {o u : Option State} (ho : OptCanon o) (hu : OptCanon u) :
    OptCanon (if c then o else u) := by
  split <;> assumption

theorem OptCanon.map {o : Option State} {f : State → State} (ho : OptCanon o) (hf : ∀ s, s.Canon → (f s).Canon) :
    OptCanon (o.map f) := by
  intro t e
  obtain ⟨u, hu, rfl⟩ := Option.map_eq_some_iff.mp e
  exact hf u (ho u hu)

/-- Every next state of a result keeps the form. -/
def Result.Canon (r : Result) : Prop := ∀ t, r = .next t → t.Canon

theorem State.Canon.next {s : State} (h : s.Canon) : Result.Canon (.next s) := fun _ e => Host.Outcome.next.inj e ▸ h

theorem Result.Canon.fault {f : Fault} : Result.Canon (.fault f) := fun _ h => nomatch h

theorem Result.Canon.ite {c : Prop} [Decidable c] {r q : Result} (hr : r.Canon) (hq : q.Canon) : Result.Canon (if c then r else q) := by
  split <;> assumption

/-! ### Bodies -/

/-- A body that keeps the canonical form wherever it succeeds. -/
def Keeps {α : Type} (m : M α) : Prop := ∀ s, s.Canon → ∀ x t, m s = .ok (x, t) → t.Canon

section
variable {α β : Type}

theorem Keeps.pure (x : α) : Keeps (pure x : M α) := by
  intro s h y t e
  cases e
  exact h

theorem Keeps.throw (e : Stop) : Keeps (throw e : M α) := fun _ _ _ _ h => nomatch h

theorem Keeps.bind {m : M α} {f : α → M β} (hm : Keeps m) (hf : ∀ x, Keeps (f x)) : Keeps (m >>= f) := by
  intro s h y t e
  rw [M.bind_apply] at e
  cases hx : m s with
  | error _ => rw [hx] at e; cases e
  | ok r =>
    rw [hx] at e
    exact hf r.1 r.2 (hm s h r.1 r.2 hx) y t e

/-- A body that looks at the state first. -/
theorem Keeps.get_bind {f : State → M β} (hf : ∀ s, s.Canon → Keeps (f s)) : Keeps (get >>= f) :=
  fun s h => hf s h s h

/-- A choice whose one branch does something more before what follows both. -/
theorem Keeps.ite {c : Prop} [Decidable c] {m n : M α} (hm : Keeps m) (hn : Keeps n) : Keeps (if c then m else n) := by
  split <;> assumption

/-- A body that looks at the tile of the current agent first. -/
theorem Keeps.getTile_bind {f : Tile → M β} (hf : ∀ t, t.Canon → Keeps (f t)) : Keeps (getTile >>= f) :=
  fun s h => hf _ (h.tile s.cur.site) s h

theorem Keeps.set {s : State} (h : s.Canon) : Keeps (set s : M Unit) := by
  intro _ _ _ t e
  cases e
  exact h

theorem Keeps.modify {f : State → State} (hf : ∀ s, s.Canon → (f s).Canon) : Keeps (modify f : M Unit) := by
  intro s h _ t e
  cases e
  exact hf s h

end
end Sys2Proof.Machine
end

section
/-! SUPPORT. Settles O50: the state accessors. -/

namespace Sys2Proof.Machine

set_option Elab.async false

variable {s : State} {x : Slot} {a : Agent}

theorem State.Canon.core {x : Agent} (h : s.Canon) : (s.core x).Canon := by
  unfold State.core
  split
  · exact h.collier
  · exact h.stoker _
  · exact Core.canon_fresh

theorem State.Canon.setCore {c : Core} (h : s.Canon) (hc : c.Canon) : (s.setCore a c).Canon := by
  unfold State.setCore
  split
  · exact h.withCollier hc
  · exact h.withStokers (Table.forall_put h.stokers hc)
  · exact h

theorem Tile.Canon.setSlot {t : Tile} {k : Fin 8} (ht : t.Canon) : (t.setSlot k x).Canon := ht.same

theorem State.Canon.setSlot (h : s.Canon) : (s.setSlot a x).Canon := by
  unfold State.setSlot
  split
  · exact h.setTile ((h.tile _).setSlot)
  · exact h.withCollier h.collier.same
  · exact h.withStokers (Table.forall_put h.stokers ((h.stoker _).same))

theorem State.Canon.setLaunch {idx : Nat} {l : Launch} (h : s.Canon) : (s.setLaunch idx l).Canon := h.same

theorem State.Canon.sealedFor {part : Option Nat} {units : List Nat} (h : s.Canon) : (s.sealedFor part units).Canon :=
  h.same

theorem State.Canon.rekey {part : Nat} (h : s.Canon) : (s.rekey part).Canon :=
  h.withHbm (foldl_preserves (p := (Memory.wf · = true)) h.hbm fun _ _ hm => Memory.wf_write _ _ _ _ hm)

theorem State.Canon.spend {n : Nat} (h : s.Canon) : (s.spend a n).Canon := by
  unfold State.spend
  split
  · exact h.modTile
  · exact h.same

theorem State.Canon.cachePage {asid : Nat} {page : Nat} (h : s.Canon) : (s.cachePage asid page).Canon := by
  unfold State.cachePage
  split
  · exact h
  · split
    · exact h
    · exact h.same

end Sys2Proof.Machine
end

section
/-! SUPPORT. Settles O50: the journal, the counters and a results landing. -/

namespace Sys2Proof.Machine

set_option Elab.async false

variable {s : State} {bits chunk entry idx info n payload queue reason region site slot status tag type v vt w1 w2 w3 x : Nat}
  {f : ErrorLog → ErrorLog} {l : Launch} {sys : Bool} {t : Tile} {k : Fin 8} {c : Cause} {a : Agent} {tv : Word} {ret : Half}
  {o : Op}

theorem State.Canon.count (h : s.Canon) : (s.count idx f).Canon := by
  unfold State.count
  split
  · exact h.setLaunch
  · exact h

theorem State.Canon.admitQueued (h : s.Canon) : (s.admitQueued site n).Canon := by
  induction n generalizing s with
  | zero => exact h
  | succ n ih =>
    unfold State.admitQueued
    dsimp only
    split
    · exact canon_ite h (ih (h.same.setTile (h.tile _).same))
    · exact h

theorem State.Canon.flueSend {src : Nat} {dst : Nat} {payload : Word} (h : s.Canon) : (s.flueSend src dst type tag
    payload).Canon :=
  canon_ite h (canon_ite (canon_ite h.same.admitQueued h.same) (canon_ite h.same h))

theorem State.Canon.setLink {p : LinkPermits} (h : s.Canon) : (s.setLink region p).Canon := h.same

theorem State.Canon.toStoker (h : s.Canon) : (s.toStoker region type payload).Canon := canon_ite h.same h.setLink.flueSend

theorem State.Canon.toCollier (h : s.Canon) : (s.toCollier region type payload).Canon := canon_ite h.same h.setLink.flueSend

theorem State.Canon.releaseLink (h : s.Canon) : (s.releaseLink region n).Canon := by
  induction n generalizing s with
  | zero => exact h
  | succ n ih =>
    unfold State.releaseLink
    dsimp only
    split
    · exact h
    · exact ih h.same.setLink.flueSend

theorem State.Canon.sendStats (h : s.Canon) : (s.sendStats region idx).Canon :=
  foldl_preserves h.same fun _ _ h => canon_ite h h.toCollier

theorem State.Canon.countAt (h : s.Canon) : (s.countAt site idx f).Canon := canon_ite h (canon_ite h.same h.same.sendStats)

theorem State.Canon.writeEvent {hwq : Nat} {count : Nat} {tick : Nat} {coalesced : Bool} (h : s.Canon) : (s.writeEvent type
    status reason queue hwq tag count info tick coalesced).Canon :=
  h.withHost (Memory.wf_write _ _ _ _ h.host)

theorem State.Canon.writePendings (h : s.Canon) : (s.writePendings n).Canon := by
  induction n generalizing s with
  | zero => exact h
  | succ n ih =>
    unfold State.writePendings
    split
    · exact h
    · exact canon_ite h (ih h.writeEvent.same)

theorem State.Canon.dropEvent (h : s.Canon) : s.dropEvent.Canon := canon_ite h.same h

theorem State.Canon.postEvent (h : s.Canon) : (s.postEvent type status reason queue tag info).Canon := by
  unfold State.postEvent
  refine canon_ite h.writePendings.writeEvent (canon_ite h.writePendings.dropEvent ?_)
  split <;> exact h.writePendings.same

theorem State.Canon.putVirt64 {asid : Nat} {va : Nat} (h : s.Canon) : (s.putVirt64 asid va v).Canon := by
  unfold State.putVirt64
  split
  · exact canon_ite (h.withHbm (Memory.wf_write _ _ _ _ h.hbm)) h
  · exact h

theorem State.Canon.markSegment (h : s.Canon) : (s.markSegment l status vt).Canon := by
  unfold State.markSegment
  split
  · exact h
  · exact canon_ite h.putVirt64 h

theorem State.Canon.logEntry {w0 : Nat} {w1 : Option Nat} (h : s.Canon) : (s.logEntry idx chunk w0 w1).Canon := by
  unfold State.logEntry
  refine canon_ite h ?_
  split
  · exact h.setLaunch
  · refine canon_ite h.putVirt64.markSegment (State.Canon.putVirt64 ?_)
    split
    · exact h.putVirt64.putVirt64
    · exact h.putVirt64

theorem State.Canon.consumeEntry (h : s.Canon) : (s.consumeEntry idx chunk entry).Canon := h.setLaunch

theorem State.Canon.diverge (h : s.Canon) : (s.diverge idx vt entry).Canon := h.markSegment.setLaunch.postEvent

theorem State.Canon.exchangeTurn {loc : Nat} (h : s.Canon) : OptCanon (s.exchangeTurn idx chunk loc vt slot n) := by
  unfold State.exchangeTurn
  refine .ite (.some h.logEntry) ?_
  split
  · exact .some h.diverge
  · exact .ite (.some h.consumeEntry) (.ite .none (.some h.diverge))

theorem State.Canon.sendTrace (h : s.Canon) : (s.sendTrace site bits).Canon :=
  canon_ite (h.withTiles h.modTile.tiles) h.modTile

theorem State.Canon.putTrace {delta : Nat} (h : s.Canon) : (s.putTrace site type slot sys delta w1 w2 w3).Canon :=
  h.modTile.sendTrace

theorem State.Canon.landTrace (h : s.Canon) : (s.landTrace site bits).Canon :=
  canon_ite (h.withHbm (Memory.wf_write _ _ _ _ h.hbm)) h.modTile

theorem State.Canon.traceReady (h : s.Canon) : (s.traceReady site).Canon :=
  canon_ite (canon_ite (((canon_ite h.putTrace.modTile h).putTrace).modTile) (canon_ite h.putTrace.modTile h)) (canon_ite
    h.putTrace.modTile h)

theorem State.Canon.emit (h : s.Canon) : (s.emit site type slot sys w1 w2 w3).Canon :=
  canon_ite h (canon_ite h.modTile (canon_ite h.traceReady.putTrace h.traceReady.modTile))

theorem State.Canon.capture {qty : Nat} (h : s.Canon) : (s.capture site qty idx v).Canon :=
  canon_ite (h.withStokers (Table.forall_put h.stokers ((h.stoker _).same))) h

theorem State.Canon.emitSum {x : SenderSum} (h : s.Canon) : (s.emitSum site x).Canon := h.emit

theorem State.Canon.addSum {transit : Nat} {wait : Nat} {run : Nat} (h : s.Canon) : (s.addSum site idx vt transit wait run
    n).Canon := by
  unfold State.addSum
  dsimp only
  split
  · exact h.modTile
  · split
    · exact h.emitSum.modTile
    · exact h.modTile

theorem State.Canon.flushSums (h : s.Canon) : (s.flushSums site).Canon := (foldl_preserves h fun _ _ h => h.emitSum).modTile

theorem getSlot_keeps : Keeps getSlot := .get_bind fun _ _ => .pure _

theorem putSlot_keeps {x : Slot} : Keeps (putSlot x) := .modify fun _ h => h.setSlot

theorem modSlot_keeps {f : Slot → Slot} : Keeps (modSlot f) := .modify fun _ h => h.setSlot

theorem modTile_keeps {f : Tile → Tile} (hf : ∀ t, t.Canon → (f t).Canon) : Keeps (modTile f) :=
  .modify fun _ h => h.setTile (hf _ (h.tile _))

theorem getLaunch_keeps : Keeps getLaunch := .get_bind fun _ _ => .pure _

theorem require_keeps {b : Bool} {stop : Stop} : Keeps (require b stop) := .ite (.pure _) (.throw _)

theorem freeWord_keeps : Keeps freeWord := .get_bind fun _ hs => .bind (.set hs.spend) fun _ => .pure _

theorem freeVec_keeps : Keeps freeVec := .get_bind fun _ hs => .bind (.set hs.spend) fun _ => .pure _

theorem Tile.Canon.landVreg {v : Vec} (ht : t.Canon) : (t.landVreg off v sd).Canon :=
  Tile.canon_iff.mpr ⟨Memory.wf_write _ _ _ _ ht.spad, Memory.wf_write _ _ _ _ ht.shadow⟩

theorem Tile.Canon.landOne {f : Flight} (ht : t.Canon) : (landOne l k t f).Canon := by
  unfold Machine.landOne
  dsimp only
  split
  · exact tile_canon_ite ht.setSlot ht.setSlot.setSlot.landVreg
  · exact ht.same
  · exact ht.setSlot

theorem Tile.Canon.settleSlot {c : Nat} (ht : t.Canon) : (settleSlot l c t k).Canon :=
  tile_canon_ite (foldl_preserves ht.setSlot fun _ _ h => h.landOne) ht

theorem Tile.Canon.settleTile {c : Nat} {k : Nat} (ht : t.Canon) : (settleTile l c k t).Canon :=
  tile_canon_ite (foldl_preserves ht fun _ _ h => h.settleSlot) ht

theorem State.Canon.settleAt {k : Nat} (h : s.Canon) : (s.settleAt site k).Canon :=
  canon_ite (h.setTile ((h.tile _).settleTile)) h

theorem State.Canon.settle (h : s.Canon) : (s.settle a).Canon := by
  unfold State.settle
  split
  · exact h.settleAt
  · exact canon_ite h.setSlot h

theorem State.Canon.advance {c : Nat} (h : s.Canon) : (s.advance a c).Canon := h.same.settle

theorem State.Canon.tick (h : s.Canon) : s.tick.Canon := h.same

theorem State.Canon.bankTurn {rank : Nat} (h : s.Canon) : (s.bankTurn site rank).Canon :=
  ((canon_ite h.tick h).settleAt).modTile

theorem State.Canon.startThread {res : Bool} {pc : Half} (h : s.Canon) : (s.startThread site k res pc).Canon :=
  foldl_preserves h.modTile fun _ _ h => h.countAt

theorem Memory.wf_scrambleBuffer {m : Memory} {ctr : Nat} (h : m.wf = true) : (scrambleBuffer off n ctr m).wf = true :=
  Memory.wf_write _ _ _ _ h

theorem State.Canon.rejectPhase (h : s.Canon) : (s.rejectPhase site reason cause).Canon := by
  unfold State.rejectPhase
  refine .countAt (.startThread (.spend (h.setTile ?_)))
  exact (h.tile site).withSpad (Memory.wf_scrambleBuffer (h.tile site).spad)

theorem State.Canon.withdraw (h : s.Canon) : (s.withdraw site k).Canon := by
  unfold State.withdraw
  dsimp only
  split
  · exact h
  · exact h.withTiles (Table.forall_map h.tiles fun _ hr => hr.same)

theorem State.Canon.enterTile (h : s.Canon) : (s.enterTile site k c tv ret).Canon :=
  (h.withdraw.setTile ((h.withdraw.tile _).setSlot)).emit

theorem Core.Canon.enterTrap {c : Core} {code : Nat} {async : Bool} (hc : c.Canon) : (c.enterTrap code async tv ret).Canon :=
  hc.same

theorem State.Canon.doubleFault {slot : Fin 8} (h : s.Canon) : (s.doubleFault site slot c tv ret).Canon :=
  h.modTile.flueSend.flueSend.flueSend

theorem State.Canon.hold {w : Wait} (h : s.Canon) : (s.hold w).Canon := h.setSlot.same

theorem State.Canon.rejectFor (h : s.Canon) : (s.rejectFor site c).Canon := h.rejectPhase

theorem State.Canon.takeTrap (h : s.Canon) : (s.takeTrap c tv ret).Canon := by
  unfold State.takeTrap
  dsimp only
  split
  · exact canon_ite h.advance.rejectFor (canon_ite h.hold (canon_ite h.advance.doubleFault h.advance.enterTile))
  · exact h.advance.setCore h.advance.core.enterTrap

theorem State.Canon.returnTrap (h : s.Canon) : (s.returnTrap a).Canon := by
  unfold State.returnTrap
  split
  · exact h.setSlot
  · exact h.setCore h.core.same

theorem openIssue_keeps : Keeps (openIssue o) := by
  unfold Machine.openIssue
  refine .get_bind fun _ hs => .bind require_keeps fun _ => .bind (.set hs.advance) fun _ => ?_
  split
  · exact .pure _
  · exact .throw _

theorem State.Canon.finish {fl : Flow} (h : s.Canon) : (finish o fl s).Canon := by
  unfold Machine.finish
  dsimp only
  split
  · exact h.setSlot
  · exact h.setSlot.tick
  · exact h.setSlot
  · exact canon_ite h.hold h.setSlot.takeTrap
  · exact h.setSlot

/-- Whatever its issue comes to, an instruction whose body keeps the form keeps it. -/
theorem State.Canon.issue (h : s.Canon) (hb : Keeps body) : Result.Canon (issue o body s) := by
  unfold Machine.issue
  split
  · next e => exact (Keeps.bind openIssue_keeps (fun _ => hb) s h _ _ e).finish.next
  · exact h.hold.next
  · exact h.takeTrap.next
  · exact h.takeTrap.next
  · exact h.rejectPhase.next
  · exact .fault

theorem fenceGate_keeps {store : Bool} {own : Bool} : Keeps (fenceGate store own) := .get_bind fun _ _ => require_keeps

theorem releaseGate_keeps : Keeps releaseGate := .get_bind fun _ _ => require_keeps

theorem acquireHere_keeps : Keeps acquireHere := modSlot_keeps

end Sys2Proof.Machine
end

section
/-! SUPPORT. Settles O50: operands, the homes of accesses and their gates. -/

namespace Sys2Proof.Machine

set_option Elab.async false

variable {k : Fin 16} {x : VSrc} {a b : Src} {align id lam off rank size : Nat} {flags : BitVec 6} {d : Dst} {p v : Word}
  {s : State} {op : MemOp} {rule : SpaceRule} {pl : Place} {dst : Dest} {wants : Bool} {land : Landing}

theorem awaitLanding_keeps {sel : Landing → Bool} : Keeps (awaitLanding sel) := by
  unfold Machine.awaitLanding
  refine .get_bind fun _ hs => ?_
  dsimp only
  split
  · exact .set hs.advance
  · exact .throw _

theorem awaitQueue_keeps : Keeps (awaitQueue k) := .bind getSlot_keeps fun _ => require_keeps

theorem awaitNamed_keeps {k : Fin 32} : Keeps (awaitNamed k) :=
  .bind getSlot_keeps fun _ => .bind require_keeps fun _ => awaitLanding_keeps

theorem awaitSrc_keeps {x : Src} : Keeps (awaitSrc x) := by
  unfold Machine.awaitSrc
  split
  · exact awaitQueue_keeps
  · exact awaitNamed_keeps
  · exact .pure _

theorem awaitOld_keeps {x : Dst} : Keeps (awaitOld x) := by
  unfold Machine.awaitOld
  split
  · exact awaitQueue_keeps
  · exact awaitNamed_keeps
  · exact .pure _

theorem awaitMask_keeps {k : MaskNo} : Keeps (awaitMask k) := .ite (.pure _) awaitLanding_keeps

theorem readQueue_keeps : Keeps (readQueue k) := .get_bind fun _ _ => .ite (.pure _) (.ite (.throw _) freeWord_keeps)

theorem readNamed_keeps {k : Fin 32} : Keeps (readNamed k) :=
  .bind getSlot_keeps fun _ => .ite (.pure _) (.ite (.bind putSlot_keeps fun _ => .pure _) (.pure _))

theorem readMsg_keeps : Keeps readMsg := by
  unfold Machine.readMsg
  refine .bind getSlot_keeps fun _ => ?_
  split
  · exact .pure _
  · refine .ite (.pure _) ?_
    split
    · exact .pure _
    · exact .bind putSlot_keeps fun _ => .pure _

theorem readStream_keeps {k : Fin 4} : Keeps (readStream k wide) := by
  unfold Machine.readStream
  refine .get_bind fun _ _ => .bind getSlot_keeps fun _ => .bind require_keeps fun _ => .getTile_bind fun _ _ => ?_
  split
  · exact .throw _
  · refine .bind require_keeps fun _ => .ite (.pure _) ?_
    split
    · exact .bind (modTile_keeps fun _ ht => ht.same) fun _ => .pure _
    · exact .ite (.bind (modTile_keeps fun _ ht => ht.same) fun _ => .pure _) (.throw _)

theorem readSrc_keeps {x : Src} : Keeps (readSrc x) := by
  unfold Machine.readSrc
  split
  · exact readQueue_keeps
  · exact .pure _
  · exact readMsg_keeps
  · exact .bind readStream_keeps fun _ => .pure _
  · exact .get_bind fun _ hs => .ite freeWord_keeps (.pure _)
  · exact .get_bind fun _ hs => .ite freeWord_keeps (.pure _)
  · exact .pure _
  · exact readNamed_keeps

theorem read1_keeps : Keeps (read1 a) := .bind awaitSrc_keeps fun _ => readSrc_keeps

theorem read2_keeps : Keeps (read2 a b) :=
  .bind awaitSrc_keeps fun _ => .bind awaitSrc_keeps fun _ => .bind readSrc_keeps fun _ => .bind readSrc_keeps fun _ =>
    .pure _

theorem read3_keeps {c : Src} : Keeps (read3 a b c) :=
  .bind awaitSrc_keeps fun _ => .bind awaitSrc_keeps fun _ => .bind awaitSrc_keeps fun _ => .bind readSrc_keeps fun _ =>
    .bind readSrc_keeps fun _ => .bind readSrc_keeps fun _ => .pure _

theorem readOld_keeps {x : Dst} : Keeps (readOld x) := by
  unfold Machine.readOld
  split
  · exact readQueue_keeps
  · exact readNamed_keeps
  · exact .pure _

theorem checkDst_keeps {x : Dst} : Keeps (checkDst x) := by
  unfold Machine.checkDst
  split
  · exact .throw _
  · exact .pure _

theorem writeDst_keeps : Keeps (writeDst lam flags d v) := .modify fun _ h => h.setSlot

theorem deliver_keeps : Keeps (deliver d v) := writeDst_keeps

theorem reserve_keeps {d : Landing} {parts : Nat} : Keeps (reserve d parts) :=
  .bind getSlot_keeps fun _ => .bind putSlot_keeps fun _ => .pure _

theorem awaitVregs_keeps : Keeps awaitVregs := awaitLanding_keeps

theorem checkVreg_keeps : Keeps (checkVreg k) := .bind getLaunch_keeps fun _ => require_keeps

theorem checkVSrc_keeps {bcastOk : Bool} : Keeps (checkVSrc bcastOk x) := by
  unfold Machine.checkVSrc
  split
  · exact .throw _
  · exact require_keeps
  · exact .pure _

theorem windowVSrc_keeps : Keeps (windowVSrc x) := by
  unfold Machine.windowVSrc
  split
  · exact checkVreg_keeps
  · exact .pure _

theorem checkVDst_keeps {x : VDst} : Keeps (checkVDst x) := by
  unfold Machine.checkVDst
  split
  · exact .throw _
  · exact .pure _

theorem windowVDst_keeps {x : VDst} : Keeps (windowVDst x) := by
  unfold Machine.windowVDst
  split
  · exact .bind checkVreg_keeps fun _ => fenceGate_keeps
  · exact .pure _

theorem awaitVSrc_keeps : Keeps (awaitVSrc x) := by
  unfold Machine.awaitVSrc
  split
  · exact .bind getSlot_keeps fun _ => require_keeps
  · exact .get_bind fun _ _ => .bind fenceGate_keeps fun _ => .bind awaitVregs_keeps fun _ => .getTile_bind fun _ _ =>
      require_keeps
  · exact awaitNamed_keeps
  · exact .pure _

theorem readVSrc_keeps : Keeps (readVSrc x) := by
  unfold Machine.readVSrc
  split
  · exact .get_bind fun _ hs => .ite (.pure _) (.ite (.throw _) freeVec_keeps)
  · refine .get_bind fun _ hs => ?_
    dsimp only
    split
    · exact .throw _
    · exact .throw _
    · exact .pure _
  · exact .pure _
  · exact readStream_keeps
  · refine .bind getSlot_keeps fun _ => ?_
    split <;> exact .pure _
  · exact .bind readNamed_keeps fun _ => .bind getSlot_keeps fun _ => .pure _
  · exact .throw _

theorem readMask_keeps {k : MaskNo} : Keeps (readMask k) := .bind getSlot_keeps fun _ => .pure _

theorem writeVDst_keeps {d : VDst} {v : Vec} {sd : Side} : Keeps (writeVDst lam flags d v sd) :=
  .modify fun _ h => h.setSlot

theorem writeMask_keeps {d : MaskNo} {v : MaskWord} : Keeps (writeMask lam flags d v) := .modify fun _ h => h.setSlot

theorem checkMaskDst_keeps {d : MaskNo} : Keeps (checkMaskDst d) := require_keeps

theorem Memory.wf_writeVia {tr : Nat → Nat} {fuel a n v : Nat} {m : Memory} (h : m.wf = true) :
    (writeVia tr fuel m a n v).wf = true := by
  induction fuel generalizing m a n v with
  | zero => exact h
  | succ fuel ih =>
    unfold writeVia
    dsimp only
    split
    · exact Memory.wf_write _ _ _ _ h
    · exact ih (Memory.wf_write _ _ _ _ h)

theorem Memory.wf_putBits {tr : Nat → Nat} {m : Memory} {p : BitPut} (h : m.wf = true) : (putBits tr m p).wf = true := by
  unfold putBits
  dsimp only
  split <;> exact Memory.wf_writeVia h

/-- An access at the home of its location keeps the canonical form: it writes by whole writes alone. -/
theorem MemOp.wf_onMem {tr sh : Nat → Nat} {m : Memory} {a : Nat} (h : m.wf = true) : (op.onMem tr sh m a).1.wf = true := by
  cases op with
  | store | stf | atomic | fxAdd | fxSet | absmax | barArrive => exact Memory.wf_write _ _ _ _ h
  | vecStore => exact foldl_preserves (p := (Memory.wf · = true)) h fun _ _ h => Memory.wf_putBits h
  | vecAtomic | vecFx => exact foldl_preserves (p := (Memory.wf · = true)) h fun _ _ h => Memory.wf_write _ _ _ _ h
  | _ => exact h

theorem MemOp.wf_of_onMem {tr sh : Nat → Nat} {m u : Memory} {a : Nat} {x : List (Nat × Byte) × HomeResult} (h : m.wf = true)
    (e : op.onMem tr sh m a = (u, x)) : u.wf = true := by
  have hm := MemOp.wf_onMem (op := op) (tr := tr) (sh := sh) (a := a) h
  rwa [e] at hm

theorem Memory.wf_writeShadow {m : Memory} {ws : List (Nat × Byte)} (h : m.wf = true) : (writeShadow m ws).wf = true :=
  foldl_preserves (p := (Memory.wf · = true)) h fun _ _ h => Memory.wf_write _ _ _ _ h

theorem Memory.wf_writeRimShadow {addr : Nat → Option Nat} {m : Memory} {ws : List (Nat × Byte)} (h : m.wf = true) :
    (writeRimShadow addr m ws).wf = true := by
  refine foldl_preserves (p := (Memory.wf · = true)) h fun _ _ h => ?_
  split
  · exact Memory.wf_write _ _ _ _ h
  · exact h

theorem Tile.Canon.perform {a : Nat} {t u : Tile} {r : HomeResult} (ht : t.Canon) (e : t.perform op a = .ok u r) : u.Canon := by
  unfold Tile.perform at e
  dsimp only at e
  split at e
  · cases e
  · split at e
    · cases e
    · split at e
      · cases e
      · cases e
        exact Tile.canon_iff.mpr ⟨MemOp.wf_onMem ht.spad, Memory.wf_writeShadow ht.shadow⟩

theorem State.Canon.performHbm {a : Nat} (h : s.Canon) : (s.performHbm asid op a).1.Canon := by
  unfold State.performHbm
  dsimp only
  have h1 : (List.foldl (fun s p => s.cachePage asid p) s (pagesOf (op.reads a ++ op.writes a))).Canon :=
    foldl_preserves h fun _ _ h => h.cachePage
  split
  · exact h
  · split
    · exact h1
    · exact h1.withHbm (Memory.wf_writeRimShadow (MemOp.wf_onMem h1.hbm))

theorem State.Canon.performHost {a : Nat} (h : s.Canon) : (s.performHost part op a).1.Canon := by
  unfold State.performHost
  split
  · exact h
  · exact h.withHost (MemOp.wf_onMem h.host)

theorem ptrFault_keeps {c : Cause} : Keeps (ptrFault c p) := .throw _

theorem spaceCheck_keeps {c : Option Cause} : Keeps (spaceCheck c p) := by
  unfold Machine.spaceCheck
  split
  · exact ptrFault_keeps
  · exact .pure _

theorem corePlace_keeps : Keeps (corePlace rule p size align) :=
  .get_bind fun _ _ => .ite (.bind require_keeps fun _ => .bind require_keeps fun _ => .pure _) (.ite
    (.bind spaceCheck_keeps fun _ => .bind require_keeps fun _ => .bind require_keeps fun _ => .bind require_keeps fun _ =>
    .pure _) (.ite (.throw _) (.bind spaceCheck_keeps fun _ => .bind require_keeps fun _ => .bind require_keeps fun _ => .pure
    _)))

theorem tilePlace_keeps : Keeps (tilePlace rule p size align) :=
  .get_bind fun _ _ => .ite (.bind require_keeps fun _ => .bind require_keeps fun _ => .pure _) (.ite
    (.bind spaceCheck_keeps fun _ => .bind require_keeps fun _ => .bind require_keeps fun _ => .bind require_keeps fun _ =>
    .pure _) (.ite (.bind spaceCheck_keeps fun _ => .bind require_keeps fun _ => .bind require_keeps fun _ => .pure _)
    (.bind spaceCheck_keeps fun _ => .bind require_keeps fun _ => .bind require_keeps fun _ => .pure _)))

theorem placeOf_keeps : Keeps (placeOf rule p size align) := .get_bind fun _ _ => .ite corePlace_keeps tilePlace_keeps

theorem accessGate_keeps {store : Bool} : Keeps (accessGate store pl) := .get_bind fun _ _ => fenceGate_keeps

theorem Tile.Canon.touch {t : Tile} {d : Dest} (ht : t.Canon) : (t.touch d).Canon := by
  unfold Tile.touch
  split
  · exact ht
  · exact ht.same

theorem State.Canon.inject {p : Packet} (h : s.Canon) : (s.inject p).Canon :=
  canon_ite (h.withTiles (h.setTile (((h.tile _).touch).same)).tiles) h.same

theorem freshId_keeps : Keeps freshId := .bind getSlot_keeps fun _ => .bind putSlot_keeps fun _ => .pure _

theorem State.Canon.sendOff {p : Packet} (h : s.Canon) : OptCanon (s.sendOff p) :=
  .ite (.some (h.setTile (((h.tile _).touch).same))) (.ite (.some h.inject) .none)

theorem sendRequest_keeps : Keeps (sendRequest op ptr dst id wants) := by
  unfold Machine.sendRequest
  refine .get_bind fun _ hs => ?_
  split
  · next e => exact .set (hs.sendOff _ e)
  · exact .throw _

theorem capture_keeps {c : Captured} : Keeps (capture c bytes) :=
  .getTile_bind fun _ _ => .bind getLaunch_keeps fun _ => .bind require_keeps fun _ => modTile_keeps fun _ ht => ht.same

theorem inPhase_keeps : Keeps inPhase := .get_bind fun _ _ => .pure _

theorem guardWrite_keeps {n : Nat} {data : Nat} : Keeps (guardWrite op p pl n data wants) := by
  unfold Machine.guardWrite
  refine .bind inPhase_keeps fun _ => .ite (.pure _) (.getTile_bind fun _ _ => ?_)
  split
  · exact .bind require_keeps fun _ => .pure _
  · exact .bind require_keeps fun _ => .get_bind fun _ hs => .bind capture_keeps fun _ => .pure _
  · exact .bind require_keeps fun _ => .get_bind fun _ hs => .bind capture_keeps fun _ => .pure _

theorem countExchange_keeps : Keeps (countExchange op) := .ite modSlot_keeps (.pure _)

theorem privExchange_keeps : Keeps (privExchange op off) := by
  refine .ite (.get_bind fun _ hs => ?_) (.pure _)
  dsimp only
  split
  · next e => exact .set (hs.exchangeTurn _ e)
  · exact .throw _

theorem bankAction_keeps : Keeps (bankAction rank) := .modify fun _ h => h.bankTurn

theorem bankAccess_keeps : Keeps (bankAccess rank op p off) := by
  refine .bind awaitVregs_keeps fun _ => .bind bankAction_keeps fun _ => .bind privExchange_keeps fun _ =>
    .bind countExchange_keeps fun _ => .getTile_bind fun _ ht => ?_
  split
  · exact .throw _
  · exact .throw _
  · next e => exact .bind (modTile_keeps fun _ _ => ht.perform e) fun _ => .pure _

theorem privAccess_keeps : Keeps (privAccess op p off) := .get_bind fun _ _ => bankAccess_keeps

theorem localAccess_keeps : Keeps (localAccess op off) := by
  refine .get_bind fun _ hs => ?_
  dsimp only
  exact .bind (.set (hs.setCore (Core.canon_mem (MemOp.wf_onMem hs.core)))) fun _ => .pure _

theorem physAccess_keeps : Keeps (physAccess op p pa) := by
  refine .get_bind fun _ hs => .bind require_keeps fun _ => ?_
  split
  next e => exact .bind (.set (hs.withHbm (MemOp.wf_of_onMem hs.hbm e))) fun _ => .pure _

theorem coreHostAccess_keeps : Keeps (coreHostAccess op off) := by
  refine .get_bind fun _ hs => ?_
  split
  next e => exact .bind (.set (hs.withHost (MemOp.wf_of_onMem hs.host e))) fun _ => .pure _

theorem remoteAccess_keeps : Keeps (remoteAccess op p dst land wants) :=
  .ite (.bind reserve_keeps fun _ => .bind sendRequest_keeps fun _ => countExchange_keeps) (.bind freshId_keeps fun _ =>
    .bind sendRequest_keeps fun _ => countExchange_keeps)

theorem currentIdx_keeps : Keeps currentIdx := .getTile_bind fun _ _ => .pure _

theorem access_keeps : Keeps (access op p pl land wants) := by
  unfold Machine.access
  refine .get_bind fun _ _ => ?_
  split
  · exact .bind privAccess_keeps fun _ => .pure _
  · exact .bind localAccess_keeps fun _ => .pure _
  · exact .bind physAccess_keeps fun _ => .pure _
  · exact .bind currentIdx_keeps fun _ => .bind remoteAccess_keeps fun _ => .pure _
  · exact .bind getLaunch_keeps fun _ => .bind require_keeps fun _ => .bind remoteAccess_keeps fun _ => .pure _
  · exact .ite (.bind coreHostAccess_keeps fun _ => .pure _) (.bind getLaunch_keeps fun _ => .bind require_keeps fun _ =>
      .bind remoteAccess_keeps fun _ => .pure _)

theorem accessTo_keeps : Keeps (accessTo op p pl d wants) := by
  unfold Machine.accessTo
  refine .bind access_keeps fun _ => ?_
  split
  · exact .ite (.bind deliver_keeps fun _ => .pure _) (.pure _)
  · exact .pure _

end Sys2Proof.Machine
end

section
/-! SUPPORT. Settles O50: the vector unit and vector memory accesses. -/

namespace Sys2Proof.Machine

set_option Elab.async false

variable {α : Type} {ok : Nat → Bool} {bytes data g lam : Nat} {a b : VSrc} {d : VDst} {m : MaskNo}
  {f : VEnv → Nat → Nat × BitVec 6} {stl : Stl} {s : State} {base p : Word} {r : ElemRule} {parts : List (Place × MemOp)}
  {ps : List Placed} {sl : Slot}

theorem checkFmt_keeps : Keeps (checkFmt ok) := .bind getSlot_keeps fun _ => require_keeps

theorem vectorUnit_keeps : Keeps (vectorUnit g) :=
  .getTile_bind fun _ _ => .bind (.modify fun _ h => h.advance) fun _ => .modify fun _ h => h.modTile

theorem checkBcast_keeps : Keeps (checkBcast b) := by
  unfold Machine.checkBcast
  refine .bind getSlot_keeps fun _ => ?_
  split
  · exact require_keeps
  · exact .pure _

theorem vop2_keeps {f : VEnv → Nat → Nat → Nat → Nat × BitVec 6} : Keeps (vop2 lam ok d a b m f) :=
  .bind checkVSrc_keeps fun _ => .bind checkVSrc_keeps fun _ => .bind checkVDst_keeps fun _ =>
    .bind windowVSrc_keeps fun _ => .bind windowVSrc_keeps fun _ => .bind windowVDst_keeps fun _ =>
    .bind checkFmt_keeps fun _ => .bind awaitVSrc_keeps fun _ => .bind awaitVSrc_keeps fun _ => .bind awaitMask_keeps fun _ =>
    .bind vectorUnit_keeps fun _ => .bind readVSrc_keeps fun _ => .bind readVSrc_keeps fun _ => .bind readMask_keeps fun _ =>
    .bind getSlot_keeps fun _ => .bind writeVDst_keeps fun _ => .pure _

theorem vint2_keeps {f : Nat → Nat → Nat → Nat} : Keeps (vint2 ok d a b m f) := vop2_keeps

theorem vfp2_keeps {f : Nat → Rounding → Nat → Nat → Nat × BitVec 6} : Keeps (vfp2 d a b m f) := vop2_keeps

theorem vop1_keeps : Keeps (vop1 lam ok d a m f) :=
  .bind checkVSrc_keeps fun _ => .bind checkVDst_keeps fun _ => .bind windowVSrc_keeps fun _ =>
    .bind windowVDst_keeps fun _ => .bind checkFmt_keeps fun _ => .bind awaitVSrc_keeps fun _ =>
    .bind awaitMask_keeps fun _ => .bind vectorUnit_keeps fun _ => .bind readVSrc_keeps fun _ => .bind readMask_keeps fun _ =>
    .bind getSlot_keeps fun _ => .bind writeVDst_keeps fun _ => .pure _

theorem vcmp_keeps {d : MaskNo} {f : VEnv → Nat → Nat → Bool × BitVec 6} : Keeps (vcmp lam ok d a b m f) :=
  .bind checkMaskDst_keeps fun _ => .bind checkVSrc_keeps fun _ => .bind checkVSrc_keeps fun _ =>
    .bind windowVSrc_keeps fun _ => .bind windowVSrc_keeps fun _ => .bind checkFmt_keeps fun _ =>
    .bind awaitVSrc_keeps fun _ => .bind awaitVSrc_keeps fun _ => .bind awaitMask_keeps fun _ =>
    .bind vectorUnit_keeps fun _ => .bind readVSrc_keeps fun _ => .bind readVSrc_keeps fun _ => .bind readMask_keeps fun _ =>
    .bind getSlot_keeps fun _ => .bind writeMask_keeps fun _ => .pure _

theorem vred_keeps {d : Dst} : Keeps (vred lam ok d a m f) :=
  .bind checkDst_keeps fun _ => .bind checkVSrc_keeps fun _ => .bind windowVSrc_keeps fun _ => .bind checkFmt_keeps fun _ =>
    .bind awaitVSrc_keeps fun _ => .bind awaitMask_keeps fun _ => .bind vectorUnit_keeps fun _ =>
    .bind readVSrc_keeps fun _ => .bind readMask_keeps fun _ => .bind getSlot_keeps fun _ => .bind writeDst_keeps fun _ =>
    .pure _

theorem vopS_keeps {b : Src} {f : VEnv → Nat → Word → Nat → Nat} : Keeps (vopS ok d a b m f) :=
  .bind checkVSrc_keeps fun _ => .bind checkVDst_keeps fun _ => .bind windowVSrc_keeps fun _ =>
    .bind windowVDst_keeps fun _ => .bind checkFmt_keeps fun _ => .bind awaitVSrc_keeps fun _ => .bind awaitSrc_keeps fun _ =>
    .bind awaitMask_keeps fun _ => .bind vectorUnit_keeps fun _ => .bind readVSrc_keeps fun _ => .bind readSrc_keeps fun _ =>
    .bind readMask_keeps fun _ => .bind getSlot_keeps fun _ => .bind writeVDst_keeps fun _ => .pure _

theorem vfma_keeps {c : BitVec 2} {np : Bool} {na : Bool} : Keeps (vfma d a b c np na) :=
  .bind checkVSrc_keeps fun _ => .bind checkVSrc_keeps fun _ => .bind checkVDst_keeps fun _ =>
    .bind windowVSrc_keeps fun _ => .bind windowVSrc_keeps fun _ => .bind windowVDst_keeps fun _ =>
    .bind checkFmt_keeps fun _ => .bind awaitVSrc_keeps fun _ => .bind awaitVSrc_keeps fun _ => .bind awaitVSrc_keeps fun _ =>
    .bind vectorUnit_keeps fun _ => .bind readVSrc_keeps fun _ => .bind readVSrc_keeps fun _ => .bind readVSrc_keeps fun _ =>
    .bind getSlot_keeps fun _ => .bind writeVDst_keeps fun _ => .pure _

theorem vicmp_keeps {d : MaskNo} {f : Nat → Nat → Nat → Bool} : Keeps (vicmp d a b m f) := vcmp_keeps

theorem vfcmp_keeps {d : MaskNo} {k : FCmp} : Keeps (vfcmp d a b m k) := vcmp_keeps

theorem execVextr_canon {d : Dst} {b : Src} (h : s.Canon) : Result.Canon (execVextr stl d a b m s) :=
  h.issue (.bind checkDst_keeps fun _ => .bind checkVSrc_keeps fun _ => .bind windowVSrc_keeps fun _ =>
    .bind checkFmt_keeps fun _ => .bind awaitVSrc_keeps fun _ => .bind awaitSrc_keeps fun _ => .bind awaitMask_keeps fun _ =>
    .bind vectorUnit_keeps fun _ => .bind readVSrc_keeps fun _ => .bind readSrc_keeps fun _ => .bind readMask_keeps fun _ =>
    .bind getSlot_keeps fun _ => .bind writeDst_keeps fun _ => .pure _)

theorem takeKey_keeps {sr : Bool} : Keeps (takeKey sr) :=
  .bind getSlot_keeps fun _ => .ite (.bind putSlot_keeps fun _ => .pure _) (.pure _)

theorem currentVt_keeps : Keeps currentVt := .getTile_bind fun _ _ => .pure _

theorem checkBlock_keeps {c : Nat} {blk : Nat} : Keeps (checkBlock c blk) := require_keeps

theorem execVcvt_canon (h : s.Canon) : Result.Canon (execVcvt stl d a m s) :=
  h.issue (.bind checkVSrc_keeps fun _ => .bind checkVDst_keeps fun _ => .bind windowVSrc_keeps fun _ =>
    .bind windowVDst_keeps fun _ => .bind checkFmt_keeps fun _ => .bind getSlot_keeps fun _ => .bind require_keeps fun _ =>
    .bind checkBlock_keeps fun _ => .bind awaitVSrc_keeps fun _ => .bind awaitMask_keeps fun _ =>
    .bind vectorUnit_keeps fun _ => .bind readVSrc_keeps fun _ => .bind readMask_keeps fun _ => .bind takeKey_keeps fun _ =>
    .bind currentVt_keeps fun _ => .get_bind fun _ _ => .bind writeVDst_keeps fun _ => .pure _)

theorem checkGroupSrc_keeps : Keeps (checkGroupSrc a g) := by
  unfold Machine.checkGroupSrc
  split
  · exact require_keeps
  · exact require_keeps
  · exact .throw _
  · exact .pure _

theorem checkGroupDst_keeps : Keeps (checkGroupDst d g) := by
  unfold Machine.checkGroupDst
  split
  · exact require_keeps
  · exact .pure _

theorem forAll_keeps {f : α → M Unit} {l : List α} (hf : ∀ x, Keeps (f x)) : Keeps (forAll f l) := by
  induction l with
  | nil => exact .pure _
  | cons x l ih => exact .bind (hf x) fun _ => ih

theorem readGroup_keeps {l : List VSrc} : Keeps (readGroup l) := by
  induction l with
  | nil => exact .pure _
  | cons a l ih => exact .bind readVSrc_keeps fun _ => .bind ih fun _ => .pure _

theorem writeGroup_keeps {fl : BitVec 6} {l : List VDst} {bits : Nat} : Keeps (writeGroup lam fl l bits) := by
  induction l generalizing fl bits with
  | nil => exact .pure _
  | cons d l ih => exact .bind writeVDst_keeps fun _ => ih

theorem execVwiden_canon (h : s.Canon) : Result.Canon (execVwiden stl d a m s) :=
  h.issue (.bind checkVSrc_keeps fun _ => .bind checkVDst_keeps fun _ => .bind windowVSrc_keeps fun _ =>
    .bind windowVDst_keeps fun _ => .bind checkFmt_keeps fun _ => .bind getSlot_keeps fun _ => .bind require_keeps fun _ =>
    .bind checkBlock_keeps fun _ => .bind checkGroupDst_keeps fun _ => .bind (forAll_keeps fun _ => windowVDst_keeps) fun _ =>
    .bind awaitVSrc_keeps fun _ => .bind awaitMask_keeps fun _ => .bind vectorUnit_keeps fun _ =>
    .bind readVSrc_keeps fun _ => .bind readMask_keeps fun _ => .bind takeKey_keeps fun _ => .bind currentVt_keeps fun _ =>
    .get_bind fun _ _ => .bind writeGroup_keeps fun _ => .pure _)

theorem execVnarrow_canon (h : s.Canon) : Result.Canon (execVnarrow stl d a m s) :=
  h.issue (.bind checkVSrc_keeps fun _ => .bind checkVDst_keeps fun _ => .bind windowVSrc_keeps fun _ =>
    .bind windowVDst_keeps fun _ => .bind checkFmt_keeps fun _ => .bind getSlot_keeps fun _ => .bind require_keeps fun _ =>
    .bind require_keeps fun _ => .bind checkBlock_keeps fun _ => .bind checkGroupSrc_keeps fun _ => .bind (forAll_keeps fun _
    => windowVSrc_keeps) fun _ => .bind (forAll_keeps fun _ => awaitVSrc_keeps) fun _ => .bind awaitMask_keeps fun _ =>
    .bind vectorUnit_keeps fun _ => .bind readGroup_keeps fun _ => .bind readMask_keeps fun _ => .bind takeKey_keeps fun _ =>
    .bind currentVt_keeps fun _ => .get_bind fun _ _ => .bind writeVDst_keeps fun _ => .pure _)

theorem execVquant_canon (h : s.Canon) : Result.Canon (execVquant stl d a m s) :=
  h.issue (.bind checkVSrc_keeps fun _ => .bind checkVDst_keeps fun _ => .bind windowVSrc_keeps fun _ =>
    .bind windowVDst_keeps fun _ => .bind checkFmt_keeps fun _ => .bind getSlot_keeps fun _ => .bind require_keeps fun _ =>
    .bind require_keeps fun _ => .bind checkBlock_keeps fun _ => .bind checkGroupSrc_keeps fun _ => .bind (forAll_keeps fun _
    => windowVSrc_keeps) fun _ => .bind (forAll_keeps fun _ => awaitVSrc_keeps) fun _ => .bind awaitMask_keeps fun _ =>
    .bind vectorUnit_keeps fun _ => .bind readGroup_keeps fun _ => .bind readMask_keeps fun _ => .bind takeKey_keeps fun _ =>
    .bind currentVt_keeps fun _ => .get_bind fun _ _ => .bind writeVDst_keeps fun _ => .pure _)

theorem execVscale_canon {b : Src} (h : s.Canon) : Result.Canon (execVscale stl d a b m s) :=
  h.issue (.bind checkVSrc_keeps fun _ => .bind checkVDst_keeps fun _ => .bind windowVSrc_keeps fun _ =>
    .bind windowVDst_keeps fun _ => .bind checkFmt_keeps fun _ => .bind getSlot_keeps fun _ => .bind checkBlock_keeps fun _ =>
    .bind awaitVSrc_keeps fun _ => .bind awaitSrc_keeps fun _ => .bind awaitMask_keeps fun _ =>
    .bind vectorUnit_keeps fun _ => .bind readVSrc_keeps fun _ => .bind readSrc_keeps fun _ => .bind readMask_keeps fun _ =>
    .ite (.bind writeVDst_keeps fun _ => .pure _) (.bind writeVDst_keeps fun _ => .pure _))

theorem execVdot_canon (h : s.Canon) : Result.Canon (execVdot stl d a b m s) := by
  unfold Machine.execVdot
  refine h.issue (.bind checkVSrc_keeps fun _ => .bind checkVSrc_keeps fun _ => .bind checkVDst_keeps fun _ =>
    .bind windowVSrc_keeps fun _ => .bind windowVSrc_keeps fun _ => .bind windowVDst_keeps fun _ =>
    .bind checkFmt_keeps fun _ => .bind getSlot_keeps fun _ => .bind require_keeps fun _ => .bind checkBlock_keeps fun _ =>
    .bind checkBlock_keeps fun _ => .bind checkBcast_keeps fun _ => ?_)
  dsimp only
  split
  · exact .bind require_keeps fun _ => .bind awaitVSrc_keeps fun _ => .bind awaitVSrc_keeps fun _ =>
      .bind awaitMask_keeps fun _ => .bind vectorUnit_keeps fun _ => .bind readVSrc_keeps fun _ =>
      .bind readVSrc_keeps fun _ => .bind readMask_keeps fun _ => .bind writeVDst_keeps fun _ => .pure _
  · exact .bind awaitVSrc_keeps fun _ => .bind awaitVSrc_keeps fun _ => .bind awaitMask_keeps fun _ =>
      .bind vectorUnit_keeps fun _ => .bind readVSrc_keeps fun _ => .bind readVSrc_keeps fun _ =>
      .bind readMask_keeps fun _ => .bind writeVDst_keeps fun _ => .pure _

theorem maskOp2_keeps {d : MaskNo} {a : MaskNo} {b : MaskNo} {f : Bool → Bool → Bool} : Keeps (maskOp2 d a b m f) :=
  .bind checkMaskDst_keeps fun _ => .bind checkFmt_keeps fun _ => .bind (forAll_keeps fun _ => awaitMask_keeps) fun _ =>
    .bind vectorUnit_keeps fun _ => .bind readMask_keeps fun _ => .bind readMask_keeps fun _ => .bind readMask_keeps fun _ =>
    .bind getSlot_keeps fun _ => .bind writeMask_keeps fun _ => .pure _

theorem maskScalar_keeps {d : Dst} {a : MaskNo} {f : VEnv → MaskWord → Word} : Keeps (maskScalar d a m f) :=
  .bind checkDst_keeps fun _ => .bind checkFmt_keeps fun _ => .bind (forAll_keeps fun _ => awaitMask_keeps) fun _ =>
    .bind vectorUnit_keeps fun _ => .bind readMask_keeps fun _ => .bind readMask_keeps fun _ => .bind getSlot_keeps fun _ =>
    .bind writeDst_keeps fun _ => .pure _

theorem execMsetn_canon {d : MaskNo} {a : Src} (h : s.Canon) : Result.Canon (execMsetn stl d a m s) :=
  h.issue (.bind checkMaskDst_keeps fun _ => .bind checkFmt_keeps fun _ => .bind awaitSrc_keeps fun _ =>
    .bind awaitMask_keeps fun _ => .bind vectorUnit_keeps fun _ => .bind readSrc_keeps fun _ => .bind readMask_keeps fun _ =>
    .bind getSlot_keeps fun _ => .bind writeMask_keeps fun _ => .pure _)

theorem execViota_canon {a : MaskNo} (h : s.Canon) : Result.Canon (execViota stl d a m s) :=
  h.issue (.bind checkVDst_keeps fun _ => .bind windowVDst_keeps fun _ => .bind checkFmt_keeps fun _ => .bind (forAll_keeps
    fun _ => awaitMask_keeps) fun _ => .bind vectorUnit_keeps fun _ => .bind readMask_keeps fun _ =>
    .bind readMask_keeps fun _ => .bind getSlot_keeps fun _ => .bind writeVDst_keeps fun _ => .pure _)

theorem vmove_keeps {f : Vec → Side → Vec × Side} : Keeps (vmove d a f) :=
  .bind checkVSrc_keeps fun _ => .bind checkVDst_keeps fun _ => .bind windowVSrc_keeps fun _ =>
    .bind windowVDst_keeps fun _ => .bind awaitVSrc_keeps fun _ => .bind vectorUnit_keeps fun _ =>
    .bind readVSrc_keeps fun _ => .bind writeVDst_keeps fun _ => .pure _

theorem execVsetsc_canon (h : s.Canon) : Result.Canon (execVsetsc stl d a b s) :=
  h.issue (.bind checkVSrc_keeps fun _ => .bind checkVSrc_keeps fun _ => .bind checkVDst_keeps fun _ =>
    .bind windowVSrc_keeps fun _ => .bind windowVSrc_keeps fun _ => .bind windowVDst_keeps fun _ =>
    .bind checkBcast_keeps fun _ => .bind awaitVSrc_keeps fun _ => .bind awaitVSrc_keeps fun _ =>
    .bind vectorUnit_keeps fun _ => .bind readVSrc_keeps fun _ => .bind readVSrc_keeps fun _ => .bind writeVDst_keeps fun _ =>
    .pure _)

theorem execVlanes_canon {d : Dst} (h : s.Canon) : Result.Canon (execVlanes stl d s) :=
  h.issue (.bind checkDst_keeps fun _ => .bind checkFmt_keeps fun _ => .bind vectorUnit_keeps fun _ =>
    .bind getSlot_keeps fun _ => .bind writeDst_keeps fun _ => .pure _)

theorem rimTranslates_keeps {write : Bool} {n : Nat} {pl : Place} : Keeps (rimTranslates write p n pl) := by
  unfold Machine.rimTranslates
  refine .get_bind fun _ _ => .bind getLaunch_keeps fun _ => ?_
  split
  · exact require_keeps
  · exact require_keeps
  · exact .pure _

theorem atBase_keeps {one : Bool} {m : M α} (hm : Keeps m) : Keeps (atBase one base m) := by
  intro s h x t e
  unfold atBase at e
  split at e
  · cases e
  · cases e
  · exact hm s h x t e

theorem placeElem_keeps {e : VElem} : Keeps (placeElem r base e) := by
  unfold Machine.placeElem
  refine .bind placeOf_keeps fun _ => .bind require_keeps fun _ => ?_
  dsimp only
  split
  · exact .bind rimTranslates_keeps fun _ => .pure _
  · exact .pure _

theorem placeElems_keeps {l : List VElem} : Keeps (placeElems r base l) := by
  induction l with
  | nil => exact .pure _
  | cons e l ih => exact .bind (atBase_keeps placeElem_keeps) fun _ => .bind ih fun _ => .pure _

theorem writeRim_keeps : Keeps writeRim := .bind inPhase_keeps fun _ => .pure _

theorem sendParts_keeps {id : Nat} {wants : Bool} : Keeps (sendParts p id wants parts) := by
  induction parts with
  | nil => exact .pure _
  | cons q l ih => exact .bind currentIdx_keeps fun _ => .bind sendRequest_keeps fun _ => ih

theorem storeParts_keeps : Keeps (storeParts p parts) := by
  unfold Machine.storeParts
  split
  · exact .bind privAccess_keeps fun _ => .pure _
  · exact .pure _
  · exact .bind freshId_keeps fun _ => sendParts_keeps

theorem loadParts_keeps : Keeps (loadParts p d parts) := by
  unfold Machine.loadParts
  split
  · exact .bind privAccess_keeps fun _ => writeVDst_keeps
  · exact writeVDst_keeps
  · exact .bind reserve_keeps fun _ => sendParts_keeps

theorem gateParts_keeps {store : Bool} : Keeps (gateParts store ps) := .get_bind fun _ _ => .ite (.pure _) fenceGate_keeps

theorem guardParts_keeps : Keeps (guardParts p ps parts data) := by
  unfold Machine.guardParts
  refine .bind inPhase_keeps fun _ => .ite (.pure _) ?_
  split
  · exact .pure _
  · exact .getTile_bind fun _ _ => .bind require_keeps fun _ => .pure _
  · exact .get_bind fun _ _ => .bind capture_keeps fun _ => .pure _

theorem storeOrCapture_keeps : Keeps (storeOrCapture p ps parts data) :=
  .bind guardParts_keeps fun _ => .ite (.pure _) (.bind gateParts_keeps fun _ => .bind storeParts_keeps fun _ => .pure _)

theorem checkVLoad_keeps : Keeps (checkVLoad d ok) :=
  .bind checkVDst_keeps fun _ => .bind windowVDst_keeps fun _ => checkFmt_keeps

theorem checkVStore_keeps {d : VSrc} : Keeps (checkVStore d ok) :=
  .bind checkVSrc_keeps fun _ => .bind windowVSrc_keeps fun _ => checkFmt_keeps

theorem execVld_canon {a : Src} {b : Src} (h : s.Canon) : Result.Canon (execVld stl d a b s) := by
  unfold Machine.execVld
  refine h.issue (.bind checkVLoad_keeps fun _ => .bind read2_keeps fun _ => ?_)
  split
  exact .bind getSlot_keeps fun _ => .bind placeElems_keeps fun _ => .bind gateParts_keeps fun _ =>
    .bind loadParts_keeps fun _ => .pure _

theorem readVStore_keeps {d : VSrc} {a : Src} {b : Src} : Keeps (readVStore d a b) :=
  .bind awaitSrc_keeps fun _ => .bind awaitSrc_keeps fun _ => .bind awaitVSrc_keeps fun _ => .bind readSrc_keeps fun _ =>
    .bind readSrc_keeps fun _ => .bind readVSrc_keeps fun _ => .pure _

theorem execVst_canon {d : VSrc} {a : Src} {b : Src} (h : s.Canon) : Result.Canon (execVst stl d a b s) := by
  unfold Machine.execVst
  refine h.issue (.bind checkVStore_keeps fun _ => .bind readVStore_keeps fun _ => ?_)
  split
  exact .bind getSlot_keeps fun _ => .bind writeRim_keeps fun _ => .bind placeElems_keeps fun _ => storeOrCapture_keeps

theorem checkConv_keeps : Keeps (checkConv sl p) :=
  .bind require_keeps fun _ => .bind checkBlock_keeps fun _ => checkBlock_keeps

theorem placeConv_keeps {x : Word} {rim : Option Bool} : Keeps (placeConv sl x base rim) :=
  .bind placeElems_keeps fun _ => .bind checkConv_keeps fun _ => .pure _

theorem execVldc_canon {a : Src} {b : Src} (h : s.Canon) : Result.Canon (execVldc stl d a b s) := by
  unfold Machine.execVldc
  refine h.issue (.bind checkVLoad_keeps fun _ => .bind read2_keeps fun _ => ?_)
  split
  refine .bind getSlot_keeps fun _ => .bind placeConv_keeps fun _ => .bind gateParts_keeps fun _ =>
    .bind takeKey_keeps fun _ => .bind currentVt_keeps fun _ => .get_bind fun _ _ => ?_
  dsimp only
  split
  · exact .bind writeVDst_keeps fun _ => .pure _
  · split
    · exact .bind privAccess_keeps fun _ => .bind writeVDst_keeps fun _ => .pure _
    · exact .bind reserve_keeps fun _ => .bind currentIdx_keeps fun _ => .bind sendRequest_keeps fun _ => .pure _

theorem execVstc_canon {d : VSrc} {a : Src} {b : Src} (h : s.Canon) : Result.Canon (execVstc stl d a b s) := by
  unfold Machine.execVstc
  refine h.issue (.bind checkVStore_keeps fun _ => .bind readVStore_keeps fun _ => ?_)
  split
  exact .bind getSlot_keeps fun _ => .bind writeRim_keeps fun _ => .bind placeConv_keeps fun _ =>
    .bind takeKey_keeps fun _ => .bind currentVt_keeps fun _ => .get_bind fun _ _ => .bind storeOrCapture_keeps fun _ => .bind
    (.modify fun _ h => h.setSlot) fun _ => .pure _

theorem captureEach_keeps : Keeps (captureEach p data bytes ps) := by
  induction ps with
  | nil => exact .pure _
  | cons q l ih => exact .get_bind fun _ _ => .bind capture_keeps fun _ => ih

theorem storeApart_keeps : Keeps (storeApart p ps data bytes) := by
  unfold Machine.storeApart
  refine .bind inPhase_keeps fun _ => ?_
  split
  · split
    · exact storeOrCapture_keeps
    · exact .bind captureEach_keeps fun _ => .pure _
  · exact .bind gateParts_keeps fun _ => .bind storeParts_keeps fun _ => .pure _

theorem execVlds_canon {a : Src} {b : Src} (h : s.Canon) : Result.Canon (execVlds stl d a b s) := by
  unfold Machine.execVlds
  refine h.issue (.bind checkVLoad_keeps fun _ => .bind read2_keeps fun _ => ?_)
  split
  exact .bind getSlot_keeps fun _ => .bind placeElems_keeps fun _ => .bind gateParts_keeps fun _ =>
    .bind loadParts_keeps fun _ => .pure _

theorem execVsts_canon {d : VSrc} {a : Src} {b : Src} (h : s.Canon) : Result.Canon (execVsts stl d a b s) := by
  unfold Machine.execVsts
  refine h.issue (.bind checkVStore_keeps fun _ => .bind readVStore_keeps fun _ => ?_)
  split
  exact .bind getSlot_keeps fun _ => .bind writeRim_keeps fun _ => .bind placeElems_keeps fun _ => storeApart_keeps

theorem execVgath_canon {a : Src} (h : s.Canon) : Result.Canon (execVgath stl d a b s) :=
  h.issue (.bind checkVSrc_keeps fun _ => .bind checkVDst_keeps fun _ => .bind windowVSrc_keeps fun _ =>
    .bind windowVDst_keeps fun _ => .bind checkFmt_keeps fun _ => .bind awaitSrc_keeps fun _ => .bind awaitVSrc_keeps fun _ =>
    .bind readSrc_keeps fun _ => .bind readVSrc_keeps fun _ => .bind getSlot_keeps fun _ => .bind placeElems_keeps fun _ =>
    .bind gateParts_keeps fun _ => .bind loadParts_keeps fun _ => .pure _)

theorem readVStoreV_keeps {d : VSrc} {a : Src} : Keeps (readVStoreV d a b) :=
  .bind awaitSrc_keeps fun _ => .bind awaitVSrc_keeps fun _ => .bind awaitVSrc_keeps fun _ => .bind readSrc_keeps fun _ =>
    .bind readVSrc_keeps fun _ => .bind readVSrc_keeps fun _ => .pure _

theorem checkVStoreV_keeps {d : VSrc} : Keeps (checkVStoreV d b ok) :=
  .bind checkVSrc_keeps fun _ => .bind checkVSrc_keeps fun _ => .bind windowVSrc_keeps fun _ =>
    .bind windowVSrc_keeps fun _ => checkFmt_keeps

theorem execVscat_canon {d : VSrc} {a : Src} (h : s.Canon) : Result.Canon (execVscat stl d a b s) := by
  unfold Machine.execVscat
  refine h.issue (.bind checkVStoreV_keeps fun _ => .bind readVStoreV_keeps fun _ => ?_)
  split
  exact .bind getSlot_keeps fun _ => .bind writeRim_keeps fun _ => .bind placeElems_keeps fun _ => storeApart_keeps

theorem atomicLanes_keeps {k : AtomKind} {d : VSrc} {a : Src} {b : Src} : Keeps (atomicLanes k ok d a b) := by
  unfold Machine.atomicLanes
  refine .bind checkVStore_keeps fun _ => .bind readVStore_keeps fun _ => ?_
  split
  exact .bind getSlot_keeps fun _ => .bind writeRim_keeps fun _ => .bind placeElems_keeps fun _ => storeOrCapture_keeps

theorem execVafx_canon {d : VSrc} {a : Src} (h : s.Canon) : Result.Canon (execVafx stl d a b s) := by
  unfold Machine.execVafx
  refine h.issue (.bind checkVStoreV_keeps fun _ => .bind readVStoreV_keeps fun _ => ?_)
  split
  exact .bind getSlot_keeps fun _ => .bind writeRim_keeps fun _ => .bind placeElems_keeps fun _ => storeOrCapture_keeps

theorem execVamaxDrain_canon {d : VSrc} {a : Src} (h : s.Canon) : Result.Canon (execVamaxDrain stl d a s) :=
  h.issue (.bind checkVStore_keeps fun _ => .bind awaitSrc_keeps fun _ => .bind awaitVSrc_keeps fun _ =>
    .bind readSrc_keeps fun _ => .bind readVSrc_keeps fun _ => .bind getSlot_keeps fun _ => .bind placeOf_keeps fun _ =>
    .bind guardWrite_keeps fun _ => .ite (.pure _) (.bind accessGate_keeps fun _ => accessTo_keeps))

end Sys2Proof.Machine
end

section
/-! SUPPORT. Settles O50: the matrix engine. -/

namespace Sys2Proof.Machine

set_option Elab.async false

variable {k : Fin 8} {c : MatrixCmd} {p : Word} {rd : M Word} {ca cd : TileCfg} {R : Nat → Rounding} {s : State} {site : Nat}
  {t : Tile}

/-- Asking whether a body waits changes nothing. -/
theorem M.awaits_keeps {α : Type} {m : M α} : Keeps m.awaits := by
  intro s h x t e
  unfold M.awaits at e
  split at e <;> cases e
  exact h

theorem writeEnabled_keeps {c : TileCfg} {f : Nat → Nat → Nat} : Keeps (writeEnabled k c f) :=
  .getTile_bind fun _ _ => modTile_keeps fun _ ht => ht.same

theorem matrixIllegal_keeps {ok : Bool} : Keeps (matrixIllegal ok) := require_keeps

theorem checkCfgs_keeps : Keeps (checkCfgs c) :=
  .getTile_bind fun _ _ => .bind matrixIllegal_keeps fun _ => matrixIllegal_keeps

theorem matrixPtr_keeps {lo : Nat} {hi : Nat} {align : Nat} {writes : Bool} : Keeps (matrixPtr p lo hi align writes) :=
  .bind require_keeps fun _ => .bind require_keeps fun _ => .bind inPhase_keeps fun _ => .getTile_bind fun _ _ =>
    .bind require_keeps fun _ => .pure _

theorem matrixAccess_keeps {op : MemOp} {off : Nat} : Keeps (matrixAccess op p off) := bankAccess_keeps

theorem effTld_keeps (hr : Keeps rd) : Keeps (effTld c rd) :=
  .getTile_bind fun _ _ => .bind matrixIllegal_keeps fun _ => .bind hr fun _ => .bind matrixPtr_keeps fun _ =>
    .bind matrixAccess_keeps fun _ => .bind writeEnabled_keeps fun _ => .pure _

theorem effTst_keeps (hr : Keeps rd) : Keeps (effTst c rd) :=
  .getTile_bind fun _ _ => .bind matrixIllegal_keeps fun _ => .bind hr fun _ => .bind matrixPtr_keeps fun _ =>
    .bind matrixAccess_keeps fun _ => .pure _

theorem effTzero_keeps : Keeps (effTzero c) := by
  refine .getTile_bind fun _ _ => .bind (modTile_keeps fun _ ht => ?_) fun _ => .pure _
  exact ht.same

theorem effMma_keeps (hr : Keeps rd) : Keeps (effMma c rd) := by
  unfold Machine.effMma
  refine .getTile_bind fun _ _ => ?_
  dsimp only
  refine .bind matrixIllegal_keeps fun _ => .bind matrixIllegal_keeps fun _ => .ite ?_ ?_
  · exact .bind hr fun _ => .ite (.bind matrixPtr_keeps fun _ => .bind matrixAccess_keeps fun _ => .bind (.pure _) fun _ =>
      .bind writeEnabled_keeps fun _ => .pure _) (.bind (.pure _) fun _ => .bind writeEnabled_keeps fun _ => .pure _)
  · exact .bind (.pure _) fun _ => .ite (.bind matrixPtr_keeps fun _ => .bind matrixAccess_keeps fun _ =>
      .bind (.pure _) fun _ => .bind writeEnabled_keeps fun _ => .pure _)
      (.bind (.pure _) fun _ => .bind writeEnabled_keeps fun _ => .pure _)

theorem effTadd_keeps : Keeps (effTadd c) :=
  .getTile_bind fun _ _ => .bind matrixIllegal_keeps fun _ => .bind writeEnabled_keeps fun _ => .pure _

theorem effTcvtKn_keeps (hr : Keeps rd) : Keeps (effTcvtKn c ca cd R rd) :=
  .getTile_bind fun _ _ => .bind hr fun _ => .bind matrixPtr_keeps fun _ => .bind matrixAccess_keeps fun _ =>
    .bind (modTile_keeps fun _ ht => ht.same) fun _ => .pure _

theorem effTcvtPlain_keeps (hr : Keeps rd) : Keeps (effTcvtPlain c ca cd R rd) :=
  .getTile_bind fun _ _ => .ite (.bind hr fun _ => .bind matrixPtr_keeps fun _ => .bind matrixAccess_keeps fun _ =>
    .bind (.pure _) fun _ => .bind writeEnabled_keeps fun _ => .pure _)
    (.bind (.pure _) fun _ => .bind writeEnabled_keeps fun _ => .pure _)

theorem effTcvt_keeps (hr : Keeps rd) : Keeps (effTcvt c rd) :=
  .getTile_bind fun _ _ => .bind matrixIllegal_keeps fun _ => .bind matrixIllegal_keeps fun _ =>
    .bind getSlot_keeps fun _ => .bind takeKey_keeps fun _ => .bind currentVt_keeps fun _ => .get_bind fun _ _ => .ite
    (effTcvtKn_keeps hr) (effTcvtPlain_keeps hr)

theorem effTtrans_keeps : Keeps (effTtrans c) :=
  .getTile_bind fun _ _ => .bind matrixIllegal_keeps fun _ => .bind writeEnabled_keeps fun _ => .pure _

theorem effTrowv_keeps (hr : Keeps rd) : Keeps (effTrowv c rd) :=
  .getTile_bind fun _ _ => .bind hr fun _ => .bind matrixIllegal_keeps fun _ => .bind writeVDst_keeps fun _ => .pure _

theorem effTvrow_keeps (hr : Keeps rd) : Keeps (effTvrow c rd) :=
  .bind awaitVSrc_keeps fun _ => .bind readVSrc_keeps fun _ => .getTile_bind fun _ _ => .bind hr fun _ =>
    .bind matrixIllegal_keeps fun _ => .ite (.bind (modTile_keeps fun _ ht => ht.same) fun _ => .pure _)
      (.bind writeEnabled_keeps fun _ => .pure _)

theorem matrixEffect_keeps (hr : Keeps rd) : Keeps (matrixEffect c rd) := by
  unfold Machine.matrixEffect
  refine .bind checkCfgs_keeps fun _ => ?_
  split
  · exact effTld_keeps hr
  · exact effTst_keeps hr
  · exact effTzero_keeps
  · exact effMma_keeps hr
  · exact effMma_keeps hr
  · exact effTadd_keeps
  · exact effTcvt_keeps hr
  · exact effTtrans_keeps
  · exact effTrowv_keeps hr
  · exact effTvrow_keeps hr

theorem grantEffect_keeps (hr : Keeps rd) : Keeps (grantEffect c rd) :=
  .bind (matrixEffect_keeps hr) fun _ => .modify fun _ h => h.setSlot.modTile

theorem awaitSources_keeps : Keeps (awaitSources c) :=
  .getTile_bind fun _ _ => .ite (.bind M.awaits_keeps fun _ => .ite awaitVSrc_keeps (.pure _)) (.ite awaitVSrc_keeps (.pure
    _))

theorem matrixBody_keeps : Keeps (matrixBody c) :=
  .bind fenceGate_keeps fun _ => .bind awaitSources_keeps fun _ => .bind (grantEffect_keeps read1_keeps) fun _ =>
    .bind modSlot_keeps fun _ => .pure _

theorem State.Canon.pickMatrix (h : s.Canon) (e : s.pickMatrix site = some (k, t)) : t.Canon := by
  unfold State.pickMatrix at e
  dsimp only at e
  split at e
  · cases e
    exact (h.tile site).same
  · obtain ⟨_, _, hk⟩ := List.exists_of_findSome?_eq_some e
    split at hk <;> cases hk
    exact (h.tile site).same

theorem State.Canon.runFollow (h : s.Canon) : (s.runFollow site k).Canon := by
  unfold State.runFollow
  split
  · exact h
  · dsimp only
    split
    · exact h.modTile
    · split
      · next _ s' e =>
          have h1 := grantEffect_keeps (.pure _) _ h.same _ _ e
          exact h1.same.setTile (h1.tile _).same
      · exact h.modTile

theorem matrixIssue_canon {i : Instr} (h : s.Canon) : Result.Canon (matrixIssue i c s) := by
  unfold Machine.matrixIssue
  split
  · next site k _ s1 _ e =>
    have h2 := (openIssue_keeps s h _ _ e).setSlot (a := s1.cur) (x := { s1.slot s1.cur with mheld := some i })
    refine .ite h2.hold.next ?_
    split
    · next hp =>
      have h3 := h2.setTile (site := site) (h2.pickMatrix hp)
      exact .ite (h3.issue matrixBody_keeps) (.ite h3.runFollow.hold.next h2.hold.next)
    · exact h2.hold.next
  · exact h.issue (.bind openIssue_keeps fun _ => .pure _)

theorem execMatrixGrant_canon (h : s.Canon) : Result.Canon (execMatrixGrant site s) := by
  unfold Machine.execMatrixGrant
  refine .ite h.next ?_
  split
  · exact h.next
  · next hp =>
    have h1 := h.setTile (site := site) (h.pickMatrix hp)
    refine .ite h1.runFollow.next ?_
    split
    · exact h.next
    · split
      · next e => exact (h1.same.issue matrixBody_keeps _ e).same.next
      · next hn => exact fun t e => absurd e (hn t)

end Sys2Proof.Machine
end

section
/-! SUPPORT. Settles O50: instruction boundaries, devices, park rings and retirement. -/

namespace Sys2Proof.Machine

set_option Elab.async false

variable {s : State} {a : Agent} {gang idx region site v vt word : Nat} {k : Fin 8} {t : Tile} {l : Launch}

theorem State.Canon.takeInterrupt (h : s.Canon) : (s.takeInterrupt a).Canon := by
  unfold State.takeInterrupt
  dsimp only
  split
  · exact canon_ite (h.advance.setCore h.advance.core.same.enterTrap) h.advance
  · exact h.advance

theorem State.Canon.takePending (h : s.Canon) : (s.takePending site k).Canon := by
  unfold State.takePending
  dsimp only
  split
  · exact h
  · exact canon_ite (canon_ite h.tick h.advance.enterTile.setSlot) (canon_ite h.advance.setSlot.doubleFault (canon_ite
      h.advance.setSlot.rejectFor (canon_ite h.tick h.advance.setSlot.enterTile)))

theorem State.Canon.markGood {good : Bool} (h : s.Canon) : (s.markGood site good).Canon :=
  h.withStokers (Table.forall_put h.stokers (Core.canon_mem (Memory.wf_write _ _ _ _ (h.stoker _))))

theorem Tile.canon_wiped {sys : List Half} : (t.wiped sys).Canon := Tile.canon_fresh

theorem State.Canon.resetTile (h : s.Canon) : (s.resetTile site).Canon := h.setTile Tile.canon_wiped

theorem State.Canon.setTherm {r : RegionThermal} (h : s.Canon) : (s.setTherm region r).Canon := h.same

theorem State.Canon.writeDuty (h : s.Canon) : OptCanon (s.writeDuty region v) :=
  .ite (.some h) (.ite .none (.some h.toStoker.setTherm))

theorem State.Canon.raise {k : Nat} (h : s.Canon) : (s.raise a k).Canon := h.setCore h.core.same

theorem State.Canon.writeCrit {crit : BitVec 12} (h : s.Canon) : (s.writeCrit crit).Canon :=
  foldl_preserves h.same fun _ _ h => h.setTherm

theorem State.Canon.clearAlerts {v : Word} (h : s.Canon) : (s.clearAlerts v).Canon := canon_ite h.same h.same.raise

theorem State.Canon.crossing (h : s.Canon) : (s.crossing region).Canon := canon_ite h.same.raise h.same

theorem State.Canon.setEcc {n : BitVec 32} {thr : BitVec 32} (h : s.Canon) : (s.setEcc a n thr).Canon :=
  canon_ite ((h.setCore h.core.same).raise) (h.setCore h.core.same)

theorem State.Canon.corrected (h : s.Canon) : (s.corrected a).Canon := h.setEcc

theorem State.Canon.upset (h : s.Canon) : (s.upset site word).Canon := h.modTile

theorem State.Canon.upsetRim (h : s.Canon) : (s.upsetRim word).Canon := h.same

theorem State.Canon.peerLinkUp {link : Fin 16} (h : s.Canon) : (s.peerLinkUp link).Canon := h.same

theorem State.Canon.testMode {region : Fin 64} {row : Fin 64} {on : Bool} (h : s.Canon) : (s.testMode region row on).Canon :=
  foldl_preserves h fun _ _ h => h.modTile

theorem State.Canon.rxuInvalidate {asid : Nat} {page : Option Nat} (h : s.Canon) : (s.rxuInvalidate asid page).Canon :=
  h.same

theorem State.Canon.ungate {sub : Nat} (h : s.Canon) : (s.ungate region sub).Canon := by
  refine h.withTiles (Table.forall_map h.tiles fun r hr => ?_)
  split
  · exact (Tile.canon_wiped (t := r.2) (sys := s.sysImage)).same
  · exact hr

theorem State.Canon.writeSgate {v : BitVec 16} (h : s.Canon) : (s.writeSgate region v).Canon := by
  unfold State.writeSgate
  refine State.Canon.withStokers (foldl_preserves h fun _ _ h => canon_ite h.ungate h) (Table.forall_put ?_ ?_)
  · exact (foldl_preserves h fun _ _ h => canon_ite h.ungate h).stokers
  · exact ((foldl_preserves h fun _ _ h => canon_ite h.ungate h).stoker _).same

theorem State.Canon.supply (h : s.Canon) : (s.supply site).Canon :=
  canon_ite ((h.withStokers (Table.forall_put h.stokers ((h.stoker _).same))).ungate) h

theorem State.Canon.reportBad (h : s.Canon) : (s.reportBad site).Canon := h.modTile.markGood.toCollier

theorem State.Canon.reportLeft (h : s.Canon) : (s.reportLeft site).Canon := canon_ite h.reportBad h

theorem State.Canon.captureSelect (h : s.Canon) : (s.captureSelect region v).Canon :=
  h.withStokers (Table.forall_put h.stokers ((h.stoker _).same))

theorem State.Canon.writeTimer {v : Word} (h : s.Canon) : (s.writeTimer a v).Canon :=
  (canon_ite h.raise h).setCore (((canon_ite h.raise h).core).same)

theorem State.Canon.timerTick (h : s.Canon) : (s.timerTick a).Canon := canon_ite ((h.setCore h.core.same).raise) h

theorem State.Canon.modGang {j : Nat} {f : Gang → Gang} (h : s.Canon) : (s.modGang idx j f).Canon := by
  unfold State.modGang
  split
  · exact h.setLaunch
  · exact h

theorem State.Canon.setPt {hi : Nat} {lo : Nat} (h : s.Canon) : (s.setPt l vt hi lo v).Canon :=
  h.withHbm (Memory.wf_write _ _ _ _ h.hbm)

theorem State.Canon.setPtState {st : Nat} (h : s.Canon) : (s.setPtState l vt st).Canon := h.setPt

theorem State.Canon.putRing {es : List (Packet × Nat)} (h : s.Canon) : (s.putRing idx gang es).Canon := h.same

theorem State.Canon.storeRing {r : Ring} (h : s.Canon) : (s.storeRing idx gang r).Canon :=
  h.withHbm (Memory.wf_write _ _ _ _ h.hbm)

theorem State.Canon.leaveRing (h : s.Canon) : (s.leaveRing idx vt).Canon := canon_ite h h.storeRing.same

theorem State.Canon.recordEnd (h : s.Canon) : (s.recordEnd site k).Canon := by
  unfold State.recordEnd
  dsimp only
  split
  · exact h
  · exact canon_ite h.emit h.emit.capture.addSum

theorem State.Canon.endThread (h : s.Canon) : (s.endThread site k).Canon := h.advance.recordEnd.setSlot

theorem Tile.Canon.vacated (ht : t.Canon) : (t.vacated).Canon := ht.same

theorem State.Canon.closeOpening (h : s.Canon) : (s.closeOpening site).Canon :=
  canon_ite h (canon_ite (h.same.setTile ((h.tile _).same)) ((h.same.setTile ((h.tile _).same)).toCollier))

theorem State.Canon.reportRetired (h : s.Canon) : s.reportRetired.Canon :=
  foldl_preserves h.same fun _ _ h => h.sendStats.toCollier

/-- The tile of a retired vtile, its held writes counted as late and its held requests back in the fabric. -/
theorem State.Canon.vacateLate {l : List HeldWrite} {ps : List Packet} (h : s.Canon) (ht : t.Canon) : State.Canon
    { (l.foldl (fun s x => s.countAt site x.src.idx fun g => { g with late := g.late + 1 }) s).setTile site t.vacated with
      fabric := ps } :=
  ((foldl_preserves h fun _ _ h => h.countAt).setTile ht.vacated).same

theorem State.Canon.retireVtile (h : s.Canon) : (s.retireVtile site).Canon := by
  unfold State.retireVtile
  dsimp only
  split
  · exact .leaveRing (.vacateLate h.closeOpening.flushSums.emit (h.closeOpening.flushSums.emit.tile _))
  · refine .reportRetired ?_
    refine State.Canon.same (.setPtState (.modGang (.reportLeft (.leaveRing ?_))))
    exact .vacateLate h.closeOpening.flushSums.emit (h.closeOpening.flushSums.emit.tile _)

end Sys2Proof.Machine
end

section
/-! SUPPORT. Settles O50: the copy engine and streams. -/

namespace Sys2Proof.Machine

set_option Elab.async false

variable {α β : Type} {g : Geometry} {digest write : Bool} {slot : Fin 8} {follow : Option (BitVec 32 × Word)} {s : State}
  {id n side site ticket val : Nat} {j : CopyJob} {d : Dst} {stl : Stl} {a b : Src} {k : Fin 4} {bits : BitVec 5}
  {e : Engine α} {u : EngineUser} {p : Word}

theorem checkJobEarly_keeps : Keeps (checkJobEarly g digest) :=
  .bind require_keeps fun _ => .bind currentVt_keeps fun _ => .bind require_keeps fun _ => .bind placeOf_keeps fun _ =>
    .bind require_keeps fun _ => .bind placeOf_keeps fun _ => require_keeps

theorem checkJobLate_keeps : Keeps (checkJobLate g) := .bind require_keeps fun _ => require_keeps

theorem Tile.Canon.startJob {t : Tile} {now : Nat} (ht : t.Canon) : (t.startJob now slot g digest follow).Canon := ht.same

theorem State.Canon.emitCopy {type : Nat} (h : s.Canon) : (s.emitCopy site type j).Canon := h.emit

theorem State.Canon.beginJob (h : s.Canon) : (s.beginJob site slot g digest follow).Canon := by
  unfold State.beginJob
  dsimp only
  split
  · exact (h.setTile ((h.tile _).startJob)).emitCopy
  · exact h.setTile ((h.tile _).startJob)

theorem issueJob_keeps {t : Word} {o : Word} {follow : M (Option (BitVec 32 × Word))} (hf : Keeps follow) :
    Keeps (issueJob d t o digest follow) :=
  .getTile_bind fun _ _ => .bind inPhase_keeps fun _ => .bind require_keeps fun _ => .bind require_keeps fun _ =>
    .bind hf fun _ => .bind checkJobEarly_keeps fun _ => .get_bind fun _ _ => .ite
      (.bind capture_keeps fun _ => .bind writeDst_keeps fun _ => .pure _)
      (.bind checkJobLate_keeps fun _ => .bind require_keeps fun _ => .bind fenceGate_keeps fun _ =>
        .bind (.modify fun _ h => h.beginJob) fun _ => .getTile_bind fun _ _ => .bind writeDst_keeps fun _ => .pure _)

theorem execXcopy_canon (h : s.Canon) : Result.Canon (execXcopy stl d a b s) := by
  unfold Machine.execXcopy
  refine h.issue (.bind checkDst_keeps fun _ => .bind read2_keeps fun _ => ?_)
  split
  exact issueJob_keeps (.pure _)

theorem readFollow_keeps : Keeps readFollow := by
  unfold Machine.readFollow
  refine .bind getSlot_keeps fun _ => ?_
  split
  · exact .throw _
  · exact .ite (.bind read1_keeps fun _ => .pure _) (.bind (.pure _) fun _ => .pure _)

theorem execXcopym_canon (h : s.Canon) : Result.Canon (execXcopym stl d a b s) := by
  unfold Machine.execXcopym
  refine h.issue (.bind checkDst_keeps fun _ => .bind read2_keeps fun _ => ?_)
  split
  exact issueJob_keeps readFollow_keeps

theorem execXdig_canon (h : s.Canon) : Result.Canon (execXdig stl d a b s) := by
  unfold Machine.execXdig
  refine h.issue (.bind checkDst_keeps fun _ => .bind read2_keeps fun _ => ?_)
  split
  exact issueJob_keeps (.pure _)

theorem coverCheck_keeps {v : Word} : Keeps (coverCheck v) :=
  .getTile_bind fun _ _ => .ite (.bind require_keeps fun _ => .pure _) (.bind require_keeps fun _ => .pure _)

theorem execXwait_canon (h : s.Canon) : Result.Canon (execXwait stl d a s) :=
  h.issue (.bind checkDst_keeps fun _ => .bind read1_keeps fun _ => .bind coverCheck_keeps fun _ =>
    .bind require_keeps fun _ => .getTile_bind fun _ _ => .bind (modTile_keeps fun _ ht => ht.same) fun _ =>
    .bind deliver_keeps fun _ => .pure _)

theorem execXpoll_canon (h : s.Canon) : Result.Canon (execXpoll stl d a s) :=
  h.issue (.bind checkDst_keeps fun _ => .bind read1_keeps fun _ => .bind coverCheck_keeps fun _ =>
    .bind deliver_keeps fun _ => .pure _)

theorem execXtdef_canon (h : s.Canon) : Result.Canon (execXtdef stl a b s) := by
  unfold Machine.execXtdef
  refine h.issue (.bind read2_keeps fun _ => ?_)
  split
  refine .bind require_keeps fun _ => .bind placeOf_keeps fun _ => .bind accessGate_keeps fun _ =>
    .bind access_keeps fun _ => ?_
  split
  · exact .bind (modTile_keeps fun _ ht => ht.same) fun _ => .pure _
  · exact .pure _

theorem execXstrm_canon {d : BitVec 3} (h : s.Canon) : Result.Canon (execXstrm stl d a b s) := by
  unfold Machine.execXstrm
  refine h.issue (.bind read2_keeps fun _ => ?_)
  split
  exact .bind require_keeps fun _ => .getTile_bind fun _ _ => .bind require_keeps fun _ => .bind getLaunch_keeps fun _ =>
    .bind require_keeps fun _ => .bind (modTile_keeps fun _ ht => ht.same) fun _ => .pure _

theorem State.Canon.engineSent {colour : Nat} (h : s.Canon) : (s.engineSent site colour).Canon :=
  h.withTiles h.modTile.tiles

theorem State.Canon.setJob (h : s.Canon) : (s.setJob site j).Canon := h.modTile

theorem State.Canon.landPiece {dst : Region} (h : s.Canon) : (s.landPiece site j n dst).Canon :=
  canon_ite h.setJob.modTile.emitCopy h.setJob.modTile

theorem State.Canon.landDigest (h : s.Canon) : (s.landDigest site j).Canon := h.setJob.emitCopy

theorem State.Canon.takePiece (h : s.Canon) : (s.takePiece site j n val side).Canon := h.setJob

theorem State.Canon.jobAnswered (h : s.Canon) : (s.jobAnswered site j val side).Canon :=
  canon_ite h.setJob (canon_ite h.takePiece (canon_ite h.landDigest h.landPiece))

theorem State.Canon.setStream {b : StreamBinding} (h : s.Canon) : (s.setStream site k b).Canon := h.modTile

theorem State.Canon.streamAnswered {b : StreamBinding} (h : s.Canon) : (s.streamAnswered site k b val side).Canon :=
  h.setStream

theorem State.Canon.failStream {b : StreamBinding} (h : s.Canon) : (s.failStream site k b bits).Canon := h.setStream.modTile

/-! ### Accesses of the engines -/

/-- The state that an access of an engine leaves keeps the form, whatever its outcome. -/
def Engine.Canon : Engine α → Prop
  | .waits => True
  | .asks s _ | .fails s _ | .ok s _ => s.Canon

theorem Engine.Canon.ok {v : α} (he : e.Canon) (eq : e = .ok s v) : s.Canon := by rwa [eq] at he

theorem Engine.Canon.asks (he : e.Canon) (eq : e = .asks s id) : s.Canon := by rwa [eq] at he

theorem Engine.Canon.fails (he : e.Canon) (eq : e = .fails s bits) : s.Canon := by rwa [eq] at he

theorem Engine.Canon.ite {c : Prop} [Decidable c] {e f : Engine α} (he : e.Canon) (hf : f.Canon) :
    (if c then e else f).Canon := by
  split <;> assumption

theorem Engine.Canon.bind {f : State → α → Engine β} (he : e.Canon) (hf : ∀ s x, s.Canon → (f s x).Canon) :
    (e.bind f).Canon := by
  cases e with
  | waits => trivial
  | asks | fails => exact he
  | ok s x => exact hf s x he

theorem engineTile_canon {op : MemOp} {a : Nat} (h : s.Canon) : (engineTile s site op a).Canon := by
  unfold engineTile
  dsimp only
  split
  · trivial
  · exact h.bankTurn
  · next e => exact h.bankTurn.setTile ((h.bankTurn.tile _).perform e)

theorem engineAsk_canon {colour vt : Nat} {op : MemOp} (h : s.Canon) : (engineAsk s site colour slot vt op p).Canon := by
  unfold engineAsk
  dsimp only
  split
  · next e => exact h.same.sendOff _ e
  · trivial

theorem enginePeer_canon {part k : Nat} {op : MemOp} (h : s.Canon) : (enginePeer s site part k op).Canon := by
  unfold enginePeer
  refine .ite ?_ h
  split
  · exact h.spend
  · exact h

theorem fst_canon {r : State × α} {x : α} (h : r.1.Canon) (e : r = (s, x)) : s.Canon := by rwa [e] at h

theorem enginePerform_canon {op : Nat → MemOp} {pl : Place} (h : s.Canon) : (enginePerform s site write op pl).Canon := by
  unfold enginePerform
  dsimp only
  split
  · split <;> next e => exact fst_canon h.performHbm e
  · split <;> next e => exact fst_canon h.performHost e
  · exact enginePeer_canon h
  all_goals exact h

theorem engineAccess_canon {op far : Nat → MemOp} {pl : Place} (h : s.Canon) :
    (engineAccess s u write op far p pl).Canon := by
  unfold engineAccess
  split
  · exact engineTile_canon h
  · exact engineAsk_canon h
  · refine .ite trivial ?_
    have hp := enginePerform_canon (site := u.site) (write := write) (op := op) (pl := pl) h
    split
    · next e => exact (hp.ok e).engineSent
    · next e => exact (hp.fails e).engineSent
    · trivial
    · next e => exact hp.asks e

theorem engineRead_canon {delta : Int} {skew step : Nat} (h : s.Canon) : (engineRead s u p delta n skew step).Canon := by
  unfold engineRead
  split
  · exact engineAccess_canon h
  · exact h

theorem engineWrite_canon {delta : Int} {v : Nat} {shadow : List (Nat × Byte)} (h : s.Canon) :
    (engineWrite s u p delta n v shadow).Canon := by
  unfold engineWrite
  split
  · exact engineAccess_canon h
  · exact h

theorem readPieces_canon {skew step : Nat} {l : List (Int × Nat)} (h : s.Canon) : (readPieces s u p skew step l).Canon := by
  induction l generalizing s skew with
  | nil => exact h
  | cons x l ih =>
    have hr := engineRead_canon (u := u) (p := p) (delta := x.1) (n := x.2) (skew := skew) (step := step) h
    unfold readPieces
    split
    · trivial
    · next e => exact hr.asks e
    · next e => exact hr.fails e
    · next e =>
      have hi := ih (skew := skew + x.2) (hr.ok e)
      split
      · trivial
      · next e => exact hi.asks e
      · next e => exact hi.fails e
      · next e => exact hi.ok e

theorem State.Canon.digestPiece {before : List CopyJob} (h : s.Canon) : (s.digestPiece site j before).Canon :=
  .ite (.ite trivial ((engineWrite_canon h).bind fun _ _ h => h.landDigest))
    (.ite trivial ((engineRead_canon h).bind fun _ _ h => h.takePiece))

theorem State.Canon.pieceData {sd : Int} (h : s.Canon) : (s.pieceData site j sd n).Canon := by
  unfold State.pieceData
  dsimp only
  split
  · exact h
  · exact (engineRead_canon h).bind fun _ _ h => .ite h h

theorem State.Canon.copyPiece {before : List CopyJob} (h : s.Canon) : (s.copyPiece site j before).Canon :=
  .ite trivial (.ite h.digestPiece (.ite trivial (h.pieceData.bind fun _ _ h =>
    (engineWrite_canon h).bind fun _ _ h => h.landPiece)))

theorem State.Canon.streamData {b : StreamBinding} (h : s.Canon) : (s.streamData site b).Canon :=
  .ite h (readPieces_canon h)

theorem State.Canon.engineReply (h : s.Canon) : (s.engineReply site id val side).Canon := by
  unfold State.engineReply
  split
  · exact h.jobAnswered
  · split
    · exact h.streamAnswered
    · exact h

theorem State.Canon.engineError {c : Cause} (h : s.Canon) : (s.engineError site id c).Canon := by
  unfold State.engineError
  split
  · exact canon_ite h.setJob (canon_ite h.setJob h.jobAnswered)
  · split
    · exact h.failStream
    · exact h

theorem execCopyLineLanding_canon (h : s.Canon) : Result.Canon (execCopyLineLanding site ticket s) := by
  unfold Machine.execCopyLineLanding
  split
  · exact h.next
  · refine .ite h.next ?_
    split
    · next e => exact (h.copyPiece.ok e).next
    · next e => exact (h.copyPiece.asks e).setJob.next
    · exact h.next
    · exact h.next

theorem execCopyJobError_canon (h : s.Canon) : Result.Canon (execCopyJobError site ticket bits s) := by
  unfold Machine.execCopyJobError
  split
  · exact h.next
  · refine .ite h.next ?_
    split
    · next e => exact (h.copyPiece.fails e).setJob.next
    · exact .ite h.setJob.next h.next

theorem execFollowOnCommand_canon (h : s.Canon) : Result.Canon (execFollowOnCommand site ticket s) := by
  unfold Machine.execFollowOnCommand
  split
  · exact h.next
  · exact .ite h.setJob.next h.next

theorem State.Canon.finishJob (h : s.Canon) : (s.finishJob site j).Canon := h.modTile.emitCopy.capture

theorem execCopyJobCompletion_canon (h : s.Canon) : Result.Canon (execCopyJobCompletion site ticket s) := by
  unfold Machine.execCopyJobCompletion
  split
  · exact h.next
  · refine .ite ?_ h.next
    split
    · exact h.finishJob.next
    · refine .ite h.next ?_
      split
      · exact h.next
      · exact h.finishJob.next
      · next e => exact (h.setTile ((h.tile site).same.perform e)).finishJob.next

theorem execStreamFetch_canon (h : s.Canon) : Result.Canon (execStreamFetch site k s) := by
  unfold Machine.execStreamFetch
  dsimp only
  split
  · exact h.next
  · exact .ite h.modTile.next h.next

theorem execStreamElementArrival_canon (h : s.Canon) : Result.Canon (execStreamElementArrival site k s) := by
  unfold Machine.execStreamElementArrival
  split
  · exact h.next
  · refine .ite h.next ?_
    split
    · exact h.next
    · next e => exact (h.streamData.asks e).setStream.next
    · next e => exact (h.streamData.fails e).failStream.next
    · next e => exact .ite (h.streamData.ok e).failStream.next (h.streamData.ok e).setStream.next

end Sys2Proof.Machine
end

section
/-! SUPPORT. Settles O50: loads, stores and the barriers. -/

namespace Sys2Proof.Machine

set_option Elab.async false

variable {rule : SpaceRule} {ptr : Word} {size : Nat} {signed : Bool} {d : Dst} {op : MemOp} {a b p : Src} {z : BitVec 2}
  {f : BitVec 8} {stl : Stl} {s : State} {pl : Place}

theorem loadAt_keeps : Keeps (loadAt rule ptr size signed d) :=
  .bind placeOf_keeps fun _ => .bind accessGate_keeps fun _ => accessTo_keeps

theorem storeAt_keeps : Keeps (storeAt rule ptr size op) :=
  .bind placeOf_keeps fun _ => .bind guardWrite_keeps fun _ => .ite (.pure _) (.bind accessGate_keeps fun _ => accessTo_keeps)

theorem loadM_keeps : Keeps (loadM signed d p z f) := .bind checkDst_keeps fun _ => .bind read1_keeps fun _ => loadAt_keeps

theorem execSt_canon {d : Src} (h : s.Canon) : Result.Canon (execSt stl d p z f s) := by
  unfold Machine.execSt
  refine h.issue (.bind read2_keeps fun _ => ?_)
  split
  exact storeAt_keeps

theorem execLdx_canon (h : s.Canon) : Result.Canon (execLdx stl d a b s) := by
  unfold Machine.execLdx
  refine h.issue (.bind checkDst_keeps fun _ => .bind read2_keeps fun _ => ?_)
  split
  exact loadAt_keeps

theorem execStx_canon {d : Src} (h : s.Canon) : Result.Canon (execStx stl d a b s) := by
  unfold Machine.execStx
  refine h.issue (.bind read3_keeps fun _ => ?_)
  split
  exact storeAt_keeps

theorem execLdt_canon (h : s.Canon) : Result.Canon (execLdt stl d a b s) := by
  unfold Machine.execLdt
  refine h.issue (.bind checkDst_keeps fun _ => .bind read2_keeps fun _ => ?_)
  split
  refine .bind placeOf_keeps fun _ => .bind inPhase_keeps fun _ => .getTile_bind fun _ _ => ?_
  dsimp only
  split
  · exact .bind require_keeps fun _ => .bind accessGate_keeps fun _ => accessTo_keeps
  · exact .bind accessGate_keeps fun _ => accessTo_keeps

theorem execStf_canon {d : Src} (h : s.Canon) : Result.Canon (execStf stl d a b s) := by
  unfold Machine.execStf
  refine h.issue (.bind read3_keeps fun _ => ?_)
  split
  exact storeAt_keeps

theorem execCSt_canon {a : Src5} {i : BitVec 6} (h : s.Canon) : Result.Canon (execCSt a i s) := by
  unfold Machine.execCSt
  refine h.issue (.bind read2_keeps fun _ => ?_)
  split
  exact storeAt_keeps

theorem lineStore_keeps : Keeps (lineStore a op) :=
  .bind read1_keeps fun _ => .bind placeOf_keeps fun _ => .bind guardWrite_keeps fun _ => .ite (.pure _)
    (.bind accessGate_keeps fun _ => accessTo_keeps)

theorem execWaitf_canon (h : s.Canon) : Result.Canon (execWaitf stl a s) := by
  unfold Machine.execWaitf
  refine h.issue (.bind read1_keeps fun _ => .bind placeOf_keeps fun _ => .bind accessGate_keeps fun _ => ?_)
  dsimp only
  split
  · exact .bind awaitVregs_keeps fun _ => .getTile_bind fun _ _ => .bind require_keeps fun _ => .pure _
  · exact .pure _

theorem execFetest_canon (h : s.Canon) : Result.Canon (execFetest stl d a s) :=
  h.issue (.bind checkDst_keeps fun _ => .bind read1_keeps fun _ => .bind placeOf_keeps fun _ =>
    .bind accessGate_keeps fun _ => accessTo_keeps)

theorem execBararr_canon (h : s.Canon) : Result.Canon (execBararr stl d a s) :=
  h.issue (.bind checkDst_keeps fun _ => .bind read1_keeps fun _ => .bind placeOf_keeps fun _ =>
    .bind guardWrite_keeps fun _ => .ite (.pure _) (.bind accessGate_keeps fun _ => .bind releaseGate_keeps fun _ =>
    accessTo_keeps))

theorem asBarwait_keeps {α : Type} {m : M α} (hm : Keeps m) : Keeps (asBarwait m) := by
  intro s h x t e
  unfold asBarwait at e
  split at e
  · cases e
  · exact hm s h x t e

theorem probedWord_keeps {p : Word} : Keeps (probedWord p pl) := by
  unfold Machine.probedWord
  split
  · exact .bind (asBarwait_keeps privAccess_keeps) fun _ => .pure _
  · refine .bind getSlot_keeps fun _ => ?_
    split
    · exact .pure _
    · split
      · exact .throw _
      · exact .pure _

theorem barwaitOperands_keeps : Keeps (barwaitOperands a b) := by
  unfold Machine.barwaitOperands
  refine .bind read2_keeps fun _ => ?_
  split
  exact .bind placeOf_keeps fun _ => .bind accessGate_keeps fun _ => .pure _

theorem barwaitBody_keeps : Keeps (barwaitBody d a b) := by
  unfold Machine.barwaitBody
  refine .bind checkDst_keeps fun _ => .bind barwaitOperands_keeps fun _ => ?_
  split
  refine .bind probedWord_keeps fun _ => ?_
  split
  · exact .bind require_keeps fun _ => .bind modSlot_keeps fun _ => .bind acquireHere_keeps fun _ =>
      .bind deliver_keeps fun _ => .pure _
  · exact .throw _

theorem sendProbe_keeps {p : Word} {phase : Word} : Keeps (sendProbe p phase pl) := by
  unfold Machine.sendProbe
  refine .bind freshId_keeps fun _ => .bind currentIdx_keeps fun _ => ?_
  dsimp only
  split <;> exact .bind sendRequest_keeps fun _ => .get_bind fun _ hs => modSlot_keeps

end Sys2Proof.Machine
end

section
/-! SUPPORT. Settles O50: messages, registers of other vtiles and control registers. -/

namespace Sys2Proof.Machine

set_option Elab.async false

variable {t : Tile} {i idx len tc vt : Nat} {s : State} {cap p v val : Word} {a b : Src} {stl : Stl} {d : Dst} {vec : Vec}
  {side : Side} {release : Bool} {r : BitVec 6}

theorem Tile.Canon.nextSeq (ht : t.Canon) : (t.nextSeq tc).2.Canon := ht.same

theorem State.Canon.enqueue {dst : Dest} {body : Body} (h : s.Canon) : (s.enqueue tc dst body).Canon := h.setSlot.modTile

theorem interfaceRoom_keeps : Keeps interfaceRoom := .getTile_bind fun _ _ => require_keeps

theorem payloadAt_keeps : Keeps (payloadAt p len) := .bind require_keeps fun _ => .bind require_keeps fun _ => .pure _

theorem checkVtile_keeps : Keeps (checkVtile vt) := .bind getLaunch_keeps fun _ => require_keeps

theorem readPayload_keeps {a : Nat} : Keeps (readPayload p a len) :=
  .ite (.pure _) (.bind fenceGate_keeps fun _ => .bind privAccess_keeps fun _ => .pure _)

theorem sendMessage_keeps {h : Word} {words : List Word} : Keeps (sendMessage h vt words) :=
  .bind inPhase_keeps fun _ => .bind currentIdx_keeps fun _ => .get_bind fun _ _ => .ite (.bind capture_keeps fun _ => .pure
    _) (.bind fenceGate_keeps fun _ => .bind interfaceRoom_keeps fun _ => .bind (.modify fun _ h => h.enqueue) fun _ => .pure
    _)

theorem execSend_canon (h : s.Canon) : Result.Canon (execSend stl a b s) := by
  unfold Machine.execSend
  refine h.issue (.bind read2_keeps fun _ => ?_)
  split
  exact .bind require_keeps fun _ => .bind payloadAt_keeps fun _ => .bind checkVtile_keeps fun _ =>
    .bind readPayload_keeps fun _ => sendMessage_keeps

theorem execSends_canon {d : Src} (h : s.Canon) : Result.Canon (execSends stl d a b s) := by
  unfold Machine.execSends
  refine h.issue (.bind read3_keeps fun _ => ?_)
  split
  exact .bind require_keeps fun _ => .bind checkVtile_keeps fun _ => sendMessage_keeps

theorem execSendv_canon {b : VSrc} (h : s.Canon) : Result.Canon (execSendv stl a b s) :=
  h.issue (.bind checkVSrc_keeps fun _ => .bind windowVSrc_keeps fun _ => .bind awaitSrc_keeps fun _ =>
    .bind awaitVSrc_keeps fun _ => .bind readSrc_keeps fun _ => .bind readVSrc_keeps fun _ => .bind require_keeps fun _ =>
    .bind checkVtile_keeps fun _ => sendMessage_keeps)

theorem execSenda_canon {d : Src} (h : s.Canon) : Result.Canon (execSenda stl d a b s) := by
  unfold Machine.execSenda
  refine h.issue (.bind read3_keeps fun _ => ?_)
  split
  exact .bind require_keeps fun _ => .bind require_keeps fun _ => .bind payloadAt_keeps fun _ =>
    .bind checkVtile_keeps fun _ => .bind readPayload_keeps fun _ => sendMessage_keeps

theorem execMlen_canon (h : s.Canon) : Result.Canon (execMlen stl d s) :=
  h.issue (.bind checkDst_keeps fun _ => .bind getSlot_keeps fun _ => .bind writeDst_keeps fun _ => .pure _)

theorem execMsrc_canon (h : s.Canon) : Result.Canon (execMsrc stl d s) :=
  h.issue (.bind checkDst_keeps fun _ => .bind getSlot_keeps fun _ => .bind writeDst_keeps fun _ => .pure _)

theorem State.Canon.launchChild {bytes : List Byte} (h : s.Canon) : (s.launchChild idx bytes).1.Canon := by
  unfold State.launchChild
  dsimp only
  split
  · exact h
  · exact h.same

theorem execLaunch_canon (h : s.Canon) : Result.Canon (execLaunch stl d a s) :=
  h.issue (.bind checkDst_keeps fun _ => .bind read1_keeps fun _ => .bind require_keeps fun _ =>
    .bind require_keeps fun _ => .bind fenceGate_keeps fun _ => .bind privAccess_keeps fun _ => .bind inPhase_keeps fun _ =>
    .get_bind fun _ _ => .ite (.bind capture_keeps fun _ => .bind deliver_keeps fun _ => .pure _)
    (.bind releaseGate_keeps fun _ => .bind currentIdx_keeps fun _ => .get_bind fun _ hs => .bind (.set hs.launchChild) fun _
    => .bind deliver_keeps fun _ => .pure _))

theorem Tile.Canon.setCounter (ht : t.Canon) : (t.setCounter i v).Canon := ht.same

theorem Tile.Canon.putCounter {k : Fin 8} {id : Nat} (ht : t.Canon) : (t.putCounter k id i v).Canon :=
  tile_canon_ite ht.same ht.setCounter

theorem Tile.Canon.settleCounters (ht : t.Canon) : (t.settleCounters).Canon :=
  foldl_preserves ht.same fun _ _ h => h.setCounter

theorem execCntset_canon (h : s.Canon) : Result.Canon (execCntset stl a b s) := by
  unfold Machine.execCntset
  refine h.issue (.bind read2_keeps fun _ => ?_)
  split
  exact .bind require_keeps fun _ => .bind inPhase_keeps fun _ => .ite (.bind capture_keeps fun _ => .pure _)
    (.bind fenceGate_keeps fun _ => .bind getSlot_keeps fun _ => .get_bind fun _ _ => .bind (modTile_keeps fun _ ht =>
    ht.putCounter) fun _ => .pure _)

theorem State.Canon.sendWrite (h : s.Canon) : (s.sendWrite idx cap val vec side release).Canon := by
  unfold State.sendWrite
  split
  · exact h.enqueue
  · exact (h.setTile ((h.tile _).nextSeq)).countAt

theorem putRegister_keeps {bytes : Nat} : Keeps (putRegister cap val vec side bytes release) :=
  .bind inPhase_keeps fun _ => .bind currentIdx_keeps fun _ => .get_bind fun _ _ => .ite (.bind capture_keeps fun _ => .pure
    _) (.bind fenceGate_keeps fun _ => .ite (.bind releaseGate_keeps fun _ => .bind interfaceRoom_keeps fun _ => .bind
    (.modify fun _ h => h.sendWrite) fun _ => .pure _) (.bind interfaceRoom_keeps fun _ => .bind (.modify fun _ h =>
    h.sendWrite) fun _ => .pure _))

theorem checkCap_keeps {c : Word} {vector : Bool} : Keeps (checkCap c vector) := require_keeps

theorem execRput_canon (h : s.Canon) : Result.Canon (execRput stl a b s) := by
  unfold Machine.execRput
  refine h.issue (.bind read2_keeps fun _ => ?_)
  split
  exact .bind checkCap_keeps fun _ => putRegister_keeps

theorem execRputv_canon {b : VSrc} (h : s.Canon) : Result.Canon (execRputv stl a b s) :=
  h.issue (.bind checkVSrc_keeps fun _ => .bind windowVSrc_keeps fun _ => .bind awaitSrc_keeps fun _ =>
    .bind awaitVSrc_keeps fun _ => .bind readSrc_keeps fun _ => .bind readVSrc_keeps fun _ => .bind checkCap_keeps fun _ =>
    putRegister_keeps)

theorem execRputr_canon (h : s.Canon) : Result.Canon (execRputr stl a b s) := by
  unfold Machine.execRputr
  refine h.issue (.bind read2_keeps fun _ => ?_)
  split
  exact .bind checkCap_keeps fun _ => putRegister_keeps

theorem checkReg_keeps : Keeps (checkReg r) := .bind require_keeps fun _ => .ite checkVreg_keeps (.pure _)

theorem execRcap_canon {a : BitVec 6} {b : BitVec 1} (h : s.Canon) : Result.Canon (execRcap stl d a b s) :=
  h.issue (.bind checkDst_keeps fun _ => .bind checkReg_keeps fun _ => .bind getLaunch_keeps fun _ =>
    .bind currentVt_keeps fun _ => .bind getSlot_keeps fun _ => .get_bind fun _ _ => .bind writeDst_keeps fun _ => .pure _)

theorem checkTake_keeps {d : BitVec 6} : Keeps (checkTake d r) :=
  .bind require_keeps fun _ => .ite (.bind checkDst_keeps fun _ => require_keeps) (.bind checkVDst_keeps fun _ =>
    .bind checkReg_keeps fun _ => .bind windowVDst_keeps fun _ => require_keeps)

theorem takeRegister_keeps {d : BitVec 6} {take : Bool} : Keeps (takeRegister d r take) :=
  .ite (.bind awaitNamed_keeps fun _ => .bind readNamed_keeps fun _ => .ite (.bind modSlot_keeps fun _ =>
    .bind deliver_keeps fun _ => .pure _) (.bind deliver_keeps fun _ => .pure _)) (.bind awaitVSrc_keeps fun _ =>
    .bind readVSrc_keeps fun _ => .bind getLaunch_keeps fun _ => .get_bind fun _ _ => .ite (.bind (modTile_keeps fun _ ht =>
    ht.same) fun _ => .bind writeVDst_keeps fun _ => .pure _) (.bind writeVDst_keeps fun _ => .pure _))

theorem execRempty_canon {a : BitVec 6} (h : s.Canon) : Result.Canon (execRempty stl a s) :=
  h.issue (.bind checkReg_keeps fun _ => .ite (.bind modSlot_keeps fun _ => .pure _) (.bind getLaunch_keeps fun _ =>
    .get_bind fun _ _ => .bind (modTile_keeps fun _ ht => ht.same) fun _ => .pure _))

theorem execRfull_canon {a : BitVec 6} (h : s.Canon) : Result.Canon (execRfull stl d a s) :=
  h.issue (.bind checkDst_keeps fun _ => .bind checkReg_keeps fun _ => .bind getLaunch_keeps fun _ => .get_bind fun _ _ =>
    .getTile_bind fun _ _ => .bind getSlot_keeps fun _ => .bind writeDst_keeps fun _ => .pure _)

theorem Tile.Canon.ctlSet {u : Tile} (ht : t.Canon) (e : t.ctlSet i v = some u) : u.Canon := by
  unfold Tile.ctlSet at e
  split at e <;> cases e <;> exact ht.same

theorem State.Canon.coreReadClear {a : Agent} (h : s.Canon) : (s.coreReadClear a i).Canon := by
  unfold State.coreReadClear
  refine canon_ite (h.setCore h.core.same) ?_
  split
  · exact canon_ite (h.setCore h.core.same) h
  · exact h

theorem collierDevSet_keeps : Keeps (collierDevSet i v) := by
  unfold Machine.collierDevSet
  refine .get_bind fun _ hs => .ite ?_ ?_
  · split
    · next e => exact .set (hs.writeDuty _ e)
    · exact .throw _
  · refine .ite (.bind require_keeps fun _ => .set hs.rxuInvalidate) ?_
    split
    · exact .set hs.same
    · exact .set hs.writeCrit
    · exact .set hs.clearAlerts
    · exact .set hs.setEcc
    · exact require_keeps

theorem stokerDevSet_keeps {r : Nat} : Keeps (stokerDevSet r i v) := by
  unfold Machine.stokerDevSet
  refine .get_bind fun _ hs => ?_
  split
  · exact .set hs.writeSgate
  · exact .set hs.setEcc
  · exact .set hs.captureSelect
  · exact require_keeps

theorem coreCtlSet_keeps : Keeps (coreCtlSet i v) := by
  unfold Machine.coreCtlSet
  refine .get_bind fun _ hs => .ite ?_ ?_
  · split
    · exact putSlot_keeps
    · exact .throw _
  · split
    · exact .pure _
    · exact .pure _
    · exact .pure _
    · exact .set (hs.setCore hs.core.same)
    · exact .set (hs.setCore hs.core.same)
    · exact .set hs.writeTimer
    · split
      · exact collierDevSet_keeps
      · exact stokerDevSet_keeps
      · exact .throw _

theorem checkIndex_keeps : Keeps (checkIndex i) := .get_bind fun _ _ => require_keeps

theorem readCtl_keeps : Keeps (readCtl i) := by
  unfold Machine.readCtl
  refine .get_bind fun _ hs => .ite ?_ ?_
  · refine .ite (.pure _) ?_
    split
    · exact .bind (.set hs.coreReadClear) fun _ => .pure _
    · exact .throw _
  · split
    · exact .pure _
    · split
      · exact .pure _
      · exact .throw _

theorem writeLoop_keeps : Keeps (writeLoop i v) := by
  unfold Machine.writeLoop
  refine .bind getSlot_keeps fun _ => ?_
  dsimp only
  split
  · exact .bind putSlot_keeps fun _ => .pure _
  · exact .throw _

theorem writeCtl_keeps : Keeps (writeCtl i v) := by
  unfold Machine.writeCtl
  refine .get_bind fun _ hs => .ite writeLoop_keeps (.ite (.bind coreCtlSet_keeps fun _ => .pure _) ?_)
  split
  · exact .bind putSlot_keeps fun _ => .pure _
  · split
    · next e => exact .bind (modTile_keeps fun _ _ => ((hs.tile _).ctlSet e)) fun _ => .pure _
    · exact .throw _

theorem ctlListed_keeps : Keeps (ctlListed i) := .get_bind fun _ _ => .pure _

theorem execCrd_canon {i : BitVec 10} (h : s.Canon) : Result.Canon (execCrd stl d i s) :=
  h.issue (.bind checkDst_keeps fun _ => .bind checkIndex_keeps fun _ => .bind readCtl_keeps fun _ =>
    .bind writeDst_keeps fun _ => .pure _)

theorem execCwr_canon {i : BitVec 10} (h : s.Canon) : Result.Canon (execCwr stl a i s) :=
  h.issue (.bind checkIndex_keeps fun _ => .bind ctlListed_keeps fun _ => .bind require_keeps fun _ =>
    .bind read1_keeps fun _ => writeCtl_keeps)

theorem checkScope_keeps {g : BitVec 3} : Keeps (checkScope g) := require_keeps

end Sys2Proof.Machine
end

section
/-! SUPPORT. Settles O50: images of tiles. -/

namespace Sys2Proof.Machine

set_option Elab.async false

variable {t : Tile} {a base site : Nat} {k : Fin 8} {s : State}

theorem Memory.wf_writeFields {m : Memory} {fs : List (Nat × Nat × Nat)} (h : m.wf = true) :
    (writeFields m base fs).wf = true :=
  foldl_preserves (p := (Memory.wf · = true)) h fun _ _ h => Memory.wf_write _ _ _ _ h

/-- The image of a tile is written field by field and copied from its memories (R337). -/
theorem Memory.wf_writeImage {m : Memory} {ctr : Nat} (h : m.wf = true) (ht : t.Canon) : (t.writeImage m a ctr).wf = true :=
  Memory.wf_writeFields (Memory.wf_writeFields (Memory.wf_writeFields (Memory.wf_write _ _ _ _
    (Memory.wf_copyIn _ _ _ _ _ (Memory.wf_copyIn _ _ _ _ _ h ht.spad) ht.shadow))))

theorem Tile.Canon.saveRecord (ht : t.Canon) : (t.saveRecord base k).Canon :=
  ht.withSpad (Memory.wf_writeFields ht.spad)

theorem Tile.Canon.saveBlock (ht : t.Canon) : (t.saveBlock base).Canon := ht.withSpad (Memory.wf_writeFields ht.spad)

theorem Tile.Canon.restoreRecord {ctr : Nat} (ht : t.Canon) : (t.restoreRecord base ctr k).Canon := by
  unfold Tile.restoreRecord
  dsimp only
  split <;> exact ht.withSpad (Memory.wf_write _ _ _ _ ht.spad)

theorem Tile.Canon.restoreBlock (ht : t.Canon) : (t.restoreBlock base).Canon := ht.same

theorem State.Canon.swapOut (h : s.Canon) : (s.swapOut site a).1.Canon := by
  have h1 := h.settleAt (site := site) (k := 8)
  unfold State.swapOut
  dsimp only
  generalize s.settleAt site 8 = u at h1 ⊢
  split
  · exact h1
  · split
    · exact h1
    · split
      · exact h1
      · refine State.Canon.setTile ?_ (h1.tile site).same
        exact h1.withHbm (Memory.wf_writeImage h1.hbm (h1.tile site))

theorem Tile.canon_readImage {m : Memory} {r : SwapRest} {p : Packet128} (h : m.wf = true) : (t.readImage m a r p).Canon :=
  Tile.canon_iff.mpr ⟨Memory.wf_slice _ _ _ h, Memory.wf_slice _ _ _ h⟩

theorem State.Canon.disown {nm : Nat × Nat} (h : s.Canon) : (s.disown nm).Canon := h.same

theorem State.Canon.swapIn (h : s.Canon) : (s.swapIn site a).1.Canon := by
  unfold State.swapIn
  dsimp only
  split
  · exact h
  · split
    · exact h
    · split
      · exact h
      · split
        · exact h.setTile (tile_canon_ite (Tile.canon_wiped (t := s.tile site) (sys := s.sysImage)).same (Tile.canon_readImage h.hbm))
        · split
          · exact h.toCollier
          · exact .storeRing (.disown (.setTile h.setLaunch
              (tile_canon_ite (Tile.canon_wiped (t := s.tile site) (sys := s.sysImage)).same (Tile.canon_readImage h.hbm))))

end Sys2Proof.Machine
end

section
/-! SUPPORT. Settles O50: the network and what arrives. -/

namespace Sys2Proof.Machine

set_option Elab.async false

variable {s : State} {gang idx k reg site vt : Nat} {p : Packet} {t : Tile} {body : Body} {hd ptr val : Word} {side : Side}
  {ws : List Word} {parked release wants : Bool} {slot : Fin 8} {vec : Vec} {op : MemOp} {r : State × Except Cause HomeResult}

theorem State.Canon.eject (h : s.Canon) : (s.eject k).Canon := by
  unfold State.eject
  split
  · exact h.same
  · exact h

theorem execColourAcknowledgement_canon (h : s.Canon) : Result.Canon (execColourAcknowledgement k s) := by
  unfold Machine.execColourAcknowledgement
  split
  · exact ((h.same.setTile ((h.tile _).same)).reportRetired).next
  · exact h.next

/-- An entry of a park ring written, and its header. -/
theorem State.Canon.writeEntry {key : Option Nat} {us : List Nat} {n a : Nat} {fs : List (Nat × Nat × Nat)} {r : Ring}
    (h : s.Canon) :
    (State.storeRing { s.sealedFor key us with hbm := writeFields s.hbm a fs, freeCtr := n } idx gang r).Canon :=
  (h.withHbm (Memory.wf_writeFields h.hbm)).storeRing

theorem State.Canon.park {append : Option Nat} (h : s.Canon) : OptCanon (s.park idx gang p append) := by
  unfold State.park
  dsimp only
  split
  · exact .none
  · refine .some (canon_ite (.count (.flueSend ?_)) ?_)
    all_goals
      split
      · exact .capture (canon_ite (.writeEntry h) (.count (.writeEntry h)))
      · exact canon_ite (.writeEntry h) (.count (.writeEntry h))

theorem execParkEntryWrite_canon (h : s.Canon) : Result.Canon (execParkEntryWrite k s) := by
  unfold Machine.execParkEntryWrite
  split
  · exact h.next
  · split
    · refine .ite h.next (.ite h.eject.next (.ite h.same.next ?_))
      split
      · next e => exact (h.park _ e).eject.next
      · exact h.next
    · exact h.next

theorem Tile.Canon.fill {h : Hop} (ht : t.Canon) : (t.fill idx vt h).Canon := by
  unfold Tile.fill
  dsimp only
  split
  · exact ht.same
  · exact ht.same
  · exact ht

theorem execNameCacheWalk_canon {vtile : Nat} (h : s.Canon) : Result.Canon (execNameCacheWalk site idx vtile s) := by
  unfold Machine.execNameCacheWalk
  dsimp only
  split
  · exact h.next
  · exact .ite h.next (((h.same.setTile (((h.tile _).fill).same)).capture).next)

theorem execSendInjection_canon (h : s.Canon) : Result.Canon (execSendInjection site s) := by
  unfold Machine.execSendInjection
  dsimp only
  split
  · exact h.next
  · exact ((h.setTile (((h.tile _).same).settleCounters)).inject).next

theorem State.Canon.answer (h : s.Canon) : (s.answer site p body).Canon := h.inject

theorem State.Canon.answerRim {load : Bool} (h : s.Canon) : (s.answerRim p body load).Canon := h.inject

theorem State.Canon.landReply {val : Vec} {flags : BitVec 6} (h : s.Canon) : (s.landReply site p val side flags).Canon := by
  unfold State.landReply
  refine canon_ite h.engineReply ?_
  dsimp only
  split
  · exact h.setSlot
  · split
    · exact h
    · exact canon_ite ((canon_ite ((canon_ite h.bankTurn h).setTile ((((canon_ite h.bankTurn h).tile _).setSlot).landOne))
        ((canon_ite h.bankTurn h).setSlot)).capture) (canon_ite ((canon_ite h.bankTurn h).setTile ((((canon_ite h.bankTurn
        h).tile _).setSlot).landOne)) ((canon_ite h.bankTurn h).setSlot))

theorem State.Canon.landError {c : Cause} {tv : Word} {pc : Half} (h : s.Canon) : (s.landError site p c tv pc).Canon := by
  unfold State.landError
  refine canon_ite h.engineError ?_
  dsimp only
  split
  · exact h.setSlot
  · exact h.setSlot.spend

theorem State.Canon.takesTurn {x : Turn} (h : s.Canon) : OptCanon (s.takesTurn idx vt x) := by
  unfold State.takesTurn
  split
  · exact .some h
  · exact .none
  · exact .some h.diverge

theorem State.Canon.noteOrder {word : Nat} {entry : Option (Nat × Nat × Nat)} (h : s.Canon) : (s.noteOrder idx vt word
    entry).Canon := by
  unfold State.noteOrder
  refine canon_ite ?_ ?_
  · split
    · exact h.consumeEntry
    · exact h
  · exact h.logEntry

theorem State.Canon.acceptDirect {cls : Nat} (h : s.Canon) : OptCanon (s.acceptDirect site p hd ws cls parked) := by
  unfold State.acceptDirect
  refine .ite (.some h.countAt) (.ite (.some h.countAt) (.ite .none ?_))
  split
  · exact .none
  · next e => exact .some ((((h.takesTurn _ e).setTile ((h.tile _).same)).capture).capture)

theorem State.Canon.counterFault {ctr : Nat} {dec : Nat} {count : Nat} {srcVt : Nat} (h : s.Canon) : (s.counterFault site ctr
    dec count srcVt).Canon :=
  canon_ite h.countAt (h.setTile ((h.tile _).setSlot))

theorem State.Canon.acceptCounted (h : s.Canon) : OptCanon (s.acceptCounted site p hd ws parked) := by
  unfold State.acceptCounted
  refine .ite (.some h) ?_
  split
  · exact .none
  · next s' e =>
      have h1 := h.takesTurn _ e
      refine .ite (.some (h1.setTile ((h.tile _).same))) (.ite ?_ ?_)
      · split
        · exact .none
        · next e => exact .some (h1.acceptDirect _ e).noteOrder.modTile
      · exact .some h1.counterFault

theorem Tile.Canon.putReg {l : Launch} (ht : t.Canon) : (t.putReg l slot reg val vec side release).Canon :=
  tile_canon_ite ht.landVreg ht.setSlot

theorem State.Canon.overwrite (h : s.Canon) : (s.overwrite site slot reg p val).Canon :=
  canon_ite h.countAt (h.setTile ((h.tile _).setSlot))

theorem State.Canon.acceptWrite {cap : Word} (h : s.Canon) : OptCanon (s.acceptWrite site p cap val vec side release) := by
  unfold State.acceptWrite
  refine .ite (.some h.countAt) (.ite .none (.ite .none ?_))
  split
  · exact .none
  · next s' e =>
      have h1 := h.takesTurn _ e
      exact .ite (.some (h1.noteOrder.setTile ((h.tile _).putReg))) (.ite (.some (h1.noteOrder.setTile ((h.tile _).same)))
        (.some h1.noteOrder.overwrite))

theorem State.Canon.performAt (h : s.Canon) : OptCanon (s.performAt site p op ptr wants) := by
  unfold State.performAt
  refine .ite (.some h.bankTurn) (.ite .none ?_)
  split
  · exact .none
  · exact .ite (.some h.bankTurn.answer) .none
  · next e =>
    refine .map (.ite h.bankTurn.exchangeTurn (.some h.bankTurn)) fun _ hs => ?_
    have ht := hs.setTile (site := site) ((h.bankTurn.tile _).perform e)
    exact canon_ite ht.answer ht

theorem State.Canon.acceptRequest (h : s.Canon) : OptCanon (s.acceptRequest site p op ptr wants) := by
  unfold State.acceptRequest
  refine .ite .none ?_
  split
  · next e => exact .some (h.performAt _ e)
  · exact .some h.modTile

theorem State.Canon.accept (h : s.Canon) : OptCanon (s.accept site p parked) := by
  unfold State.accept
  split
  · exact .ite (h.acceptCounted.map fun _ h => h.tick) h.acceptDirect
  · exact h.acceptWrite.map fun _ h => h.tick
  · exact h.acceptRequest
  · exact .some h.landReply
  · exact .some h.landError
  · exact .some h

theorem State.Canon.late {home : Option Nat} (h : s.Canon) : (s.late k p vt home).Canon := by
  unfold State.late
  refine canon_ite h.eject (canon_ite h.eject.countAt ?_)
  split
  · exact canon_ite h.eject.countAt.answer h
  · exact h.eject.countAt.answerRim

theorem State.Canon.append (h : s.Canon) : (s.append k p site idx vt).Canon := by
  unfold State.append
  split
  · next e => exact (h.park _ e).eject
  · exact h

theorem State.Canon.forward {at_ : Nat} {new : Nat} (h : s.Canon) : (s.forward k p at_ new).Canon :=
  canon_ite h (h.withTiles h.modTile.tiles)

theorem State.Canon.arriveAt (h : s.Canon) : (s.arriveAt k p site idx vt).Canon := by
  unfold State.arriveAt
  dsimp only
  split
  · exact h.forward
  · split
    · split
      · next e => exact (h.accept _ e).eject
      · exact canon_ite h.modTile.append h
    · split
      · next e => exact (h.accept _ e).eject
      · exact h.modTile.append
    · exact h.append
    · exact h.append
    · exact h.append

theorem State.Canon.arrive (h : s.Canon) : (s.arrive k p).Canon := by
  unfold State.arrive
  split
  · exact h
  · refine canon_ite h.eject ?_
    split
    · exact h
    · exact h
    · exact canon_ite h.late h.eject
    · exact canon_ite h.arriveAt (canon_ite h.eject (canon_ite h.late h.same))

theorem State.Canon.arriveIf {is : Packet → Bool} (h : s.Canon) : (s.arriveIf k is).Canon := by
  unfold State.arriveIf
  split
  · exact canon_ite h.arrive h
  · exact h

theorem execHeldWriteDelivery_canon (h : s.Canon) : Result.Canon (execHeldWriteDelivery site k s) := by
  unfold Machine.execHeldWriteDelivery
  dsimp only
  split
  · exact h.next
  · exact .ite h.next (((h.setTile (((h.tile _).same).putReg)).tick).next)

theorem execHeldRequestRelease_canon (h : s.Canon) : Result.Canon (execHeldRequestRelease site k s) := by
  unfold Machine.execHeldRequestRelease
  dsimp only
  split
  · exact h.next
  · refine .ite h.next ?_
    split
    · split
      · next e => exact (h.performAt _ e).modTile.next
      · exact h.next
    · exact h.next

theorem State.Canon.performRim (h : s.Canon) (e : s.performRim p op ptr = some r) : r.1.Canon := by
  unfold State.performRim at e
  dsimp only at e
  split at e
  · split at e
    · split at e
      · obtain ⟨t, ht, rfl⟩ := Option.map_eq_some_iff.mp e
        exact (h.exchangeTurn t ht).performHbm
      · exact Option.some.inj e ▸ h.performHbm
    · exact Option.some.inj e ▸ h.performHbm
  · exact Option.some.inj e ▸ h.performHost

theorem execHbmRequestArrival_canon (h : s.Canon) : Result.Canon (execHbmRequestArrival k s) := by
  unfold Machine.execHbmRequestArrival
  split
  · exact h.next
  · split
    · refine .ite h.next (.ite h.eject.next ?_)
      split
      · exact h.next
      · next e => exact (h.performRim e).eject.answerRim.next
      · next e => exact (canon_ite (h.performRim e).eject.answerRim (h.performRim e).eject).next
    · exact .ite h.eject.landTrace.next h.next
    · exact h.next

theorem State.Canon.sendPdone {empty : Bool} (h : s.Canon) : (s.sendPdone site empty).Canon :=
  canon_ite h h.modTile.flueSend

theorem execParkedDelivery_canon (h : s.Canon) : Result.Canon (execParkedDelivery site s) := by
  unfold Machine.execParkedDelivery
  dsimp only
  split
  · refine .ite h.modTile.storeRing.sendPdone.next ?_
    split
    · next e =>
      obtain ⟨x, _, hx⟩ := List.exists_of_findSome?_eq_some e
      obtain ⟨t, ht, hp⟩ := Option.map_eq_some_iff.mp hx
      cases hp
      exact (h.accept _ ht).storeRing.next
    · exact h.sendPdone.next
  · exact h.next

theorem State.Canon.startActivation {i : Fin 4} {k : Fin 8} (h : s.Canon) : (s.startActivation site i k).Canon := by
  unfold State.startActivation
  dsimp only
  split
  · exact h
  · exact ((((h.noteOrder.setTile ((h.tile _).same)).startThread).setSlot).emit).capture

theorem State.Canon.dispatched (h : s.Canon) : (s.dispatched site).Canon := h.modTile

theorem execDispatch_canon (h : s.Canon) : Result.Canon (execDispatch site s) := by
  unfold Machine.execDispatch
  refine .ite h.next ?_
  split
  · exact h.next
  · exact h.same.startActivation.dispatched.next
  · exact h.diverge.next

theorem State.Canon.startResident {k : Fin 8} (h : s.Canon) : (s.startResident site k).Canon :=
  canon_ite h h.startThread.emit

theorem execResidentThreadStart_canon (h : s.Canon) : Result.Canon (execResidentThreadStart site s) :=
  .ite ((foldl_preserves h.modTile fun _ _ h => h.startResident).next) h.next

theorem execVtileRetire_canon (h : s.Canon) : Result.Canon (execVtileRetire site s) :=
  .ite h.advance.retireVtile.next h.next

theorem execYieldTimeout_canon (h : s.Canon) : Result.Canon (execYieldTimeout site slot s) := by
  unfold Machine.execYieldTimeout
  dsimp only
  split
  · exact .ite h.setSlot.next h.next
  · exact h.next

theorem execFixedLatencyCompletion_canon {who : Agent} (h : s.Canon) : Result.Canon (execFixedLatencyCompletion who s) := by
  unfold Machine.execFixedLatencyCompletion
  split
  · exact h.next
  · exact h.advance.next

theorem execBarwaitProbe_canon (h : s.Canon) : Result.Canon (execBarwaitProbe site slot s) := by
  unfold Machine.execBarwaitProbe
  dsimp only
  refine .ite ?_ h.next
  split
  · split
    · split
      · exact h.next
      · exact h.next
      · refine .ite ?_ h.next
        split
        · next e => exact (sendProbe_keeps _ h.same _ _ e).same.next
        · exact h.next
    · split
      · next e => exact (h.same.issue barwaitBody_keeps _ e).same.next
      · next hn => exact fun t e => absurd e (hn t)
  · exact h.next

end Sys2Proof.Machine
end

section
/-! SUPPORT. Settles O50: the system instructions. -/

namespace Sys2Proof.Machine

set_option Elab.async false

variable {s t : State} {first idx k site : Nat} {hd v : Word} {stl : Stl} {a b : Src} {treg : Bool} {d : Dst} {m : FlueMsg}

theorem State.Canon.reflect {k : Fin 8} {hd : Half} (h : s.Canon) : (s.reflect site k hd).Canon := h.startThread.setSlot

theorem execEret_canon {b : BitVec 6} (h : s.Canon) : Result.Canon (execEret stl b s) := by
  unfold Machine.execEret
  refine h.issue (.get_bind fun _ hs => .bind require_keeps fun _ => .ite (.bind (.set hs.returnTrap) fun _ => .pure _) ?_)
  split
  · exact .bind getLaunch_keeps fun _ => .bind require_keeps fun _ => .bind (.set hs.reflect) fun _ => .pure _
  · exact .throw _

theorem checkTreg_keeps : Keeps (checkTreg treg) := .bind getLaunch_keeps fun _ => require_keeps

theorem saveqBody_keeps : Keeps (saveqBody treg) :=
  .bind checkTreg_keeps fun _ => .get_bind fun _ _ => .bind getLaunch_keeps fun _ => .bind (modTile_keeps fun _ ht =>
    ht.saveRecord) fun _ => .ite (.getTile_bind fun _ _ => .bind require_keeps fun _ => modTile_keeps fun _ ht =>
    ht.saveBlock) (.pure _)

theorem recordRead_keeps {off : Nat} {n : Nat} : Keeps (recordRead off n) := by
  unfold Machine.recordRead
  refine .getTile_bind fun _ _ => ?_
  split
  · exact .throw _
  · exact .pure _

theorem restqBody_keeps : Keeps (restqBody treg) :=
  .bind checkTreg_keeps fun _ => .get_bind fun _ _ => .bind getLaunch_keeps fun _ => .getTile_bind fun _ _ =>
    .bind recordRead_keeps fun _ => .bind require_keeps fun _ => .bind (modTile_keeps fun _ ht => ht.restoreRecord) fun _ =>
    .bind (.modify fun _ h => h.spend) fun _ => .ite (.bind recordRead_keeps fun _ => modTile_keeps fun _ ht =>
    ht.restoreBlock) (.pure _)

theorem siteArg_keeps : Keeps (siteArg v) := by
  unfold Machine.siteArg
  refine .get_bind fun _ _ => ?_
  split
  · exact .bind require_keeps fun _ => .pure _
  · exact .throw _

theorem mapArg_keeps {p : Word} : Keeps (mapArg p) := by
  unfold Machine.mapArg
  refine .get_bind fun _ _ => .bind placeOf_keeps fun _ => ?_
  split
  · exact .pure _
  · exact .throw _

theorem execDrain_canon (h : s.Canon) : Result.Canon (execDrain stl d a b s) := by
  unfold Machine.execDrain
  refine h.issue (.bind checkDst_keeps fun _ => .bind read2_keeps fun _ => ?_)
  split
  exact .bind require_keeps fun _ => .bind mapArg_keeps fun _ => .get_bind fun _ _ => .bind require_keeps fun _ =>
    .bind deliver_keeps fun _ => .pure _

theorem execColr_canon (h : s.Canon) : Result.Canon (execColr stl d a b s) := by
  unfold Machine.execColr
  refine h.issue (.bind checkDst_keeps fun _ => .bind read2_keeps fun _ => ?_)
  split
  exact .bind siteArg_keeps fun _ => .bind require_keeps fun _ => .get_bind fun _ _ => .bind deliver_keeps fun _ => .pure _

theorem Tile.Canon.forget {u : Tile} (ht : u.Canon) : (u.forget idx first k).Canon := ht.same

theorem State.Canon.forgetAt {sites : List Nat} (h : s.Canon) : (s.forgetAt sites idx first k).Canon := by
  refine h.withTiles (Table.forall_map h.tiles fun r hr => ?_)
  split <;> exact hr

theorem execNcinv_canon (h : s.Canon) : Result.Canon (execNcinv stl d a b s) := by
  unfold Machine.execNcinv
  refine h.issue (.bind checkDst_keeps fun _ => .bind read2_keeps fun _ => ?_)
  split
  exact .bind require_keeps fun _ => .bind mapArg_keeps fun _ => .get_bind fun _ hs => .bind require_keeps fun _ => .bind
    (.set hs.forgetAt) fun _ => .bind deliver_keeps fun _ => .pure _

theorem State.Canon.setWatchdog {hw : Nat} {us : Nat} (h : s.Canon) : (s.setWatchdog hw us).Canon := h.same

theorem execWdset_canon (h : s.Canon) : Result.Canon (execWdset stl a b s) := by
  unfold Machine.execWdset
  refine h.issue (.bind read2_keeps fun _ => ?_)
  split
  exact .bind require_keeps fun _ => .bind (.modify fun _ h => h.setWatchdog) fun _ => .pure _

theorem State.Canon.resumeClocks {d : Nat} (h : s.Canon) : (s.resumeClocks d).Canon :=
  h.withTiles (Table.forall_map h.tiles fun _ hr => hr.same)

theorem State.Canon.driveHalt {halt : Bool} (h : s.Canon) : (s.driveHalt halt).Canon :=
  canon_ite (canon_ite h.same h.same) (canon_ite h.same.resumeClocks.same h.same)

theorem execHaltt_canon {b : BitVec 6} (h : s.Canon) : Result.Canon (execHaltt stl d b s) :=
  h.issue (.bind checkDst_keeps fun _ => .bind require_keeps fun _ => .bind reserve_keeps fun _ => .bind (.modify fun _ h =>
    h.driveHalt.same) fun _ => .pure _)

theorem svsendGate_keeps {ty : Nat} : Keeps (svsendGate ty) := .get_bind fun _ _ => require_keeps

theorem State.Canon.sendFlue {a : Agent} {val : Word} (h : s.Canon) : OptCanon (s.sendFlue a hd val) := by
  unfold State.sendFlue
  refine .ite (.some h.flueSend) ?_
  split <;> exact .ite .none (.some h.flueSend.setLink)

theorem State.Canon.faultWords {a : Agent} {type : Nat} (h : s.Canon) : (s.faultWords a type).Canon := by
  unfold State.faultWords
  split
  · exact canon_ite h.modTile.flueSend.flueSend h
  · exact h

theorem svsendBody_keeps : Keeps (svsendBody hd v) := by
  unfold Machine.svsendBody
  refine .get_bind fun _ hs => .bind require_keeps fun _ => .bind svsendGate_keeps fun _ => .bind require_keeps fun _ => ?_
  split
  · next e => exact .set (hs.sendFlue _ e).faultWords
  · exact .throw _

theorem execSvsend_canon (h : s.Canon) : Result.Canon (execSvsend stl a b s) := by
  unfold Machine.execSvsend
  refine h.issue (.bind read2_keeps fun _ => ?_)
  split
  exact .bind svsendBody_keeps fun _ => .pure _

theorem State.Canon.owePermit (h : s.Canon) : (s.owePermit m).Canon :=
  canon_ite h (canon_ite h.setLink.releaseLink (canon_ite (canon_ite h.setLink.flueSend h.setLink) (canon_ite
    h.setLink.flueSend h.setLink)))

theorem State.Canon.takeMessage (h : s.Canon) (e : s.takeMessage = some (m, t)) : t.Canon := by
  unfold State.takeMessage at e
  split at e
  · split at e
    · cases e
      exact h.modTile.admitQueued
    · cases e
  · split at e
    · cases e
      exact h.same.owePermit
    · cases e

theorem execSvrecv_canon (h : s.Canon) : Result.Canon (execSvrecv stl d a s) := by
  unfold Machine.execSvrecv
  refine h.issue (.bind checkDst_keeps fun _ => .bind read1_keeps fun _ => .bind placeOf_keeps fun _ =>
    .get_bind fun _ hs => ?_)
  dsimp only
  split
  · exact .bind deliver_keeps fun _ => .pure _
  · next m s' e =>
      have h2 := hs.takeMessage e
      refine .bind (.set h2) fun _ => ?_
      split
      · exact .bind privAccess_keeps fun _ => .bind deliver_keeps fun _ => .pure _
      · exact .bind localAccess_keeps fun _ => .bind deliver_keeps fun _ => .pure _
      · exact .bind deliver_keeps fun _ => .pure _

theorem State.Canon.acknowledge {a : Agent} {k : Fin 7} (h : s.Canon) : (s.acknowledge a k).Canon := h.setCore h.core.same

theorem execIntack_canon (h : s.Canon) : Result.Canon (execIntack stl d s) := by
  unfold Machine.execIntack
  refine h.issue (.bind checkDst_keeps fun _ => .get_bind fun _ hs => ?_)
  dsimp only
  split
  · exact .bind writeDst_keeps fun _ => .pure _
  · exact .bind (.set hs.acknowledge) fun _ => .bind writeDst_keeps fun _ => .pure _

theorem selectorArg_keeps : Keeps (selectorArg v) := .getTile_bind fun _ _ => .bind require_keeps fun _ => .pure _

theorem execPrcr_canon (h : s.Canon) : Result.Canon (execPrcr stl d a s) :=
  h.issue (.bind checkDst_keeps fun _ => .bind read1_keeps fun _ => .bind selectorArg_keeps fun _ =>
    .getTile_bind fun _ _ => .bind writeDst_keeps fun _ => .pure _)

theorem execPcwr_canon (h : s.Canon) : Result.Canon (execPcwr stl a b s) := by
  unfold Machine.execPcwr
  refine h.issue (.bind read2_keeps fun _ => ?_)
  split
  exact .bind selectorArg_keeps fun _ => .bind (modTile_keeps fun _ ht => ht.same) fun _ => .pure _

theorem swapArgs_keeps : Keeps (swapArgs a b) := by
  unfold Machine.swapArgs
  refine .bind read2_keeps fun _ => ?_
  split
  exact .bind siteArg_keeps fun _ => .bind require_keeps fun _ => .pure _

theorem execSwpout_canon (h : s.Canon) : Result.Canon (execSwpout stl d a b s) :=
  h.issue (.bind checkDst_keeps fun _ => .bind swapArgs_keeps fun _ => .get_bind fun _ hs => .bind (.set hs.swapOut) fun _
    => .bind deliver_keeps fun _ => .pure _)

theorem execSwpin_canon (h : s.Canon) : Result.Canon (execSwpin stl d a b s) :=
  h.issue (.bind checkDst_keeps fun _ => .bind swapArgs_keeps fun _ => .get_bind fun _ hs => .bind (.set hs.swapIn) fun _ =>
    .bind deliver_keeps fun _ => .pure _)

theorem State.Canon.setForward {new : Option Nat} (h : s.Canon) : (s.setForward site new).Canon := h.modTile

theorem execFwdset_canon (h : s.Canon) : Result.Canon (execFwdset stl a b s) := by
  unfold Machine.execFwdset
  refine h.issue (.bind read2_keeps fun _ => ?_)
  split
  exact .bind siteArg_keeps fun _ => .ite (.bind (.modify fun _ h => h.setForward) fun _ => .pure _)
    (.bind siteArg_keeps fun _ => .bind (.modify fun _ h => h.setForward) fun _ => .pure _)

theorem execResett_canon (h : s.Canon) : Result.Canon (execResett stl d a s) :=
  h.issue (.bind checkDst_keeps fun _ => .bind read1_keeps fun _ => .bind siteArg_keeps fun _ => .get_bind fun _ hs => .bind
    (.set hs.resetTile) fun _ => .bind deliver_keeps fun _ => .pure _)

theorem State.Canon.setDuty {region : Nat} {mask : Nat} {d : Nat} (h : s.Canon) : (s.setDuty region mask d).Canon :=
  h.withStokers (Table.forall_put h.stokers ((h.stoker _).same))

theorem execThrset_canon (h : s.Canon) : Result.Canon (execThrset stl a b s) := by
  unfold Machine.execThrset
  refine h.issue (.bind read2_keeps fun _ => ?_)
  split
  refine .bind require_keeps fun _ => .get_bind fun _ hs => ?_
  split
  · exact .bind (.set hs.setDuty) fun _ => .pure _
  · exact .throw _

theorem execSlotkill_canon (h : s.Canon) : Result.Canon (execSlotkill stl a s) := by
  unfold Machine.execSlotkill
  refine h.issue (.bind read1_keeps fun _ => .get_bind fun _ hs => ?_)
  split
  · exact .bind require_keeps fun _ => .bind (.set hs.advance.setSlot) fun _ => .pure _
  · exact .throw _

end Sys2Proof.Machine
end

section
/-! SUPPORT. Settles O50: queues, launches and the administrator. -/

namespace Sys2Proof.Machine

set_option Elab.async false

variable {s t : State} {asid fuel idx n op parkbase part ptbase reason status v : Nat} {q : Queue} {key p : Word} {l : Launch}
  {sigOk : Bool}

theorem State.Canon.setQueue (h : s.Canon) : (s.setQueue n q).Canon := h.same

theorem execDoorbell_canon {fn : Nat} {q : Nat} {tail : Nat} (h : s.Canon) : Result.Canon (execDoorbell fn q tail s) := by
  unfold Machine.execDoorbell
  dsimp only
  split
  · exact h.same.next
  · exact .ite h.same.next h.setQueue.raise.next

theorem State.Canon.takeEntry {x : Queue} (h : s.Canon) : (s.takeEntry n x).Canon :=
  (h.withHost (Memory.wf_write _ _ _ _ h.host)).setQueue

theorem State.Canon.writeRecord {pf : Bool} {rec_ : Nat} (h : s.Canon) : OptCanon (s.writeRecord asid part pf p rec_) := by
  unfold State.writeRecord
  refine .ite .none (.ite ?_ ?_)
  · split
    · exact .ite (.some (h.withHbm (Memory.wf_write _ _ _ _ h.hbm))) .none
    · exact .none
  · refine .ite (.some (h.withHost (Memory.wf_write _ _ _ _ h.host))) fun t e => ?_
    obtain ⟨a, _, rfl⟩ := Option.map_eq_some_iff.mp e
    exact h.withHost (Memory.wf_write _ _ _ _ h.host)

theorem State.Canon.report {queue : Nat} {type : Nat} {tag : Nat} {start : Nat} {info : Nat} {g : ErrorLog} (h : s.Canon) :
    (s.report queue asid part p type status reason tag start info g).Canon := by
  unfold State.report
  split
  · next e => exact (h.writeRecord _ e).postEvent
  · exact h.postEvent

theorem State.Canon.writeDirectory (h : s.Canon) : (s.writeDirectory idx l ptbase parkbase).Canon :=
  h.withHbm (Memory.wf_writeFields h.hbm)

/-- A cleared page table, the rings of an earlier launch forgotten. -/
theorem State.Canon.clearTable {us : List Nat} {a n : Nat} {rs : List ((Nat × Nat) × List (Packet × Nat))} (h : s.Canon) :
    State.Canon { s.sealedFor none us with hbm := Memory.write s.hbm a n 0, rings := rs } :=
  h.withHbm (Memory.wf_write _ _ _ _ h.hbm)

theorem State.Canon.create {p : Packet128} {parent : Option Nat} {image : Image} (h : s.Canon) :
    (s.create idx n q p key parent image ptbase parkbase).Canon := by
  unfold State.create
  dsimp only
  refine canon_ite h.same.setLaunch (canon_ite (.setQueue ?_) ?_)
  all_goals
    refine foldl_preserves ?_ fun _ _ h => h.withHbm (Memory.wf_write _ _ _ _ h.hbm)
    exact .clearTable (.writeDirectory (.setLaunch h.same))

theorem State.Canon.reject {p : Packet128} (h : s.Canon) : (s.reject n q p reason).Canon := h.report

theorem State.Canon.adminDone {reason : Option Nat} (h : s.Canon) : (s.adminDone v reason).Canon := by
  unfold State.adminDone
  dsimp only
  split <;> exact h.report

theorem execKernel_canon {q : Nat} (h : s.Canon) : Result.Canon (execKernel q idx key ptbase parkbase s) := by
  unfold Machine.execKernel
  split
  · exact h.next
  · refine .ite h.next (.ite (.ite h.takeEntry.adminDone.next h.next) ?_)
    split
    · exact h.takeEntry.reject.next
    · dsimp only
      split
      · exact h.takeEntry.create.next
      · exact h.takeEntry.next

theorem execMarker_canon {q : Nat} (h : s.Canon) : Result.Canon (execMarker q idx s) := by
  unfold Machine.execMarker
  split
  · exact h.next
  · refine .ite h.next ?_
    dsimp only
    split
    · exact h.takeEntry.create.next
    · exact h.takeEntry.next

theorem execChildLaunchPacket_canon {k : Nat} (h : s.Canon) : Result.Canon (execChildLaunchPacket k idx key ptbase parkbase s)
    := by
  unfold Machine.execChildLaunchPacket
  split
  · exact h.next
  · refine .ite h.next ?_
    dsimp only
    split
    · exact h.same.next
    · refine .ite h.same.next ?_
      split
      · exact h.next
      · refine .ite h.same.create.next ?_
        split
        · exact h.same.create.next
        · exact h.same.setLaunch.reject.next
        · exact h.next

theorem State.Canon.openSegment (h : s.Canon) : (s.openSegment idx l q).Canon :=
  foldl_preserves ((foldl_preserves (foldl_preserves h.setQueue.putVirt64 fun _ _ h => h.putVirt64) fun _ _ h =>
    h.putVirt64.putVirt64).setLaunch) fun _ _ h => h.logEntry

theorem State.Canon.forceSegment (h : s.Canon) : (s.forceSegment idx l q).Canon := canon_ite h.setLaunch h

theorem State.Canon.readSegment (h : s.Canon) : (s.readSegment l q).Canon := canon_ite h.setQueue.postEvent h.setQueue

theorem State.Canon.startLog (h : s.Canon) : (s.startLog idx).Canon := by
  unfold State.startLog
  dsimp only
  split
  · exact canon_ite h.openSegment (canon_ite h.readSegment h)
  · exact h

theorem State.Canon.startReplay (h : s.Canon) : (s.startReplay idx).Canon := by
  unfold State.startReplay
  dsimp only
  split
  · exact canon_ite h.forceSegment h
  · exact h

theorem State.Canon.armWatchdog (h : s.Canon) : (s.armWatchdog n).Canon := by
  unfold State.armWatchdog
  split
  · split
    · dsimp only
      split
      · exact canon_ite h.same (canon_ite h h.same)
      · exact h.same
    · exact h
  · exact h

theorem State.Canon.startLaunch (h : s.Canon) : (s.startLaunch idx).Canon := canon_ite h h.setLaunch.startLog.armWatchdog

theorem State.Canon.closeTag (h : s.Canon) : (s.closeTag l status).Canon := h.same

theorem State.Canon.sendDigests (h : s.Canon) : (s.sendDigests n q l).Canon := h.setQueue

theorem State.Canon.compareDigests (h : s.Canon) : (s.compareDigests n q).Canon := by
  unfold State.compareDigests
  split
  · exact canon_ite h (canon_ite h.setQueue h.setQueue.postEvent)
  · exact h

theorem State.Canon.releaseDry (h : s.Canon) : (s.releaseDry n).Canon := by
  unfold State.releaseDry
  split
  · split
    · exact canon_ite h.same h
    · exact h
  · exact h

theorem State.Canon.queueAfter (h : s.Canon) : (s.queueAfter l status).Canon := by
  unfold State.queueAfter
  split
  · exact h
  · refine (State.Canon.releaseDry ?_).armWatchdog
    split
    · exact (canon_ite h.setQueue.sendDigests h.setQueue).compareDigests
    · exact canon_ite h.setQueue.sendDigests h.setQueue

theorem State.Canon.dropImages (h : s.Canon) : (s.dropImages idx).Canon := h.same

theorem Memory.wf_ite {c : Prop} [Decidable c] {m m' : Memory} (h : m.wf = true) (h' : m'.wf = true) :
    (if c then m else m').wf = true := by
  split <;> assumption

/-- A launch gone from the tables, its directory entry cleared. -/
theorem State.Canon.dropLaunch {c : Prop} [Decidable c] {a : Nat} {rs : List ((Nat × Nat) × List (Packet × Nat))} {ls : Table Launch}
    (h : s.Canon) : State.Canon { s.dropImages idx with
      hbm := if c then Memory.write s.hbm a 32 0 else s.hbm, rings := rs, launches := ls } :=
  h.withHbm (Memory.wf_ite (Memory.wf_write _ _ _ _ h.hbm) h.hbm)

theorem State.Canon.completeLaunch (h : s.Canon) : (s.completeLaunch idx status reason).Canon := by
  unfold State.completeLaunch
  refine .queueAfter ?_
  split
  · split
    · exact .setLaunch (.closeTag (.dropLaunch h.report))
    · exact .closeTag (.dropLaunch h.report)
  · exact .closeTag (.dropLaunch h.report)

theorem execLaunchCompletion_canon (h : s.Canon) : Result.Canon (execLaunchCompletion idx s) := by
  unfold Machine.execLaunchCompletion
  split
  · exact h.next
  · split
    · exact .ite h.completeLaunch.next h.next
    · exact .ite (.ite h.completeLaunch.next h.next) (.ite h.completeLaunch.next h.next)

theorem State.Canon.killOne (h : s.Canon) : (s.killOne idx status reason).Canon :=
  canon_ite h (foldl_preserves h.same fun _ _ h => h.toStoker)

theorem State.Canon.killLaunch (h : s.Canon) : (s.killLaunch idx status reason).Canon :=
  foldl_preserves h.killOne fun _ _ h => h.killOne

theorem execWatchdogExpiry_canon {hw : Nat} (h : s.Canon) : Result.Canon (execWatchdogExpiry hw s) := by
  unfold Machine.execWatchdogExpiry
  dsimp only
  split
  · exact h.next
  · refine .ite h.next ?_
    split
    · exact h.same.next
    · exact .ite h.same.next h.same.killLaunch.next

theorem State.Canon.mapQueue (h : s.Canon) : (s.mapQueue n).Canon := by
  unfold State.mapQueue
  split
  · exact h.same.armWatchdog
  · exact h

theorem State.Canon.adminTake (h : s.Canon) (e : s.adminTake op = some (t, v)) : t.Canon := by
  unfold State.adminTake at e
  split at e
  · split at e <;> cases e
    exact h.takeEntry
  · cases e

theorem admin_canon {reason : State → Nat → Option Nat} {effect : State → Nat → State} (h : s.Canon)
    (hf : ∀ s v, s.Canon → (effect s v).Canon) : Result.Canon (admin op reason effect s) := by
  unfold Machine.admin
  split
  · exact h.next
  · next e =>
    split
    · exact (h.adminTake e).adminDone.next
    · exact (hf _ _ (h.adminTake e)).adminDone.next

theorem State.Canon.setPart {p : Partition} (h : s.Canon) : (s.setPart n p).Canon := h.same

theorem execCreateQueue_canon (h : s.Canon) : Result.Canon (execCreateQueue s) := admin_canon h fun _ _ h => h.same

theorem execDestroyQueue_canon (h : s.Canon) : Result.Canon (execDestroyQueue s) := admin_canon h fun _ _ h => h.same

theorem State.Canon.activate (h : s.Canon) : (s.activate n).Canon := by
  unfold State.activate
  split
  · exact h.setQueue
  · exact h

theorem execUnfreeze_canon (h : s.Canon) : Result.Canon (execUnfreeze s) := admin_canon h fun _ _ h => h.activate

theorem State.Canon.flushEntries (h : s.Canon) : (s.flushEntries n fuel).Canon := by
  induction fuel generalizing s with
  | zero => exact h
  | succ fuel ih =>
    unfold State.flushEntries
    split
    · exact canon_ite h (ih h.takeEntry.report)
    · exact h

theorem State.Canon.flushQueue (h : s.Canon) : (s.flushQueue n).Canon :=
  (((foldl_preserves h fun _ _ h => h.setLaunch.completeLaunch).flushEntries).activate).armWatchdog

theorem execSetLog_canon (h : s.Canon) : Result.Canon (execSetLog s) := by
  refine admin_canon h fun _ _ h => ?_
  split
  · exact h.setQueue
  · exact h

theorem execSetPair_canon (h : s.Canon) : Result.Canon (execSetPair s) := by
  refine admin_canon h fun _ _ h => ?_
  split
  · exact h.setQueue
  · exact h

theorem execFlush_canon (h : s.Canon) : Result.Canon (execFlush s) := by
  unfold Machine.execFlush
  split
  · exact h.next
  · next e =>
    have h1 := h.adminTake e
    dsimp only
    split
    · exact h1.adminDone.next
    · exact .ite h1.flushQueue.adminDone.next ((foldl_preserves h fun _ _ h => h.killLaunch).next)

theorem execSetBucket_canon (h : s.Canon) : Result.Canon (execSetBucket s) := admin_canon h fun _ _ h => h.same

theorem execSetPartition_canon {key : BitVec 512} (h : s.Canon) : Result.Canon (execSetPartition key s) :=
  admin_canon h fun _ _ h => h.rekey.setPart

theorem execSetEventRing_canon (h : s.Canon) : Result.Canon (execSetEventRing s) := admin_canon h fun _ _ h => h.same

theorem execGetCounters_canon (h : s.Canon) : Result.Canon (execGetCounters s) :=
  admin_canon h fun _ _ h => h.withHost (Memory.wf_write _ _ _ _ h.host)

theorem execAttest_canon {sig : BitVec 512} {cert : List Byte} (h : s.Canon) : Result.Canon (execAttest sig cert s) :=
  admin_canon h fun _ _ h => canon_ite (h.withHost (Memory.wf_write _ _ _ _ h.host)) (h.withHost (Memory.wf_write _ _ _ _
    h.host))

theorem State.Canon.regrade (h : s.Canon) : s.regrade.Canon := h.same

theorem execReadmit_canon {tested : Bool} {busy : Bool} (h : s.Canon) : Result.Canon (execReadmit sigOk tested busy s) :=
  admin_canon h fun _ _ h => canon_ite (.regrade (.markGood (.setTile h.same (h.tile _).same))) h

theorem execSetOwner_canon (h : s.Canon) : Result.Canon (execSetOwner sigOk s) := admin_canon h fun _ _ h => h.same

theorem execBindHost_canon (h : s.Canon) : Result.Canon (execBindHost s) := admin_canon h fun _ _ h => h.same

theorem execBindPeer_canon (h : s.Canon) : Result.Canon (execBindPeer s) := admin_canon h fun _ _ h => h.same

end Sys2Proof.Machine
end

section
/-! SUPPORT. Settles O50: gangs. -/

namespace Sys2Proof.Machine

set_option Elab.async false

variable {s t : State} {base gang idx imgbase k part region site type : Nat} {x : Move} {m : FlueMsg}

theorem State.Canon.flueAt (h : s.Canon) (e : s.flueAt k type = some (m, t)) : t.Canon := by
  unfold State.flueAt at e
  split at e
  · split at e <;> cases e
    exact canon_ite h.same.owePermit.admitQueued h.same.owePermit
  · cases e

theorem State.Canon.askRegions {phase : Nat} {payload : Nat} {regions : List Nat} (h : s.Canon) : (s.askRegions idx gang phase
    type payload regions).Canon :=
  foldl_preserves h.modGang fun _ _ h => h.toStoker

theorem State.Canon.answered (h : s.Canon) : (s.answered idx gang region).Canon := h.modGang

theorem Tile.Canon.pendAll {t : Tile} {b : Fin 6} {v : Word} (ht : t.Canon) : (t.pendAll b v).Canon := ht.same

theorem execPreempt_canon (h : s.Canon) : Result.Canon (execPreempt k s) := by
  unfold Machine.execPreempt
  split
  · exact h.next
  · next m s' e =>
      have h1 := h.flueAt e
      exact .ite h1.flueSend.next ((h1.flushSums.modTile.flueSend).next)

theorem execDebugstop_canon (h : s.Canon) : Result.Canon (execDebugstop k s) := by
  unfold Machine.execDebugstop
  split
  · exact h.next
  · next m s' e =>
      have h1 := h.flueAt e
      exact (h1.setTile ((h1.tile _).pendAll)).next

theorem execResume_canon (h : s.Canon) : Result.Canon (execResume k s) := by
  unfold Machine.execResume
  split
  · exact h.next
  · next e => exact .ite h.next (h.flueAt e).modTile.admitQueued.next

theorem execWdkill_canon (h : s.Canon) : Result.Canon (execWdkill k s) := by
  unfold Machine.execWdkill
  split
  · exact h.next
  · next e => exact (foldl_preserves (h.flueAt e).modTile fun _ _ h => canon_ite h.flueSend h).next

theorem execRestore_canon (h : s.Canon) : Result.Canon (execRestore k s) := by
  unfold Machine.execRestore
  split
  · exact h.next
  · next e => exact (h.flueAt e).modTile.next

theorem execQuiesce_canon (h : s.Canon) : Result.Canon (execQuiesce k s) := by
  unfold Machine.execQuiesce
  split
  · exact h.next
  · next e => exact (h.flueAt e).modTile.next

theorem execQuiesceLanding_canon (h : s.Canon) : Result.Canon (execQuiesceLanding site s) := .ite h.modTile.next h.next

theorem execPdeliv_canon (h : s.Canon) : Result.Canon (execPdeliv k s) := by
  unfold Machine.execPdeliv
  split
  · exact h.next
  · next e => exact (h.flueAt e).modTile.next

theorem State.Canon.allocImages (h : s.Canon) : (s.allocImages idx gang base).Canon :=
  canon_ite h (foldl_preserves h.modGang fun _ _ h => h.setPt)

theorem State.Canon.evictGang {preempted : Bool} (h : s.Canon) : (s.evictGang idx gang base preempted).Canon :=
  h.allocImages.modGang.setLaunch.askRegions

theorem State.Canon.checkSaved (h : s.Canon) : (s.checkSaved idx gang region).Canon :=
  canon_ite ((foldl_preserves h fun _ _ h => h.setPtState).toCollier) h

theorem execEvict_canon (h : s.Canon) : Result.Canon (execEvict k s) := by
  unfold Machine.execEvict
  split
  · exact h.next
  · next e => exact ((foldl_preserves (h.flueAt e) fun _ _ h => h.modTile.flueSend).checkSaved).next

theorem execPack_canon (h : s.Canon) : Result.Canon (execPack k s) := by
  unfold Machine.execPack
  split
  · exact h.next
  · next m s' e =>
      have h1 := h.flueAt e
      exact (foldl_preserves (canon_ite h1.modTile h1) fun _ _ h => foldl_preserves h fun _ _ h => h.checkSaved).next

theorem State.Canon.stopEvery (h : s.Canon) : (s.stopEvery idx).Canon :=
  foldl_preserves h.setLaunch fun _ _ h => foldl_preserves h fun _ _ h => canon_ite h.flueSend h

theorem execSaved_canon (h : s.Canon) : Result.Canon (execSaved k s) := by
  unfold Machine.execSaved
  split
  · exact h.next
  · next e =>
    have h1 := h.flueAt e
    dsimp only
    split
    · exact h1.modTile.next
    · exact .ite h1.modTile.checkSaved.next (.ite h1.modTile.next (.next (canon_ite
        (.stopEvery (h1.withTiles h1.modTile.tiles)) (h1.withTiles h1.modTile.tiles))))

theorem execSavedp_canon (h : s.Canon) : Result.Canon (execSavedp k s) := by
  unfold Machine.execSavedp
  split
  · exact h.next
  · next m s' e =>
      have h1 := h.flueAt e
      exact .ite h1.next (.ite h1.killLaunch.next (.ite h1.answered.askRegions.next h1.answered.next))

theorem execNcreq_canon (h : s.Canon) : Result.Canon (execNcreq k s) := by
  unfold Machine.execNcreq
  split
  · exact h.next
  · next e => exact .ite h.next (h.flueAt e).forgetAt.toCollier.next

theorem State.Canon.vacate {sites : List Nat} (h : s.Canon) : (s.vacate sites).Canon :=
  foldl_preserves h fun _ _ h => (h.setTile ((h.tile _).vacated)).reportLeft

theorem State.Canon.evicted (h : s.Canon) : (s.evicted idx gang).Canon :=
  canon_ite h.modGang.storeRing.same h.modGang.storeRing

theorem execNcdone_canon (h : s.Canon) : Result.Canon (execNcdone k s) := by
  unfold Machine.execNcdone
  split
  · exact h.next
  · next m s' e =>
      have h1 := h.flueAt e
      refine .ite h1.next (.ite h1.answered.next (.ite ?_ ?_))
      · exact .ite h1.answered.modGang.evicted.next h1.answered.modGang.askRegions.next
      · refine .ite ?_ ?_
        · exact ((canon_ite h1.answered.startReplay h1.answered).askRegions).next
        · refine .ite ?_ ?_
          · split
            · exact h1.answered.modGang.toStoker.next
            · exact h1.answered.next
          · exact h1.answered.next

theorem execSwapout_canon (h : s.Canon) : Result.Canon (execSwapout k s) := by
  unfold Machine.execSwapout
  split
  · exact h.next
  · next e =>
      have h1 := h.flueAt e
      refine .ite h1.next (.ite (State.Canon.toCollier ?_).next h.next)
      exact foldl_preserves (p := fun x : State × Bool => x.1.Canon) h1 fun _ _ h => h.swapOut

theorem execEvicted_canon (h : s.Canon) : Result.Canon (execEvicted k s) := by
  unfold Machine.execEvicted
  split
  · exact h.next
  · next m s' e =>
      have h1 := h.flueAt e
      exact .ite h1.next (.ite h1.killLaunch.next (.ite h1.vacate.modGang.answered.evicted.next
        h1.vacate.modGang.answered.next))

theorem State.Canon.placeGang {sites : List (Nat × Nat)} (h : s.Canon) : (s.placeGang idx gang sites).Canon :=
  ((foldl_preserves h.modGang fun _ _ h => h.setPt).same).askRegions

theorem execLaunchStart_canon (h : s.Canon) : Result.Canon (execLaunchStart idx s) := by
  unfold Machine.execLaunchStart
  dsimp only
  split
  · refine .ite h.next ?_
    split
    · exact h.same.placeGang.next
    · exact h.next
  · exact h.next

theorem execGangPlacement_canon (h : s.Canon) : Result.Canon (execGangPlacement idx gang s) := by
  unfold Machine.execGangPlacement
  refine .ite h.next ?_
  split
  · exact h.placeGang.next
  · exact h.next

theorem execPreEmptedGangReturn_canon (h : s.Canon) : Result.Canon (execPreEmptedGangReturn idx gang s) := by
  unfold Machine.execPreEmptedGangReturn
  dsimp only
  split
  · exact .ite h.next h.placeGang.next
  · exact h.next

theorem execPreEmption_canon (h : s.Canon) : Result.Canon (execPreEmption part imgbase s) := by
  unfold Machine.execPreEmption
  split
  · exact h.next
  · refine .ite h.next ?_
    split
    · exact h.evictGang.next
    · exact h.next

theorem execSummonService_canon (h : s.Canon) : Result.Canon (execSummonService part imgbase s) := by
  unfold Machine.execSummonService
  dsimp only
  split
  · exact h.next
  · refine .ite h.next (.ite h.same.next ?_)
    split
    · exact h.placeGang.next
    · refine .ite h.next ?_
      split
      · exact h.evictGang.next
      · exact h.next

theorem execSummon_canon (h : s.Canon) : Result.Canon (execSummon k s) := by
  unfold Machine.execSummon
  split
  · exact h.next
  · next m s' e =>
      have h1 := h.flueAt e
      refine .ite h1.next ?_
      dsimp only
      split
      · exact .ite h1.next h1.same.next
      · exact .ite h1.next h1.same.next
      · exact h1.modGang.next
      · exact h1.modGang.next
      · exact h1.next
      · exact h1.next
      · exact h1.next

theorem State.Canon.present {l : Launch} {xs : List (Nat × Nat)} (h : s.Canon) : (s.present l xs).Canon :=
  foldl_preserves h fun _ _ h => h.modTile.setPt.setPtState

theorem State.Canon.checkLoaded (h : s.Canon) : (s.checkLoaded idx gang region).Canon := canon_ite h.present.toCollier h

theorem State.Canon.restoreAt (h : s.Canon) : (s.restoreAt idx site).Canon := h.modTile.flueSend

theorem execPlace_canon (h : s.Canon) : Result.Canon (execPlace k s) := by
  unfold Machine.execPlace
  split
  · exact h.next
  · next e =>
      have h1 := h.flueAt e
      refine .ite h1.next (.ite h.next (.ite (State.Canon.checkLoaded ?_).next (State.Canon.toCollier ?_).next)) <;>
      exact foldl_preserves (p := fun x : State × Bool => x.1.Canon) h1 fun _ _ h => canon_ite h.swapIn.restoreAt h.swapIn

theorem execRestored_canon (h : s.Canon) : Result.Canon (execRestored k s) := by
  unfold Machine.execRestored
  split
  · exact h.next
  · next m s' e =>
      have h1 := h.flueAt e
      dsimp only
      split
      · exact h1.modTile.checkLoaded.next
      · exact h1.modTile.next

theorem execLoadedp_canon (h : s.Canon) : Result.Canon (execLoadedp k s) := by
  unfold Machine.execLoadedp
  split
  · exact h.next
  · next m s' e =>
      have h1 := h.flueAt e
      exact .ite h1.next (.ite h1.killLaunch.next (.ite h1.answered.askRegions.next h1.answered.next))

theorem execOpenGang_canon (h : s.Canon) : Result.Canon (execOpenGang k s) := by
  unfold Machine.execOpenGang
  split
  · exact h.next
  · next m s' e =>
      have h1 := h.flueAt e
      refine .ite ?_ ?_
      · split
        · exact h1.vacate.modTile.flueSend.next
        · exact h1.next
      · exact .ite h1.next ((foldl_preserves h1 fun _ _ h => h.modTile.flueSend).next)

theorem State.Canon.resumeAt (h : s.Canon) : (s.resumeAt idx site).Canon :=
  canon_ite (canon_ite h.setLaunch.flueSend h) (((canon_ite h.setLaunch.flueSend h).modTile).flueSend)

theorem execPdone_canon (h : s.Canon) : Result.Canon (execPdone k s) := by
  unfold Machine.execPdone
  split
  · exact h.next
  · next e =>
    have h1 := h.flueAt e
    refine .ite h1.next ?_
    dsimp only
    split
    · refine .next (.toCollier (.same ?_))
      exact h1.modTile.resumeAt
    · split
      · exact h1.modTile.next
      · exact .ite h1.modTile.next (.next (.toCollier (foldl_preserves h1.modTile fun _ _ h => h.resumeAt)))

theorem execPlaced_canon (h : s.Canon) : Result.Canon (execPlaced k s) := by
  unfold Machine.execPlaced
  split
  · exact h.next
  · next m s' e =>
      have h1 := h.flueAt e
      exact .ite h1.next (.ite h1.answered.next (((foldl_preserves h1.answered.modGang fun _ _ h =>
        h.modTile).startLaunch).next))

theorem State.Canon.carryOver (h : s.Canon) : (s.carryOver x).1.Canon := by
  unfold State.carryOver
  dsimp only
  split
  · exact h.swapOut
  · split
    · exact h.swapOut.swapIn
    · exact .restoreAt h.swapOut.swapIn.modTile

theorem State.Canon.installMove (h : s.Canon) : (s.installMove x).Canon := h.setPt.present.setForward.modGang

theorem execMigrate_canon (h : s.Canon) : Result.Canon (execMigrate k s) := by
  unfold Machine.execMigrate
  split
  · exact h.next
  · next e =>
    have h1 := h.flueAt e
    dsimp only
    split
    · split
      · exact .ite h1.next (.next (.flueSend (.modTile (.same h.supply))))
      · exact h1.next
    · refine .ite (.ite h1.same.next (.ite ?_ h.next)) (.ite (.ite (.next (.toCollier (.same h1.installMove))) h.next) h1.next)
      split
      · next e => exact (fst_canon h.carryOver e).same.next
      · exact .next (.toCollier (.same h1.carryOver))

theorem execMoved_canon (h : s.Canon) : Result.Canon (execMoved k s) := by
  unfold Machine.execMoved
  split
  · exact h.next
  · next m s' e =>
      have h1 := h.flueAt e
      exact .ite h1.next (.ite h1.killLaunch.next h1.askRegions.next)

end Sys2Proof.Machine
end

section
/-! SUPPORT. Settles O50: faults, kills and reports of tiles. -/

namespace Sys2Proof.Machine

set_option Elab.async false

variable {k : Nat} {s : State}

theorem execFaultstop_canon (h : s.Canon) : Result.Canon (execFaultstop k s) := by
  unfold Machine.execFaultstop
  split
  · exact h.next
  · next m s' e =>
      have h1 := h.flueAt e
      dsimp only
      split
      · split
        · exact (canon_ite (((canon_ite (h1.same.setTile ((h1.tile _).same)) h1.same).toCollier).toCollier) ((canon_ite
            (h1.same.setTile ((h1.tile _).same)) h1.same).toCollier)).next
        · exact (canon_ite (h1.same.setTile ((h1.tile _).same)) h1.same).next
      · exact h.next

theorem execFaultReport_canon (h : s.Canon) : Result.Canon (execFaultReport k s) := by
  unfold Machine.execFaultReport
  split
  · exact h.next
  · next m s' e =>
      have h1 := h.flueAt e
      exact .ite h1.next ((canon_ite h1.count.killLaunch h1.count).next)

theorem execKilled_canon (h : s.Canon) : Result.Canon (execKilled k s) := by
  unfold Machine.execKilled
  split
  · exact h.next
  · next e => exact (h.flueAt e).modTile.next

theorem State.Canon.clearTile {site : Nat} (h : s.Canon) : (s.clearTile site).Canon :=
  canon_ite h.resetTile.reportBad h.resetTile

theorem execKill_canon (h : s.Canon) : Result.Canon (execKill k s) := by
  unfold Machine.execKill
  split
  · exact h.next
  · next m s' e =>
      have h1 := h.flueAt e
      exact .ite ((foldl_preserves h fun _ _ h => h.modTile.flueSend).next) (.ite (((((foldl_preserves h1 fun _ _ h =>
        h.clearTile).forgetAt).sendStats).toCollier).next) h.next)

theorem execKilldone_canon (h : s.Canon) : Result.Canon (execKilldone k s) := by
  unfold Machine.execKilldone
  split
  · exact h.next
  · next m s' e =>
      have h1 := h.flueAt e
      split
      · exact h1.next
      · exact h1.setLaunch.next

theorem execRetireReport_canon (h : s.Canon) : Result.Canon (execRetireReport k s) := by
  unfold Machine.execRetireReport
  split
  · exact h.next
  · next e => exact (h.flueAt e).next

theorem execStats_canon (h : s.Canon) : Result.Canon (execStats k s) := by
  unfold Machine.execStats
  split
  · exact h.next
  · next e => exact (h.flueAt e).count.next

theorem execImagebad_canon (h : s.Canon) : Result.Canon (execImagebad k s) := by
  unfold Machine.execImagebad
  split
  · exact h.next
  · next m s' e =>
      have h1 := h.flueAt e
      exact (canon_ite h1.killLaunch h1).next

theorem execPermitReturn_canon (h : s.Canon) : Result.Canon (execPermitReturn k s) := by
  unfold Machine.execPermitReturn
  split
  · exact h.next
  · next e => exact (h.flueAt e).next

end Sys2Proof.Machine
end

section
/-! SUPPORT. Settles O50: bring-up and the devices of the wafer. -/

namespace Sys2Proof.Machine

set_option Elab.async false

variable {s : State} {k region site : Nat} {unverified : List Nat} {image : List Byte} {sys : List Half} {romOk : Bool}

theorem State.Canon.modStoker {f : Core → Core} (h : s.Canon) (hf : ∀ c, c.Canon → (f c).Canon) :
    (s.modStoker region f).Canon :=
  h.withStokers (Table.forall_put h.stokers (hf _ (h.stoker _)))

theorem State.Canon.bootStoker (h : s.Canon) : (State.bootStoker unverified image s region).Canon := by
  refine h.modStoker fun c hc => ?_
  split
  · exact hc.same
  · exact Core.canon_mem (Memory.wf_write _ _ _ _ hc)

theorem State.Canon.mapRegion (h : s.Canon) : (s.mapRegion region).Canon :=
  h.modStoker fun _ hc => Core.canon_mem (Memory.wf_write _ _ _ _ hc)

theorem State.Canon.condemn (h : s.Canon) : (s.condemn site).Canon := h.modTile.markGood

theorem State.Canon.fuseOff {n : Nat} (h : s.Canon) : (s.fuseOff n).Canon :=
  foldl_preserves (h.modStoker fun _ hc => hc.same) fun _ _ h => h.modTile.markGood

theorem State.Canon.retireSite (h : s.Canon) : (s.retireSite site).Canon :=
  canon_ite h (((h.same.setTile ((h.tile _).same)).markGood).regrade)

theorem State.Canon.loadSystem (h : s.Canon) : (s.loadSystem sys).Canon :=
  h.withTiles (Table.forall_map h.tiles fun _ hr => hr.same)

theorem State.Canon.gateIdle (h : s.Canon) : (s.gateIdle region).Canon := h.writeSgate

theorem State.Canon.bootCollier (h : s.Canon) : (s.bootCollier romOk image).Canon :=
  canon_ite (h.withCollier (Core.canon_mem (Memory.wf_write _ _ _ _ h.collier))) (h.withCollier h.collier.same)

theorem execBringUp_canon {bad shorted unloaded untrained : List Nat} (h : s.Canon) :
    Result.Canon (execBringUp romOk unverified bad shorted unloaded untrained image sys s) := by
  refine .ite h.next (.ite h.bootCollier.next (.next (.same (foldl_preserves (foldl_preserves (.loadSystem (.same ?_))
    fun _ _ h => h.retireSite) fun _ _ h => h.gateIdle))))
  exact foldl_preserves (foldl_preserves (foldl_preserves (foldl_preserves h.bootCollier fun _ _ h => h.bootStoker)
    fun _ _ h => h.mapRegion) fun _ _ h => h.condemn) fun _ _ h => h.fuseOff

theorem execRetireTile_canon (h : s.Canon) : Result.Canon (execRetireTile k s) := by
  unfold Machine.execRetireTile
  split
  · exact h.next
  · next e => exact (h.flueAt e).retireSite.next

theorem State.Canon.selfTestFails (h : s.Canon) : (s.selfTestFails site).Canon := by
  unfold State.selfTestFails
  refine canon_ite h ?_
  dsimp only
  split
  · exact canon_ite h.modTile.reportBad h.modTile
  · refine canon_ite h.modTile ?_
    split
    · exact canon_ite h.modTile.toStoker h.modTile.killLaunch
    · exact h.modTile.killLaunch

theorem execDroopStretch_canon {sub : Fin 16} (h : s.Canon) : Result.Canon (execDroopStretch region sub s) := by
  refine (h.modStoker fun _ hc => ?_).next
  split
  · exact hc
  · exact hc.same

theorem execThrDutyWrite_canon {val : Word} (h : s.Canon) : Result.Canon (execThrDutyWrite region val s) := by
  unfold Machine.execThrDutyWrite
  split
  · next e => exact (h.writeDuty _ e).next
  · exact h.next

theorem execThrottle_canon (h : s.Canon) : Result.Canon (execThrottle k s) := by
  unfold Machine.execThrottle
  split
  · exact h.next
  · next e => exact (h.flueAt e).setDuty.toCollier.next

theorem execThrottled_canon (h : s.Canon) : Result.Canon (execThrottled k s) := by
  unfold Machine.execThrottled
  split
  · exact h.next
  · next e => exact (h.flueAt e).setTherm.next

theorem execTimerMatch_canon {who : Agent} (h : s.Canon) : Result.Canon (execTimerMatch who s) := h.timerTick.next

theorem execRxuInvalidateDone_canon (h : s.Canon) : Result.Canon (execRxuInvalidateDone s) := h.same.next

end Sys2Proof.Machine
end

section
/-! SUPPORT. Settles O50: Speig. -/

namespace Sys2Proof.Machine

set_option Elab.async false

variable {s : State} {addr idx op part q region vtile : Nat} {data : List Byte} {tgt : SpeigTarget}

theorem State.Canon.reply (h : s.Canon) : (s.reply op data).Canon := h.same

theorem State.Canon.refuse (h : s.Canon) : (s.refuse op).Canon := h.same

theorem speig_canon {ok : State → Nat → Bool} {effect : State → State} (h : s.Canon)
    (hf : ∀ s, s.Canon → (effect s).Canon) : Result.Canon (speig op ok effect s) := by
  unfold Machine.speig
  split
  · exact .ite (hf s h).reply.next h.refuse.next
  · exact h.refuse.next

theorem State.Canon.tellTile {vt : Nat} {type : Nat} (h : s.Canon) : (s.tellTile idx vt type).Canon := by
  unfold State.tellTile
  split
  · exact h.flueSend
  · exact h

theorem State.Canon.unstopImage {l : Launch} {a : Nat} {r : SwapRest} (h : s.Canon) : (s.unstopImage l a r).Canon :=
  h.withHbm (foldl_preserves (p := (Memory.wf · = true)) h.hbm fun _ _ h => Memory.wf_write _ _ _ _ h)

theorem State.Canon.letGo (h : s.Canon) : (s.letGo idx).Canon :=
  foldl_preserves (foldl_preserves h.setLaunch fun _ _ h => h.unstopImage) fun _ _ h => foldl_preserves h fun _ _ h =>
    canon_ite h.tellTile h

theorem execSpeigClose_canon (h : s.Canon) : Result.Canon (execSpeigClose s) := by
  unfold Machine.execSpeigClose
  split
  · exact ((foldl_preserves h fun _ _ h => h.letGo).same).next
  · exact h.refuse.next

theorem execSpeigHalt_canon (h : s.Canon) : Result.Canon (execSpeigHalt s) := speig_canon h fun _ h => h.driveHalt

theorem execSpeigResume_canon (h : s.Canon) : Result.Canon (execSpeigResume s) := speig_canon h fun _ h => h.driveHalt

theorem execAttach_canon {brk : Bool} {stopAll : Bool} (h : s.Canon) : Result.Canon (execAttach idx brk stopAll s) :=
  speig_canon h fun _ h => h.setLaunch

theorem execDetach_canon (h : s.Canon) : Result.Canon (execDetach idx s) := speig_canon h fun _ h => h.setLaunch

theorem execPstop_canon (h : s.Canon) : Result.Canon (execPstop idx vtile s) := speig_canon h fun _ h => h.tellTile

theorem execDstop_canon (h : s.Canon) : Result.Canon (execDstop idx vtile s) := speig_canon h fun _ h => h.tellTile

theorem execCont_canon (h : s.Canon) : Result.Canon (execCont idx vtile s) := speig_canon h fun _ h => h.tellTile

theorem execSpeigRead_canon {len : Nat} (h : s.Canon) : Result.Canon (execSpeigRead tgt addr len s) := by
  unfold Machine.execSpeigRead
  split
  · exact h.reply.next
  · exact h.refuse.next

theorem State.Canon.poke (h : s.Canon) : OptCanon (s.poke part tgt addr data) := by
  unfold State.poke
  refine .ite .none ?_
  split
  · split
    · exact .ite (.some (h.setTile ((h.tile _).withSpad (Memory.wf_write _ _ _ _ (h.tile _).spad)))) .none
    · exact .none
  · refine .ite ?_ .none
    split
    · next e => exact .some (fst_canon h.performHbm e)
    · exact .none

theorem execSpeigWrite_canon (h : s.Canon) : Result.Canon (execSpeigWrite tgt addr data s) := by
  unfold Machine.execSpeigWrite
  split
  · next e =>
    obtain ⟨p, _, hp⟩ := Option.bind_eq_some_iff.mp e
    exact (h.poke _ hp).reply.next
  · exact h.refuse.next

theorem execTracecfg_canon {base : Nat} {size : Nat} (h : s.Canon) : Result.Canon (execTracecfg region base size s) :=
  speig_canon h fun _ h => h.withTiles (Table.forall_map h.tiles fun _ hr => hr.same)

theorem execCapcfg_canon {val : Word} (h : s.Canon) : Result.Canon (execCapcfg region val s) :=
  speig_canon h fun _ h => h.captureSelect

theorem execCapread_canon (h : s.Canon) : Result.Canon (execCapread region s) := by
  unfold Machine.execCapread
  split
  · exact .ite h.reply.next h.refuse.next
  · exact h.refuse.next

theorem execDigestFrame_canon {link : Fin 16} {num : Nat} {tag : BitVec 32} {digests : List (BitVec 256)} (h : s.Canon) :
    Result.Canon (execDigestFrame link q num tag digests s) := by
  unfold Machine.execDigestFrame
  split
  · exact h.next
  · exact .ite h.setQueue.compareDigests.next h.next

theorem execPairTimeout_canon (h : s.Canon) : Result.Canon (execPairTimeout q s) := by
  unfold Machine.execPairTimeout
  split
  · exact h.next
  · split
    · exact h.next
    · exact .ite h.next h.setQueue.postEvent.next

end Sys2Proof.Machine
end

section
/-! SUPPORT. Settles O50: the hardware steps, the system routine and the atomics. -/

namespace Sys2Proof.Machine

set_option Elab.async false

variable {s : State} {k : Fin 8} {d : Dst} {a b : Src} {stl : Stl} {lam : Nat} {f : Word → Word → Word} {i : BitVec 10}
  {e : State → Result} {l m : List (State → Result)}

/-- Steps that keep the form, whatever state they are taken in. -/
def StepsKeep (l : List (State → Result)) : Prop := ∀ e ∈ l, ∀ s : State, s.Canon → Result.Canon (e s)

theorem StepsKeep.nil : StepsKeep [] := fun _ he => nomatch he

theorem StepsKeep.cons (he : ∀ s : State, s.Canon → Result.Canon (e s)) (hl : StepsKeep l) : StepsKeep (e :: l) :=
  List.forall_mem_cons.mpr ⟨he, hl⟩

theorem StepsKeep.one (he : ∀ s : State, s.Canon → Result.Canon (e s)) : StepsKeep [e] := .cons he .nil

theorem StepsKeep.append (hl : StepsKeep l) (hm : StepsKeep m) : StepsKeep (l ++ m) := List.forall_mem_append.mpr ⟨hl, hm⟩

theorem StepsKeep.ite {c : Prop} [Decidable c] (hl : StepsKeep l) (hm : StepsKeep m) : StepsKeep (if c then l else m) := by
  split <;> assumption

theorem StepsKeep.flatMap {α : Type} {x : List α} {f : α → List (State → Result)} (hf : ∀ a, StepsKeep (f a)) :
    StepsKeep (x.flatMap f) := by
  intro e he
  obtain ⟨a, _, ha⟩ := List.mem_flatMap.mp he
  exact hf a e ha

theorem StepsKeep.map {α : Type} {x : List α} {f : α → State → Result} (hf : ∀ a, ∀ s : State, s.Canon → Result.Canon (f a s)) :
    StepsKeep (x.map f) := by
  intro e he
  obtain ⟨a, _, rfl⟩ := List.mem_map.mp he
  exact hf a

theorem Packet.stepsKeep (p : Packet) (n : Nat) : StepsKeep (p.steps n) := by
  unfold Packet.steps
  split
  · exact .one fun _ h => execParkEntryWrite_canon h
  · exact .one fun _ h => execNameCacheWalk_canon h
  · exact .one fun _ h => execHbmRequestArrival_canon h
  · exact .cons (fun _ h => h.arriveIf.next) (.one fun _ h => h.arriveIf.next)
  · exact .one fun _ h => h.arriveIf.next
  · exact .one fun _ h => h.arriveIf.next
  · exact .one fun _ h => h.arriveIf.next
  · exact .one fun _ h => h.arriveIf.next
  · exact .nil

theorem FlueMsg.stepsKeep (x : FlueMsg) (n : Nat) : StepsKeep (x.steps n) := by
  refine .ite .nil ?_
  split
  · exact .one fun _ h => execPreempt_canon h
  · exact .one fun _ h => execDebugstop_canon h
  · exact .one fun _ h => execResume_canon h
  · exact .one fun _ h => execWdkill_canon h
  · exact .one fun _ h => execRestore_canon h
  · exact .one fun _ h => execQuiesce_canon h
  · exact .one fun _ h => execPdeliv_canon h
  · exact .nil

theorem CopyJob.stepsKeep (j : CopyJob) (site : Nat) : StepsKeep (j.steps site) :=
  .cons (fun _ h => execCopyLineLanding_canon h) (.cons (fun _ h => execCopyJobError_canon h)
    (.cons (fun _ h => execFollowOnCommand_canon h) (.one fun _ h => execCopyJobCompletion_canon h)))

theorem Tile.walks_keep (t : Tile) (site : Nat) : StepsKeep (t.walks site) := by
  unfold Tile.walks
  split
  · split
    · exact .one fun _ h => execNameCacheWalk_canon h
    · exact .nil
  · exact .nil

theorem Tile.stepsKeep (t : Tile) (site : Nat) : StepsKeep (t.steps site) := by
  refine .append (.append (.append (.append (.append (.append (.append (.append (.append (.append (.append (.append
    (t.walks_keep site) ?send) ?grant) ?jobs) ?streams) ?writes) ?requests) ?parked) ?dispatch) ?resident) ?retire) ?quiesce) ?probe
  case send => exact .ite .nil (.one fun _ h => execSendInjection_canon h)
  case grant => exact .ite (.one fun _ h => execMatrixGrant_canon h) .nil
  case jobs => exact .flatMap fun j => j.stepsKeep site
  case streams =>
    exact .flatMap fun _ =>
      .cons (fun _ h => execStreamElementArrival_canon h) (.one fun _ h => execStreamFetch_canon h)
  case writes => exact .map fun _ _ h => execHeldWriteDelivery_canon h
  case requests => exact .map fun _ _ h => execHeldRequestRelease_canon h
  case parked => exact .ite (.one fun _ h => execParkedDelivery_canon h) .nil
  case dispatch => exact .ite .nil (.one fun _ h => execDispatch_canon h)
  case resident => exact .ite (.one fun _ h => execResidentThreadStart_canon h) .nil
  case retire => exact .ite (.one fun _ h => execVtileRetire_canon h) .nil
  case quiesce => exact .ite (.one fun _ h => execQuiesceLanding_canon h) .nil
  case probe => exact .map fun _ _ h => execBarwaitProbe_canon h

theorem State.stepsKeep (s : State) : StepsKeep s.steps :=
  .append (.append (.append (.append (.append
    (.ite .nil (.one fun _ h => execColourAcknowledgement_canon h))
    (.flatMap fun _ => Packet.stepsKeep _ _))
    (.flatMap fun _ => FlueMsg.stepsKeep _ _))
    (.ite (.one fun _ h => execRxuInvalidateDone_canon h) .nil))
    (.flatMap fun _ => Tile.stepsKeep _ _))
    (.ite (.one fun _ h => execTimerMatch_canon h) .nil)

theorem State.Canon.firstStep (h : s.Canon) (hl : StepsKeep l) : (s.firstStep l).Canon := by
  induction l with
  | nil => exact h
  | cons e l ih =>
    obtain ⟨he, hl⟩ := List.forall_mem_cons.mp hl
    unfold State.firstStep
    split
    · next e => exact canon_ite (ih hl) (he s h _ e)
    · exact ih hl

theorem State.Canon.rotate (h : s.Canon) : s.rotate.Canon := by
  unfold State.rotate
  split
  · split
    · exact h.same
    · exact h
  · exact h

theorem State.Canon.background (h : s.Canon) : s.background.Canon := (h.firstStep s.stepsKeep).rotate

theorem routineIdle_keeps {here : Half} {resumes : Bool} : Keeps (routineIdle here resumes) := by
  unfold Machine.routineIdle
  refine .bind getSlot_keeps fun _ => .ite (.bind modSlot_keeps fun _ => .pure _) (.get_bind fun _ hs => ?_)
  split
  · next e => exact .bind (.set (hs.takeMessage e)) fun _ => .pure _
  · exact .throw _

theorem State.routineAct_canon {r : RoutineAct} (h : s.Canon) : Result.Canon (s.routineAct k r) := by
  unfold State.routineAct
  dsimp only
  split
  · exact h.issue (.bind saveqBody_keeps fun _ => .pure _)
  · exact h.issue (.bind restqBody_keeps fun _ => .pure _)
  · exact execEret_canon h
  · exact execEret_canon h
  · exact h.issue (.bind routineIdle_keeps fun _ => .pure _)
  · exact h.issue (.bind routineIdle_keeps fun _ => .pure _)
  · exact h.issue (.bind svsendBody_keeps fun _ => .pure _)
  · exact h.issue (.bind (modTile_keeps fun _ ht => ht.same) fun _ => .pure _)
  · exact h.issue (.bind modSlot_keeps fun _ => .pure _)

theorem State.routineStep_canon {site : Nat} (h : s.Canon) : Result.Canon (s.routineStep site k) := by
  unfold State.routineStep
  refine .ite ?_ ?_
  · split
    · exact State.routineAct_canon h.same
    · exact h.same.next
  · exact h.same.next

theorem atomicRule_keeps : Keeps atomicRule := .get_bind fun _ _ => .pure _

theorem atomicAt_keeps {op : MemOp} {p : Word} {w : Nat} : Keeps (atomicAt op p w d) :=
  .bind atomicRule_keeps fun _ => .bind placeOf_keeps fun _ => .bind guardWrite_keeps fun _ => .ite (.pure _)
    (.bind accessGate_keeps fun _ => accessTo_keeps)

theorem atomicOp_keeps {k : AtomKind} : Keeps (atomicOp k d a b) := by
  unfold Machine.atomicOp
  refine .bind checkDst_keeps fun _ => .bind read2_keeps fun _ => ?_
  split
  exact atomicAt_keeps

theorem execAcas_canon (h : s.Canon) : Result.Canon (execAcas stl d a b s) := by
  unfold Machine.execAcas
  refine h.issue ?_
  split
  · refine .bind read3_keeps fun _ => ?_
    split
    exact atomicAt_keeps
  · exact .throw _

theorem execAfxadd_canon (h : s.Canon) : Result.Canon (execAfxadd stl d a b s) := by
  unfold Machine.execAfxadd
  refine h.issue (.bind checkDst_keeps fun _ => .bind read2_keeps fun _ => ?_)
  split
  exact atomicAt_keeps

theorem execAfxrd_canon (h : s.Canon) : Result.Canon (execAfxrd stl d a s) :=
  h.issue (.bind checkDst_keeps fun _ => .bind read1_keeps fun _ => .bind atomicRule_keeps fun _ =>
    .bind placeOf_keeps fun _ => .bind accessGate_keeps fun _ => accessTo_keeps)

theorem execAfxset_canon (h : s.Canon) : Result.Canon (execAfxset stl d a b s) := by
  unfold Machine.execAfxset
  refine h.issue (.bind checkDst_keeps fun _ => .bind read2_keeps fun _ => ?_)
  split
  exact .bind getSlot_keeps fun _ => atomicAt_keeps

theorem execAamax_canon (h : s.Canon) : Result.Canon (execAamax stl d a b s) := by
  unfold Machine.execAamax
  refine h.issue (.bind checkDst_keeps fun _ => .bind read2_keeps fun _ => ?_)
  split
  exact atomicAt_keeps

theorem intOp2_keeps : Keeps (intOp2 lam d a b f) := by
  unfold Machine.intOp2
  refine .bind checkDst_keeps fun _ => .bind read2_keeps fun _ => ?_
  split
  exact .bind writeDst_keeps fun _ => .pure _

theorem intOp1_keeps {f : Word → Word} : Keeps (intOp1 lam d a f) :=
  .bind checkDst_keeps fun _ => .bind read1_keeps fun _ => .bind writeDst_keeps fun _ => .pure _

theorem intOpOld_keeps {f : Word → Word → Word → Word} : Keeps (intOpOld d a b f) := by
  unfold Machine.intOpOld
  refine .bind checkDst_keeps fun _ => .bind awaitOld_keeps fun _ => .bind read2_keeps fun _ => ?_
  split
  exact .bind readOld_keeps fun _ => .bind writeDst_keeps fun _ => .pure _

theorem intOpImm_keeps : Keeps (intOpImm d a i f) :=
  .bind checkDst_keeps fun _ => .bind read1_keeps fun _ => .bind writeDst_keeps fun _ => .pure _

theorem shiftImm_keeps {f : Word → Nat → Word} : Keeps (shiftImm d a i f) :=
  .bind checkDst_keeps fun _ => .bind require_keeps fun _ => .bind read1_keeps fun _ => .bind writeDst_keeps fun _ => .pure _

theorem execLimh_canon {k : BitVec 16} (h : s.Canon) : Result.Canon (execLimh stl d k s) := by
  unfold Machine.execLimh
  refine h.issue ?_
  split
  · exact .bind awaitNamed_keeps fun _ => .bind readNamed_keeps fun _ => .bind writeDst_keeps fun _ => .pure _
  · exact .throw _

end Sys2Proof.Machine
end

section
/-! SUPPORT. Settles O50: control, guarded phases and floating point. -/

namespace Sys2Proof.Machine

set_option Elab.async false

variable {a b c : Src} {i : Instr} {stl : Stl} {s : State} {id lam site : Nat} {d : Dst} {r : Result} {ps : List Packet}

theorem branchIf_keeps {o : Half} {taken : Word → Bool} : Keeps (branchIf c o taken) :=
  .bind read1_keeps fun _ => .bind getSlot_keeps fun _ => .pure _

theorem lengthAt_keeps {i : Half} : Keeps (lengthAt i) :=
  .get_bind fun _ _ => .ite (.bind freeWord_keeps fun _ => .pure _) (.pure _)

theorem execLoop_canon {o : BitVec 16} (h : s.Canon) : Result.Canon (execLoop stl c o s) :=
  h.issue (.bind read1_keeps fun _ => .bind getSlot_keeps fun _ => .bind require_keeps fun _ => .bind require_keeps fun _ =>
    .bind require_keeps fun _ => .ite (.bind lengthAt_keeps fun _ => .pure _) (.bind putSlot_keeps fun _ => .pure _))

theorem retBody_keeps : Keeps retBody := .bind getSlot_keeps fun _ => .pure _

theorem yieldBody_keeps : Keeps yieldBody := by
  unfold Machine.yieldBody
  refine .get_bind fun _ _ => ?_
  split
  · exact .bind modSlot_keeps fun _ => .pure _
  · exact .pure _

theorem doneBody_keeps : Keeps doneBody := by
  unfold Machine.doneBody
  refine .get_bind fun _ hs => ?_
  split
  · exact .bind require_keeps fun _ => .bind (.set hs.endThread) fun _ => .pure _
  · exact .throw _

theorem donefBody_keeps : Keeps donefBody := by
  unfold Machine.donefBody
  refine .get_bind fun _ hs => ?_
  split
  · exact .bind require_keeps fun _ => .bind require_keeps fun _ => .bind (.set hs.advance.retireVtile) fun _ => .pure _
  · exact .throw _

theorem State.Canon.exchanged {op : MemOp} (h : s.Canon) : (s.exchanged op).Canon := canon_ite h.setSlot h

theorem State.Canon.releasePackets (h : s.Canon) : OptCanon (s.releasePackets id ps) := by
  induction ps generalizing s with
  | nil => exact .some h
  | cons p ps ih =>
    unfold State.releasePackets
    split
    · exact .ite .none (ih h.enqueue)
    · exact .ite .none (ih h.sendWrite)
    · split
      · next e => exact ih (h.sendOff _ e).exchanged
      · exact .none
    · exact ih h

theorem State.Canon.releaseCaptured {c : Captured} (h : s.Canon) : OptCanon (s.releaseCaptured c) := by
  unfold State.releaseCaptured
  dsimp only
  split
  · exact .ite .none h.setSlot.releasePackets
  · split
    · exact .ite (.some h.beginJob) .none
    · exact .some h
  · exact .ite .none (.some (canon_ite h.launchChild.countAt h.launchChild))
  · exact .ite .none (.some (h.setTile ((h.tile _).putCounter)))

theorem execGres_canon (h : s.Canon) : Result.Canon (execGres stl s) :=
  h.issue (.getTile_bind fun _ _ => .bind getLaunch_keeps fun _ => .bind require_keeps fun _ => .bind (modTile_keeps fun _
    ht => ht.same) fun _ => .pure _)

theorem gendVerdict_keeps : Keeps gendVerdict :=
  .getTile_bind fun _ _ => .bind getLaunch_keeps fun _ => .bind require_keeps fun _ => .pure _

theorem State.Canon.openBuffer (h : s.Canon) : (s.openBuffer site).Canon := by
  refine canon_ite h (.spend (h.setTile ?_))
  exact (h.tile site).withSpad (Memory.wf_scrambleBuffer (h.tile site).spad)

theorem State.Canon.acceptPhase (h : s.Canon) : (s.acceptPhase site).Canon := by
  have hb := h.openBuffer (site := site)
  unfold State.acceptPhase
  generalize s.openBuffer site = t at hb ⊢
  exact hb.modTile.countAt

theorem gendBody_keeps : Keeps gendBody := by
  unfold Machine.gendBody
  refine .bind gendVerdict_keeps fun _ => .get_bind fun _ hs => ?_
  split
  · exact .bind (.set hs.rejectPhase) fun _ => .pure _
  · exact .bind (.set hs.acceptPhase) fun _ => .pure _

theorem execGend_canon (h : s.Canon) : Result.Canon (execGend stl s) := by
  unfold Machine.execGend
  dsimp only
  split
  · next e =>
    have h1 := (Keeps.bind openIssue_keeps fun _ => gendVerdict_keeps) s h _ _ e
    split
    · split
      · next e => exact (h1.openBuffer.releaseCaptured _ e).modTile.hold.next
      · exact h1.openBuffer.hold.next
    · exact h.issue gendBody_keeps
  · exact h.issue gendBody_keeps

theorem execGqry_canon (h : s.Canon) : Result.Canon (execGqry stl d s) :=
  h.issue (.bind checkDst_keeps fun _ => .getTile_bind fun _ _ => .bind getLaunch_keeps fun _ =>
    .bind writeDst_keeps fun _ => .pure _)

theorem execGwin_canon (h : s.Canon) : Result.Canon (execGwin stl a b s) := by
  unfold Machine.execGwin
  refine h.issue (.bind read2_keeps fun _ => ?_)
  split
  exact .getTile_bind fun _ _ => .bind getLaunch_keeps fun _ => .ite (.bind require_keeps fun _ => .bind (modTile_keeps fun
    _ ht => ht.same) fun _ => .pure _) (.pure _)

theorem execRdtb_canon (h : s.Canon) : Result.Canon (execRdtb stl d s) :=
  h.issue (.bind checkDst_keeps fun _ => .get_bind fun _ hs => .bind require_keeps fun _ => .bind (.set hs.advance) fun _ =>
    .get_bind fun _ _ => .bind deliver_keeps fun _ => .pure _)

theorem execTrmark_canon {b : BitVec 6} (h : s.Canon) : Result.Canon (execTrmark stl a b s) := by
  unfold Machine.execTrmark
  refine h.issue (.bind read1_keeps fun _ => .get_bind fun _ hs => ?_)
  split
  · exact .bind (.set hs.emit) fun _ => .pure _
  · exact .pure _

theorem fpOp2_keeps {f : Rounding → Nat → Nat → Nat × BitVec 6} : Keeps (fpOp2 lam d a b f) := by
  unfold Machine.fpOp2
  refine .bind checkDst_keeps fun _ => .bind read2_keeps fun _ => ?_
  split
  exact .bind getSlot_keeps fun _ => .bind writeDst_keeps fun _ => .pure _

theorem fpOp1_keeps {f : Rounding → Word → Word × BitVec 6} : Keeps (fpOp1 lam d a f) :=
  .bind checkDst_keeps fun _ => .bind read1_keeps fun _ => .bind getSlot_keeps fun _ => .bind writeDst_keeps fun _ => .pure _

theorem fpOp3_keeps {c : BitVec 2} {np : Bool} {na : Bool} : Keeps (fpOp3 d a b c np na) := by
  unfold Machine.fpOp3
  refine .bind checkDst_keeps fun _ => .bind read3_keeps fun _ => ?_
  split
  exact .bind getSlot_keeps fun _ => .bind writeDst_keeps fun _ => .pure _

theorem vtrans_keeps {f : TransFn} {d : VDst} {a : VSrc} {m : MaskNo} : Keeps (vtrans f d a m) := vop1_keeps

end Sys2Proof.Machine
end

section
/-! SUPPORT. Settles O50: every instruction and every step. -/

namespace Sys2Proof.Machine

set_option Elab.async false

variable {i : Instr} {s : State} {r : Result}

theorem exec_canon (h : s.Canon) : Result.Canon (exec i s) := by
  cases i with
  | vadd | vsub | vmul | vmulh | vand | vor | vxor | vandn | vshl | vshr | vshra | vabsd | vmin | vmax | vminu | vmaxu =>
    exact h.issue vint2_keeps
  | vfadd | vfsub | vfmul | vfdiv | vfmin | vfmax => exact h.issue vfp2_keeps
  | vfabs | vfneg | vcomp | vexpn | vround => exact h.issue vop1_keeps
  | vfma | vfms | vfnma | vfnms => exact h.issue vfma_keeps
  | vcmpeq | vcmplt | vcmpltu | vcmple => exact h.issue vicmp_keeps
  | vfcmpeq | vfcmplt | vfcmple | vfcmpun => exact h.issue vfcmp_keeps
  | vsel | vperm => exact h.issue vop2_keeps
  | vbcast | vins | vrot => exact h.issue vopS_keeps
  | vextr => exact execVextr_canon h
  | vredadd | vredmax | vredmin | vfredadd | vamax => exact h.issue vred_keeps
  | vcvt => exact execVcvt_canon h
  | vwiden => exact execVwiden_canon h
  | vnarrow => exact execVnarrow_canon h
  | vquant => exact execVquant_canon h
  | vscale => exact execVscale_canon h
  | vdot => exact execVdot_canon h
  | mand | mor | mxor | mnot => exact h.issue maskOp2_keeps
  | mpop | mfirst => exact h.issue maskScalar_keeps
  | msetn => exact execMsetn_canon h
  | viota => exact execViota_canon h
  | vgetsc | vmov => exact h.issue vmove_keeps
  | vsetsc => exact execVsetsc_canon h
  | vlanes => exact execVlanes_canon h
  | vld => exact execVld_canon h
  | vst => exact execVst_canon h
  | vldc => exact execVldc_canon h
  | vstc => exact execVstc_canon h
  | vlds => exact execVlds_canon h
  | vsts => exact execVsts_canon h
  | vgath => exact execVgath_canon h
  | vscat => exact execVscat_canon h
  | vaadd | vamaxabs => exact h.issue atomicLanes_keeps
  | vafx => exact execVafx_canon h
  | vamaxDrain => exact execVamaxDrain_canon h
  | tld | tst | tzero | mma | mmas | tadd | tcvt | ttrans | trowv | tvrow => exact matrixIssue_canon h
  | matrixGrant => exact execMatrixGrant_canon h
  | matrixEngineFree => exact h.same.next
  | mslotWrite => exact h.modTile.next
  | xcopy => exact execXcopy_canon h
  | xcopym => exact execXcopym_canon h
  | xdig => exact execXdig_canon h
  | xwait => exact execXwait_canon h
  | xpoll => exact execXpoll_canon h
  | xtdef => exact execXtdef_canon h
  | xstrm => exact execXstrm_canon h
  | xstrmOff => exact h.issue (.bind (modTile_keeps fun _ ht => ht.same) fun _ => .pure _)
  | copyLineLanding => exact execCopyLineLanding_canon h
  | copyJobError => exact execCopyJobError_canon h
  | followOnCommand => exact execFollowOnCommand_canon h
  | copyJobCompletion => exact execCopyJobCompletion_canon h
  | streamFetch => exact execStreamFetch_canon h
  | streamElementArrival => exact execStreamElementArrival_canon h
  | ld | lds => exact h.issue loadM_keeps
  | st => exact execSt_canon h
  | ldx => exact execLdx_canon h
  | stx => exact execStx_canon h
  | ldt => exact execLdt_canon h
  | stf => exact execStf_canon h
  | cLd => exact h.issue (.bind read1_keeps fun _ => loadAt_keeps)
  | cSt => exact execCSt_canon h
  | waitf => exact execWaitf_canon h
  | femark | fefill => exact h.issue lineStore_keeps
  | fetest => exact execFetest_canon h
  | bararr => exact execBararr_canon h
  | barwait => exact h.issue barwaitBody_keeps
  | send => exact execSend_canon h
  | sends => exact execSends_canon h
  | sendv => exact execSendv_canon h
  | senda => exact execSenda_canon h
  | mlen => exact execMlen_canon h
  | msrc => exact execMsrc_canon h
  | launch => exact execLaunch_canon h
  | cntset => exact execCntset_canon h
  | rput => exact execRput_canon h
  | rputv => exact execRputv_canon h
  | rputr => exact execRputr_canon h
  | rcap => exact execRcap_canon h
  | rtake | rwait => exact h.issue (.bind checkTake_keeps fun _ => takeRegister_keeps)
  | rempty => exact execRempty_canon h
  | rfull => exact execRfull_canon h
  | crd => exact execCrd_canon h
  | cwr => exact execCwr_canon h
  | fenceRel | fenceAcq | fenceFull => exact h.issue (.bind checkScope_keeps fun _ => .bind modSlot_keeps fun _ => .pure _)
  | fenceLb => exact h.issue (.bind modSlot_keeps fun _ => .pure _)
  | colourAcknowledgement => exact execColourAcknowledgement_canon h
  | parkEntryWrite => exact execParkEntryWrite_canon h
  | nameCacheWalk => exact execNameCacheWalk_canon h
  | sendInjection => exact execSendInjection_canon h
  | varResultArrival | messageArrival | countedMessageArrival | registerWriteArrival | remoteRequestArrival => exact
    h.arriveIf.next
  | heldWriteDelivery => exact execHeldWriteDelivery_canon h
  | heldRequestRelease => exact execHeldRequestRelease_canon h
  | hbmRequestArrival => exact execHbmRequestArrival_canon h
  | parkedDelivery => exact execParkedDelivery_canon h
  | headAged => exact .ite h.next h.modTile.next
  | dispatch => exact execDispatch_canon h
  | residentThreadStart => exact execResidentThreadStart_canon h
  | trapEntry => exact .ite h.takePending.next h.next
  | vtileRetire => exact execVtileRetire_canon h
  | yieldTimeout => exact execYieldTimeout_canon h
  | fixedLatencyCompletion => exact execFixedLatencyCompletion_canon h
  | barwaitProbe => exact execBarwaitProbe_canon h
  | eret => exact execEret_canon h
  | saveq => exact h.issue (.bind saveqBody_keeps fun _ => .pure _)
  | restq => exact h.issue (.bind restqBody_keeps fun _ => .pure _)
  | drain => exact execDrain_canon h
  | colr => exact execColr_canon h
  | ncinv => exact execNcinv_canon h
  | wdset => exact execWdset_canon h
  | haltt => exact execHaltt_canon h
  | idle => exact h.issue (.get_bind fun _ _ => .bind require_keeps fun _ => .pure _)
  | svsend => exact execSvsend_canon h
  | svrecv => exact execSvrecv_canon h
  | intack => exact execIntack_canon h
  | prcr => exact execPrcr_canon h
  | pcwr => exact execPcwr_canon h
  | swpout => exact execSwpout_canon h
  | swpin => exact execSwpin_canon h
  | fwdset => exact execFwdset_canon h
  | resett => exact execResett_canon h
  | thrset => exact execThrset_canon h
  | slotkill => exact execSlotkill_canon h
  | doorbell => exact execDoorbell_canon h
  | kernel => exact execKernel_canon h
  | marker => exact execMarker_canon h
  | childLaunchPacket => exact execChildLaunchPacket_canon h
  | launchCompletion => exact execLaunchCompletion_canon h
  | watchdogExpiry => exact execWatchdogExpiry_canon h
  | bucketRefill => exact .ite h.next h.same.next
  | mappingPass => exact .ite h.next ((foldl_preserves h.same fun _ _ h => h.mapQueue).next)
  | pendingErrorWrite => exact h.writePendings.next
  | permitTimer => exact .ite (.ite h.setLink.flueSend.next h.next) (.ite h.setLink.flueSend.next h.next)
  | createQueue => exact execCreateQueue_canon h
  | destroyQueue => exact execDestroyQueue_canon h
  | unfreeze => exact execUnfreeze_canon h
  | flush => exact execFlush_canon h
  | setBucket => exact execSetBucket_canon h
  | setPartition => exact execSetPartition_canon h
  | setEventRing => exact execSetEventRing_canon h
  | getCounters => exact execGetCounters_canon h
  | attest => exact execAttest_canon h
  | readmit => exact execReadmit_canon h
  | setOwner => exact execSetOwner_canon h
  | bindHost => exact execBindHost_canon h
  | bindPeer => exact execBindPeer_canon h
  | preempt => exact execPreempt_canon h
  | debugstop => exact execDebugstop_canon h
  | resume => exact execResume_canon h
  | wdkill => exact execWdkill_canon h
  | restore => exact execRestore_canon h
  | quiesce => exact execQuiesce_canon h
  | quiesceLanding => exact execQuiesceLanding_canon h
  | pdeliv => exact execPdeliv_canon h
  | evict => exact execEvict_canon h
  | pack => exact execPack_canon h
  | saved => exact execSaved_canon h
  | savedp => exact execSavedp_canon h
  | ncreq => exact execNcreq_canon h
  | ncdone => exact execNcdone_canon h
  | swapout => exact execSwapout_canon h
  | evicted => exact execEvicted_canon h
  | launchStart => exact execLaunchStart_canon h
  | gangPlacement => exact execGangPlacement_canon h
  | preEmptedGangReturn => exact execPreEmptedGangReturn_canon h
  | preEmption => exact execPreEmption_canon h
  | summonService => exact execSummonService_canon h
  | summon => exact execSummon_canon h
  | qsliceExpiry => exact .ite h.next ((foldl_preserves h fun _ _ h => h.modTile).next)
  | place => exact execPlace_canon h
  | restored => exact execRestored_canon h
  | loadedp => exact execLoadedp_canon h
  | openGang => exact execOpenGang_canon h
  | pdone => exact execPdone_canon h
  | placed => exact execPlaced_canon h
  | migrate => exact execMigrate_canon h
  | moved => exact execMoved_canon h
  | faultstop => exact execFaultstop_canon h
  | faultReport => exact execFaultReport_canon h
  | killed => exact execKilled_canon h
  | kill => exact execKill_canon h
  | killdone => exact execKilldone_canon h
  | retireReport => exact execRetireReport_canon h
  | stats => exact execStats_canon h
  | imagebad => exact execImagebad_canon h
  | permitReturn => exact execPermitReturn_canon h
  | bringUp => exact execBringUp_canon h
  | retireTile => exact execRetireTile_canon h
  | sgateWrite => exact h.writeSgate.next
  | droopStretch => exact execDroopStretch_canon h
  | thrDutyWrite => exact execThrDutyWrite_canon h
  | throttle => exact execThrottle_canon h
  | throttled => exact execThrottled_canon h
  | sensorSample => exact .ite h.setTherm.crossing.next h.setTherm.next
  | timercmpWrite => exact h.writeTimer.next
  | timerMatch => exact execTimerMatch_canon h
  | interruptEntry => exact .ite h.takeInterrupt.next h.next
  | ovrhWrite => exact (h.setTile ((h.tile _).setSlot)).next
  | rxuInvalidatePage | rxuInvalidateAll => exact .ite h.next h.rxuInvalidate.next
  | rxuInvalidateDone => exact execRxuInvalidateDone_canon h
  | captureSelect => exact h.captureSelect.next
  | peerLinkDown => exact (h.withTiles (Table.forall_map h.tiles fun _ hr => hr.same)).next
  | lockstepMismatch => exact (h.driveHalt.withCollier h.driveHalt.collier.same).next
  | speigOpen => exact .ite h.same.next h.refuse.next
  | speigClose => exact execSpeigClose_canon h
  | speigHalt => exact execSpeigHalt_canon h
  | speigResume => exact execSpeigResume_canon h
  | attach => exact execAttach_canon h
  | detach => exact execDetach_canon h
  | pstop => exact execPstop_canon h
  | dstop => exact execDstop_canon h
  | cont => exact execCont_canon h
  | speigRead => exact execSpeigRead_canon h
  | speigWrite => exact execSpeigWrite_canon h
  | tracecfg => exact execTracecfg_canon h
  | capcfg => exact execCapcfg_canon h
  | capread => exact execCapread_canon h
  | digestFrame => exact execDigestFrame_canon h
  | pairTimeout => exact execPairTimeout_canon h
  | aadd | amax | amin | amaxu | aminu | aand | aor | axor | aswap => exact h.issue atomicOp_keeps
  | acas => exact execAcas_canon h
  | afxadd => exact execAfxadd_canon h
  | afxrd => exact execAfxrd_canon h
  | afxset => exact execAfxset_canon h
  | aamax => exact execAamax_canon h
  | add | sub | and | or | xor | andn | orn | shl | shr | shra | rot | min | max | minu | maxu | mul | mulh | mulhu | div |
    divu | rem | remu | cmpeq | cmpne | cmplt | cmpltu | cmple | cmpleu | addw | subw | mulw | exts | extz | addp | subp |
    ptag | pmkt | pspace | cAdd | cSub | cAnd | cOr | cXor | cMov => exact h.issue intOp2_keeps
  | cmov | ins => exact h.issue intOpOld_keeps
  | clz | ctz | popc | brev | bswap | ptagx => exact h.issue intOp1_keeps
  | addi | andi | ori | xori | cmpeqi | cmplti | cAddi => exact h.issue intOpImm_keeps
  | shli | shri | shrai | cShli | cShri => exact h.issue shiftImm_keeps
  | limm => exact h.issue (.bind checkDst_keeps fun _ => .bind writeDst_keeps fun _ => .pure _)
  | limh => exact execLimh_canon h
  | bz | bnz | bltz | bgez | br | cBr | cBz | cBnz => exact h.issue branchIf_keeps
  | call => exact h.issue (.bind modSlot_keeps fun _ => branchIf_keeps)
  | loop => exact execLoop_canon h
  | jr => exact h.issue (.bind read1_keeps fun _ => .pure _)
  | ret | ret16 => exact h.issue retBody_keeps
  | yield | yield16 => exact h.issue yieldBody_keeps
  | done | done16 => exact h.issue doneBody_keeps
  | donef | donef16 => exact h.issue donefBody_keeps
  | nop | nop16 | trap | brk | brk16 => exact h.issue (.pure _)
  | cLimm => exact h.issue (.bind writeDst_keeps fun _ => .pure _)
  | gres => exact execGres_canon h
  | gend => exact execGend_canon h
  | gqry => exact execGqry_canon h
  | gwin => exact execGwin_canon h
  | rdtb => exact execRdtb_canon h
  | trmark => exact execTrmark_canon h
  | fadd | fsub | fmul | fdiv | fmin | fmax | fcmpeq | fcmplt | fcmple | fsgnj => exact h.issue fpOp2_keeps
  | fsqrt | fcvtif | fcvtfi | fclass | fabs | fneg => exact h.issue fpOp1_keeps
  | fma | fms | fnma | fnms => exact h.issue fpOp3_keeps
  | vfexp | vflog | vfrecip | vfrsqrt | vftanh | vfsigm | vfsin | vfcos => exact h.issue vtrans_keeps
  | subregionUngate => exact .ite (h.modStoker fun _ hc => hc.same).ungate.next h.next
  | droopRecovery | captureClear => exact (h.modStoker fun _ hc => hc.same).next
  | setLog => exact execSetLog_canon h
  | setPair => exact execSetPair_canon h
  | haltAcknowledge => exact .ite (.next (.raise (h.withCollier h.collier.same))) h.next

theorem State.Canon.beforeIssue (h : s.Canon) : (s.beforeIssue i).Canon := by
  unfold State.beforeIssue
  split
  · exact canon_ite h.modTile h
  · exact h

theorem after_canon (hr : r.Canon) : Result.Canon (after r) := by
  cases r with
  | next s => exact (hr s rfl).background.next
  | _ => exact hr

theorem stepAgent_canon (h : s.Canon) : Result.Canon (stepAgent s) := by
  unfold Machine.stepAgent
  split
  · refine .ite (after_canon h.takePending.next) ?_
    split
    · exact after_canon (exec_canon h.beforeIssue)
    · exact after_canon (h.issue (.throw _))
  · refine .ite (after_canon h.takeInterrupt.next) ?_
    split
    · exact after_canon (exec_canon h)
    · exact after_canon (h.issue (.throw _))

theorem step_canon (h : s.Canon) : Result.Canon (step s) := by
  unfold Machine.step
  split
  · exact h.same.next
  · exact .ite (exec_canon h.same) h.same.next
  · exact h.same.next
  · exact h.same.next
  · exact h.same.corrected.next
  · exact h.same.upset.next
  · exact h.same.upsetRim.next
  · exact h.same.next
  · exact h.same.peerLinkUp.next
  · exact h.same.testMode.next
  · exact h.same.selfTestFails.next
  · exact State.routineStep_canon h.same
  · exact stepAgent_canon h

/-- Settles O50: `step` keeps the form, as `exec`, the boundaries and the background steps do. -/
theorem memoryFormKept : Obligations.MemoryFormKept := fun _ t h e => step_canon h t e

end Sys2Proof.Machine
end

section
/-! SUPPORT. Settles O13: what plain accesses do at the banks; the lemmas about one access there serve O15 too. -/

namespace Sys2Proof.Machine

/-! ### Bytes and numbers -/

theorem bytesFrom_succ (m : Memory) (a n : Nat) :
    bytesFrom m a (n + 1) = 2 ^ (8 * n) * (Memory.get m (a + n)).toNat + bytesFrom m a n := by
  rw [bytesFrom, List.range_succ, List.map_append, List.sum_append, ← bytesFrom, List.map_singleton, List.sum_singleton,
    pow_mul, Nat.add_comm, Nat.mul_comm]
  rfl

theorem bytesFrom_lt (m : Memory) (a n : Nat) : bytesFrom m a n < 2 ^ (8 * n) := by
  induction n with
  | zero => exact Nat.one_pos
  | succ n ih =>
    have hb : (Memory.get m (a + n)).toNat + 1 ≤ 2 ^ 8 := (Memory.get m (a + n)).isLt
    calc bytesFrom m a (n + 1) < 2 ^ (8 * n) * ((Memory.get m (a + n)).toNat + 1) := by
          rw [bytesFrom_succ, Nat.mul_succ]; omega
      _ ≤ 2 ^ (8 * n) * 2 ^ 8 := Nat.mul_le_mul_left _ hb
      _ = 2 ^ (8 * (n + 1)) := by rw [← pow_add]; rfl

theorem testBit_bytesFrom (m : Memory) (a n j : Nat) :
    (bytesFrom m a n).testBit j = (decide (j < 8 * n) && (Memory.get m (a + j / 8)).toNat.testBit (j % 8)) := by
  induction n with
  | zero => simp [bytesFrom]
  | succ n ih =>
    rw [bytesFrom_succ, Nat.testBit_two_pow_mul_add _ (bytesFrom_lt m a n), ih]
    by_cases hlow : j < 8 * n
    · simp [hlow, show j < 8 * (n + 1) by omega]
    · by_cases htop : j < 8 * (n + 1)
      · have hdiv : j / 8 = n := by omega
        have hmod : j - 8 * n = j % 8 := by omega
        simp [hlow, htop, hdiv, hmod]
      · have hbig : (Memory.get m (a + n)).toNat.testBit (j - 8 * n) = false :=
          Nat.testBit_lt_two_pow (lt_of_lt_of_le (Memory.get m (a + n)).isLt (Nat.pow_le_pow_right Nat.two_pos (by omega)))
        simp [hlow, htop, hbig]

/-- What is read is the little-endian number of the bytes. -/
theorem Memory.read_eq_bytesFrom {m : Memory} (h : m.wf = true) (a n : Nat) : Memory.read m a n = bytesFrom m a n :=
  Nat.eq_of_testBit_eq fun j => by rw [Memory.testBit_read m a n j h, testBit_bytesFrom]

/-- A byte of a memory after a write. -/
theorem Memory.get_write (m : Memory) (b n v a : Nat) : Memory.get (Memory.write m b n v) a = byteOver m b n v a := by
  unfold byteOver
  split
  · next h =>
    have e := Memory.get_write_inside m b n v (a - b) (by omega)
    rwa [Nat.add_sub_cancel' h.1] at e
  · exact Memory.get_write_outside m b n v a (by omega)

/-! ### One access at the banks -/

section
variable {t : Tile} {op : MemOp} {a n : Nat}

theorem clearShadowEcc_nil (words : List Nat) : clearShadowEcc words [] = words := by
  unfold clearShadowEcc
  exact List.filter_eq_self.mpr fun w _ => by simp [List.range, List.range.loop]

/-- Words that no uncorrectable one is among stay uncorrectable or not when they are written. -/
theorem clearEcc_of_none {off n : Nat} (hn : 0 < n) (h : t.eccAt off n = none) : clearEcc t.eccWords off n = t.eccWords := by
  refine List.filter_eq_self.mpr fun w hw => ?_
  have hw := List.find?_eq_none.mp h w hw
  simp only [Bool.and_eq_true, Nat.ble_eq, not_and, Bool.not_eq_true', Bool.and_eq_false_imp] at hw ⊢
  intro h1
  by_contra h2
  simp only [Bool.not_eq_false, Nat.ble_eq] at h2
  exact hw (by omega) (by omega)

/-- A tile with an access performed that leaves the scale shadow as it is. -/
def Tile.accessed (t : Tile) (op : MemOp) (a : Nat) (m : Memory) : Tile :=
  { t with
    spad := m, fe := op.marks t.fe a, eccWords := (op.writes a).foldl (fun ws w => clearEcc ws w.1 w.2) t.eccWords }

/-- An access whose lines are full and whose words are good is performed; FETEST answers the bit of its line. -/
theorem Tile.perform_good {m : Memory} {r : HomeResult}
    (hr : ∀ r ∈ op.reads a, t.linesFull r.1 r.2 = true ∧ t.eccAt r.1 r.2 = none)
    (hs : op.scales a = []) (hb : op.standsBy t.spad a = false)
    (hm : op.onMem (fun x => x) (fun x => (Memory.get t.shadow (x / 32)).toNat) t.spad a = (m, [], r)) :
    t.perform op a
      = .ok (t.accessed op a m) (if op == .fetest then { r with val := (t.fe.getLsbD (a / 128)).toNat } else r) := by
  have hfull : ((op.reads a).all fun r => t.linesFull r.1 r.2) = true := List.all_eq_true.mpr fun r h => (hr r h).1
  have hgood : ((op.reads a).findSome? fun r => t.eccAt r.1 r.2) = none := List.findSome?_eq_none_iff.mpr fun r h => (hr r h).2
  simp only [Tile.perform, hfull, hgood, hs, hb, hm, clearShadowEcc_nil, Tile.accessed]
  rfl

theorem Tile.perform_ok {m : Memory} {r : HomeResult} (hr : ∀ r ∈ op.reads a, t.linesFull r.1 r.2 = true ∧ t.eccAt r.1 r.2 = none)
    (hs : op.scales a = []) (hb : op.standsBy t.spad a = false) (hf : op ≠ .fetest)
    (hm : op.onMem (fun x => x) (fun x => (Memory.get t.shadow (x / 32)).toNat) t.spad a = (m, [], r)) :
    t.perform op a = .ok (t.accessed op a m) r := by
  rw [Tile.perform_good hr hs hb hm, if_neg (mt beq_iff_eq.mp hf)]

theorem Tile.perform_waits (hr : op.reads a = [(a, n)]) (hf : t.linesFull a n = false) : t.perform op a = .waits := by
  simp [Tile.perform, hr, hf]

/-- A tile that a read has been performed at is as it was. -/
theorem Tile.accessed_read (hw : op.writes a = []) (hm : op.marks t.fe a = t.fe) : t.accessed op a t.spad = t := by
  rw [Tile.accessed, hw, hm]; rfl

theorem Tile.perform_fetest (t : Tile) (a : Nat) : t.perform .fetest a = .ok t { val := (t.fe.getLsbD (a / 128)).toNat } := by
  rw [Tile.perform_good (List.forall_mem_nil _) rfl rfl rfl, Tile.accessed_read rfl rfl]
  rfl

theorem getLsbD_lineBit {i : Nat} (hi : i < 1024) : (lineBit a).getLsbD i = decide (i = a / 128) := by
  rw [lineBit, BitVec.getLsbD_shiftLeft, BitVec.getLsbD_one]
  by_cases h : i = a / 128
  · simp [h ▸ hi, h]
  · by_cases hlt : i < a / 128
    · simp [hlt, h]
    · simp [hi, hlt, h, show i - a / 128 ≠ 0 by omega]

theorem getLsbD_cleared {i : Nat} {fe : BitVec 1024} (hi : i < 1024) :
    (fe &&& ~~~(lineBit a)).getLsbD i = (fe.getLsbD i && !decide (i = a / 128)) := by
  rw [BitVec.getLsbD_and, BitVec.getLsbD_not, getLsbD_lineBit hi, decide_eq_true hi, Bool.true_and]

theorem getLsbD_set {i : Nat} {fe : BitVec 1024} (hi : i < 1024) :
    (fe ||| lineBit a).getLsbD i = (fe.getLsbD i || decide (i = a / 128)) := by
  rw [BitVec.getLsbD_or, getLsbD_lineBit hi]

end

/-! ### Plain accesses -/

/-- The signed value of a lane is the integer that differs from it by a multiple of two to its width. -/
theorem laneS_eq_bmod {w x : Nat} (hw : 0 < w) (hx : x < 2 ^ w) : laneS w x = (x : Int).bmod (2 ^ w) := by
  obtain ⟨v, rfl⟩ : ∃ v, w = v + 1 := ⟨w - 1, by omega⟩
  have hp : 2 ^ (v + 1) = 2 * 2 ^ v := by rw [Nat.pow_succ, Nat.mul_comm]
  rw [laneS, Int.bmod_def, ← Int.natCast_mod, Nat.mod_eq_of_lt hx, hp]
  split <;> split <;> omega

theorem ofN_signed (m : Memory) (a : Nat) {n : Nat} (hn : 0 < n) :
    ofN (ofSigned 64 (toSigned (8 * n) (bytesFrom m a n))) = ofI ((bytesFrom m a n : Int).bmod (2 ^ (8 * n))) := by
  have hlt := bytesFrom_lt m a n
  rw [ofN_ofSigned, toSigned_eq_laneS (by omega) hlt, laneS_eq_bmod (by omega) hlt]

section
variable {t : Tile} {off : Nat} (hwf : t.spad.wf = true)
include hwf

theorem Tile.perform_load (n : Nat) (signed : Bool) (hf : t.linesFull off n = true) (he : t.eccAt off n = none) :
    t.perform (.load n signed) off
      = .ok t { val := if signed then ofSigned 64 (toSigned (8 * n) (bytesFrom t.spad off n)) else bytesFrom t.spad off n } := by
  have h := Tile.perform_ok (t := t) (op := .load n signed) (a := off) (List.forall_mem_singleton.mpr ⟨hf, he⟩) rfl rfl
    MemOp.noConfusion rfl
  beta_reduce at h
  rw [Memory.read_eq_bytesFrom hwf] at h
  rw [h, Tile.accessed_read rfl rfl]

end

/-- Settles O13: each access is performed as `Tile.perform_ok` says, and a byte is what `Memory.get_write` says. -/
theorem plainAccessesAtTheBanks : Obligations.PlainAccessesAtTheBanks := by
  intro t off hwf
  refine ⟨fun n signed hn => ⟨fun hf => Tile.perform_waits rfl hf, fun hf he => ?load⟩, fun n v _ => ?store, fun hf he => ?ldt,
    fun v _ => ?stf, fun _ => ?femark, fun _ => ?fefill, ?fetest⟩
  case load =>
    refine ⟨_, Tile.perform_load hwf n signed hf he, ?_⟩
    cases signed with
    | true => exact ofN_signed t.spad off (by revert hn; simp; omega)
    | false => rfl
  case store =>
    exact ⟨_, _, Tile.perform_ok (List.forall_mem_nil _) rfl rfl MemOp.noConfusion rfl, rfl, rfl, Memory.get_write _ _ _ _⟩
  case ldt =>
    exact ⟨_, _, Tile.perform_ok (List.forall_mem_singleton.mpr ⟨hf, he⟩) rfl rfl MemOp.noConfusion rfl,
      Memory.read_eq_bytesFrom hwf off 8, rfl, fun _ => getLsbD_cleared⟩
  case stf =>
    exact ⟨_, _, Tile.perform_ok (List.forall_mem_nil _) rfl rfl MemOp.noConfusion rfl, Memory.get_write _ _ _ _, fun _ => getLsbD_set⟩
  case femark =>
    exact ⟨_, _, Tile.perform_ok (List.forall_mem_nil _) rfl rfl MemOp.noConfusion rfl, rfl, fun _ => getLsbD_cleared⟩
  case fefill =>
    exact ⟨_, _, Tile.perform_ok (List.forall_mem_nil _) rfl rfl MemOp.noConfusion rfl, rfl, fun _ => getLsbD_set⟩
  case fetest => exact ⟨_, Tile.perform_fetest t off, rfl⟩

end Sys2Proof.Machine
end

section
/-! SUPPORT. Settles O14: the values of the scalar atomics and of a barrier arrival. -/

namespace Sys2Proof.Machine

/-! ### The scalar atomics -/

section
variable {w o b : Nat}

/-- The greater of two signed lanes, chosen by the lanes that hold them. -/
theorem laneS_ite_lt {x y : Nat} (hw : 0 < w) (hx : x < 2 ^ w) (hy : y < 2 ^ w) :
    laneS w (if toSigned w x < toSigned w y then y else x) = max (laneS w x) (laneS w y)
    ∧ laneS w (if toSigned w y < toSigned w x then y else x) = min (laneS w x) (laneS w y) := by
  rw [toSigned_eq_laneS hw hx, toSigned_eq_laneS hw hy]
  constructor <;> split <;> omega

/-- Bits above those of a number do not come into its conjunction with another. -/
theorem and_mod_two_pow (ho : o < 2 ^ w) : o &&& b % 2 ^ w = o &&& b := by
  refine Nat.eq_of_testBit_eq fun j => ?_
  rw [Nat.testBit_and, Nat.testBit_and, Nat.testBit_mod_two_pow]
  by_cases hj : j < w
  · simp [hj]
  · have hz : o.testBit j = false := Nat.testBit_lt_two_pow (lt_of_lt_of_le ho (Nat.pow_le_pow_right Nat.two_pos (by omega)))
    simp [hz]

end

theorem atomicValues : Claim.AtomicValues := by
  intro w hw o ho b e
  have hpos : 0 < w := by omega
  have hb : b % 2 ^ w < 2 ^ w := Nat.mod_lt _ (Nat.two_pow_pos w)
  obtain ⟨hmax, hmin⟩ := laneS_ite_lt hpos ho hb
  refine ⟨?add, hmax, hmin, rfl, rfl, and_mod_two_pow ho, rfl, rfl, rfl, ?cas, ?signed, ?unsigned⟩
  case add => exact Nat.add_mod_mod ..
  case cas => simp only [atomNew, beq_iff_eq]
  case signed =>
    intro k hk
    have hold : atomOld k w o = ofSigned 64 (toSigned w o) := by
      simp only [List.mem_cons, List.not_mem_nil, or_false] at hk
      rcases hk with rfl | rfl | rfl <;> rfl
    rw [hold, ofN_ofSigned, toSigned_eq_laneS hpos ho]
  case unsigned =>
    intro k hk
    simp only [List.mem_cons, List.not_mem_nil, or_false] at hk
    rcases hk with rfl | rfl | rfl | rfl | rfl | rfl | rfl <;> rfl

/-! ### A barrier arrival -/

/-- An arrival writes the low 16 bits and, where it is the last one, bit 63. -/
theorem barrierArrival : Claim.BarrierArrival := by
  intro w hw a e
  have harrive : barrierArrive w = if a = e then
      (if w / 2 ^ 63 % 2 = 1 then w / 2 ^ 16 * 2 ^ 16 - 2 ^ 63 else w / 2 ^ 16 * 2 ^ 16 + 2 ^ 63)
      else w / 2 ^ 16 * 2 ^ 16 + a % 2 ^ 16 := by
    simp only [barrierArrive, beq_iff_eq, a, e]
  rw [harrive]
  by_cases hlast : a = e
  · simp only [if_pos hlast]
    split <;> omega
  · simp only [if_neg hlast]
    omega

/-- Settles O14. -/
theorem atomicsAndBarrierValues : Obligations.AtomicsAndBarrierValues := ⟨atomicValues, barrierArrival⟩

end Sys2Proof.Machine
end

section
/-! SUPPORT. Settles O15: read-modify-writes and vector atomics at the banks. -/

namespace Sys2Proof.Machine

/-! ### One read-modify-write -/

section
variable {t : Tile} {op : MemOp} {a n : Nat} {new old : Nat → Nat} (hwf : t.spad.wf = true)
include hwf

/-- An access that reads n bytes, writes them anew and answers what it makes of the old ones. -/
theorem Tile.perform_rmw (hr : op.reads a = [(a, n)]) (hs : op.scales a = []) (hb : op.standsBy t.spad a = false)
    (hne : op ≠ .fetest) (hmarks : op.marks t.fe a = t.fe)
    (hm : op.onMem (fun x => x) (fun x => (Memory.get t.shadow (x / 32)).toNat) t.spad a
      = (Memory.write t.spad a n (new (Memory.read t.spad a n)), [], { val := old (Memory.read t.spad a n) })) :
    (t.linesFull a n = false → t.perform op a = .waits)
    ∧ (t.linesFull a n = true → t.eccAt a n = none →
      ∃ b h, t.perform op a = .ok b h ∧ h.val = old (bytesFrom t.spad a n) ∧ b.fe = t.fe ∧ b.shadow = t.shadow ∧
        ∀ x, Memory.get b.spad x = byteOver t.spad a n (new (bytesFrom t.spad a n)) x) := by
  rw [← Memory.read_eq_bytesFrom hwf]
  exact ⟨fun hf => Tile.perform_waits hr hf, fun hf he =>
    ⟨_, _, Tile.perform_ok (hr ▸ List.forall_mem_singleton.mpr ⟨hf, he⟩) hs hb hne hm, rfl, hmarks, rfl, Memory.get_write _ _ _ _⟩⟩

end

theorem readModifyWriteAtTheBanks : Claim.ReadModifyWriteAtTheBanks := by
  intro t off m n new old hwf hop
  rcases hop with ⟨k, e, b, _, rfl, hnew, hold⟩ | ⟨v, rfl, rfl, hnew, hold⟩ | ⟨v, sc, rfl, rfl, hnew, hold⟩
    | ⟨v, rfl, rfl, hnew, hold⟩ | ⟨rfl, rfl, hnew, hold⟩
  all_goals
    refine Tile.perform_rmw (new := new) (old := old) hwf rfl rfl rfl MemOp.noConfusion rfl ?_
    rw [hnew, hold]
    rfl

/-! ### The elements of a vector atomic one after the other -/

section
variable {t : Tile} {one op rest : MemOp} {a n off : Nat} {m : Memory} {r : HomeResult}

/-- An access of some elements is that of the first one and then that of the others. -/
theorem Tile.perform_cons (hn : 0 < n) (hf : t.linesFull a n = true) (he : t.eccAt a n = none)
    (hone : t.perform one a = .ok (t.accessed one a m) r) (hmarks : one.marks t.fe a = t.fe) (hwrites : one.writes a = [(a, n)])
    (hreads : op.reads off = (a, n) :: rest.reads off) (hscales : ∀ o, op.scales o = rest.scales o)
    (hstands : ∀ p q, op.standsBy p off = rest.standsBy q off) (hopw : op.writes off = (a, n) :: rest.writes off)
    (hopm : ∀ fe, op.marks fe off = rest.marks fe off) (hfe : (op == .fetest) = (rest == .fetest))
    (hm : ∀ sh, op.onMem (fun x => x) sh t.spad off = rest.onMem (fun x => x) sh m off) :
    t.perform op off = match t.perform one a with
      | .ok b _ => b.perform rest off
      | r => r := by
  have hb : t.accessed one a m = { t with spad := m } := by
    rw [Tile.accessed, hmarks, hwrites, List.foldl_cons, List.foldl_nil, clearEcc_of_none hn he]
  rw [hone, hb]
  simp only [Tile.perform, hreads, hscales, hopw, hopm, hfe, hm, hstands t.spad m, List.all_cons, hf, Bool.true_and,
    List.findSome?_cons, he, List.foldl_cons, clearEcc_of_none hn he]
  rfl

end

theorem vectorAtomicsAtTheBanks : Claim.VectorAtomicsAtTheBanks := by
  intro t off hwf
  refine ⟨fun k n a v rest hn hk hf he => ?atomic, fun a v rest hf he => ?absmax, fun a v rest hf he => ?cell,
    fun a v hf he => ?oneAbsmax, fun a v hf he => ?oneCell⟩
  case atomic =>
    have hpos : 0 < n := by revert hn; simp; omega
    have hone := Tile.perform_ok (t := t) (op := .atomic k n v 0) (List.forall_mem_singleton.mpr ⟨hf, he⟩) rfl rfl
      MemOp.noConfusion rfl
    refine Tile.perform_cons hpos hf he hone rfl rfl rfl (fun _ => rfl) (fun _ _ => rfl) rfl (fun _ => rfl) rfl fun sh => ?_
    have hk : (k == .umax) = false := beq_eq_false_iff_ne.mpr hk
    simp only [MemOp.onMem, List.foldl_cons, hk]
    rfl
  case absmax =>
    have hone := Tile.perform_ok (t := t) (op := .absmax (BitVec.ofNat 32 (v.toNat % 2 ^ 31)))
      (List.forall_mem_singleton.mpr ⟨hf, he⟩) rfl rfl MemOp.noConfusion rfl
    refine Tile.perform_cons (by decide) hf he hone rfl rfl rfl (fun _ => rfl) (fun _ _ => rfl) rfl (fun _ => rfl) rfl fun sh => ?_
    have hv : (BitVec.ofNat 32 (v.toNat % 2 ^ 31)).toNat % 2 ^ 31 = v.toNat % 2 ^ 31 := by
      rw [BitVec.toNat_ofNat]; omega
    simp only [MemOp.onMem, List.foldl_cons, hv]
    rfl
  case cell =>
    have hone := Tile.perform_ok (t := t) (op := .fxAdd v) (List.forall_mem_singleton.mpr ⟨hf, he⟩) rfl rfl
      MemOp.noConfusion rfl
    exact Tile.perform_cons (by decide) hf he hone rfl rfl rfl (fun _ => rfl) (fun _ _ => rfl) rfl (fun _ => rfl) rfl fun _ => rfl
  case oneAbsmax =>
    rw [← Memory.read_eq_bytesFrom hwf]
    exact ⟨_, _, Tile.perform_ok (List.forall_mem_singleton.mpr ⟨hf, he⟩) rfl rfl MemOp.noConfusion rfl, Memory.get_write _ _ _ _⟩
  case oneCell =>
    rw [← Memory.read_eq_bytesFrom hwf]
    exact ⟨_, _, Tile.perform_ok (List.forall_mem_singleton.mpr ⟨hf, he⟩) rfl rfl MemOp.noConfusion rfl, Memory.get_write _ _ _ _⟩

/-- Settles O15. -/
theorem readModifyWriteAndVectorAtomics : Obligations.ReadModifyWriteAndVectorAtomics :=
  ⟨readModifyWriteAtTheBanks, vectorAtomicsAtTheBanks⟩

end Sys2Proof.Machine
end

section
/-! SUPPORT. What a scalar access does, said once for every one of them: its operands, its place, the guarded phase, what holds it
and what it does at its place (base for O22 and O59). -/

namespace Sys2Proof.Machine

/-! ### Pointers of scalar accesses -/

/-- A word's bits above the ADDRESS field. -/
theorem and_high_toNat (x : Nat) (hx : x < 2 ^ 64) : x &&& 0xFF00000000000000 = x / 2 ^ 56 * 2 ^ 56 := by
  have hm : (0xFF00000000000000 : Nat) = (2 ^ 8 - 1) <<< 56 := by decide
  rw [hm, ← Nat.shiftLeft_eq, ← Nat.shiftRight_eq_div_pow]
  apply Nat.eq_of_testBit_eq
  intro i
  simp only [Nat.testBit_and, Nat.testBit_shiftLeft, Nat.testBit_shiftRight, Nat.testBit_two_pow_sub_one]
  by_cases hi : 56 ≤ i
  · by_cases hh : i < 64
    · have : 56 + (i - 56) = i := by omega
      have : i - 56 < 8 := by omega
      simp [*]
    · have : x.testBit i = false := Nat.testBit_lt_two_pow (lt_of_lt_of_le hx (Nat.pow_le_pow_right (by decide) (by omega)))
      have h2 : 56 + (i - 56) = i := by omega
      simp [*]
  · simp [hi]

/-- A pointer moved by a distance, as the model and as the statements write it. -/
theorem ptrAdd_eq_movedPtr (p : Word) (k : Int) : ptrAdd p k = movedPtr p k := by
  have hlow : ∀ x : Word, (x &&& 0x00FFFFFFFFFFFFFF).toNat = x.toNat % 2 ^ 56 := fun x => by
    rw [BitVec.toNat_and]
    exact Nat.and_two_pow_sub_one_eq_mod x.toNat 56
  have hhigh : (p &&& 0xFF00000000000000).toNat = p.toNat / 2 ^ 56 * 2 ^ 56 := by
    rw [BitVec.toNat_and]
    exact and_high_toNat p.toNat p.isLt
  have hp := p.isLt
  have haddr : ptrAddr p = p.toNat % 2 ^ 56 := ptrAddr_eq p
  apply BitVec.eq_of_toNat_eq
  rw [ptrAdd, movedPtr, BitVec.toNat_or, hlow, hhigh, ← Nat.shiftLeft_eq,
    ← Nat.shiftLeft_add_eq_or_of_lt (Nat.mod_lt _ (by decide)), Nat.shiftLeft_eq, BitVec.toNat_ofInt, haddr, ofI, BitVec.toNat_ofInt]
  omega

/-- A pointer operand whose bit 40 tells that it names a scale. -/
theorem bitN_eq_one_iff (v : Word) (i : Nat) : bitN v i = 1 ↔ v.getLsbD i = true := by
  rw [bitN, BitVec.getLsbD, Nat.testBit_eq_decide_div_mod_eq, decide_eq_true_iff]

/-- The byte of a word above its low 32 bits. -/
theorem ofNat_shift_byte (v : Word) : BitVec.ofNat 8 (v.toNat / 2 ^ 32) = (v >>> 32).setWidth 8 := by
  apply BitVec.eq_of_toNat_eq
  simp [Nat.shiftRight_eq_div_pow]

/-- Whether a destination wants an answer. -/
theorem Dst.wants_eq (d : Dst) : Dst.wants d = !decide (d = .discard) := by cases d <;> rfl

theorem atomWidth_eq_wordBytes (p : Word) : atomWidth p = wordBytes p := by
  have hp : ptrFmt p = p.toNat / 2 ^ 60 := by
    have := p.isLt
    simp only [ptrFmt, bitsOf]
    omega
  simp only [atomWidth, wordBytes, hp, beq_iff_eq]

/-! ### The body of a scalar access -/

/-- The data bytes that a captured access carries. -/
def guardData (i : Instr) (n : Nat) : Nat :=
  match i with
  | .femark _ _ | .fefill _ _ | .bararr _ _ _ => 0
  | .vamaxDrain _ _ _ => 512
  | _ => n

theorem guardBytes_eq (i : Instr) (n : Nat) : guardBytes i n = captureBytes (guardData i n) := by
  unfold guardBytes guardData
  split <;> simp [captureBytes]

/-- A private LDT of the guarded phase must lie in the window. -/
def takeWindow (m : MemOp) (p : Word) (pl : Place) : M Unit :=
  match m with
  | .ldt => do
    let ph ← inPhase
    let t ← getTile
    match pl with
    | .priv off => require (!ph || t.guard.inWindow off 8) (.trap .guardWindow p)
    | _ => pure ()
  | _ => pure ()

/-- What an access does at its place once nothing is captured. -/
def AccessShape.perform (f : AccessShape) (p : Word) (m : MemOp) (pl : Place) : M Flow := do
  accessHeld f pl
  accessTo m p pl f.dst f.wants

/-- What an access with its place found does: a store is judged by the guarded phase first. -/
def AccessShape.atPlace (f : AccessShape) (data : Nat) (p : Word) (m : MemOp) (pl : Place) : M Flow :=
  if f.store then do
    let caught ← guardWrite m p pl (f.bytes p) data f.wants
    if caught then return .seq else f.perform p m pl
  else do
    takeWindow m p pl
    f.perform p m pl

/-- A whole scalar access. -/
def AccessShape.body (f : AccessShape) (data : Nat → Nat) : M Flow := do
  let x ← f.args
  let r ← f.rule
  let pl ← placeOf r x.1 (f.bytes x.1) (f.bytes x.1)
  f.atPlace (data (f.bytes x.1)) x.1 x.2 pl

section
variable {i : Instr} {f : AccessShape}

/-- The model's scalar accesses are all of one shape. -/
theorem exec_of_accessShape (h : accessShape i = some f) (hd : f.dst.legal = true) (s : State) :
    exec i s = issue f.op (f.body (guardData i)) s := by
  unfold accessShape at h
  split at h
  case h_29 => cases h
  all_goals
    cases h
    refine congrArg (issue _ · s) ?_
    simp only [loadShape, storeShape, atomicShape, wordAtomic] at hd
    simp only [AccessShape.body, AccessShape.atPlace, AccessShape.perform, accessHeld, loadShape, storeShape, atomicShape, wordAtomic,
      checkDst_legal hd, bind_assoc, pure_bind, if_true, Bool.false_eq_true, if_false, takeWindow, guardData,
      loadM, loadAt, storeAt, lineStore, atomicOp, atomicAt, offsetPtr, indexPtr, sizeOf2, ptrAdd_eq_movedPtr, Int.mul_comm _ 8,
      atomWidth_eq_wordBytes, Dst.wants_eq, Nat.cast_pow, Nat.cast_ofNat, checkVStore, bitN_eq_one_iff, ofNat_shift_byte]
  case h_4 =>
    refine bind_congr fun x => bind_congr fun pl => bind_congr fun ph => bind_congr fun t => ?_
    cases pl <;> simp only [pure_bind]

/-- An admitted access whose operands, rule and place are there goes on with what it does at its place. -/
theorem AccessShape.body_apply {data : Nat → Nat} {s t : State} {p : Word} {m : MemOp} {r : SpaceRule} {pl : Place}
    (ha : f.args s = .ok ((p, m), t)) (hr : f.rule t = .ok (r, t)) (hpl : placeOf r p (f.bytes p) (f.bytes p) t = .ok (pl, t)) :
    f.body data s = f.atPlace (data (f.bytes p)) p m pl t := by
  unfold AccessShape.body
  rw [M.bind_ok ha, M.bind_ok hr, M.bind_ok hpl]

end

section
variable {f : AccessShape} {p : Word} {m : MemOp} {t u : State}

/-- An answer that comes at once is delivered where it is wanted. -/
theorem accessTo_answer {pl : Place} {d : Dst} {h : HomeResult} (f : AccessShape) (hd : f.dst = d)
    (ha : access m p pl (landingOf d) f.wants t = .ok (some h, u)) :
    accessTo m p pl d f.wants t = .ok (.seq, u.withAnswer f h.val) := by
  subst hd
  unfold accessTo State.withAnswer
  rw [M.bind_ok ha]
  cases f.wants <;> rfl

/-- An access whose request travels has nothing to deliver. -/
theorem accessTo_sent {pl : Place} {d : Dst} {w : Bool} (ha : access m p pl (landingOf d) w t = .ok (none, u)) :
    accessTo m p pl d w t = .ok (.seq, u) := by
  unfold accessTo
  rw [M.bind_ok ha]
  rfl

/-- An access that nothing holds, on the own banks. -/
theorem AccessShape.perform_priv {off : Nat} {b : Tile} {h : HomeResult} (hh : accessHeld f (.priv off) t = .ok ((), t))
    (ht : ownTurn m off t = .ok ((), u)) (hp : (u.tile u.cur.site).perform m off = .ok b h) :
    f.perform p m (.priv off) t = .ok (.seq, (u.setTile u.cur.site b).withAnswer f h.val) := by
  unfold AccessShape.perform
  rw [M.bind_ok hh, accessTo_answer f rfl (access_priv ht hp)]

end

end Sys2Proof.Machine
end

section
/-! SUPPORT. Settles O22: scalar writes in the guarded phase. -/

namespace Sys2Proof.Machine

/-- An admitted instruction whose captured access does not fit ends the phase. -/
theorem State.admits.issue_overflow {o : Op} {body : M Flow} {s : State} (h : s.admits o) (hb : body s.opened = .error .overflow) :
    issue o body s = .next (s.rejectPhase s.cur.site 3 0) := by
  unfold issue
  rw [M.bind_ok h.openIssue, hb]

/-- Where the request of a captured access goes. -/
def captureDest (t : State) : Place → Dest
  | .vtile vt _ => .vtile (t.tile t.cur.site).name.1 vt
  | _ => .rim

/-- The state with a captured access appended to the guard buffer of the current tile. -/
def State.captured (t : State) (c : Captured) (n : Nat) : State :=
  t.setTile t.cur.site { t.tile t.cur.site with
    guard := { (t.tile t.cur.site).guard with
      caught := (t.tile t.cur.site).guard.caught ++ [c], used := (t.tile t.cur.site).guard.used + n } }

section
variable {c : Captured} {n : Nat} {t : State}

/-- A captured access that fits the guard buffer is appended to it. -/
theorem capture_room
    (h : (t.tile t.cur.site).guard.used + n ≤ (t.launch (t.tile t.cur.site).name.1).pkt.guardsize * 128) :
    capture c n t = .ok ((), t.captured c n) := by
  unfold capture
  simp only [M.bind_apply, getTile_apply, getLaunch_apply, M.ok_bind, Nat.ble_eq_true_of_le h, require_true, M.pure_apply,
    modTile_apply, State.captured]

/-- One that does not fit ends the phase. -/
theorem capture_full
    (h : (t.launch (t.tile t.cur.site).name.1).pkt.guardsize * 128 < (t.tile t.cur.site).guard.used + n) :
    capture c n t = .error .overflow := by
  have hb : Nat.ble ((t.tile t.cur.site).guard.used + n) ((t.launch (t.tile t.cur.site).name.1).pkt.guardsize * 128) = false := by
    rw [← Bool.not_eq_true, Nat.ble_eq]
    exact not_le.mpr h
  unfold capture
  simp only [M.bind_apply, getTile_apply, getLaunch_apply, M.ok_bind, hb, require_false, M.throw_apply, M.error_bind]

end

section
variable {m : MemOp} {p : Word} {n data : Nat} {wants : Bool} {t : State} (hph : inPhase t = .ok (true, t))
include hph

/-- A private write of the phase is judged by the window alone. -/
theorem guardWrite_priv (off : Nat) :
    guardWrite m p (.priv off) n data wants t
      = if (t.tile t.cur.site).guard.inWindow off n = true then .ok (false, t) else .error (.trap .guardWindow p) := by
  unfold guardWrite
  rw [M.bind_ok hph]
  simp only [Bool.not_true, Bool.false_eq_true, if_false, M.bind_apply, getTile_apply, M.ok_bind]
  split
  case isTrue h => simp only [h, require_true, M.pure_apply, M.ok_bind]
  case isFalse h => simp only [eq_false_of_ne_true h, require_false, M.throw_apply, M.error_bind]

variable {pl : Place} (hpl : ∀ off, pl ≠ .priv off)
include hpl

/-- A write elsewhere whose answer is wanted raises the guard window cause. -/
theorem guardWrite_wanted (hw : wants = true) : guardWrite m p pl n data wants t = .error (.trap .guardWindow p) := by
  subst hw
  unfold guardWrite
  rw [M.bind_ok hph]
  cases pl with
  | priv off => exact absurd rfl (hpl off)
  | _ => rfl

/-- Another write elsewhere is captured as the request that it makes. -/
theorem guardWrite_elsewhere (hw : wants = false) :
    guardWrite m p pl n data wants t
      = (capture (.packets [t.packet 0 0 (captureDest t pl) (.request m p false)]) (captureBytes data) >>= fun _ => pure true) t := by
  subst hw
  unfold guardWrite
  rw [M.bind_ok hph]
  cases pl with
  | priv off => exact absurd rfl (hpl off)
  | _ => rfl

end

section
variable {f : AccessShape} {p : Word} {m : MemOp} {pl : Place} {t u : State} {data : Nat} (hs : f.store = true)
include hs

/-- What a store, atomic or arrival does at its place is decided by the guarded phase first. -/
theorem AccessShape.atPlace_store :
    f.atPlace data p m pl = guardWrite m p pl (f.bytes p) data f.wants >>= fun caught =>
      if caught then pure .seq else f.perform p m pl := by
  unfold AccessShape.atPlace
  rw [if_pos hs]

/-- One that the phase turns away. -/
theorem AccessShape.atPlace_error {e : Stop} (h : guardWrite m p pl (f.bytes p) data f.wants t = .error e) :
    f.atPlace data p m pl t = .error e := by
  rw [AccessShape.atPlace_store hs, M.bind_error h]

/-- One that the phase captures. -/
theorem AccessShape.atPlace_caught (h : guardWrite m p pl (f.bytes p) data f.wants t = .ok (true, u)) :
    f.atPlace data p m pl t = .ok (.seq, u) := by
  rw [AccessShape.atPlace_store hs, M.bind_ok h]
  rfl

/-- One that the phase lets through. -/
theorem AccessShape.atPlace_through (h : guardWrite m p pl (f.bytes p) data f.wants t = .ok (false, t)) :
    f.atPlace data p m pl t = f.perform p m pl t := by
  rw [AccessShape.atPlace_store hs, M.bind_ok h]
  rfl

end

/-- Settles O22: a write of the guarded phase is performed, captured or turned away. -/
theorem guardedPhaseWrites : Obligations.GuardedPhaseWrites := by
  intro i f hf hd hst s p m r pl t hs ha hr hpl hph g n room dst
  have hexec : exec i s = issue f.op (f.body (guardData i)) s := exec_of_accessShape hf hd s
  have hbody := AccessShape.body_apply (data := guardData i) ha hr hpl
  have hn : captureBytes (guardData i (f.bytes p)) = n := (guardBytes_eq i (f.bytes p)).symm
  rw [hexec]
  refine ⟨fun off hp hout => ?_, fun hp hw => ?_, fun off u b h hp hin hh ht hperf => ?_, fun hp hw hfit => ?_, fun hp hw hfull => ?_⟩
  · subst hp
    refine hs.issue_trap (hbody.trans (AccessShape.atPlace_error hst ?_))
    rw [guardWrite_priv hph, if_neg (ne_true_of_eq_false hout)]
  · exact hs.issue_trap (hbody.trans (AccessShape.atPlace_error hst (guardWrite_wanted hph hp hw)))
  · subst hp
    refine hs.issue_ok (hbody.trans ((AccessShape.atPlace_through hst ?_).trans (AccessShape.perform_priv hh ht hperf)))
    rw [guardWrite_priv hph, if_pos hin]
  · refine hs.issue_ok (hbody.trans (AccessShape.atPlace_caught hst ?_))
    rw [guardWrite_elsewhere hph hp hw, hn, M.bind_ok (capture_room hfit)]
    rfl
  · refine hs.issue_overflow (hbody.trans (AccessShape.atPlace_error hst ?_))
    rw [guardWrite_elsewhere hph hp hw, hn, M.bind_error (capture_full hfull)]

end Sys2Proof.Machine
end

section
/-! SUPPORT. Settles O59: what scalar accesses leave unchanged. -/

namespace Sys2Proof.Machine

/-! ### The order log stands outside the tiles -/

/-- What the order log and the event ring stand beside: the tiles and whose turn it is. -/
def State.stays (s : State) : Table Tile × Agent := (s.tiles, s.cur)

section
variable (s : State)

theorem State.putVirt64_stays (asid va v : Nat) : (s.putVirt64 asid va v).stays = s.stays := by
  unfold State.putVirt64
  split
  · split <;> rfl
  · rfl

theorem State.markSegment_stays (l : Launch) (status vt : Nat) : (s.markSegment l status vt).stays = s.stays := by
  unfold State.markSegment
  split
  · rfl
  · split
    · exact s.putVirt64_stays _ _ _
    · rfl

theorem State.logEntry_stays (idx chunk w0 : Nat) (w1 : Option Nat) : (s.logEntry idx chunk w0 w1).stays = s.stays := by
  unfold State.logEntry
  dsimp only
  split
  · rfl
  · split
    · rfl
    · simp only [apply_ite State.stays, State.markSegment_stays, State.putVirt64_stays]
      cases w1 <;> simp only [State.putVirt64_stays, ite_self]

theorem State.writePendings_stays (n : Nat) : (s.writePendings n).stays = s.stays := by
  induction n generalizing s with
  | zero => rfl
  | succ n ih =>
    unfold State.writePendings
    split
    · rfl
    · split
      · rfl
      · exact ih _

theorem State.postEvent_stays (type status reason queue tag info : Nat) :
    (s.postEvent type status reason queue tag info).stays = s.stays := by
  unfold State.postEvent
  dsimp only
  split
  · exact s.writePendings_stays _
  · split
    · unfold State.dropEvent
      split <;> exact s.writePendings_stays _
    · split <;> exact s.writePendings_stays _

theorem State.diverge_stays (idx vt entry : Nat) : (s.diverge idx vt entry).stays = s.stays :=
  (State.postEvent_stays _ _ _ _ _ _ _).trans (s.markSegment_stays _ _ _)

theorem State.exchangeTurn_stays {u : State} {idx chunk loc vt slot n : Nat}
    (h : s.exchangeTurn idx chunk loc vt slot n = some u) : u.stays = s.stays := by
  unfold State.exchangeTurn at h
  dsimp only at h
  split at h
  · cases h; exact s.logEntry_stays _ _ _ _
  · split at h
    · cases h; exact s.diverge_stays _ _ _
    · split at h
      · cases h; rfl
      · split at h
        · cases h
        · cases h; exact s.diverge_stays _ _ _

end

/-! ### Operands of a scalar access -/

/-- The accesses that scalar instructions make. -/
def MemOp.scalar : MemOp → Bool
  | .vecStore _ _ | .vecAtomic _ _ _ | .vecFx _ => false
  | _ => true

/-- A body that waits and reads, and answers a pointer and a scalar access. -/
def M.Finds (m : M (Word × MemOp)) (s : State) : Prop := ∀ x t, m s = .ok (x, t) → s.reads t ∧ x.2.scalar = true

section
variable {s : State}

theorem M.Finds.pure {x : Word × MemOp} (h : x.2.scalar = true) : M.Finds (Pure.pure x) s := by
  intro y t e
  cases e
  exact ⟨s.reads_refl, h⟩

theorem M.Finds.bind {α : Type} {m : M α} {f : α → M (Word × MemOp)} (hm : M.Reads m s) (hf : ∀ x t, M.Finds (f x) t) :
    M.Finds (m >>= f) s := by
  intro y u h
  rw [M.bind_apply] at h
  cases hx : m s with
  | error e => rw [hx] at h; cases h
  | ok r =>
    rw [hx] at h
    obtain ⟨hr, hs⟩ := hf r.1 r.2 y u h
    exact ⟨(hm r.1 r.2 hx).trans hr, hs⟩

theorem checkVSrc_reads (b : Bool) (a : VSrc) : M.Reads (checkVSrc b a) s := by
  cases a with
  | ill k => exact .throw _
  | bcast k => exact require_reads _ _
  | _ => exact .pure ()

theorem windowVSrc_reads (a : VSrc) : M.Reads (windowVSrc a) s := by
  cases a with
  | v k => exact .bind (fun x t h => by cases h; exact s.reads_refl) fun _ _ => require_reads _ _
  | _ => exact .pure ()

theorem checkFmt_reads (ok : Nat → Bool) : M.Reads (checkFmt ok) s := .getSlot_bind (require_reads _ _)

theorem awaitVregs_reads : M.Reads awaitVregs s := awaitLanding_reads _

theorem awaitVSrc_reads (a : VSrc) : M.Reads (awaitVSrc a) s := by
  cases a with
  | vq k => exact .getSlot_bind (require_reads _ _)
  | v k =>
    exact .get_bind (.bind (.get_bind (require_reads _ _)) fun _ _ => .bind awaitVregs_reads fun _ _ =>
      .getTile_bind (require_reads _ _))
  | bcast k => exact awaitNamed_reads _
  | _ => exact .pure ()

theorem freeVec_reads : M.Reads freeVec s := fun x t h => by cases h; exact s.reads_spend _

theorem readVSrc_reads (a : VSrc) : M.Reads (readVSrc a) s := by
  cases a with
  | vq k =>
    refine .get_bind ?_
    dsimp only
    split
    · exact .pure _
    · split
      · exact .throw _
      · exact freeVec_reads
  | v k =>
    refine .get_bind ?_
    dsimp only
    split
    · exact .throw _
    · exact .throw _
    · exact .pure _
  | vz => exact .pure _
  | vst k => exact readStream_reads k true
  | vmsg =>
    refine .getSlot_bind ?_
    split <;> exact .pure _
  | bcast k => exact .bind (readNamed_reads _) fun _ _ => .getSlot_bind (.pure _)
  | ill k => exact .throw _

/-- The operands of a scalar access are read, and name a scalar access. -/
theorem accessShape_finds {i : Instr} {f : AccessShape} (h : accessShape i = some f) : M.Finds f.args s := by
  unfold accessShape at h
  split at h
  case h_25 =>
    cases h
    exact .bind (read2_reads _ _) fun _ _ => .bind (.getSlot_bind (.pure _)) fun _ _ => .pure rfl
  case h_28 =>
    cases h
    exact .bind (checkVSrc_reads _ _) fun _ _ => .bind (windowVSrc_reads _) fun _ _ => .bind (checkFmt_reads _) fun _ _ =>
      .bind (awaitSrc_reads _) fun _ _ => .bind (awaitVSrc_reads _) fun _ _ => .bind (readSrc_reads _) fun _ _ =>
      .bind (readVSrc_reads _) fun _ _ => .bind (.getSlot_bind (.pure _)) fun _ _ => .pure rfl
  case h_29 => cases h
  case h_8 | h_9 | h_22 => cases h; exact .bind (read3_reads _ _ _) fun _ _ => .pure rfl
  case h_1 | h_2 | h_5 => cases h; exact .bind (.bind (read1_reads _) fun _ _ => .pure _) fun _ _ => .pure rfl
  case h_3 | h_4 => cases h; exact .bind (.bind (read2_reads _ _) fun _ _ => .pure _) fun _ _ => .pure rfl
  case h_6 | h_11 | h_12 | h_24 | h_27 => cases h; exact .bind (read1_reads _) fun _ _ => .pure rfl
  all_goals
    cases h
    exact .bind (read2_reads _ _) fun _ _ => .pure rfl

end

/-! ### Places and agents -/

/-- The places that a tile's slot alone and a core alone reaches. -/
def Place.fits (core : Bool) : Place → Prop
  | .priv _ | .vtile _ _ | .hbm _ => core = false
  | .coreLocal _ | .phys _ => core = true
  | .aperture _ _ => True

theorem M.Answers.throw {α : Type} {P : α → Prop} (e : Stop) : M.Answers P (throw e : M α) := by
  intro s x t h
  cases h

theorem corePlace_answers (r : SpaceRule) (p : Word) (n k : Nat) : M.Answers (Place.fits true) (corePlace r p n k) := by
  unfold corePlace
  refine .bind fun s => ?_
  dsimp only
  split
  · exact .bind fun _ => .bind fun _ => .pure rfl
  · split
    · exact .bind fun _ => .bind fun _ => .bind fun _ => .bind fun _ => .pure rfl
    · split
      · exact .throw _
      · exact .bind fun _ => .bind fun _ => .bind fun _ => .pure trivial

theorem tilePlace_answers (r : SpaceRule) (p : Word) (n k : Nat) : M.Answers (Place.fits false) (tilePlace r p n k) := by
  unfold tilePlace
  refine .bind fun s => ?_
  dsimp only
  split
  · exact .bind fun _ => .bind fun _ => .pure rfl
  · split
    · exact .bind fun _ => .bind fun _ => .bind fun _ => .bind fun _ => .pure rfl
    · split
      · exact .bind fun _ => .bind fun _ => .bind fun _ => .pure rfl
      · exact .bind fun _ => .bind fun _ => .bind fun _ => .pure trivial

/-- The place of an access is one that its agent reaches. -/
theorem placeOf_fits {r : SpaceRule} {p : Word} {n k : Nat} {t u : State} {pl : Place} (h : placeOf r p n k t = .ok (pl, u)) :
    pl.fits t.cur.isCore := by
  unfold placeOf at h
  simp only [M.bind_apply, M.get_apply, M.ok_bind] at h
  split at h
  case isTrue hc => exact hc ▸ corePlace_answers r p n k _ _ _ h
  case isFalse hc => exact eq_false_of_ne_true hc ▸ tilePlace_answers r p n k _ _ _ h

/-! ### What an access writes -/

/-- A scalar access changes no byte of its memory but those it writes. -/
theorem MemOp.get_onMem_outside {m : MemOp} (hm : m.scalar = true) (sh : Nat → Nat) (mem : Memory) (a : Nat) {x : Nat}
    (h : ∀ z ∈ m.writes a, x < z.1 ∨ z.1 + z.2 ≤ x) :
    Memory.get (m.onMem (fun x => x) sh mem a).1 x = Memory.get mem x := by
  cases m with
  | vecStore => cases hm
  | vecAtomic => cases hm
  | vecFx => cases hm
  | load | ldt | femark | fefill | fetest | fxRead | barProbe | vecLoad | fetch | vecConvert | xtdef => rfl
  | _ => exact Memory.get_write_outside _ _ _ _ _ (h _ (List.mem_singleton_self _))

/-- What the banks make of an access: its bytes are written, and the slots stay. -/
theorem Tile.perform_writes {t b : Tile} {m : MemOp} {a : Nat} {h : HomeResult} (hp : t.perform m a = .ok b h) :
    b.slots = t.slots ∧ ∃ sh, b.spad = (m.onMem (fun x => x) sh t.spad a).1 := by
  unfold Tile.perform at hp
  dsimp only at hp
  split at hp
  · cases hp
  · split at hp
    · cases hp
    · split at hp
      · cases hp
      · cases hp
        exact ⟨rfl, _, rfl⟩

/-! ### States that differ beside the registers and the bytes -/

/-- One state has the registers of the current slot, the bytes of the current tile and the other tiles of another. -/
structure State.besides (t u : State) : Prop where
  cur : u.cur = t.cur
  regs : ∀ (sl : Slot) (d : Dst), sl.frame (t.slot t.cur) d → sl.frame (u.slot t.cur) d
  flights : (u.slot t.cur).flights = (t.slot t.cur).flights
  spad : (u.tile t.cur.site).spad = (t.tile t.cur.site).spad
  tiles : ∀ x, x ≠ t.cur.site → u.tile x = t.tile x

theorem State.besides.refl (t : State) : t.besides t := ⟨rfl, fun _ _ h => h, rfl, rfl, fun _ _ => rfl⟩

theorem State.besides.trans {t u v : State} (h : t.besides u) (h' : u.besides v) : t.besides v := by
  obtain ⟨c, r, f, s, x⟩ := h
  obtain ⟨c', r', f', s', x'⟩ := h'
  rw [c] at r' f' s' x'
  exact ⟨c'.trans c, fun sl d h => r' sl d (r sl d h), f'.trans f, s'.trans s, fun y hy => (x' y hy).trans (x y hy)⟩

/-- The tiles and the cores that a slot's replacement keeps. -/
theorem State.setSlot_tiles (s : State) (x : Slot) :
    ((s.setSlot s.cur x).tile s.cur.site).spad = (s.tile s.cur.site).spad
      ∧ ∀ y, y ≠ s.cur.site → (s.setSlot s.cur x).tile y = s.tile y := by
  cases h : s.cur with
  | tile site k =>
    have hsame := congrArg Tile.spad (State.tile_setSlot_tile s site k x)
    exact ⟨hsame, fun y hy => State.tile_setTile_other _ _ _ _ hy⟩
  | collier => exact ⟨rfl, fun _ _ => rfl⟩
  | stoker r => exact ⟨rfl, fun _ _ => rfl⟩

/-- The current slot replaced by one with the same registers and the same outstanding results. -/
theorem State.besides_setSlot {s : State} {x : Slot} (hr : ∀ (sl : Slot) (d : Dst), sl.frame (s.slot s.cur) d → sl.frame x d)
    (hf : x.flights = (s.slot s.cur).flights) : s.besides (s.setSlot s.cur x) :=
  ⟨State.setSlot_cur .., by rw [State.slot_setSlot_same]; exact hr, by rw [State.slot_setSlot_same]; exact hf,
    (s.setSlot_tiles x).1, (s.setSlot_tiles x).2⟩

/-- The current tile replaced by one with the same slots keeps the slot. -/
theorem State.slot_setTile_slots {s : State} {b : Tile} (hs : b.slots = (s.tile s.cur.site).slots) :
    (s.setTile s.cur.site b).slot s.cur = s.slot s.cur := by
  cases h : s.cur with
  | tile site k =>
    rw [h] at hs
    change (s.setTile site b).slot (.tile site k) = (s.tile site).slots[k]
    rw [State.slot_setTile_of_tile, hs]; rfl
  | _ => rfl

/-- The current tile replaced by one with the same slots and bytes. -/
theorem State.besides_setTile {s : State} {b : Tile} (hs : b.slots = (s.tile s.cur.site).slots)
    (hb : b.spad = (s.tile s.cur.site).spad) : s.besides (s.setTile s.cur.site b) := by
  have hslot := State.slot_setTile_slots hs
  exact ⟨rfl, fun sl d h => by rw [hslot]; exact h, by rw [hslot], by rw [State.tile_setTile_same]; exact hb,
    fun y hy => State.tile_setTile_other _ _ _ _ hy⟩

/-- The packets under way stand beside the tiles. -/
theorem State.besides_fabric (s : State) (ps : List Packet) : s.besides { s with fabric := ps } := by
  have hslot : ({ s with fabric := ps } : State).slot s.cur = s.slot s.cur := by cases s.cur <;> rfl
  exact ⟨rfl, fun sl d h => by rw [hslot]; exact h, by rw [hslot], rfl, fun _ _ => rfl⟩

/-- What leaves the tiles and the turn leaves a tile's slot. -/
theorem State.besides_of_stays {t u : State} (hc : t.cur.isCore = false) (h : u.stays = t.stays) : t.besides u := by
  have ht : u.tiles = t.tiles := congrArg Prod.fst h
  have hcur : u.cur = t.cur := congrArg Prod.snd h
  have htile : ∀ x, u.tile x = t.tile x := fun x => by unfold State.tile; rw [ht]
  have hslot : u.slot t.cur = t.slot t.cur := by
    cases ha : t.cur with
    | tile site k => simp only [State.slot, htile]
    | _ => rw [ha] at hc; cases hc
  exact ⟨hcur, fun sl d h => by rw [hslot]; exact h, by rw [hslot], by rw [htile], fun _ _ => htile _⟩

/-! ### The turn of an access at the own banks -/

theorem countExchange_besides {m : MemOp} {t u : State} (h : countExchange m t = .ok ((), u)) :
    t.besides u ∧ u.hbm = t.hbm ∧ u.host = t.host := by
  unfold countExchange at h
  split at h
  · cases h
    exact ⟨State.besides_setSlot (fun _ _ h => h) rfl, State.setSlot_hbm .., State.setSlot_host ..⟩
  · cases h
    exact ⟨.refl _, rfl, rfl⟩

theorem privExchange_besides {m : MemOp} {off : Nat} {t u : State} (hc : t.cur.isCore = false)
    (h : privExchange m off t = .ok ((), u)) : t.besides u := by
  unfold privExchange at h
  split at h
  · cases hx : t.exchangeTurn (t.origin t.cur).idx (t.origin t.cur).vt off (t.origin t.cur).vt (t.origin t.cur).slot.val
      (t.slot t.cur).exchanges with
    | none =>
      simp only [M.bind_apply, M.get_apply, M.ok_bind, hx] at h
      cases h
    | some v =>
      simp only [M.bind_apply, M.get_apply, M.ok_bind, hx] at h
      cases h
      exact State.besides_of_stays hc (State.exchangeTurn_stays _ hx)
  · cases h
    exact .refl _

/-- What has landed at the banks of the current tile is a part of waiting. -/
theorem State.reads_settleAt {s : State} {site : Nat} {k : Fin 8} (hc : s.cur = .tile site k) (rank : Nat) :
    s.reads (s.settleAt site rank) := by
  unfold State.settleAt
  dsimp only
  split
  · exact State.reads_setTile hc (settleTile_settled _ _ _ _).reads
  · exact s.reads_refl

/-- An action of the current agent at its banks only waits. -/
theorem State.reads_bankTurn {s : State} {site : Nat} {k : Fin 8} (hc : s.cur = .tile site k) (rank : Nat) :
    s.reads (s.bankTurn site rank) := by
  have htick : s.reads (if (s.tile site).bankAt.1 == s.cycle && Nat.blt rank (s.tile site).bankAt.2 then s.tick else s) := by
    split
    · exact State.reads_clocks rfl
    · exact s.reads_refl
  have hsettle := State.reads_settleAt (htick.cur.trans hc) rank
  refine (htick.trans hsettle).trans ?_
  exact State.reads_setTile ((hsettle.cur.trans htick.cur).trans hc) ⟨rfl, rfl, rfl, rfl, rfl, rfl, rfl,
    fun _ => Slot.frame_refl _ _, fun _ => Slot.within_refl _, fun _ _ => rfl, fun _ _ => rfl⟩

theorem bankAction_reads {rank : Nat} {t : State} (hc : t.cur.isCore = false) : M.Reads (bankAction rank) t := by
  intro x u h
  cases h
  cases ha : t.cur with
  | tile site k =>
    have hr := State.reads_bankTurn ha rank
    change t.reads (t.bankTurn t.cur.site rank)
    rw [ha]
    exact hr
  | _ => rw [ha] at hc; cases hc

/-- The turn of an access at the own banks: time passes, and an exchange is counted. -/
theorem ownTurn_besides {m : MemOp} {off : Nat} {t u : State} (hc : t.cur.isCore = false) (h : ownTurn m off t = .ok ((), u)) :
    ∃ v, t.reads v ∧ v.besides u := by
  unfold ownTurn at h
  simp only [M.bind_apply, M.get_apply, M.ok_bind] at h
  cases ha : awaitVregs t with
  | error e => rw [ha] at h; cases h
  | ok r1 =>
    rw [ha, M.ok_bind] at h
    have h1 := awaitVregs_reads _ _ ha
    have hc1 : r1.2.cur.isCore = false := by rw [h1.cur]; exact hc
    cases hb : bankAction t.cur.slotNo.val r1.2 with
    | error e => rw [hb] at h; cases h
    | ok r2 =>
      rw [hb, M.ok_bind] at h
      have h2 := bankAction_reads hc1 _ _ hb
      have hc2 : r2.2.cur.isCore = false := by rw [h2.cur]; exact hc1
      cases hx : privExchange m off r2.2 with
      | error e => rw [hx] at h; cases h
      | ok r3 =>
        rw [hx, M.ok_bind] at h
        exact ⟨r2.2, h1.trans h2, (privExchange_besides hc2 hx).trans (countExchange_besides h).1⟩

/-! ### A request that travels -/

/-- A request that leaves, or stands in the interface, changes no register and no byte. -/
theorem sendRequest_besides {m : MemOp} {p : Word} {dst : Dest} {id : Nat} {w : Bool} {t u : State}
    (h : sendRequest m p dst id w t = .ok ((), u)) : t.besides u ∧ u.hbm = t.hbm ∧ u.host = t.host := by
  have hsite : (t.packet id 0 dst (.request m p w)).site = t.cur.site := rfl
  have htouch : ∀ (b : Tile) d, (b.touch d).slots = b.slots ∧ (b.touch d).spad = b.spad := fun b d => by cases d <;> exact ⟨rfl, rfl⟩
  unfold sendRequest at h
  cases hv : t.sendOff (t.packet id 0 dst (.request m p w)) with
  | none =>
    simp only [M.bind_apply, M.get_apply, M.ok_bind, hv] at h
    cases h
  | some v =>
    simp only [M.bind_apply, M.get_apply, M.ok_bind, hv] at h
    cases h
    unfold State.sendOff at hv
    dsimp only at hv
    rw [hsite] at hv
    split at hv
    · cases hv
      exact ⟨State.besides_setTile (htouch _ _).1 (htouch _ _).2, rfl, rfl⟩
    · split at hv
      · cases hv
        unfold State.inject
        dsimp only
        rw [hsite]
        split
        · refine ⟨State.besides.trans ?_ (State.besides_fabric _ _), rfl, rfl⟩
          exact State.besides_setTile (htouch _ dst).1 (htouch _ dst).2
        · exact ⟨t.besides_fabric _, rfl, rfl⟩
      · cases hv

/-! ### A destination reserved -/

/-- The slot whose destination waits for a reply. -/
theorem reserve_frame {d : Dst} {t u : State} {n id : Nat} (h : reserve (landingOf d) n t = .ok (id, u)) :
    ∃ x, u = t.setSlot t.cur x ∧ (t.slot t.cur).frame x d := by
  cases h
  refine ⟨_, rfl, ?_⟩
  cases d with
  | push =>
    dsimp only [landingOf]
    rw [Slot.push]
    split <;> simp [Slot.frame]
  | _ => exact Slot.frame_refl _ _

/-- A request that leaves changes no byte, and no register but its destination. -/
theorem remoteAccess_frame {m : MemOp} {p : Word} {dst : Dest} {d : Dst} {w : Bool} {t u : State}
    (h : remoteAccess m p dst (landingOf d) w t = .ok ((), u)) :
    (u.cur = t.cur ∧ (t.slot t.cur).frame (u.slot t.cur) d) ∧ ((u.tile t.cur.site).spad = (t.tile t.cur.site).spad
      ∧ ∀ x, x ≠ t.cur.site → u.tile x = t.tile x) ∧ u.hbm = t.hbm ∧ u.host = t.host := by
  have key : ∀ id x, (t.slot t.cur).frame x d → (sendRequest m p dst id w >>= fun _ => countExchange m) (t.setSlot t.cur x) = .ok ((), u) →
      (u.cur = t.cur ∧ (t.slot t.cur).frame (u.slot t.cur) d) ∧ ((u.tile t.cur.site).spad = (t.tile t.cur.site).spad
        ∧ ∀ x, x ≠ t.cur.site → u.tile x = t.tile x) ∧ u.hbm = t.hbm ∧ u.host = t.host := by
    intro id x hx h
    rw [M.bind_apply] at h
    cases hs : sendRequest m p dst id w (t.setSlot t.cur x) with
    | error e => rw [hs] at h; cases h
    | ok r =>
      rw [hs, M.ok_bind] at h
      obtain ⟨hb1, hh1, ho1⟩ := sendRequest_besides hs
      obtain ⟨hb2, hh2, ho2⟩ := countExchange_besides h
      obtain ⟨hcur, hregs, -, hspad, htiles⟩ := hb1.trans hb2
      obtain ⟨hspad', htiles'⟩ := t.setSlot_tiles x
      rw [State.setSlot_cur] at hcur hregs hspad htiles
      rw [State.slot_setSlot_same] at hregs
      rw [State.setSlot_hbm] at hh1
      rw [State.setSlot_host] at ho1
      exact ⟨⟨hcur, hregs _ _ hx⟩, ⟨hspad.trans hspad', fun y hy => (htiles y hy).trans (htiles' y hy)⟩, hh2.trans hh1, ho2.trans ho1⟩
  unfold remoteAccess at h
  cases w with
  | true =>
    rw [if_pos rfl, M.bind_apply] at h
    cases hr : reserve (landingOf d) 1 t with
    | error e => rw [hr] at h; cases h
    | ok r =>
      rw [hr, M.ok_bind] at h
      obtain ⟨x, hu, hx⟩ := reserve_frame hr
      rw [hu] at h
      exact key _ x hx h
  | false => exact key (t.slot t.cur).nextId { t.slot t.cur with nextId := (t.slot t.cur).nextId + 1 } (Slot.frame_refl _ _) h

/-! ### The end of an access -/

/-- The end of an instruction in sequence changes its slot alone. -/
theorem finish_seq (o : Op) (v : State) : ∃ x, finish o .seq v = v.setSlot v.cur x ∧ ∀ (sl : Slot) (d : Dst),
    sl.frame (v.slot v.cur) d → sl.frame x d :=
  ⟨_, rfl, fun _ _ h => Slot.frame_next.mpr h⟩

/-- The end of an access with its answer changes its slot alone, and there its destination. -/
theorem finish_answer (o : Op) (v : State) (f : AccessShape) (n : Nat) :
    ∃ x, finish o .seq (v.withAnswer f n) = v.setSlot v.cur x ∧ (v.slot v.cur).frame x f.dst := by
  unfold State.withAnswer
  split
  · obtain ⟨x, hx, hf⟩ := finish_seq o (v.withResult 1 0 f.dst (ofN n))
    unfold State.withResult at hx hf
    rw [State.setSlot_cur, State.setSlot_setSlot] at hx
    rw [State.setSlot_cur, State.slot_setSlot_same] at hf
    exact ⟨x, hx, hf _ _ (Slot.result_frame _ _ _ _)⟩
  · obtain ⟨x, hx, hf⟩ := finish_seq o v
    exact ⟨x, hx, hf _ _ (Slot.frame_refl _ _)⟩

/-- What is read and waited for, and then an end that changes a slot, its destination and bytes alone. -/
theorem State.reads.accessFrame {s t w : State} {d : Dst} {ws : List (Nat × Nat)} (h : s.reads t) (hc : s.cur.isCore = false)
    (hslot : (t.slot t.cur).frame (w.slot t.cur) d)
    (hbytes : ∀ a, (∀ z ∈ ws, a < z.1 ∨ z.1 + z.2 ≤ a) →
      Memory.get (w.tile t.cur.site).spad a = Memory.get (t.tile t.cur.site).spad a)
    (htiles : ∀ x, x ≠ t.cur.site → w.tile x = t.tile x) :
    s.bytesFrame w ws ∧ (s.slot s.cur).frame (w.slot s.cur) d ∧ (∀ x, x ≠ s.cur.site → w.tile x = s.tile x)
      ∧ t.hbm = s.hbm ∧ t.host = s.host := by
  obtain ⟨hcur, hf, hw, -⟩ := h
  rw [hcur] at hslot hbytes htiles
  cases ha : s.cur with
  | tile site k =>
    rw [State.registerFrame_tile ha] at hf
    obtain ⟨hsl, he, hother, hspad, -⟩ := hf
    rw [ha] at hslot hbytes htiles hw
    refine ⟨fun a hout hq => ?_, hsl.trans hw hslot, fun x hx => (htiles x hx).trans (hother x hx), by rw [he], by rw [he]⟩
    rw [ha]
    exact (hbytes a hout).trans (hspad a hq)
  | _ => rw [ha] at hc; cases hc

/-- A core reads and waits outside the tiles and the memories. -/
theorem State.reads.ofCore {s t : State} (h : s.reads t) (hc : s.cur.isCore = true) :
    (t.tiles = s.tiles ∧ t.hbm = s.hbm ∧ t.host = s.host) ∧ (t.core s.cur).mem = (s.core s.cur).mem
      ∧ (t.slot s.cur).within (s.slot s.cur) ∧ (s.slot s.cur).frame (t.slot s.cur) .discard := by
  obtain ⟨-, hf, hw, -⟩ := h
  cases ha : s.cur with
  | tile site k => rw [ha] at hc; cases hc
  | collier =>
    rw [State.registerFrame_collier ha] at hf
    obtain ⟨hsl, he, hm⟩ := hf
    rw [ha] at hw
    refine ⟨⟨by rw [he], by rw [he], by rw [he]⟩, ?_, hw, hsl⟩
    change t.collier.mem = s.collier.mem
    rw [hm]
  | stoker r =>
    rw [State.registerFrame_stoker ha] at hf
    obtain ⟨hsl, he, hm, -⟩ := hf
    rw [ha] at hw
    refine ⟨⟨by rw [he], by rw [he], by rw [he]⟩, ?_, hw, hsl⟩
    change (t.stoker r).mem = (s.stoker r).mem
    rw [hm]

/-- A core's end of an access stays in its thread. -/
theorem State.core_setSlot_mem {a : Agent} (hc : a.isCore = true) (v : State) (x : Slot) :
    ((v.setSlot a x).core a).mem = (v.core a).mem ∧ (v.setSlot a x).tiles = v.tiles := by
  rw [State.setSlot_eq_setCore hc]
  cases a with
  | tile site k => cases hc
  | collier => exact ⟨rfl, rfl⟩
  | stoker r =>
    refine ⟨?_, rfl⟩
    simp [State.core, State.setCore, State.stoker]

/-! ### An access outside the guarded phase -/

section
variable {f : AccessShape} {p : Word} {m : MemOp} {pl : Place} {t : State}

/-- Outside the guarded phase an access is performed at its place. -/
theorem AccessShape.atPlace_plain {data : Nat} (hph : inPhase t = .ok (false, t)) (hh : accessHeld f pl t = .ok ((), t)) :
    f.atPlace data p m pl t = accessTo m p pl f.dst f.wants t := by
  have hperform : f.perform p m pl t = accessTo m p pl f.dst f.wants t := by
    unfold AccessShape.perform
    rw [M.bind_ok hh]
  cases hs : f.store with
  | true =>
    rw [AccessShape.atPlace_through hs, hperform]
    unfold guardWrite
    rw [M.bind_ok hph]
    rfl
  | false =>
    have hw : takeWindow m p pl t = .ok ((), t) := by
      unfold takeWindow
      split
      · rw [M.bind_ok hph, M.bind_ok (getTile_apply t)]
        split <;> rfl
      · rfl
    unfold AccessShape.atPlace
    rw [hs, if_neg Bool.false_ne_true, M.bind_ok hw, hperform]

/-- An access outside the guarded phase that nothing holds ends as its place lets it. -/
theorem exec_access {i : Instr} {s u : State} {r : SpaceRule} (hf : accessShape i = some f) (hd : f.dst.legal = true)
    (hs : s.admits f.op) (ha : f.args s.opened = .ok ((p, m), t)) (hr : f.rule t = .ok (r, t))
    (hpl : placeOf r p (f.bytes p) (f.bytes p) t = .ok (pl, t)) (hph : inPhase t = .ok (false, t))
    (hh : accessHeld f pl t = .ok ((), t)) (hto : accessTo m p pl f.dst f.wants t = .ok (.seq, u)) :
    exec i s = .next (finish f.op .seq u) := by
  rw [exec_of_accessShape hf hd]
  exact hs.issue_ok ((AccessShape.body_apply ha hr hpl).trans ((AccessShape.atPlace_plain hph hh).trans hto))

/-- A core's access to its local memory. -/
theorem accessTo_coreLocal (a : Nat) :
    accessTo m p (.coreLocal a) f.dst f.wants t = .ok (.seq,
      let out := m.onMem (fun x => x) (fun _ => 127) (t.core t.cur).mem a
      (t.setCore t.cur { t.core t.cur with mem := out.1 }).withAnswer f out.2.2.val) :=
  accessTo_answer f rfl rfl

/-- A core's access to host memory. -/
theorem accessTo_host (k a : Nat) (hc : t.cur.isCore = true) :
    accessTo m p (.aperture k a) f.dst f.wants t = .ok (.seq,
      let out := m.onMem (fun x => x) (fun _ => 127) t.host a
      State.withAnswer { t with host := out.1 } f out.2.2.val) := by
  refine accessTo_answer f rfl ?_
  unfold access
  simp only [M.bind_apply, M.get_apply, M.ok_bind, hc, if_true]
  rfl

/-- A core's access to rim memory. -/
theorem accessTo_phys (a : Nat) (he : hbmEccHit t.hbmEcc (fun x => x) (m.reads a) = false) :
    accessTo m p (.phys a) f.dst f.wants t = .ok (.seq,
      let out := m.onMem (fun x => x) (fun _ => 127) t.hbm a
      State.withAnswer { t.sealedFor none ((m.writes a).flatMap fun w => unitsIn w.1 w.2) with
        hbm := out.1, hbmEcc := hbmEccClear t.hbmEcc (fun x => x) (m.writes a) } f out.2.2.val) := by
  refine accessTo_answer f rfl ?_
  have hr : require (!hbmEccHit t.hbmEcc (fun x => x) (m.reads a)) (.trap .ecc p) = pure () := by rw [he]; rfl
  unfold access physAccess
  simp only [M.bind_apply, M.get_apply, M.ok_bind, hr, M.pure_apply, M.set_apply]

/-- A tile's access that travels ends with its request sent. -/
theorem accessTo_remote {dst : Dest} {u : State} (hpl :
      (∃ vt off, pl = .vtile vt off ∧ dst = .vtile (t.tile t.cur.site).name.1 vt)
      ∨ (∃ va, pl = .hbm va ∧ dst = .rim ∧
        t.translates (t.launch (t.tile t.cur.site).name.1).asid (m.reads va ++ m.writes va) (m.writes va) = true)
      ∨ (∃ x off, pl = .aperture x off ∧ dst = .rim ∧ t.cur.isCore = false ∧
        t.hostInside (t.launch (t.tile t.cur.site).name.1).part (m.reads off ++ m.writes off) = true))
    (h : remoteAccess m p dst (landingOf f.dst) f.wants t = .ok ((), u)) : accessTo m p pl f.dst f.wants t = .ok (.seq, u) := by
  obtain ⟨vt, off, rfl, rfl⟩ | ⟨va, rfl, rfl, hv⟩ | ⟨x, off, rfl, rfl, hc, hv⟩ := hpl
  · exact accessTo_sent (access_vtile h)
  · exact accessTo_sent (access_hbm hv h)
  · refine accessTo_sent ?_
    unfold access
    simp only [M.bind_apply, M.get_apply, M.ok_bind, hc, Bool.false_eq_true, if_false, getLaunch_apply, hv, require_true, h, M.pure_apply]

end

/-- What a core's access leaves, once its memory has taken it: the tiles stay, and the slot but its destination. -/
theorem State.reads.coreFrame {s t v : State} {f : AccessShape} (h : s.reads t) (hc : s.cur.isCore = true) (hcur : v.cur = s.cur)
    (htiles : v.tiles = t.tiles) (hslot : v.slot s.cur = t.slot s.cur) (o : Op) (n : Nat) :
    let w := finish o .seq (v.withAnswer f n)
    (w.tiles = s.tiles ∧ w.hbm = v.hbm ∧ w.host = v.host) ∧ (w.core s.cur).mem = (v.core s.cur).mem
      ∧ (s.slot s.cur).frame (w.slot s.cur) f.dst := by
  obtain ⟨⟨ht, -, -⟩, -, hw, hsl⟩ := h.ofCore hc
  obtain ⟨x, hx, hf⟩ := finish_answer o v f n
  rw [hcur] at hx hf
  obtain ⟨hmem, hkeep⟩ := State.core_setSlot_mem hc v x
  intro w
  rw [show w = v.setSlot s.cur x from hx, State.slot_setSlot_same]
  rw [hslot] at hf
  exact ⟨⟨hkeep.trans (htiles.trans ht), State.setSlot_hbm .., State.setSlot_host ..⟩, hmem, hsl.trans hw hf⟩

/-- Settles O59: on the own banks, as a request and in a core's memories an access changes its own bytes and its destination
alone. -/
theorem accessFrame : Obligations.AccessFrame := by
  intro i f hf hd s p m r pl t hs ha hr hpl hph hh
  obtain ⟨hfound, hscalar⟩ := accessShape_finds hf _ _ ha
  have hreads : s.reads t := s.reads_opened.trans hfound
  have hfits := placeOf_fits hpl
  rw [hreads.cur] at hfits
  have hexec := fun u hto w (h : exec i s = .next w) =>
    (Host.Outcome.next.inj ((exec_access (u := u) hf hd hs ha hr hpl hph hh hto).symm.trans h)).symm
  refine ⟨fun off u b h w hp ht hperf hw => ?_, fun dst u w hpl' hrem hw => ?_, fun a w hp he hw => ?_, fun k off w hp hc hw => ?_,
    fun a w hp hw => ?_⟩
  · subst hp
    have hc : s.cur.isCore = false := hfits
    obtain ⟨v, hv, hb⟩ := ownTurn_besides (by rw [hreads.cur]; exact hc) ht
    obtain ⟨hslots, sh, hspad⟩ := Tile.perform_writes hperf
    rw [hexec _ (accessTo_answer f rfl (access_priv ht hperf)) w hw]
    obtain ⟨x, hx, hfr⟩ := finish_answer f.op (u.setTile u.cur.site b) f h.val
    obtain ⟨hcur, hregs, hfl, hsp, htl⟩ := hb
    obtain ⟨hspad', htiles'⟩ := (u.setTile u.cur.site b).setSlot_tiles x
    rw [show (u.setTile u.cur.site b).cur = u.cur from rfl] at hx hfr hspad' htiles'
    rw [State.slot_setTile_slots hslots] at hfr
    rw [State.tile_setTile_same] at hspad'
    rw [hx]
    rw [hcur] at hfr hspad hspad' htiles' ⊢
    obtain ⟨h1, h2, h3, -⟩ := (hreads.trans hv).accessFrame (ws := m.writes off) (w := (u.setTile v.cur.site b).setSlot v.cur x) hc
      (by
        rw [State.slot_setSlot_same]
        exact (hregs _ _ (Slot.frame_refl _ _)).trans (fun g hg => ⟨g, hfl ▸ hg, rfl, rfl⟩) hfr)
      (fun a hout => by rw [hspad', hspad, MemOp.get_onMem_outside hscalar _ _ _ hout, hsp])
      (fun y hy => (htiles' y hy).trans ((State.tile_setTile_other _ _ _ _ hy).trans (htl y hy)))
    exact ⟨h1, h2, h3⟩
  · have hc : s.cur.isCore = false := by
      obtain ⟨vt, off, rfl, -⟩ | ⟨va, rfl, -⟩ | ⟨x, off, -, -, hc, -⟩ := hpl'
      · exact hfits
      · exact hfits
      · rw [← hreads.cur]; exact hc
    rw [hexec _ (accessTo_remote hpl' hrem) w hw]
    obtain ⟨⟨hcur, hslot⟩, ⟨hspad, htiles⟩, hhbm, hhost⟩ := remoteAccess_frame hrem
    obtain ⟨x, hx, hfr⟩ := finish_seq f.op u
    obtain ⟨hspad', htiles'⟩ := u.setSlot_tiles x
    rw [hx]
    rw [hcur] at hfr hspad' htiles' ⊢
    obtain ⟨h1, h2, h3, h4, h5⟩ := hreads.accessFrame (ws := []) (w := u.setSlot t.cur x) hc
      (by rw [State.slot_setSlot_same]; exact hfr _ _ hslot) (fun a _ => by rw [hspad', hspad])
      (fun y hy => (htiles' y hy).trans (htiles y hy))
    exact ⟨h1, h2, (State.setSlot_hbm ..).trans (hhbm.trans h4), (State.setSlot_host ..).trans (hhost.trans h5), h3⟩
  · subst hp
    have hc : s.cur.isCore = true := hfits
    obtain ⟨⟨-, hhbm, hhost⟩, hmem, -, -⟩ := hreads.ofCore hc
    rw [hexec _ (accessTo_phys a he) w hw]
    obtain ⟨⟨htiles, hh', ho'⟩, hm', hsl⟩ := hreads.coreFrame (f := f) (v := { t.sealedFor none ((m.writes a).flatMap fun w => unitsIn w.1 w.2)
      with hbm := (m.onMem (fun x => x) (fun _ => 127) t.hbm a).1, hbmEcc := hbmEccClear t.hbmEcc (fun x => x) (m.writes a) })
      hc hreads.cur rfl (by cases s.cur <;> rfl) f.op (m.onMem (fun x => x) (fun _ => 127) t.hbm a).2.2.val
    exact ⟨htiles, ho'.trans hhost, hm'.trans (Eq.trans (by cases s.cur <;> rfl) hmem), hsl,
      fun x hx => by rw [hh', MemOp.get_onMem_outside hscalar _ _ _ hx, hhbm]⟩
  · subst hp
    rw [hreads.cur] at hc
    obtain ⟨⟨-, hhbm, hhost⟩, hmem, -, -⟩ := hreads.ofCore hc
    rw [hexec _ (accessTo_host k off (hreads.cur ▸ hc)) w hw]
    obtain ⟨⟨htiles, hh', ho'⟩, hm', hsl⟩ := hreads.coreFrame (f := f)
      (v := { t with host := (m.onMem (fun x => x) (fun _ => 127) t.host off).1 })
      hc hreads.cur rfl (by cases s.cur <;> rfl) f.op (m.onMem (fun x => x) (fun _ => 127) t.host off).2.2.val
    exact ⟨htiles, hh'.trans hhbm, hm'.trans (Eq.trans (by cases s.cur <;> rfl) hmem), hsl,
      fun x hx => by rw [ho', MemOp.get_onMem_outside hscalar _ _ _ hx, hhost]⟩
  · subst hp
    have hc : s.cur.isCore = true := hfits
    obtain ⟨⟨-, hhbm, hhost⟩, hmem, -, -⟩ := hreads.ofCore hc
    rw [hexec _ (accessTo_coreLocal a) w hw, hreads.cur]
    obtain ⟨⟨htiles, hh', ho'⟩, hm', hsl⟩ := hreads.coreFrame (f := f)
      (v := t.setCore s.cur { t.core s.cur with mem := (m.onMem (fun x => x) (fun _ => 127) (t.core s.cur).mem a).1 })
      hc ((State.setCore_cur ..).trans hreads.cur) (State.setCore_tiles ..)
      (by rw [State.slot_eq_core hc, State.slot_eq_core hc, State.core_setCore_same hc]) f.op
      (m.onMem (fun x => x) (fun _ => 127) (t.core s.cur).mem a).2.2.val
    refine ⟨htiles, hh'.trans ((State.setCore_hbm ..).trans hhbm), ho'.trans ((State.setCore_host ..).trans hhost), hsl, fun x hx => ?_⟩
    rw [hm', State.core_setCore_same hc, MemOp.get_onMem_outside hscalar _ _ _ hx, hmem]

end Sys2Proof.Machine
end

section
/-! SUPPORT. Settles O29: the guarded phase. -/

namespace Sys2Proof.Machine

/-! ### Counting and messages stand outside the phase -/

/-- The guarded phases and the threads of the tiles, rim memory and the packets under way. -/
def State.phases (s : State) : (Nat → GuardState × Vector Slot 8) × Memory × List Packet :=
  (fun x => ((s.tile x).guard, (s.tile x).slots), s.hbm, s.fabric)

theorem State.setTile_phases (s : State) (site : Nat) (t : Tile) (hg : t.guard = (s.tile site).guard)
    (hs : t.slots = (s.tile site).slots) : (s.setTile site t).phases = s.phases := by
  refine congrArg (·, s.hbm, s.fabric) (funext fun x => ?_)
  by_cases hx : x = site
  · subst hx
    rw [State.tile_setTile_same, hg, hs]
  · rw [State.tile_setTile_other _ _ _ _ hx]

theorem State.admitQueued_phases (s : State) (site n : Nat) : (s.admitQueued site n).phases = s.phases := by
  induction n generalizing s with
  | zero => rfl
  | succ n ih =>
    unfold State.admitQueued
    dsimp only
    split
    · split
      · rfl
      · exact (ih _).trans (State.setTile_phases _ _ _ rfl rfl)
    · rfl

theorem State.flueSend_phases (s : State) (src dst type tag : Nat) (payload : Word) :
    (s.flueSend src dst type tag payload).phases = s.phases := by
  unfold State.flueSend
  split
  · rfl
  · split
    · dsimp only
      split
      · exact State.admitQueued_phases _ _ _
      · rfl
    · split <;> rfl

theorem State.toCollier_phases (s : State) (region type payload : Nat) :
    (s.toCollier region type payload).phases = s.phases := by
  unfold State.toCollier
  dsimp only
  split
  · rfl
  · exact State.flueSend_phases _ _ _ _ _ _

/-- What every step of a fold keeps the whole fold keeps. -/
theorem State.foldl_phases {α : Type} (f : State → α → State) (h : ∀ s x, (f s x).phases = s.phases) (xs : List α) (s : State) :
    (xs.foldl f s).phases = s.phases := by
  induction xs generalizing s with
  | nil => rfl
  | cons x xs ih => exact (ih (f s x)).trans (h s x)

theorem State.sendStats_phases (s : State) (region idx : Nat) : (s.sendStats region idx).phases = s.phases := by
  unfold State.sendStats
  refine State.foldl_phases _ (fun s x => ?_) _ _
  split
  · rfl
  · exact State.toCollier_phases _ _ _ _

theorem State.countAt_phases (s : State) (site idx : Nat) (f : ErrorLog → ErrorLog) : (s.countAt site idx f).phases = s.phases := by
  unfold State.countAt
  dsimp only
  split
  · rfl
  · split
    · rfl
    · exact State.sendStats_phases _ _ _

theorem State.spend_phases (s : State) (a : Agent) (n : Nat) : (s.spend a n).phases = s.phases := by
  cases a with
  | tile site k => exact State.setTile_phases _ _ _ rfl rfl
  | _ => rfl

/-! ### A rejection -/

/-- The guarded phase after a rejection. -/
def GuardState.rejected (reason cause : Nat) : GuardState :=
  { stage := .exact, window := none, caught := [], used := 0, reason, cause }

/-- A tile's phase and threads after a thread start. -/
theorem State.startThread_phases (s : State) (site : Nat) (k : Fin 8) (res : Bool) (pc : Half) :
    ∃ seed at', (s.startThread site k res pc).phases
      = (s.setTile site { s.tile site with
          hold := (s.tile site).hold.filter (fun h => h.slot != k)
          slots := (s.tile site).slots.set k { (s.tile site).slots[k].start res seed pc with started := at' } }).phases :=
  ⟨_, _, State.foldl_phases _ (fun _ _ => State.countAt_phases _ _ _ _) _ _⟩

/-- The tile of a rejected phase, before the resident thread starts anew. -/
def State.rejectedTile (s : State) (site reason cause : Nat) : Tile :=
  { s.tile site with
    guard := .rejected reason cause
    spad := scrambleBuffer ((s.launch (s.tile site).name.1).pkt.guardbase * 128) ((s.launch (s.tile site).name.1).pkt.guardsize * 128)
      (s.freeAt (.tile site 0)) (s.tile site).spad }

theorem State.rejectPhase_phases (s : State) (site reason cause : Nat) :
    (s.rejectPhase site reason cause).phases
      = (((s.setTile site (s.rejectedTile site reason cause)).spend (.tile site 0)
          ((s.launch (s.tile site).name.1).pkt.guardsize * 128)).startThread site 0 true
          (BitVec.ofNat 16 (s.launch (s.tile site).name.1).pkt.exact)).phases := by
  unfold State.rejectPhase
  exact State.countAt_phases _ _ _ _

/-- What a rejection leaves: the phase, the thread of slot 0, and rim memory and the fabric as they were. -/
theorem State.rejectPhase_tile (s : State) (site reason cause : Nat) :
    ((s.rejectPhase site reason cause).tile site).guard = .rejected reason cause
      ∧ (∃ sl : Slot, ∃ seed at', ((s.rejectPhase site reason cause).tile site).slots[(0 : Fin 8)]
          = { sl.start true seed (BitVec.ofNat 16 (s.launch (s.tile site).name.1).pkt.exact) with started := at' })
      ∧ (s.rejectPhase site reason cause).hbm = s.hbm ∧ (s.rejectPhase site reason cause).fabric = s.fabric := by
  have hu := s.rejectPhase_phases site reason cause
  generalize hv : (s.setTile site (s.rejectedTile site reason cause)).spend (.tile site 0)
    ((s.launch (s.tile site).name.1).pkt.guardsize * 128) = v at hu
  have hvp : v.phases = (s.setTile site (s.rejectedTile site reason cause)).phases := by
    rw [← hv]
    exact State.spend_phases _ _ _
  have hvg : (v.tile site).guard = .rejected reason cause := by
    have := congrArg Prod.fst (congrFun (congrArg Prod.fst hvp) site)
    simp only [State.phases, State.tile_setTile_same] at this
    exact this
  have hvr : (v.hbm, v.fabric) = (s.hbm, s.fabric) := congrArg Prod.snd hvp
  obtain ⟨seed, at', hw⟩ := v.startThread_phases site 0 true (BitVec.ofNat 16 (s.launch (s.tile site).name.1).pkt.exact)
  have h := hu.trans hw
  have htile := congrFun (congrArg Prod.fst h) site
  have hrest := (congrArg Prod.snd h).trans hvr
  simp only [State.phases, State.tile_setTile_same, Prod.mk.injEq] at htile hrest
  refine ⟨htile.1.trans hvg, ⟨(v.tile site).slots[(0 : Fin 8)], seed, at', ?_⟩, hrest.1, hrest.2⟩
  rw [htile.2]
  exact Vector.getElem_set_self ..

/-- A synchronous cause of a USER-mode slot in a phase that is not accepted rejects it, but for BRK and the counter fault. -/
theorem State.takeTrap_rejects {s : State} {c : Cause} {site : Nat} {k : Fin 8} (hc : s.cur = .tile site k) (tv : Word) (ret : Half)
    (hr : (s.advance s.cur (s.slot s.cur).lastDue).rejects site k c = true) :
    s.takeTrap c tv ret = (s.advance s.cur (s.slot s.cur).lastDue).rejectFor site c := by
  unfold State.takeTrap
  rw [hc] at hr ⊢
  simp only [hr, if_true]

theorem rejectedPhase : Claim.RejectedPhase := by
  refine ⟨?_, ?_⟩
  · intro s c tv ret site k hc u t hsys hstage hused hcause
    have hguarded : t.guarded = true := by
      unfold Tile.guarded
      rcases hstage with h | h <;> rw [h] <;> rfl
    have hkind : (!c.isAsync && c != .brk && c != .counter) = true := by
      cases c <;> first | rfl | exact absurd (by decide) hcause
    have hrej : u.rejects site k c = true := by
      have hacc : t.guard.releasing = false := beq_eq_false_iff_ne.mpr hused
      simp only [Bool.and_eq_true] at hkind
      unfold State.rejects
      simp only [Bool.and_eq_true, Bool.not_eq_true']
      exact ⟨⟨⟨⟨⟨hsys, hguarded⟩, hacc⟩, by simpa using hkind.1.1⟩, hkind.1.2⟩, hkind.2⟩
    rw [State.takeTrap_rejects hc tv ret hrej]
    unfold State.rejectFor
    simp only [beq_iff_eq]
    rfl
  · intro s site reason cause u g
    obtain ⟨hg, ⟨sl, seed, at', hsl⟩, hhbm, hfabric⟩ := s.rejectPhase_tile site reason cause
    simp only [g, u, hg, hsl]
    exact ⟨rfl, rfl, rfl, rfl, rfl, rfl, rfl, rfl, hhbm, hfabric⟩

/-! ### GRES and GEND -/

section
variable {s : State}

/-- The verdict on a residual: NaN, within the tolerance, or neither. -/
theorem residualReason_eq (gresid gtol : BitVec 32) :
    ((∃ q, floatVal 4 gresid.toNat = .nan q) → residualReason gresid gtol = some 2)
    ∧ ((¬ ∃ q, floatVal 4 gresid.toNat = .nan q) →
      (cmpVal (floatVal 4 (gresid.toNat % 2 ^ 31)) (floatVal 4 gtol.toNat) = some .lt
        ∨ cmpVal (floatVal 4 (gresid.toNat % 2 ^ 31)) (floatVal 4 gtol.toNat) = some .eq → residualReason gresid gtol = none)
      ∧ (¬ (cmpVal (floatVal 4 (gresid.toNat % 2 ^ 31)) (floatVal 4 gtol.toNat) = some .lt
        ∨ cmpVal (floatVal 4 (gresid.toNat % 2 ^ 31)) (floatVal 4 gtol.toNat) = some .eq) → residualReason gresid gtol = some 1)) := by
  unfold residualReason
  refine ⟨fun ⟨q, hq⟩ => by rw [hq], fun hn => ?_⟩
  split
  case h_1 q hq => exact absurd ⟨q, hq⟩ hn
  case h_2 =>
    refine ⟨fun h => ?_, fun h => ?_⟩
    · rcases h with h | h <;> rw [h]
    · split
      case h_1 h' => exact absurd (.inl h') h
      case h_2 h' => exact absurd (.inr h') h
      case h_3 => rfl

/-- The verdict of GEND in the check stage. -/
theorem gendVerdict_check (hstage : (s.tile s.cur.site).guard.stage = .check) :
    gendVerdict s = .ok (residualReason (s.tile s.cur.site).gresid (s.launch (s.tile s.cur.site).name.1).pkt.gtol, s) := by
  have hstage' : ((s.tile s.cur.site).guard.stage == .check) = true := by rw [hstage]; rfl
  simp only [gendVerdict, M.bind_apply, getTile_apply, getLaunch_apply, M.ok_bind, hstage', require_true, M.pure_apply]

/-- GEND outside the check stage is illegal. -/
theorem gendVerdict_illegal (hstage : (s.tile s.cur.site).guard.stage ≠ .check) :
    gendVerdict s = .error (.word .illegalInstruction) := by
  have hstage' : ((s.tile s.cur.site).guard.stage == .check) = false := by
    cases h : (s.tile s.cur.site).guard.stage <;> first | rfl | exact absurd h hstage
  simp only [gendVerdict, M.bind_apply, getTile_apply, getLaunch_apply, M.ok_bind, hstage', require_false, M.throw_apply, M.error_bind]

/-- GRES elsewhere than in the surrogate stage is illegal. -/
theorem execGres_illegal {stl : Stl} (hs : s.admits (opA 0x3A 0 stl 0 0 0))
    (hstage : (s.opened.tile s.opened.cur.site).guard.stage ≠ .surrogate) :
    exec (.gres stl) s = .next (s.takeTrap .illegalInstruction (ofN (opA 0x3A 0 stl 0 0 0).word) (s.slot s.cur).pc) := by
  have hstage' : ((s.opened.tile s.opened.cur.site).guard.stage == .surrogate) = false := by
    cases h : (s.opened.tile s.opened.cur.site).guard.stage <;> first | rfl | exact absurd h hstage
  refine hs.issue_word ?_
  simp only [M.bind_apply, getTile_apply, getLaunch_apply, M.ok_bind, hstage', require_false, M.throw_apply, M.error_bind]

variable {stl : Stl} (hs : s.admits (opA 0x3A 1 stl 0 0 0))
include hs

/-- GEND with a verdict against the phase rejects it. -/
theorem execGend_rejects {r : Nat} (hv : gendVerdict s.opened = .ok (some r, s.opened)) :
    exec (.gend stl) s = .next (finish (opA 0x3A 1 stl 0 0 0) .ended (s.opened.rejectPhase s.opened.cur.site r 0)) := by
  have hx : exec (.gend stl) s = execGend stl s := rfl
  rw [hx]
  simp only [execGend, M.bind_ok hs.openIssue, hv]
  refine hs.issue_ok ?_
  simp only [gendBody, M.bind_apply, hv, M.ok_bind, M.get_apply, M.set_apply, M.pure_apply]

/-- GEND that finds no verdict is illegal. -/
theorem execGend_illegal (hv : gendVerdict s.opened = .error (.word .illegalInstruction)) :
    exec (.gend stl) s = .next (s.takeTrap .illegalInstruction (ofN (opA 0x3A 1 stl 0 0 0).word) (s.slot s.cur).pc) := by
  have hx : exec (.gend stl) s = execGend stl s := rfl
  rw [hx]
  simp only [execGend, M.bind_ok hs.openIssue, hv]
  refine hs.issue_word ?_
  simp only [gendBody, M.bind_apply, hv, M.error_bind]

/-- GEND of an accepted phase issues a captured access, or waits until it may. -/
theorem execGend_issues {c : Captured} {rest : List Captured} (hv : gendVerdict s.opened = .ok (none, s.opened))
    (hc : (s.opened.tile s.opened.cur.site).guard.caught = c :: rest) :
    let x := s.opened.openBuffer s.opened.cur.site
    (∀ u, x.releaseCaptured c = some u → exec (.gend stl) s = .next ((u.setTile x.cur.site { u.tile x.cur.site with
      guard := { (u.tile x.cur.site).guard with caught := rest } }).hold .held))
    ∧ (x.releaseCaptured c = none → exec (.gend stl) s = .next (x.hold .held)) := by
  intro x
  have hx : exec (.gend stl) s = execGend stl s := rfl
  have hc' := (s.opened.openBuffer_caught s.opened.cur.site).trans hc
  refine ⟨fun u hu => ?_, fun hu => ?_⟩
  all_goals
    rw [hx]
    simp only [x] at hu
    simp only [execGend, M.bind_ok hs.openIssue, hv, State.openBuffer_cur, hc', hu, x]

end

theorem guardedPhaseResults : Claim.GuardedPhaseResults := by
  intro stl s t l o size nan within
  obtain ⟨hnan, hnum⟩ := residualReason_eq t.gresid l.pkt.gtol
  refine ⟨fun hs => ⟨fun h => ?_, fun h => execGres_illegal hs h⟩, fun hs hstage => ?_, fun hs h => execGend_illegal hs (gendVerdict_illegal h)⟩
  · exact execGres_checks hs h
  · have hv := gendVerdict_check hstage
    refine ⟨fun hin hc => ?_, fun hn => execGend_rejects hs (hv.trans (by rw [hnan hn])), fun hn hout => ?_, fun c rest u hin hc => ?_⟩
    · exact gend_complete hs hstage hc ((hnum hin.1).1 hin.2)
    · exact execGend_rejects hs (hv.trans (by rw [(hnum hn).2 fun h => hout ⟨hn, h⟩]))
    · have hi := execGend_issues hs (hv.trans (by rw [(hnum hin.1).1 hin.2])) hc
      exact ⟨hi.1 u, hi.2⟩

/-! ### GQRY and GWIN -/

/-- A window that is whole lines, not empty, inside the scratchpad and beside the buffer. -/
def Launch.windowOk (l : Launch) (x y : Word) : Prop :=
  x.toNat % 128 = 0 ∧ y.toNat % 128 = 0 ∧ y.toNat ≠ 0 ∧ x.toNat + y.toNat ≤ 131072
    ∧ (x.toNat + y.toNat ≤ l.pkt.guardbase * 128 ∨ (l.pkt.guardbase + l.pkt.guardsize) * 128 ≤ x.toNat)

theorem Launch.windowOk_iff (l : Launch) (x y : Word) :
    (x.toNat % 128 == 0 && y.toNat % 128 == 0 && y.toNat != 0 && Nat.ble (x.toNat + y.toNat) Config.spadBytes
      && (Nat.ble (x.toNat + y.toNat) (l.pkt.guardbase * 128)
        || Nat.ble (l.pkt.guardbase * 128 + l.pkt.guardsize * 128) x.toNat)) = true ↔ l.windowOk x y := by
  simp only [Launch.windowOk, ble_eq_decide, Bool.and_eq_true, Bool.or_eq_true, beq_iff_eq, bne_iff_ne, decide_eq_true_eq,
    ← Nat.add_mul, and_assoc]
  exact Iff.rfl

section
variable {stl : Stl} {a b : Src} {s t : State} {x y : Word} (hs : s.admits (opA 0x3A 3 stl 0 a.code b.code))
  (hr : read2 a b s.opened = .ok ((x, y), t))
include hs hr

/-- GWIN in a phase sets a window that is right. -/
theorem execGwin_sets (hg : (t.tile t.cur.site).guarded = true) (hok : (t.launch (t.tile t.cur.site).name.1).windowOk x y) :
    exec (.gwin stl a b) s = .next (finish (opA 0x3A 3 stl 0 a.code b.code) .seq
      (t.withGuard { (t.tile t.cur.site).guard with window := some (x.toNat, y.toNat) })) := by
  refine hs.issue_ok ?_
  simp only [M.bind_apply, hr, M.ok_bind, getTile_apply, getLaunch_apply, hg, if_true, (Launch.windowOk_iff ..).mpr hok, require_true,
    M.pure_apply, modTile_apply, State.withGuard]

/-- GWIN in a phase with another window is an illegal operand. -/
theorem execGwin_illegal (hg : (t.tile t.cur.site).guarded = true) (hno : ¬ (t.launch (t.tile t.cur.site).name.1).windowOk x y) :
    exec (.gwin stl a b) s
      = .next (s.takeTrap .illegalOperand (ofN (opA 0x3A 3 stl 0 a.code b.code).word) (s.slot s.cur).pc) := by
  refine hs.issue_word ?_
  simp only [M.bind_apply, hr, M.ok_bind, getTile_apply, getLaunch_apply, hg, if_true,
    eq_false_of_ne_true (mt (Launch.windowOk_iff ..).mp hno), require_false, M.throw_apply, M.error_bind]

/-- GWIN outside a phase changes nothing. -/
theorem execGwin_outside (hg : (t.tile t.cur.site).guarded = false) :
    exec (.gwin stl a b) s = .next (finish (opA 0x3A 3 stl 0 a.code b.code) .seq t) := by
  refine hs.issue_ok ?_
  simp only [M.bind_apply, hr, M.ok_bind, getTile_apply, getLaunch_apply, hg, Bool.false_eq_true, if_false, M.pure_apply]

end

theorem guardQueryAndWindow : Claim.GuardQueryAndWindow := by
  refine ⟨?_, ?_⟩
  · intro stl d s hd hs t g
    refine hs.issue_ok ?_
    simp only [M.bind_apply, checkDst_legal hd, M.pure_apply, M.ok_bind, getTile_apply, getLaunch_apply]
    rfl
  · intro stl a b s x y t hs hr c l ok
    exact ⟨fun hg hok => execGwin_sets hs hr hg hok, fun hg => execGwin_outside hs hr hg, fun hg hno => execGwin_illegal hs hr hg hno⟩

/-- Settles O29: the stages, the rejection, and GQRY and GWIN. -/
theorem guardedPhase : Obligations.GuardedPhase := ⟨guardedPhaseResults, rejectedPhase, guardQueryAndWindow⟩

end Sys2Proof.Machine
end

section
/-! SUPPORT. Settles O31: SAVEQ and RESTQ. -/

namespace Sys2Proof.Machine

/-! ### The bodies of SAVEQ and RESTQ -/

/-- A tile replaced twice is the one put there last. -/
theorem State.setTile_setTile (s : State) (site : Nat) (a b : Tile) : (s.setTile site a).setTile site b = s.setTile site b := by
  simp only [State.setTile, Table.put_put]

/-- The record of a slot in its tile's save area. -/
def State.recordBase (s : State) : Nat := (s.launch (s.tile s.cur.site).name.1).pkt.recordAt s.cur.slotNo.val

section
variable {s : State} {treg : Bool}

theorem checkTreg_ok (h : treg = true → (s.launch (s.tile s.cur.site).name.1).blockReserved = true) : checkTreg treg s = .ok ((), s) := by
  have hb : (!treg || (s.launch (s.tile s.cur.site).name.1).blockReserved) = true := by
    cases treg with
    | false => rfl
    | true => exact h rfl
  simp only [checkTreg, M.bind_apply, getLaunch_apply, M.ok_bind, hb, require_true, M.pure_apply]

theorem checkTreg_illegal (h : (s.launch (s.tile s.cur.site).name.1).blockReserved = false) :
    checkTreg true s = .error (.word .illegalOperand) := by
  simp only [checkTreg, M.bind_apply, getLaunch_apply, M.ok_bind, h, Bool.not_true, Bool.or_false, require_false, M.throw_apply]

/-- The tile with the record of the current slot saved. -/
def State.savedTile (s : State) : Tile := (s.tile s.cur.site).saveRecord s.recordBase s.cur.slotNo

/-- SAVEQ without TREG saves the record. -/
theorem saveqBody_record : saveqBody false s = .ok ((), s.setTile s.cur.site s.savedTile) := by
  unfold saveqBody
  rw [M.bind_ok (checkTreg_ok (by simp))]
  rfl

/-- SAVEQ with TREG at a free engine saves the block too. -/
theorem saveqBody_block (hb : (s.launch (s.tile s.cur.site).name.1).blockReserved = true)
    (hm : s.savedTile.matrixBusy s.cycle = false) :
    saveqBody true s = .ok ((), s.setTile s.cur.site
      (s.savedTile.saveBlock (s.launch (s.tile s.cur.site).name.1).pkt.blockAt)) := by
  have hm' : ((s.setTile s.cur.site s.savedTile).tile s.cur.site).matrixBusy s.cycle = false := by
    rw [State.tile_setTile_same]; exact hm
  unfold saveqBody
  rw [M.bind_ok (checkTreg_ok fun _ => hb), M.bind_ok (M.get_apply s), M.bind_ok (getLaunch_apply s), M.bind_ok (modTile_apply _ s)]
  change (getTile >>= _) (s.setTile s.cur.site s.savedTile) = _
  rw [M.bind_ok (getTile_apply _)]
  change (require (!((s.setTile s.cur.site s.savedTile).tile s.cur.site).matrixBusy s.cycle) _ >>= _) _ = _
  rw [hm']
  change Except.ok ((), (s.setTile s.cur.site s.savedTile).setTile s.cur.site
    (((s.setTile s.cur.site s.savedTile).tile s.cur.site).saveBlock _)) = _
  rw [State.setTile_setTile, State.tile_setTile_same]

/-! ### The reads of a record -/

/-- A range of n doublewords without an uncorrectable word is read. -/
theorem recordRead_ok {off n : Nat} (h : ∀ i, i < n / 8 → off / 8 + i ∉ (s.tile s.cur.site).eccWords) :
    recordRead off n s = .ok ((), s) := by
  have hf : ((List.range (n / 8)).find? fun i => (s.tile s.cur.site).eccWords.contains (off / 8 + i)) = none := by
    rw [List.find?_eq_none]
    intro i hi
    simpa using h i (List.mem_range.mp hi)
  unfold recordRead
  rw [M.bind_ok (getTile_apply s), hf]
  rfl

/-- The first uncorrectable word of a range faults with its private alias. -/
theorem recordRead_ecc {off n i : Nat} (hi : i < n / 8) (he : off / 8 + i ∈ (s.tile s.cur.site).eccWords)
    (hfirst : ∀ j, j < i → off / 8 + j ∉ (s.tile s.cur.site).eccWords) :
    recordRead off n s = .error (.trap .ecc (ofN (2 * 2 ^ 56 + off + 8 * i))) := by
  have hf : ((List.range (n / 8)).find? fun i => (s.tile s.cur.site).eccWords.contains (off / 8 + i)) = some i := by
    rw [List.find?_range_eq_some]
    refine ⟨by simpa using he, List.mem_range.mpr hi, fun j hj => ?_⟩
    simpa using hfirst j hj
  unfold recordRead
  rw [M.bind_ok (getTile_apply s), hf]
  rfl

/-- The state with the record of the current slot restored, its free values drawn. -/
def State.recordRestored (s : State) : State :=
  (s.setTile s.cur.site ((s.tile s.cur.site).restoreRecord s.recordBase (s.freeAt s.cur) s.cur.slotNo)).spend s.cur 128

variable (ht : treg = true → (s.launch (s.tile s.cur.site).name.1).blockReserved = true)
include ht

/-- RESTQ of a record with an uncorrectable word. -/
theorem restqBody_ecc {e : Stop} (h : recordRead s.recordBase 3072 s = .error e) : restqBody treg s = .error e := by
  unfold restqBody
  rw [M.bind_ok (checkTreg_ok ht), M.bind_ok (M.get_apply s), M.bind_ok (getLaunch_apply s), M.bind_ok (getTile_apply s)]
  exact M.bind_error h

variable (hr : recordRead s.recordBase 3072 s = .ok ((), s))
include hr

/-- RESTQ of a record that holds no thread. -/
theorem restqBody_empty (h : (s.tile s.cur.site).recThread s.recordBase = false) :
    restqBody treg s = .error (.word .illegalOperand) := by
  unfold restqBody
  rw [M.bind_ok (checkTreg_ok ht), M.bind_ok (M.get_apply s), M.bind_ok (getLaunch_apply s), M.bind_ok (getTile_apply s)]
  refine (M.bind_ok hr).trans ?_
  change (require ((s.tile s.cur.site).recThread s.recordBase) _ >>= _) s = _
  rw [h]
  rfl

/-- RESTQ of a record that holds a thread goes on to the block with the record restored. -/
theorem restqBody_record (h : (s.tile s.cur.site).recThread s.recordBase = true) :
    restqBody treg s = (if treg = true then do
      recordRead (s.launch (s.tile s.cur.site).name.1).pkt.blockAt 8256
      modTile fun t => t.restoreBlock (s.launch (s.tile s.cur.site).name.1).pkt.blockAt
    else pure () : M Unit) s.recordRestored := by
  unfold restqBody
  rw [M.bind_ok (checkTreg_ok ht), M.bind_ok (M.get_apply s), M.bind_ok (getLaunch_apply s), M.bind_ok (getTile_apply s)]
  refine (M.bind_ok hr).trans ?_
  change (require ((s.tile s.cur.site).recThread s.recordBase) _ >>= _) s = _
  rw [h]
  rfl

end

/-- Settles O31: SAVEQ and RESTQ, each without and with TREG. -/
theorem saveAndRestoreResults : Obligations.SaveAndRestoreResults := by
  refine ⟨fun stl s hs => ?_, ?_, ?_, ?_⟩
  · exact hs.issue_ok (M.bind_ok saveqBody_record)
  · intro stl s hs t l r
    refine ⟨fun hb hm => hs.issue_ok (M.bind_ok (saveqBody_block hb hm)), fun hb => hs.issue_word ?_⟩
    exact M.bind_error (M.bind_error (checkTreg_illegal hb))
  · intro stl s hs t b base trap
    refine ⟨fun hclean => ?_, fun i hi he hfirst => ?_⟩
    · have hr : recordRead t.recordBase 3072 t = .ok ((), t) := recordRead_ok hclean
      refine ⟨fun hrec => hs.issue_ok (M.bind_ok ((restqBody_record (absurd · (by decide)) hr hrec).trans rfl)), fun hrec => hs.issue_word ?_⟩
      exact M.bind_error (restqBody_empty (absurd · (by decide)) hr hrec)
    · exact hs.issue_trap (M.bind_error (restqBody_ecc (absurd · (by decide)) (recordRead_ecc hi he hfirst)))
  · intro stl s hs t b l base u hb hclean hrec hblock
    have hr : recordRead t.recordBase 3072 t = .ok ((), t) := recordRead_ok hclean
    have hblk : recordRead l.pkt.blockAt 8256 u = .ok ((), u) := recordRead_ok hblock
    refine hs.issue_ok (M.bind_ok (x := ()) ((restqBody_record (fun _ => hb) hr hrec).trans ?_))
    rw [if_pos (show ((1 : BitVec 1) == 1) = true from rfl)]
    exact M.bind_ok hblk

end Sys2Proof.Machine
end

section
/-! SUPPORT. Settles O27: copy jobs start with their tickets and geometry. -/

namespace Sys2Proof.Machine

/-! ### The issue of a copy -/

theorem writeDst_apply (lam : Nat) (fl : BitVec 6) (d : Dst) (v : Word) (s : State) :
    writeDst lam fl d v s = .ok ((), s.withResult lam fl d v) := rfl

/-- A ticket as a result. -/
theorem ticket_word (t : BitVec 32) : t.setWidth 64 = ofN t.toNat := by
  apply BitVec.eq_of_toNat_eq
  rw [BitVec.toNat_setWidth, ofN, BitVec.toNat_ofNat]

section
variable {d : Dst} {ti off : Word} {dig : Bool} {fo : M (Option (BitVec 32 × Word))} {f : Option (BitVec 32 × Word)} {u t : State}
  (hph : inPhase u = .ok (false, u))
include hph

/-- While 16 jobs are outstanding a copy waits. -/
theorem issueJob_full (hfull : 16 ≤ (u.tile u.cur.site).jobs.length) : issueJob d ti off dig fo u = .error (.wait .held) := by
  have hb : Nat.blt (u.tile u.cur.site).jobs.length 16 = false := by
    rw [← Bool.not_eq_true, Nat.blt_eq]
    exact not_lt.mpr hfull
  unfold issueJob
  simp only [M.bind_apply, getTile_apply, M.ok_bind, hph, Bool.false_and, Bool.false_or, hb, require_false, M.throw_apply,
    M.error_bind]

/-- A copy that passes its checks starts its job and answers its ticket. -/
theorem issueJob_starts (hti : ti.toNat ≤ 63) (hroom : (u.tile u.cur.site).jobs.length < 16) (hfo : fo u = .ok (f, t))
    (hearly : checkJobEarly (geometry (u.tile u.cur.site).templates[(Fin.ofNat 64 ti.toNat : Fin 64)] off) dig t = .ok ((), t))
    (hlate : checkJobLate (geometry (u.tile u.cur.site).templates[(Fin.ofNat 64 ti.toNat : Fin 64)] off) t = .ok ((), t))
    (hgate : fenceGate true true t = .ok ((), t)) :
    issueJob d ti off dig fo u = .ok (.seq,
      let w := t.beginJob t.cur.site t.cur.slotNo
        (geometry (u.tile u.cur.site).templates[(Fin.ofNat 64 ti.toNat : Fin 64)] off) dig f
      w.withResult 1 0 d (ofN (w.tile w.cur.site).lastTicket.toNat)) := by
  unfold issueJob
  simp only [M.bind_apply, getTile_apply, M.ok_bind, hph, Bool.false_and, Bool.false_or, Nat.blt_eq.mpr hroom, require_true,
    M.pure_apply, Nat.ble_eq_true_of_le hti, hfo, hearly, M.get_apply, Bool.false_eq_true, if_false, hlate, Bool.not_false,
    Bool.true_or, hgate, M.modify_apply, writeDst_apply, ticket_word]

end

section
variable {o : Op} {d : Dst} {a b : Src} {s u : State} {ti off : Word} {dig : Bool} {fo : M (Option (BitVec 32 × Word))}

/-- The body of XCOPY, XCOPYM and XDIG, once its operands are read. -/
theorem issueJob_body (hd : d.legal = true) (hr : read2 a b s = .ok ((ti, off), u)) :
    (do
      checkDst d
      let (t, o) ← read2 a b
      issueJob d t o dig fo : M Flow) s = issueJob d ti off dig fo u := by
  simp only [M.bind_apply, checkDst_legal hd, M.pure_apply, M.ok_bind, hr]

end

theorem copyJobsStart : Claim.CopyJobsStart := by
  intro o i d s dig ti off f u t hd hs hi hti g hph
  obtain ⟨body, fo, hexec, hbody, hfo⟩ : ∃ body fo, exec i s = issue o body s
      ∧ body s.opened = issueJob d ti off dig fo u ∧ fo u = .ok (f, t) := by
    rcases hi with ⟨stl, a, b, rfl, rfl, rfl, rfl, rfl, hr⟩ | ⟨stl, a, b, rfl, rfl, rfl, rfl, rfl, hr⟩
      | ⟨stl, a, b, rfl, rfl, rfl, hr, hf⟩
    · exact ⟨_, pure none, rfl, issueJob_body hd hr, rfl⟩
    · exact ⟨_, pure none, rfl, issueJob_body hd hr, rfl⟩
    · exact ⟨_, readFollow, rfl, issueJob_body hd hr, hf⟩
  rw [hexec]
  exact ⟨fun hfull => hs.issue_wait (hbody.trans (issueJob_full hph hfull)),
    fun hroom hearly hlate hgate => hs.issue_ok (hbody.trans (issueJob_starts hph hti hroom hfo hearly hlate hgate))⟩

/-! ### The record of a job -/

/-- The lines of a list are empty afterwards, and no other changes. -/
theorem getLsbD_markEmpty (fe : BitVec 1024) (ls : List Nat) {i : Nat} (hi : i < 1024) :
    (markEmpty fe ls).getLsbD i = (fe.getLsbD i && !decide (i ∈ ls)) := by
  unfold markEmpty
  induction ls generalizing fe with
  | nil => simp
  | cons k ls ih =>
    have hbit : (1#1024 <<< k).getLsbD i = decide (i = k) := by
      rw [BitVec.getLsbD_shiftLeft, BitVec.getLsbD_one]
      by_cases hk : i = k
      · simp [hk, hk ▸ hi]
      · have : i - k = 0 → i < k := by omega
        by_cases hlt : i < k
        · simp [hlt, hk]
        · have h0 : ¬ i - k = 0 := by omega
          simp [hk, h0]
    rw [List.foldl_cons, ih, BitVec.getLsbD_and, BitVec.getLsbD_not, hbit]
    by_cases hk : i = k <;> simp [hk, hi]

/-- A signed field of a word. -/
theorem toSigned_field (x : Nat) : toSigned 32 x = laneS 32 (x % 2 ^ 32) := by
  rw [← toSigned_eq_laneS (by decide) (Nat.mod_lt _ (by decide)), toSigned, toSigned, Nat.mod_mod]

/-- The ticket after one: 0 is skipped. -/
theorem nextTicket_toNat (t : BitVec 32) : (nextTicket t).toNat = if t.toNat = 2 ^ 32 - 1 then 1 else t.toNat + 1 := by
  have ht := t.isLt
  have h0 : t + 1 = 0 ↔ t.toNat = 2 ^ 32 - 1 := by
    rw [← BitVec.toNat_inj, BitVec.toNat_add]
    change (t.toNat + 1) % 2 ^ 32 = 0 ↔ _
    omega
  unfold nextTicket
  simp only [h0]
  split
  · rfl
  · rw [BitVec.toNat_add]
    change (t.toNat + 1) % 2 ^ 32 = _
    omega

theorem copyJobRecord : Claim.CopyJobRecord := by
  intro t now k v o f g b
  have ho := o.isLt
  have hs : bitsOf o.toNat 31 0 % 2 ^ 32 = o.toNat % 2 ^ 32 := by simp only [bitsOf]; omega
  have hd : bitsOf o.toNat 63 32 % 2 ^ 32 = o.toNat / 2 ^ 32 := by simp only [bitsOf]; omega
  refine ⟨?_, ?_, ?_, ?_, nextTicket_toNat _, by simp [b, Tile.startJob], rfl, rfl, fun i hi => ?_⟩
  · have hv : BitVec.ofNat 64 (bitsOf v.toNat 63 0) = ofN (v.toNat % 2 ^ 64) := by simp [bitsOf, ofN]
    simp only [g, geometry]
    rw [ptrAdd_eq_movedPtr, toSigned_field, hs, hv]
  · have hv : BitVec.ofNat 64 (bitsOf v.toNat 127 64) = ofN (v.toNat / 2 ^ 64) := by
      apply BitVec.eq_of_toNat_eq
      simp [bitsOf, ofN]
    simp only [g, geometry]
    rw [ptrAdd_eq_movedPtr, toSigned_field, hd, hv]
  · simp [g, geometry, bitsOf]
  · simp [g, geometry, bitsOf]
  · exact getLsbD_markEmpty _ _ hi

/-- Settles O27: a copy starts its job, and what the job and the tile hold then. -/
theorem copyJobs : Obligations.CopyJobs := ⟨copyJobsStart, copyJobRecord⟩

end Sys2Proof.Machine
end

section
/-! SUPPORT. Settles O39: the steps of the copy engine and of streams, beside those that O60 needs. -/

namespace Sys2Proof.Machine

/-! ### Copy jobs -/

section
variable {s : State} {site ticket : Nat} {j : CopyJob} {before : List CopyJob}
  (hj : (s.tile site).findJob ticket = some (j, before))
include hj

section
variable (hw : j.written = false) (hrow : s.halted = false ∨ j.moved % j.rowLen ≠ 0)
include hw hrow

theorem execCopyLineLanding_asks {u : State} {id : Nat} (hp : s.copyPiece site j before = .asks u id) :
    exec (.copyLineLanding site ticket) s = .next (u.setJob site { j with out := id }) := by
  have hx : exec (.copyLineLanding site ticket) s = execCopyLineLanding site ticket s := rfl
  rw [hx]
  simp only [execCopyLineLanding, hj, jobGoesOn hw hrow, hp, Bool.false_eq_true, if_false]

theorem execCopyLineLanding_waits (hp : s.copyPiece site j before = .waits) :
    exec (.copyLineLanding site ticket) s = .next s := by
  have hx : exec (.copyLineLanding site ticket) s = execCopyLineLanding site ticket s := rfl
  rw [hx]
  simp only [execCopyLineLanding, hj, jobGoesOn hw hrow, hp, Bool.false_eq_true, if_false]

/-- A transaction at an aperture fails although the piece runs into no error. -/
theorem execCopyJobError_port (hp : ∀ u b, s.copyPiece site j before ≠ .fails u b) (hport : ptrSpace j.src = 3 ∨ ptrSpace j.dst = 3) :
    exec (.copyJobError site ticket 8) s = .next (s.setJob site (j.fail 8)) := by
  have hx : exec (.copyJobError site ticket 8) s = execCopyJobError site ticket 8 s := rfl
  have hgo : ((8 : BitVec 5) == 8 && j.throughPort) = true := by
    unfold CopyJob.throughPort
    rcases hport with h | h <;> simp [h]
  rw [hx]
  cases hc : s.copyPiece site j before with
  | fails u b => exact absurd hc (hp u b)
  | _ => simp only [execCopyJobError, hj, jobGoesOn hw hrow, hc, hgo, Bool.false_eq_true, if_false, if_true]

end

section
variable (hw : j.written = true) (hout : j.out = 0) (hf : j.follow = .none ∨ j.follow = .finished) {off : Nat} (hbar : j.bar = some off)
include hw hout hf hbar

/-- A job's barrier arrival waits for what its slot issued before it. -/
theorem execCopyJobCompletion_unreleased (hrel : s.jobReleased site j = false) :
    exec (.copyJobCompletion site ticket) s = .next s := by
  have hx : exec (.copyJobCompletion site ticket) s = execCopyJobCompletion site ticket s := rfl
  rw [hx]
  simp only [execCopyJobCompletion, hj, jobDone hw hout hf, hbar, hrel, Bool.not_false, if_true]

variable (hrel : s.jobReleased site j = true)
include hrel

theorem execCopyJobCompletion_ecc {w : Nat}
    (hp : ({ s.tile site with fe := markFull (s.tile site).fe j.marked } : Tile).perform .barArrive off = .ecc w) :
    exec (.copyJobCompletion site ticket) s = .next (s.finishJob site (j.fail 4)) := by
  have hx : exec (.copyJobCompletion site ticket) s = execCopyJobCompletion site ticket s := rfl
  rw [hx]
  simp only [execCopyJobCompletion, hj, jobDone hw hout hf, hbar, hrel, hp, Bool.not_true, Bool.false_eq_true, if_false, if_true]

theorem execCopyJobCompletion_waits
    (hp : ({ s.tile site with fe := markFull (s.tile site).fe j.marked } : Tile).perform .barArrive off = .waits) :
    exec (.copyJobCompletion site ticket) s = .next s := by
  have hx : exec (.copyJobCompletion site ticket) s = execCopyJobCompletion site ticket s := rfl
  rw [hx]
  simp only [execCopyJobCompletion, hj, jobDone hw hout hf, hbar, hrel, hp, Bool.not_true, Bool.false_eq_true, if_false, if_true]

end
end

/-! ### The answer of another vtile's tile -/

/-- A pointer into another vtile's scratchpad. -/
theorem isFar_of {vt : Nat} {p : Word} (hs : ptrSpace p = 1) (hvt : ptrAddr p / 2 ^ 32 % 2 ^ 24 ≠ vt) : isFar vt p = true := by
  have hne : (bitsOf (ptrAddr p) 55 32 == vt) = false := beq_eq_false_iff_ne.mpr hvt
  simp [isFar, regionAt, hs, hne]

/-- The answer to a job's request brings its piece. -/
theorem engineReply_brings {s : State} {site id v sd : Nat} {j : CopyJob}
    (hj : (s.tile site).jobs.find? (fun x => x.out == id) = some j) (hok : j.failed = false)
    (hfar : isFar (s.tile site).name.2 j.src = true) (hgot : j.got = none) (hdig : j.digest = false) :
    s.engineReply site id v sd = s.setJob site { j with got := some (v, sd), out := 0 } := by
  have hasks : j.asksData (s.tile site).name.2 = true := by
    unfold CopyJob.asksData
    rw [if_neg (ne_true_of_eq_false hdig), hfar, hgot]
    rfl
  simp only [State.engineReply, hj, State.jobAnswered, hok, Bool.false_eq_true, if_false, hasks, if_true, State.takePiece, hdig]

/-! ### Streams -/

section
variable {s : State} {site : Nat} {k : Fin 4} {b : StreamBinding}

/-- A failed fetch is noted in its binding and in XERR. -/
theorem State.failStream_noted (u : State) (bits : BitVec 5) (hout : b.out = 0) :
    ((u.failStream site k b bits).tile site).streams[k] = some { b with failed := true }
      ∧ ((u.failStream site k b bits).tile site).xerr = (u.tile site).xerr ||| bits := by
  have hb : { b with failed := true, out := 0 } = { b with failed := true } := by rw [← hout]
  unfold State.failStream
  rw [State.tile_setTile_same, hb]
  refine ⟨State.setStream_stream .., ?_⟩
  rw [State.setStream, State.tile_setTile_same]

variable (hb : (s.tile site).streams[k] = some b) (hok : b.failed = false) (hout : b.out = 0) (hasked : b.index < b.asked)

/-- A binding whose fetch is under way. -/
theorem streamGoesOn (hok : b.failed = false) (hout : b.out = 0) (hasked : b.index < b.asked) :
    (b.failed || b.out != 0 || Nat.ble b.asked b.index) = false := by
  rw [hok, hout, ble_eq_decide, decide_eq_false (Nat.not_le.mpr hasked)]
  rfl

include hb hok hout hasked

theorem execStreamElementArrival_asks {u : State} {id : Nat} (hd : s.streamData site b = .asks u id) :
    exec (.streamElementArrival site k) s = .next (u.setStream site k { b with out := id }) := by
  have hx : exec (.streamElementArrival site k) s = execStreamElementArrival site k s := rfl
  rw [hx]
  simp only [execStreamElementArrival, hb, streamGoesOn hok hout hasked, hd, Bool.false_eq_true, if_false]

theorem execStreamElementArrival_waits (hd : s.streamData site b = .waits) :
    exec (.streamElementArrival site k) s = .next s := by
  have hx : exec (.streamElementArrival site k) s = execStreamElementArrival site k s := rfl
  rw [hx]
  simp only [execStreamElementArrival, hb, streamGoesOn hok hout hasked, hd, Bool.false_eq_true, if_false]

theorem execStreamElementArrival_fails {u : State} {bits : BitVec 5} (hd : s.streamData site b = .fails u bits) :
    exec (.streamElementArrival site k) s = .next (u.failStream site k b bits) := by
  have hx : exec (.streamElementArrival site k) s = execStreamElementArrival site k s := rfl
  rw [hx]
  simp only [execStreamElementArrival, hb, streamGoesOn hok hout hasked, hd, Bool.false_eq_true, if_false]

theorem execStreamElementArrival_ecc {u : State} {v : Nat} (hd : s.streamData site b = .ok u v)
    (he : streamEcc s site b b.index = true) :
    exec (.streamElementArrival site k) s = .next (u.failStream site k b 4) := by
  have hx : exec (.streamElementArrival site k) s = execStreamElementArrival site k s := rfl
  rw [hx]
  simp only [execStreamElementArrival, hb, streamGoesOn hok hout hasked, hd, he, Bool.false_eq_true, if_false, if_true]

end

/-- Settles O39: the steps of jobs, the answer of a request, and the steps of streams. -/
theorem copyEngineSteps : Obligations.CopyEngineSteps := by
  refine ⟨?jobs, ?answer, ?streams⟩
  case jobs =>
    intro site ticket s j before hj
    refine ⟨fun hw hrow => ⟨fun u hp => execCopyLineLanding_lands hj hw hrow hp, fun u id hp => execCopyLineLanding_asks hj hw hrow hp,
        fun hp => execCopyLineLanding_waits hj hw hrow hp, fun hp hport => execCopyJobError_port hj hw hrow hp hport,
        fun bits u b hp => execCopyJobError_fails hj hw hrow hp⟩,
      fun hw hok hf => execFollowOnCommand_readies hj hw hok hf,
      fun hw hout hf => ⟨fun hbar => execCopyJobCompletion_plain hj hw hout hf hbar, fun off hbar =>
        ⟨fun hrel => execCopyJobCompletion_unreleased hj hw hout hf hbar hrel, fun hrel =>
          ⟨fun t r hp => execCopyJobCompletion_arrives hj hw hout hf hbar hrel hp,
            fun w hp => execCopyJobCompletion_ecc hj hw hout hf hbar hrel hp,
            fun hp => execCopyJobCompletion_waits hj hw hout hf hbar hrel hp⟩⟩⟩⟩
  case answer =>
    intro site id v sd s j hj hok hs hvt hgot hdig
    exact engineReply_brings hj hok (isFar_of hs hvt) hgot hdig
  case streams =>
    intro site k s b hb
    refine ⟨fun hhalt hok hcount hahead => execStreamFetch_asks hb hok hhalt hcount hahead, fun hok hout hasked => ?_⟩
    refine ⟨fun u v hd => ⟨fun he => execStreamElementArrival_lands hb hok hout hasked hd he, fun he => ?_⟩,
      fun u id hd => execStreamElementArrival_asks hb hok hout hasked hd,
      fun hd => execStreamElementArrival_waits hb hok hout hasked hd, fun u bits hd => ?_⟩
    · exact ⟨_, execStreamElementArrival_ecc hb hok hout hasked hd he, State.failStream_noted u 4 hout⟩
    · exact ⟨_, execStreamElementArrival_fails hb hok hout hasked hd, State.failStream_noted u bits hout⟩

end Sys2Proof.Machine
end

section
/-! SUPPORT. Settles O37: the other steps of the network. -/

namespace Sys2Proof.Machine

/-! ### Held writes and requests -/

theorem execHeldWriteDelivery_delivers {s : State} {site k : Nat} {h : HeldWrite} (hk : (s.tile site).hold[k]? = some h)
    (hth : (s.tile site).slots[h.slot].thread = true) (hrec : (s.tile site).slots[h.slot].recorded = false)
    (hocc : (s.tile site).occupied (s.launch (s.tile site).name.1) h.slot h.reg = false)
    (hfirst : ((s.tile site).hold.take k).any (fun x => x.slot == h.slot && x.reg == h.reg) = false) :
    exec (.heldWriteDelivery site k) s
      = .next (s.setTile site ({ s.tile site with hold := (s.tile site).hold.eraseIdx k }.putReg
          (s.launch (s.tile site).name.1) h.slot h.reg h.val h.vec h.side h.release)).tick := by
  have hx : exec (.heldWriteDelivery site k) s = execHeldWriteDelivery site k s := rfl
  rw [hx]
  simp only [execHeldWriteDelivery, hk, hth, hrec, hocc, hfirst, Bool.not_true, Bool.or_self, Bool.false_eq_true, if_false]

theorem execHeldRequestRelease_performs {s u : State} {site k : Nat} {p : Packet} {op : MemOp} {ptr : Word} {wants : Bool}
    (hk : (s.tile site).heldReqs[k]? = some p) (hfirst : s.heldBehind site ((s.tile site).heldReqs.take k) p = false)
    (hbody : p.body = .request op ptr wants) (hperf : s.performAt site p op ptr wants = some u) :
    exec (.heldRequestRelease site k) s
      = .next (u.setTile site { u.tile site with heldReqs := (s.tile site).heldReqs.eraseIdx k }) := by
  have hx : exec (.heldRequestRelease site k) s = execHeldRequestRelease site k s := rfl
  rw [hx]
  simp only [execHeldRequestRelease, hk, hfirst, hbody, hperf, Bool.false_eq_true, if_false]

/-! ### Requests and trace records at the rim -/

section
variable {s : State} {k : Nat} {p : Packet} (hk : s.fabric[k]? = some p) (hdst : p.dst = .rim) (hturn : s.hasTurn k p = true)
include hk hdst hturn

section
variable {op : MemOp} {ptr : Word} {wants : Bool} (hbody : p.body = .request op ptr wants)
  (hlive : (Table.get? s.launches p.src.idx).isSome = true)
include hbody hlive

/-- A request at the rim waits or answers as `performRim` says. -/
theorem execHbmRequestArrival_request :
    exec (.hbmRequestArrival k) s =
      match s.performRim p op ptr with
      | none => .next s
      | some (u, .error c) => .next ((u.eject k).answerRim p (.errorReply c ptr p.pc) false)
      | some (u, .ok r) =>
        .next (if wants then
            (u.eject k).answerRim p (.reply (BitVec.ofNat 4096 r.val) (BitVec.ofNat 128 r.side) r.flags)
              (op.isLoad && ptrSpace ptr == 0)
          else u.eject k) := by
  have hx : exec (.hbmRequestArrival k) s = execHbmRequestArrival k s := rfl
  have hsome : (Table.get? s.launches p.src.idx).isNone = false := by
    rw [← Option.not_isSome, hlive, Bool.not_true]
  rw [hx]
  simp only [execHbmRequestArrival, hk, hdst, hbody, hturn, hsome, Bool.not_true, Bool.false_eq_true, if_false] <;> rfl

theorem execHbmRequestArrival_replies {u : State} {r : HomeResult} (hr : s.performRim p op ptr = some (u, .ok r))
    (hw : wants = true) :
    exec (.hbmRequestArrival k) s
      = .next ((u.eject k).answerRim p (.reply (BitVec.ofNat 4096 r.val) (BitVec.ofNat 128 r.side) r.flags)
          (op.isLoad && ptrSpace ptr == 0)) := by
  rw [execHbmRequestArrival_request hk hdst hturn hbody hlive, hr]
  simp only [hw, if_true]

theorem execHbmRequestArrival_silent {u : State} {r : HomeResult} (hr : s.performRim p op ptr = some (u, .ok r))
    (hw : wants = false) : exec (.hbmRequestArrival k) s = .next (u.eject k) := by
  rw [execHbmRequestArrival_request hk hdst hturn hbody hlive, hr]
  simp only [hw, Bool.false_eq_true, if_false]

theorem execHbmRequestArrival_fails {u : State} {c : Cause} (hr : s.performRim p op ptr = some (u, .error c)) :
    exec (.hbmRequestArrival k) s = .next ((u.eject k).answerRim p (.errorReply c ptr p.pc) false) := by
  rw [execHbmRequestArrival_request hk hdst hturn hbody hlive, hr]

end

theorem execHbmRequestArrival_trace {v : Nat} (hbody : p.body = .trace v) :
    exec (.hbmRequestArrival k) s = .next ((s.eject k).landTrace p.site v) := by
  have hx : exec (.hbmRequestArrival k) s = execHbmRequestArrival k s := rfl
  rw [hx]
  simp only [execHbmRequestArrival, hk, hdst, hbody, hturn, if_true]

end

/-! ### Name translation and injection -/

/-- The fields that the directory's and the placement table's words hold, as quotients and remainders. -/
theorem lookup_eq (s : State) (idx vt : Nat) :
    s.lookup idx vt =
      let d := s.directory + 32 * idx
      let e := s.hbm64 (s.hbm64 (d + 8) % 2 ^ 48 + 8 * vt)
      if s.hbm64 d / 2 ^ 63 % 2 = 0 then .gone
      else if e / 2 ^ 18 % 4 = 1 then .site (e % 2 ^ 18)
      else if e / 2 ^ 18 % 4 = 0 then .ring idx (vt / 2 ^ (s.hbm64 d / 2 ^ 24 % 16))
      else .gone := by
  simp only [State.lookup, bitsOf, beq_iff_eq, Nat.reduceAdd, Nat.reduceSub, Nat.pow_zero, Nat.div_one, Nat.pow_one]
  split
  · rfl
  · rw [show (2 : Nat) ^ 2 = 4 from rfl, show (2 : Nat) ^ 4 = 16 from rfl]
    split
    · next h1 => rw [if_pos h1]
    · next h0 => rw [if_neg (by omega), if_pos h0]
    · next h1 h0 => rw [if_neg h1, if_neg h0]

@[simp] theorem Tile.fill_outq (t : Tile) (idx vt : Nat) (h : Hop) : (t.fill idx vt h).outq = t.outq := by
  cases h <;> rfl

theorem execNameCacheWalk_fills {site idx vt : Nat} {s : State} {p : Packet}
    (hp : ((s.tile site).outq ++ s.fabric).find? (fun p => p.waitsFor site idx vt) = some p)
    (hwalk : s.mayWalk site idx vt = true) :
    let fix (p : Packet) : Packet := if p.waitsFor site idx vt = true then p.resolve (s.lookup idx vt) else p
    exec (.nameCacheWalk site idx vt) s
      = .next (({ s with fabric := s.fabric.map fix }.setTile site
          { (s.tile site).fill idx vt (s.lookup idx vt) with outq := (s.tile site).outq.map fix }).capture site 5 p.src.idx
            (s.cycle - p.cyc)) := by
  have hx : exec (.nameCacheWalk site idx vt) s = execNameCacheWalk site idx vt s := rfl
  intro fix
  rw [hx]
  simp only [execNameCacheWalk, hp, hwalk, Bool.not_true, Bool.false_eq_true, if_false, Tile.fill_outq]
  rfl

theorem execSendInjection_injects {site : Nat} {s : State} {p : Packet} {k : Nat}
    (hp : (s.tile site).outq.zipIdx.find? (fun x => s.mayInject (s.tile site) x.2 x.1) = some (p, k)) :
    exec (.sendInjection site) s
      = .next ((s.setTile site { s.tile site with outq := (s.tile site).outq.eraseIdx k }.settleCounters).inject p) := by
  have hx : exec (.sendInjection site) s = execSendInjection site s := rfl
  rw [hx]
  simp only [execSendInjection, hp]

/-! ### Parking rings -/

section
variable {s : State} {k : Nat} {p : Packet} {idx gang : Nat} (hk : s.fabric[k]? = some p) (hhop : p.hop = .ring idx gang)
  (hturn : s.hasTurn k p = true) (hlive : s.isLive idx = true) (hsrc : s.isLive p.src.idx = true)
include hk hhop hturn hlive hsrc

theorem execParkEntryWrite_retired (hret : s.toRetired p = true) :
    exec (.parkEntryWrite k) s = .next { s with fabric := s.fabric.set k { p with hop := .gone } } := by
  have hx : exec (.parkEntryWrite k) s = execParkEntryWrite k s := rfl
  rw [hx]
  simp only [execParkEntryWrite, hk, hhop, hturn, hlive, hsrc, hret, Bool.not_true, Bool.or_self, Bool.false_eq_true, if_false,
    if_true]

theorem execParkEntryWrite_parks {u : State} (hret : s.toRetired p = false) (hpark : s.park idx gang p none = some u) :
    exec (.parkEntryWrite k) s = .next (u.eject k) := by
  have hx : exec (.parkEntryWrite k) s = execParkEntryWrite k s := rfl
  rw [hx]
  simp only [execParkEntryWrite, hk, hhop, hturn, hlive, hsrc, hret, hpark, Bool.not_true, Bool.or_self, Bool.false_eq_true,
    if_false]

end

section
variable {site : Nat} {s : State} {idx vt : Nat} (hocc : (s.tile site).occ = some (idx, vt)) (hni : (s.tile site).ni = .delivering)
include hocc hni

theorem execParkedDelivery_ends (hr : (s.ring idx ((s.launch idx).gangOf vt)).entries = []) :
    exec (.parkedDelivery site) s
      = .next (((s.setTile site { s.tile site with ni := if (s.tile site).sealing = true then .sealed else .direct }).storeRing
          idx ((s.launch idx).gangOf vt)
          { s.ring idx ((s.launch idx).gangOf vt) with drainpark := false }).sendPdone site true) := by
  have hx : exec (.parkedDelivery site) s = execParkedDelivery site s := rfl
  rw [hx]
  simp only [execParkedDelivery, hocc, hni, hr, List.isEmpty_nil, if_true]

/-- A ring with entries gives the first deliverable one that the tile accepts. -/
theorem execParkedDelivery_nonempty (hr : (s.ring idx ((s.launch idx).gangOf vt)).entries ≠ []) :
    exec (.parkedDelivery site) s =
      match (s.deliverable site (s.ring idx ((s.launch idx).gangOf vt))).findSome?
          fun e => (s.accept site e.1 true).map fun u => (u, e.2) with
      | some (u, i) =>
        .next (u.storeRing idx ((s.launch idx).gangOf vt) ((s.ring idx ((s.launch idx).gangOf vt)).remove i))
      | none => .next (s.sendPdone site false) := by
  have hx : exec (.parkedDelivery site) s = execParkedDelivery site s := rfl
  have he : (s.ring idx ((s.launch idx).gangOf vt)).entries.isEmpty = false := List.isEmpty_eq_false_iff.mpr hr
  rw [hx]
  simp only [execParkedDelivery, hocc, hni, he, Bool.false_eq_true, if_false] <;> rfl

theorem execParkedDelivery_delivers (hr : (s.ring idx ((s.launch idx).gangOf vt)).entries ≠ [])
    {before after : List (Packet × Nat)} {e : Packet} {i : Nat} {u : State}
    (hsplit : s.deliverable site (s.ring idx ((s.launch idx).gangOf vt)) = before ++ (e, i) :: after)
    (hbefore : ∀ x ∈ before, s.accept site x.1 true = none) (hacc : s.accept site e true = some u) :
    exec (.parkedDelivery site) s
      = .next (u.storeRing idx ((s.launch idx).gangOf vt) ((s.ring idx ((s.launch idx).gangOf vt)).remove i)) := by
  have hnone : before.findSome? (fun e => (s.accept site e.1 true).map fun u => (u, e.2)) = none :=
    List.findSome?_eq_none_iff.mpr fun x hx => by rw [hbefore x hx, Option.map_none]
  have hfirst : (before ++ (e, i) :: after).findSome? (fun e => (s.accept site e.1 true).map fun u => (u, e.2)) = some (u, i) := by
    rw [List.findSome?_append, hnone, Option.none_or, List.findSome?_cons, hacc, Option.map_some]
  rw [execParkedDelivery_nonempty hocc hni hr, hsplit, hfirst]

theorem execParkedDelivery_stops (hr : (s.ring idx ((s.launch idx).gangOf vt)).entries ≠ [])
    (hnone : ∀ x ∈ s.deliverable site (s.ring idx ((s.launch idx).gangOf vt)), s.accept site x.1 true = none) :
    exec (.parkedDelivery site) s = .next (s.sendPdone site false) := by
  rw [execParkedDelivery_nonempty hocc hni hr,
    List.findSome?_eq_none_iff.mpr fun x hx => by rw [hnone x hx, Option.map_none]]

end

/-! ### Acknowledgements -/

theorem execColourAcknowledgement_counts {k : Nat} {s : State} {site colour idx : Nat} (hk : s.acks[k]? = some (site, colour, idx)) :
    exec (.colourAcknowledgement k) s
      = .next ({ s with acks := s.acks.eraseIdx k }.setTile site { s.tile site with
          colourCtr := (s.tile site).colourCtr.set (Fin.ofNat 16 colour : Fin 16)
            ((s.tile site).colourCtr[(Fin.ofNat 16 colour : Fin 16)] - 1) }).reportRetired := by
  have hx : exec (.colourAcknowledgement k) s = execColourAcknowledgement k s := rfl
  rw [hx]
  simp only [execColourAcknowledgement, hk]

/-- Settles O37: each step of the network by the lemma that says what it does under its condition. -/
theorem networkSteps : Obligations.NetworkSteps := by
  unfold Obligations.NetworkSteps
  refine ⟨fun site k s h hk hth hrec hocc hfirst => execHeldWriteDelivery_delivers hk hth hrec hocc hfirst,
    fun site k s p op ptr wants u hk hfirst hbody hperf => execHeldRequestRelease_performs hk hfirst hbody hperf,
    fun k s p op ptr wants hk hdst hbody hturn hlive =>
      ⟨fun u r hr => ⟨execHbmRequestArrival_replies hk hdst hturn hbody hlive hr,
          execHbmRequestArrival_silent hk hdst hturn hbody hlive hr⟩,
        fun u c hr => execHbmRequestArrival_fails hk hdst hturn hbody hlive hr⟩,
    fun k s p v hk hdst hbody hturn => execHbmRequestArrival_trace hk hdst hturn hbody,
    ?walk,
    fun site s p k hp => execSendInjection_injects hp,
    fun k s p idx gang u hk hhop hturn hlive hsrc =>
      ⟨execParkEntryWrite_retired hk hhop hturn hlive hsrc, execParkEntryWrite_parks hk hhop hturn hlive hsrc⟩,
    ?parked,
    fun k s site colour idx hk => execColourAcknowledgement_counts hk⟩
  case walk =>
    intro site idx vt s p hp hwalk h fix
    have hlook : s.lookup idx vt = h := lookup_eq s idx vt
    rw [execNameCacheWalk_fills hp hwalk, hlook]
    rfl
  case parked =>
    intro site s idx vt hocc hni gang r
    exact ⟨execParkedDelivery_ends hocc hni, fun hr =>
      ⟨fun before after e i u hsplit hbefore hacc => execParkedDelivery_delivers hocc hni hr hsplit hbefore hacc,
        execParkedDelivery_stops hocc hni hr⟩⟩

end Sys2Proof.Machine
end
